-- ==== Sys2Proof/Word.lean ====
section
/-! DEFINITION. The word types of the K16 and their plainest arithmetic (R10 to R12). -/

namespace Sys2Proof

/-- One byte of a packet, a register or a memory. -/
abbrev Byte := BitVec 8

/-- A 32-bit word: BAR0 registers (R11) and D registers (R321). -/
abbrev Word := BitVec 32

/-- A vector engine instruction word (R352). -/
abbrev VeBits := BitVec 64

/-- The signed value of an `n`-bit two's complement number held in a natural number (R12). -/
def signedOf (n : Nat) (v : Nat) : Int :=
  if v % 2 ^ n < 2 ^ (n - 1) then (v % 2 ^ n : Nat) else (v % 2 ^ n : Nat) - (2 ^ n : Nat)

/-- The two's complement pattern of an integer in `n` bits (R12). -/
def patternOf (n : Nat) (i : Int) : Nat := (i % (2 ^ n : Nat)).toNat

end Sys2Proof
end

