-- ==== Sys2Proof/Syntax.lean ====
section
/-! DEFINITION. The commands of the K16: the packets, words, frames and events they carry, and `Instr`, with one
constructor per row of the table of operations and events. -/

namespace Sys2Proof

/-! ## Fylos packets (R399 to R402) -/

/-- Where a command comes from (R405): a ring pair, UDP with the sender's address and port and the port it arrived on, or
another device of the stack that forwards it (R411) and whether it took it from a ring. -/
inductive Source
  | ring (n : Nat)
  | udp (addr : List Byte) (port : Nat) (ingress : Nat)
  | stack (device : Nat) (pcie : Bool)
  deriving DecidableEq, Repr

/-- One parameter (R402). -/
structure Tlv where
  typ : Nat
  val : List Byte
  deriving DecidableEq, Repr

/-- What a reply and a completion carry back of their command (R406, R407). -/
structure CmdRef where
  source : Source
  version : Nat
  opcode : Nat
  sequence : Nat
  target : Nat
  tagged : Bool
  deriving DecidableEq, Repr

/-- A command packet as it arrives (Table 15.1), without its opcode: the row of the table is the opcode.
`paramLen` is the header's field, `params` the parameter bytes that follow, `tag` the tag bytes that follow those. -/
structure Packet where
  source : Source
  magic : BitVec 16
  version : Byte
  flags : Byte
  status : BitVec 16
  sequence : BitVec 32
  target : BitVec 32
  paramLen : BitVec 32
  part : BitVec 16
  parts : BitVec 16
  sourceDevice : Byte
  rsvd : List Byte
  params : List Byte
  tag : List Byte
  deriving DecidableEq, Repr

/-! ## Voice engine words (R352 to R366) -/

/-- The address mode of a general move (R356). -/
inductive AMode
  | plain | postN | postInc | indexed
  deriving DecidableEq, Repr

/-- The class of an address register (Tables 13.3 and 13.4). -/
inductive AClass
  | p | q | n | m
  deriving DecidableEq, Repr

/-- One move field (Table 13.3). The even register of `LD.L` and `ST.L` is given by its half. -/
inductive Move
  | nop
  | ldQ (r ptr : Fin 8) (mode : AMode)
  | stQ (r ptr : Fin 8) (mode : AMode)
  | ldW (r : Fin 16) (ptr : Fin 8) (mode : AMode)
  | ldH (r : Fin 16) (ptr : Fin 8) (mode : AMode)
  | stW (r : Fin 16) (ptr : Fin 8) (mode : AMode)
  | stH (r : Fin 16) (ptr : Fin 8) (mode : AMode)
  | ldA (cls : AClass) (idx ptr : Fin 8) (mode : AMode)
  | stAC (k shift ptr : Fin 8) (form : Bool)
  | ldL (half ptr : Fin 8) (mode : AMode)
  | stL (half ptr : Fin 8) (mode : AMode)
  deriving DecidableEq, Repr

/-- The slot of a PARALLEL word (Table 13.4). -/
inductive Slot
  | nop
  | aadd (qside : Bool) (k : Fin 8) (i : BitVec 6)
  | amov (dst : AClass) (di : Fin 8) (src : AClass) (si : Fin 8)
  | xferIn (cls : AClass) (idx : Fin 8) (d : Fin 16)
  | xferOut (cls : AClass) (idx : Fin 8) (d : Fin 16)
  | rep (n1 : BitVec 10)
  | replc
  | lci (i : BitVec 10)
  deriving DecidableEq, Repr

/-- The compute field (Table 13.5). An even vector or accumulator pair is given by its half. -/
inductive Comp
  | nop
  | cmac4 (k a b : Fin 8) (cja neg clr : Bool)
  | cmac4v (hi : Bool) (a b : Fin 8) (cja neg clr : Bool)
  | rmac8 (k a b : Fin 8) (neg clr : Bool)
  | cmul4 (d a b : Fin 8) (cja : Bool) (s : Fin 8)
  | vcmac4 (d c a b : Fin 8) (cja : Bool) (s : Fin 8)
  | vmul8 (d a b s : Fin 8)
  | bfly (dhalf : Fin 4) (a b s : Fin 8)
  | vadd (d a b s : Fin 8) (satm : Bool)
  | vsub (d a b s : Fin 8) (satm : Bool)
  | vshr (d a s : Fin 8)
  | vshl (d a s : Fin 8)
  | czip (dhalf : Fin 4) (a b : Fin 8)
  | cunzip (dhalf : Fin 4) (a b : Fin 8)
  | vmov (d a : Fin 8)
  | vbcast (d : Fin 8) (a : Fin 16)
  | vmaxa (d : Fin 16) (a : Fin 8) (pair : Bool)
  | pack (d : Fin 8) (hi : Bool) (s : Fin 8)
  | acshr (k s : Fin 8)
  | acadd (d s : Fin 8)
  | actod (d : Fin 16) (k s : Fin 8)
  | dtoac (k : Fin 8) (a : Fin 16)
  | add (d a b : Fin 16)
  | sub (d a b : Fin 16)
  | adds (d a b : Fin 16)
  | subs (d a b : Fin 16)
  | and (d a b : Fin 16)
  | or (d a b : Fin 16)
  | xor (d a b : Fin 16)
  | cmp (a b : Fin 16)
  | mov (d a : Fin 16)
  | neg (d a : Fin 16)
  | abs (d a : Fin 16)
  | min (d a b : Fin 16)
  | max (d a b : Fin 16)
  | shl (d a : Fin 16) (n : Fin 32)
  | asr (d a : Fin 16) (n : Fin 32)
  | lsr (d a : Fin 16) (n : Fin 32)
  | mul (d a b : Fin 16)
  | mpy15 (d a b : Fin 16)
  | mpy31 (d a b : Fin 16)
  | mac31 (k : Fin 8) (a b : Fin 16)
  | norm (d a : Fin 16)
  | mfs (d : Fin 16) (lc : Bool)
  deriving DecidableEq, Repr

/-- A branch condition (Table 13.10). -/
inductive Cond
  | always | eq | ne | lt | ge | gt | le | cs | cc | vs | vc | mi | pl | gos | sats
  deriving DecidableEq, Repr

/-- A control operation (Table 13.9). -/
inductive Ctl
  | br (c : Cond) (target : BitVec 13)
  | brlc (target : BitVec 13)
  | call (c : Cond) (target : BitVec 13)
  | jmpr (c : Cond) (k : Fin 16)
  | callu (e : Fin 16)
  | retu
  | done (commit : Bool)
  | trap (code : BitVec 8)
  deriving DecidableEq, Repr

/-- A scalar operation with a 16-bit immediate (Table 13.8). -/
inductive SImm
  | addi (d a : Fin 16) (i : BitVec 16)
  | andi (d a : Fin 16) (i : BitVec 16)
  | ori (d a : Fin 16) (i : BitVec 16)
  | xori (d a : Fin 16) (i : BitVec 16)
  | cmpi (a : Fin 16) (i : BitVec 16)
  | movi (d : Fin 16) (i : BitVec 16)
  | movhi (d a : Fin 16) (i : BitVec 16)
  deriving DecidableEq, Repr

/-- The destination of an IMMEDIATE word (Table 13.7). -/
inductive ImmDest
  | v (k : Fin 8) (imm : BitVec 32)
  | lc (imm : BitVec 16)
  | sr (imm : BitVec 32)
  | d (k : Fin 16) (imm : BitVec 32)
  | p (k : Fin 8) (imm : BitVec 24)
  | q (k : Fin 8) (imm : BitVec 24)
  | n (k : Fin 8) (imm : BitVec 24)
  | m (k : Fin 8) (imm : BitVec 17)
  deriving DecidableEq, Repr

/-- One instruction word (R352). -/
inductive VeWord
  | parallel (c : Comp) (x y : Move) (s : Slot)
  | immediate (c : Comp) (dest : ImmDest)
  | control (c : Ctl) (x y : Move)
  | scalarImm (o : SImm) (x y : Move)
  deriving DecidableEq, Repr

/-- What the SECDED check of one read finds (R320). -/
inductive Ecc
  | clean | corrected | uncorrectable
  deriving DecidableEq, Repr

/-- One issue of a word on a cell: the cell, and what the checks of the fetch and of the two data reads find. -/
structure Issue where
  cell : Nat
  fetch : Ecc
  x : Ecc
  y : Ecc
  deriving DecidableEq, Repr

/-- The rest of a word that carries a compute operation: a PARALLEL or an IMMEDIATE word (R352). -/
inductive CompRest
  | parallel (x y : Move) (s : Slot)
  | immediate (dest : ImmDest)
  deriving DecidableEq, Repr

/-- The rest of a word that carries a move: its side and the other fields (R352). -/
inductive MoveRest
  | parallelX (c : Comp) (y : Move) (s : Slot)
  | parallelY (c : Comp) (x : Move) (s : Slot)
  | controlX (c : Ctl) (y : Move)
  | controlY (c : Ctl) (x : Move)
  | scalarX (o : SImm) (y : Move)
  | scalarY (o : SImm) (x : Move)
  deriving DecidableEq, Repr

/-- The rest of a PARALLEL word that carries a slot operation (R352). -/
structure SlotRest where
  comp : Comp
  x : Move
  y : Move
  deriving DecidableEq, Repr

/-- The moves of a CONTROL or SCALAR_IMM word (R352). -/
structure TwoMoves where
  x : Move
  y : Move
  deriving DecidableEq, Repr

/-! ## Frames -/

/-- A time-stamp as R455 carries it: seconds, nanoseconds, fraction [31:16] and epoch. -/
structure Stamp where
  seconds : Nat
  ns : Nat
  frac : Nat
  epoch : Nat
  deriving DecidableEq, Repr

/-- How a received frame was sent (R88): whole, or as a fragment with its count, mCRC check and whether it is the last. -/
inductive Framing
  | express
  | first (mcrcGood : Bool)
  | continuation (count : Nat) (mcrcGood last : Bool)
  deriving DecidableEq, Repr

/-- A frame or fragment whose last byte has arrived (R26): its port, its bytes from the destination address up to but not
including the FCS or mCRC, what the FCS check finds, whether the frames under classification leave the ingress buffer room
(R28 item 3), the variable part of the receive correction in 2^-16 ns (R113), how it was sent, and what the checks of the ingress buffer and of the flow table find as they are read. -/
structure RxFrame where
  port : Nat
  bytes : List Byte
  fcsGood : Bool
  room : Bool
  vary : Nat
  framing : Framing
  ecc : Ecc
  lookup : Ecc
  deriving DecidableEq, Repr

/-- Where a frame waits before an egress partition takes it (R65): a region's egress queue, Damium, its datagrams, or Damium's
PTP engine, which brings the frame with its transmit descriptor (R118, R128). -/
inductive EgSource
  | region (r : Nat)
  | damium
  | fylos
  | ptpEngine (frame : List Byte) (tsReq oneStep : Bool) (frameId : Nat)
  deriving DecidableEq, Repr

/-- The conditions of R63, in its order. -/
inductive PcsCondition
  | blockLock | fecLock | localFault | remoteFault
  deriving DecidableEq, Repr

/-! ## The stack -/

/-- One up link of a stack member: its port, the device at the far end and its lanes. -/
structure MemberLink where
  port : Nat
  peer : Nat
  lanes : Nat
  deriving DecidableEq, Repr

/-- What a command set lacks (R548, R549): a Fylos version, an opcode, and where only a parameter type of it or one value of
that type is missing, those. -/
structure Lack where
  version : Nat
  opcode : Nat
  typ : Option Nat
  value : Option (List Byte)
  deriving DecidableEq, Repr

/-- What a member advertises (R548): its firmware version, and the higher one its blocks run besides, its FORMATS_READ, its
Fylos versions, what its command set lacks of this manual, and its links. -/
structure MemberInfo where
  fwVersion : Nat
  fwHigh : Nat
  formats : Nat
  fylosMin : Nat
  fylosMax : Nat
  lacks : List Lack
  links : List MemberLink
  deriving DecidableEq, Repr

/-- The settings of a flow entry (Tables 5.1 and 5.2); ACTION is its place in Table 5.3. -/
structure FlowSettings where
  key : List Byte
  id : Nat
  device : Nat
  channel : Nat
  leg : Nat
  action : Nat
  srtp : Option Nat
  latch : Bool
  deriving DecidableEq, Repr

/-- A change of the flow table (R540): `rehome` is the sequencer's own, which names an entry's DEVICE anew at the end of a move
(R545). -/
inductive FlowChange
  | insert (f : FlowSettings)
  | modify (f : FlowSettings)
  | remove (id : Nat)
  | rehome (id device : Nat)
  deriving DecidableEq, Repr

/-- One turn of a stack-wide flow change (R540): on the sequencer, a change, the oldest of its own where none is given, with
the votes of the other members by device; on a member, a change it is asked about, and the sequencer's decision; on the sequencer, a
member's word that it has applied a change, and on a member, that every member has. -/
inductive FlowTurn
  | sequence (change : Option FlowChange) (votes : List (Nat × Nat))
  | vote (change : FlowChange)
  | commit (change : FlowChange)
  | abandon (change : FlowChange) (status device : Nat)
  | applied (device : Nat) (change : FlowChange)
  | finished (change : FlowChange)
  deriving DecidableEq, Repr

/-- A packet from another member: a datagram with its flow result and the stamp of its arrival there (R146), a PTP event
message with its ingress stamp and powered time (R101, R539), or a built frame for a port of this device (R166). -/
inductive StackPacket
  | flow (f : FlowSettings) (port : Nat) (frame : List Byte) (stamp : Stamp)
  | ptp (frame : List Byte) (stamp : Stamp) (powered : Nat)
  | egress (region port : Nat) (frame : List Byte)
  deriving DecidableEq, Repr

/-- What crosses Bilgaup for Fylos and for a move (R411, R544, R545). -/
inductive StackFylos
  | command (device : Nat) (opcode : BitVec 16) (p : Packet)
  | reply (device : Nat) (r : CmdRef) (status : Nat) (tlvs : List Tlv)
  | completion (device : Nat) (r : CmdRef) (status : Nat) (tlvs : List Tlv)
  | notice (device group : Nat) (v4 : Bool) (opcode target : Nat) (tlvs : List Tlv)
  | reserve (device channel block format compute dram units : Nat) (wide : Bool)
  | reserved (channel status : Nat)
  | moved (channel status : Nat)
  | peerMoved (channel leg device : Nat)
  deriving DecidableEq, Repr

/-! ## Events of the stores and engines -/

/-- What an uncorrectable DRAM error of a job met, if one did (R466): its source or a descriptor of its chain. -/
inductive JobError
  | none | source | descriptor
  deriving DecidableEq, Repr

/-! ## The test port and resets -/

/-- A memory or a bank of a cell, as DEBUG names it (R578). -/
inductive CellStore
  | bank0 | bank1 | x | y | i
  deriving DecidableEq, Repr

/-- What DEBUG is told to do (R578). -/
inductive DebugOp
  | halt
  | resume
  | readDamium (addr len : Nat)
  | writeDamium (addr : Nat) (data : List Byte)
  | readCell (cell : Nat) (store : CellStore) (addr len : Nat)
  | readBar0 (offset : BitVec 24)
  deriving DecidableEq, Repr

/-- What FUSE_PROG burns (R579). -/
inductive FuseField
  | keyHash (hash : List Byte)
  | subsystem (v : BitVec 32)
  | macBase (v : BitVec 48)
  | serial (v : BitVec 64)
  deriving DecidableEq, Repr

/-- How far a life-cycle transition comes (R507, R508): cut while TRANS_k is burned or WIPE_k is, with the bits then burned, cut
between the two, or not cut. -/
inductive TransitionEnd
  | cutTrans (bits : Fin 5)
  | cutWiping
  | cutWipe (bits : Fin 5)
  | whole
  deriving DecidableEq, Repr

/-- An access to the contact sheet registers of a port: `inner` where Damium makes it through its own view of them (R126). -/
structure SheetAccess where
  port : Nat
  inner : Bool
  deriving DecidableEq, Repr

/-- What a boot meets (R570 to R574): the DRAM channels that trained, the population, and whether each selector copy still reads valid;
for each slot the check of R573 that its image fails, as BOOT_STATUS numbers it, 0 for none. -/
structure BootFacts where
  trained : BitVec 4
  gib : Nat
  selector0 : Bool
  selector1 : Bool
  slotA : Nat
  slotB : Nat
  deriving DecidableEq, Repr

/-- A place of Table 20.1 that a scrub meets an error in. `packetArea` names the pending entries whose data holds the granule by thread slot
and place, `regionIngress` the held packet by block and place, `portEgress` the frame by its place in a class's queue, beyond which it is the
frame in flight; `both` tells of an error in both copies; `dramLink` is a read that the link ECC had retried. -/
inductive ErrorPlace
  | cell (n memory : Nat)
  | packetArea (block : Nat) (entries : List (Nat × Nat))
  | streamStore (block channel key : Nat)
  | commitBuffer (block : Nat)
  | dispatcher (block : Nat)
  | contextSlot (channel : Nat)
  | suspendRecord (block slot : Nat)
  | tableStore (id : Nat) (both : Bool)
  | srtpContext (ctx : Nat) (both : Bool)
  | flowCopy (id : Nat) (both : Bool)
  | promptStore (prompt piece : Nat)
  | jobData (region : Nat) (reducer : Bool)
  | window
  | flowTable (id : Nat)
  | portIngress (port : Nat)
  | regionIngress (region block held : Nat)
  | portEgress (port : Nat) (media : Bool) (place : Nat)
  | regionControl (region : Nat)
  | tdmBuffer (highway slot : Nat)
  | dramLink
  | damiumSram
  | fabric
  deriving DecidableEq, Repr

/-- The commands: one constructor per row of the table. -/
inductive Instr
  /-- DEV_HELLO (R421). Returns BOOT_NONCE, supported versions, stack device number and life-cycle state, untagged and rate-limited to 100 per second. -/
  | devHello (p : Packet)
  /-- DEV_UDP_KEY_SET (R420). Burns the 32-byte UDP key for the current life-cycle state, once per state and over PCIe only. -/
  | devUdpKeySet (p : Packet)
  /-- DEV_NOTICE_CONFIG (R426). Sets one of four notice destinations with its kind, address, group mask and version. -/
  | devNoticeConfig (p : Packet)
  /-- DEV_QUERY (R438). Returns stepping, MAC base, life cycle, firmware version, formats read, stack number, open channel count and Damium counters. -/
  | devQuery (p : Packet)
  /-- DEV_RESET (R439). Replies OK and starts a device reset 100 µs after the reply has left. -/
  | devReset (p : Packet)
  /-- DEV_LIFECYCLE (R506). Checks the target state and CONFIRM, replies, and schedules a forward life-cycle transition after the reply leaves. -/
  | devLifecycle (p : Packet)
  /-- DEV_ARB_SET (R438). Sets the chip-level DRAM arbitration weights of regions, links, PCIe and Damium. -/
  | devArbSet (p : Packet)
  /-- BLOCK_CONFIG (R395). Sets a block's spare policy, which takes effect at the next tick origin, with the admission check of R57. -/
  | blockConfig (p : Packet)
  /-- BLOCK_QUERY (R398). Returns a block's spare policy, cells, sums, slots, occupancy and dispatcher counters, optionally clearing them. -/
  | blockQuery (p : Packet)
  /-- BLOCK_RESET (R501). Resets an empty block, wiping its cells and block memory, then refills and returns it to service. -/
  | blockReset (p : Packet)
  /-- CELL_RESET (R324). Resets a halted or idle reserve cell, zeroing its banks and memories, and refills it as the block's reserve. -/
  | cellReset (p : Packet)
  /-- REGION_RESET (R501). Resets an empty region and its four blocks after its running Reducer jobs end. -/
  | regionReset (p : Packet)
  /-- REGION_ARB_SET (R438). Sets a region's DRAM arbitration weights for its blocks, packet engine, DMA and Reducer. -/
  | regionArbSet (p : Packet)
  /-- CH_OPEN (R49). Places a channel in a block with its rate, taking a thread slot and moving it from IDLE to OPEN. -/
  | chOpen (p : Packet)
  /-- CH_SET_LEG (R443). Binds or changes one leg of a channel as TDM, RTP, STACK or NONE. -/
  | chSetLeg (p : Packet)
  /-- CH_ACTIVATE (R46). Moves an OPEN channel with bound legs to ACTIVE after admission. -/
  | chActivate (p : Packet)
  /-- CH_HOLD (R42). Moves an ACTIVE channel to HOLD, discarding media and freezing the echo coefficients. -/
  | chHold (p : Packet)
  /-- CH_RESUME (R43). Returns a HOLD channel to ACTIVE with an empty jitter buffer and a restarted develop window. -/
  | chResume (p : Packet)
  /-- CH_DRAIN (R44). Moves a channel to DRAINING so that its buffer plays out before it passes to IDLE. -/
  | chDrain (p : Packet)
  /-- CH_CLOSE (R48). Moves a channel to IDLE, removing its flows and releasing its templates, slot and charge. -/
  | chClose (p : Packet)
  /-- CH_MOVE (R545). Moves a channel to another block or device; a move within the device completes at a tick boundary, a move to another device via a context frame. -/
  | chMove (p : Packet)
  /-- CH_RECOVER (R46). Re-creates a FAULTED channel's context from Damium's record and places it in a block in service, moving it to OPEN. -/
  | chRecover (p : Packet)
  /-- CH_QUERY (R444). Returns a channel's state, placement, charges, format, restarts and leg bindings. -/
  | chQuery (p : Packet)
  /-- CH_SCHED_SET (R397). Sets a channel's priority, phase and run budget, which take effect at the next tick origin. -/
  | chSchedSet (p : Packet)
  /-- FLOW_INSERT (R142). Checks and inserts a flow entry by cuckoo walk or into the overflow CAM, stack-wide where stacked. -/
  | flowInsert (p : Packet)
  /-- FLOW_REMOVE (R143). Removes a flow entry by flow ID and then tries to promote the oldest CAM entry. -/
  | flowRemove (p : Packet)
  /-- FLOW_MODIFY (R143). Replaces a flow entry's result settings, keeping its key and flow ID. -/
  | flowModify (p : Packet)
  /-- FLOW_QUERY (R168). Returns a flow entry's settings, key, way and counters. -/
  | flowQuery (p : Packet)
  /-- SRTP_SET (R153). Sets up or rekeys an SRTP context, keeping or resetting its rollover and replay state. -/
  | srtpSet (p : Packet)
  /-- SRTP_CLEAR (R154). Removes an SRTP context that no flow entry or egress record names. -/
  | srtpClear (p : Packet)
  /-- SRTP_QUERY (R153). Returns an SRTP context's settings, keys held, indices and counters, never key material. -/
  | srtpQuery (p : Packet)
  /-- TEMPLATE_LOAD (R163). Parses and stores or replaces an egress header template. -/
  | templateLoad (p : Packet)
  /-- TEMPLATE_REMOVE (R163). Removes a header template that no egress record names. -/
  | templateRemove (p : Packet)
  /-- PE_CONFIG (R167). Sets the miss action, host rate, hold limit and Fylos UDP port. -/
  | peConfig (p : Packet)
  /-- PE_COUNTERS (R168). Returns the packet engine counters per device, region and block, optionally clearing them. -/
  | peCounters (p : Packet)
  /-- ECHO_SET (R265). Sets the echo canceller settings of a channel, with an admission check on enabling. -/
  | echoSet (p : Packet)
  /-- ECHO_QUERY (R266). Returns the canceller's settings, state, alignment, estimates and counters. -/
  | echoQuery (p : Packet)
  /-- ECHO_COEF_READ (R266). Returns partition headers and coefficient mantissas for a range of partitions. -/
  | echoCoefRead (p : Packet)
  /-- PLAYOUT_SET (R196). Sets jitter buffer and develop window settings, optionally requesting a develop window restart. -/
  | playoutSet (p : Packet)
  /-- PLAYOUT_QUERY (R197). Returns playout settings, depths, drift, negatives and playout counters per RTP leg. -/
  | playoutQuery (p : Packet)
  /-- CODEC_SET (R198). Sets an RTP leg's payload map, TX payload type and codec options, with admission on an increase. -/
  | codecSet (p : Packet)
  /-- CODEC_QUERY (R216). Returns an RTP leg's payload map, settings and codec counters. -/
  | codecQuery (p : Packet)
  /-- RESAMPLE_SET (R243). Stores resampler stream settings, requesting a dissolve where the chain changes. -/
  | resampleSet (p : Packet)
  /-- RESAMPLE_RESET (R244). Applies a synchronising reset to one or all streams of a channel at its next run. -/
  | resampleReset (p : Packet)
  /-- RESAMPLE_QUERY (R244). Returns each stream's rates, ratio, drift, fill, delay, settle, units, dissolve state and counters. -/
  | resampleQuery (p : Packet)
  /-- TONE_DETECT_SET (R277). Names up to four detector tables per leg, the event tone base and the event extension. -/
  | toneDetectSet (p : Packet)
  /-- TONE_PLAY (R279). Starts or replaces a tone generator toward one leg at the next run. -/
  | tonePlay (p : Packet)
  /-- TONE_STOP (R279). Ends the tone generator of a leg at the next run. -/
  | toneStop (p : Packet)
  /-- GAIN_SET (R281). Sets a leg's RX and TX fixed gain, gain curve and AGC tables. -/
  | gainSet (p : Packet)
  /-- TABLE_LOAD (R285). Queues a table image for enlargement, checking and commit to the table store. -/
  | tableLoad (p : Packet)
  /-- TABLE_DELETE (R288). Deletes a host table that nothing uses. -/
  | tableDelete (p : Packet)
  /-- TABLE_QUERY (R288). Lists table IDs, kinds, revisions, names and use counts. -/
  | tableQuery (p : Packet)
  /-- TABLE_READ (R288). Returns a table image uncompressed, in parts. -/
  | tableRead (p : Packet)
  /-- PROMPT_LOAD (R291). Checks a prompt image and verifies every piece with the Enlarger before storing it. -/
  | promptLoad (p : Packet)
  /-- PROMPT_DELETE (R291). Deletes a stored prompt that is not playing. -/
  | promptDelete (p : Packet)
  /-- PROMPT_PLAY (R292). Starts or queues a play of up to eight prompts toward one leg. -/
  | promptPlay (p : Packet)
  /-- PROMPT_STOP (R292). Ends a leg's prompt play and its queue. -/
  | promptStop (p : Packet)
  /-- PROMPT_QUERY (R447). Returns prompt properties, plays in progress, store and cache occupancy and prompt counters. -/
  | promptQuery (p : Packet)
  /-- PROMPT_STORE_CONFIG (R289). Sets the prompt store and cache sizes while no prompt is stored. -/
  | promptStoreConfig (p : Packet)
  /-- TDM_GROUP_CONFIG (R312). Sets a TDM clock group's source, clocking, framing and alignment, reframing the group. -/
  | tdmGroupConfig (p : Packet)
  /-- TDM_HIGHWAY_CONFIG (R312). Sets a highway's mode, bit offset, unused-slot behaviour and idle code. -/
  | tdmHighwayConfig (p : Packet)
  /-- TDM_LOOPBACK (R311). Sets a local, remote or no loopback per highway or slot from the next frame boundary. -/
  | tdmLoopback (p : Packet)
  /-- TDM_QUERY (R313). Returns group or highway and slot settings, state, offset and counters. -/
  | tdmQuery (p : Packet)
  /-- TIME_CONFIG (R128). Sets the PTP owner, flushing contact sheets and setting the servo to HOLD. -/
  | timeConfig (p : Packet)
  /-- TIME_SET (R135). Steps the time counter to an absolute time, ending any slew or quarantine. -/
  | timeSet (p : Packet)
  /-- TIME_STEP (R135). Steps the time counter by a signed amount, ending any slew or quarantine. -/
  | timeStep (p : Packet)
  /-- TIME_QUERY (R138). Takes its own time snapshot and returns it with servo values, states and time counters. -/
  | timeQuery (p : Packet)
  /-- SERVO_CONFIG (R131). Sets the servo mode, gains, thresholds, slew rate and quarantine. -/
  | servoConfig (p : Packet)
  /-- SERVO_SAMPLE (R132). Hands a host offset sample to the servo, which discards, quarantines, steps, slews or filters it. -/
  | servoSample (p : Packet)
  /-- PORT_TS_CONFIG (R116). Sets a port's board delays and delay asymmetry. -/
  | portTsConfig (p : Packet)
  /-- PTP_SEND (R118). Queues a host PTP frame in the media class with its time-stamp request and one-step flags. -/
  | ptpSend (p : Packet)
  /-- PORT_CONFIG (R104). Sets a port's mode, MAC address, frame size, shutters, preemption, flow control and PTP settings. -/
  | portConfig (p : Packet)
  /-- SHUTTER_LOAD (R80). Checks and stores a pending shutter schedule, replacing any earlier pending one. -/
  | shutterLoad (p : Packet)
  /-- SHUTTER_QUERY (R451). Returns the running and pending schedules, the next boundary and the guard band. -/
  | shutterQuery (p : Packet)
  /-- PORT_PAIR (R94). Forms or dissolves a redundant port pair and sets its revert behaviour. -/
  | portPair (p : Packet)
  /-- PORT_COUNTERS (R105). Returns a port's counters and link state, optionally clearing the counters. -/
  | portCounters (p : Packet)
  /-- STACK_CONFIG (R536). Sets the device's stack number, topology and links and joins or leaves the stack. -/
  | stackConfig (p : Packet)
  /-- STACK_QUERY (R552). Returns each member's versions, formats and links, the Equinox flag and stack counters. -/
  | stackQuery (p : Packet)
  /-- BLOCK_EVACUATE (R546). Closes a block to placement and moves every channel out of it in ascending order. -/
  | blockEvacuate (p : Packet)
  /-- FW_LOAD (R573). Enlarges and checks a firmware image into the inactive slot, marking it VERIFIED if it passes. -/
  | fwLoad (p : Packet)
  /-- FW_ACTIVATE (R511). Writes the unused selector copy so the named verified slot boots from the next reset. -/
  | fwActivate (p : Packet)
  /-- FW_QUERY (R452). Returns each firmware slot's version, context format, Fylos versions and state. -/
  | fwQuery (p : Packet)
  /-- FW_BLOCK_ACTIVATE (R550). Resets an empty block and refills it from the named slot, switching Damium's firmware at the first such command. -/
  | fwBlockActivate (p : Packet)
  /-- IMAGE_ENLARGE (R461). Queues an Enlarger job from host DRAM to a host output chain. -/
  | imageEnlarge (p : Packet)
  /-- IMAGE_REDUCE (R460). Queues a Reducer job from host DRAM to a host output chain. -/
  | imageReduce (p : Packet)
  /-- USER_KERNEL_LOAD (R347). Enlarges and checks a user kernel and fills it into every cell's user partition. -/
  | userKernelLoad (p : Packet)
  /-- USER_HOOK_SET (R348). Sets a channel's near and far user kernel hooks and their compute charge. -/
  | userHookSet (p : Packet)
  /-- USER_KERNEL_QUERY (R452). Returns the loaded kernel's entry and word counts and the channels with hooks. -/
  | userKernelQuery (p : Packet)
  /-- CLOCK_CONFIG (R472). Sets the reference preference order, switching source if the best qualified source changes. -/
  | clockConfig (p : Packet)
  /-- CLOCK_QUERY (R492). Returns the selected and qualified references, controller state, floor code age and clock counters. -/
  | clockQuery (p : Packet)
  /-- DOMAIN_GATE (R485). Writes a clock domain's three enables, stopping a running clock through the quiesce sequence. -/
  | domainGate (p : Packet)
  /-- CLKOUT_SET (R488). Selects, divides and enables the CLKOUT output. -/
  | clkoutSet (p : Packet)
  /-- TCLK_OUT_SET (R489). Sets the frequency of TCLK_OUT and enables or disables it. -/
  | tclkOutSet (p : Packet)
  /-- POWER_SET (R496). Changes a power domain's mode, stopping its clocks together under quiesce, or sets automatic deep sleep. -/
  | powerSet (p : Packet)
  /-- POWER_QUERY (R505). Returns each power domain's mode and the wake counters. -/
  | powerQuery (p : Packet)
  /-- ERROR_LOG_READ (R526). Returns error log entries from a sequence number with the log totals. -/
  | errorLogRead (p : Packet)
  /-- TRACE_CONFIG (R568). Enables trace and sets its sources and size. -/
  | traceConfig (p : Packet)
  /-- TRACE_DUMP (R453). Queues a Reducer job writing the trace to a host output chain. -/
  | traceDump (p : Packet)
  /-- SENSOR_QUERY (R452). Returns every temperature sensor and supply reading. -/
  | sensorQuery (p : Packet)
  /-- RS_ROM_READ (R228). Returns words of a half-band response or interpolator prototype from the coefficient ROM. -/
  | rsRomRead (p : Packet)
  /-- UNKNOWN_OPCODE (R432). A command with an opcode this manual does not list is refused with UNKNOWN_OPCODE. -/
  | unknownOpcode (opcode : BitVec 16) (p : Packet)
  /-- STACK_FLOW_CHANGE (R540). The sequencer sends a flow change to every member, collects votes and commits or abandons it. -/
  | stackFlowChange (turn : FlowTurn)
  /-- CMD_TAIL_DOORBELL (R414). A write of CMD_TAIL lets Damium read the command entries up to the new tail. -/
  | cmdTailDoorbell (pair : Nat) (tail : BitVec 12) (entries : List (List Byte))
  /-- RPL_HEAD_WRITE (R416). A host write of RPL_HEAD frees reply ring room for waiting items. -/
  | rplHeadWrite (pair : Nat) (head : BitVec 12)
  /-- RING_ENABLE (R412). Writing ENABLE from 0 to 1 zeroes the pair's indices and starts intake. -/
  | ringEnable (pair : Nat)
  /-- RING_DISABLE (R412). Writing ENABLE to 0 stops intake after the current command while replies already owed are still written. -/
  | ringDisable (pair : Nat)
  /-- REPLY_WRITE (R416). A reply, completion or notice part is written to the reply ring once room for it exists. -/
  | replyWrite (pair : Nat) (ok : Bool)
  /-- COAL_TIME_EXPIRY (R417). The coalescing timer expires and the reply ring's MSI-X vector is signalled. -/
  | coalTimeExpiry (pair : Nat)
  /-- TS_SNAP (R112). Writing TS_CTRL.SNAP latches time, epoch and powered time in one time-domain cycle. -/
  | tsSnap
  /-- CS_POP (R126). Writing CS_CTRL.POP removes the head contact sheet entry, writing a GAP entry into the freed slot if losses are pending. -/
  | csPop (sheet : SheetAccess)
  /-- CS_FLUSH (R126). Writing CS_CTRL.FLUSH removes every contact sheet entry, keeping the pending loss count. -/
  | csFlush (sheet : SheetAccess)
  /-- CS_LOST_TOTAL_READ (R122). A read of CS_LOST_TOTAL returns the lost stamp count and clears it. -/
  | csLostTotalRead (sheet : SheetAccess)
  /-- BOOT_GO (R575). Writing BOOT_CTRL.GO in WAIT_HOST starts HOST_VERIFY of the host-supplied image. -/
  | bootGo
  /-- BAR2_BASE_WRITE (R569). A write of BAR2_BASE moves the window, or leaves it unchanged where the base is outside the host area. -/
  | bar2BaseWrite (hi : Bool) (value : BitVec 32)
  /-- DIAG_BAR0_PARTIAL_READ (R581). A read of DIAG_BAR0_PARTIAL returns the count of discarded partial writes and clears it. -/
  | diagBar0PartialRead
  /-- DIAG_BAR2_OUTSIDE_READ (R581). A read of DIAG_BAR2_OUTSIDE returns the count of out-of-area BAR2 accesses and clears it. -/
  | diagBar2OutsideRead
  /-- REGISTER_WRITE (R14). A BAR0 write to a register without its own row acts under its access code, discarding partial writes. -/
  | registerWrite (offset : BitVec 24) (value : BitVec 32) (enables : BitVec 4)
  /-- BAR2_ACCESS (R569). A PCIe memory request through BAR2 reaches the host area of device DRAM or reads 0 beyond it. -/
  | bar2Access (offset : BitVec 30) (data : Option (List Byte)) (len : Nat) (ecc : Ecc)
  /-- PCIE_LINK_RESET (R500). PCIe hot reset, link disable or link-down resets the endpoint and clears ENABLE of all ring pairs. -/
  | pcieLinkReset
  /-- D3HOT (R560). Entry to D3hot disables memory space and clears ENABLE of all ring pairs. -/
  | d3hot (enter : Bool)
  /-- IDCODE (R576). TAP instruction selecting the 32-bit IDCODE register. -/
  | idcode
  /-- SAMPLE_PRELOAD (R576). TAP instruction sampling and preloading the boundary register. -/
  | samplePreload (cells : List Bool)
  /-- EXTEST (R576). TAP instruction driving the balls from the boundary register. -/
  | extest
  /-- EXTEST_PULSE (R576). IEEE 1149.6 pulse test of the AC-coupled lanes. -/
  | extestPulse
  /-- EXTEST_TRAIN (R576). IEEE 1149.6 train test of the AC-coupled lanes. -/
  | extestTrain
  /-- CLAMP (R576). TAP instruction holding the balls at boundary values with BYPASS selected. -/
  | clamp
  /-- HIGHZ (R576). TAP instruction placing outputs at high impedance. -/
  | highz
  /-- BYPASS (R576). TAP instruction selecting the bypass register, also taken by unknown or denied opcodes. -/
  | bypass
  /-- DEBUG (R578). TAP debug access to halt Damium and read or write Damium, cell and BAR0 state where the life cycle allows. -/
  | debug (op : DebugOp)
  /-- DEBUG_UNLOCK (R578). Signature challenge that unlocks DEBUG until the next reset, denied after 3 failures. -/
  | debugUnlock (key signature : List Byte)
  /-- FUSE_PROG (R579). Burns blank key hash, subsystem ID, MAC base and serial fuses in MANUFACTURE. -/
  | fuseProg (field : FuseField)
  /-- TAP_RESET (R576). A TAP reset selects IDCODE and leaves device function unaffected. -/
  | tapReset
  /-- CMAC4 (R326). Accumulates the sum of four complex lane products into one accumulator. -/
  | cmac4 (i : Issue) (k a b : Fin 8) (cja neg clr : Bool) (r : CompRest)
  /-- CMAC4V (R360). Accumulates each complex lane product into its own accumulator. -/
  | cmac4v (i : Issue) (hi : Bool) (a b : Fin 8) (cja neg clr : Bool) (r : CompRest)
  /-- RMAC8 (R360). Accumulates the sum of eight real lane products into an accumulator's real half. -/
  | rmac8 (i : Issue) (k a b : Fin 8) (neg clr : Bool) (r : CompRest)
  /-- CMUL4 (R360). Multiplies four complex lanes and narrows the products to a vector. -/
  | cmul4 (i : Issue) (d a b : Fin 8) (cja : Bool) (s : Fin 8) (r : CompRest)
  /-- VCMAC4 (R360). Adds narrowed complex lane products to a vector with a register shift. -/
  | vcmac4 (i : Issue) (d c a b : Fin 8) (cja : Bool) (s : Fin 8) (r : CompRest)
  /-- VMUL8 (R360). Multiplies eight real lanes with rounding and saturation. -/
  | vmul8 (i : Issue) (d a b s : Fin 8) (r : CompRest)
  /-- BFLY (R360). Writes lane sums and differences to an even register pair. -/
  | bfly (i : Issue) (dhalf : Fin 4) (a b s : Fin 8) (r : CompRest)
  /-- VADD (R360). Adds lanes with rounding shift and optional saturation. -/
  | vadd (i : Issue) (d a b s : Fin 8) (satm : Bool) (r : CompRest)
  /-- VSUB (R360). Subtracts lanes with rounding shift and optional saturation. -/
  | vsub (i : Issue) (d a b s : Fin 8) (satm : Bool) (r : CompRest)
  /-- VSHR (R360). Shifts lanes right with convergent rounding. -/
  | vshr (i : Issue) (d a s : Fin 8) (r : CompRest)
  /-- VSHL (R360). Shifts lanes left with saturation. -/
  | vshl (i : Issue) (d a s : Fin 8) (r : CompRest)
  /-- CZIP (R360). Interleaves complex lanes of two vectors into a register pair. -/
  | czip (i : Issue) (dhalf : Fin 4) (a b : Fin 8) (r : CompRest)
  /-- CUNZIP (R360). De-interleaves complex lanes of two vectors into a register pair. -/
  | cunzip (i : Issue) (dhalf : Fin 4) (a b : Fin 8) (r : CompRest)
  /-- VMOV (R360). Copies a vector register. -/
  | vmov (i : Issue) (d a : Fin 8) (r : CompRest)
  /-- VBCAST (R360). Broadcasts a D register to every complex lane. -/
  | vbcast (i : Issue) (d : Fin 8) (a : Fin 16) (r : CompRest)
  /-- VMAXA (R362). Accumulates the largest lane magnitude of one or two vectors into a D register. -/
  | vmaxa (i : Issue) (d : Fin 16) (a : Fin 8) (pair : Bool) (r : CompRest)
  /-- PACK (R360). Narrows four accumulators into the complex lanes of a vector. -/
  | pack (i : Issue) (d : Fin 8) (hi : Bool) (s : Fin 8) (r : CompRest)
  /-- ACSHR (R360). Shifts both halves of an accumulator right with rounding. -/
  | acshr (i : Issue) (k s : Fin 8) (r : CompRest)
  /-- ACADD (R360). Adds one accumulator into another modulo 40 bits. -/
  | acadd (i : Issue) (d s : Fin 8) (r : CompRest)
  /-- ACTOD (R360). Narrows an accumulator's real half to a D register. -/
  | actod (i : Issue) (d : Fin 16) (k s : Fin 8) (r : CompRest)
  /-- DTOAC (R360). Loads a D register into an accumulator's real half and zeroes its imaginary half. -/
  | dtoac (i : Issue) (k : Fin 8) (a : Fin 16) (r : CompRest)
  /-- ADD (R360). Adds two D registers modulo 2^32 and sets flags. -/
  | add (i : Issue) (d a b : Fin 16) (r : CompRest)
  /-- SUB (R360). Subtracts two D registers modulo 2^32 and sets flags. -/
  | sub (i : Issue) (d a b : Fin 16) (r : CompRest)
  /-- ADDS (R360). Adds two D registers with saturation. -/
  | adds (i : Issue) (d a b : Fin 16) (r : CompRest)
  /-- SUBS (R360). Subtracts two D registers with saturation. -/
  | subs (i : Issue) (d a b : Fin 16) (r : CompRest)
  /-- AND (R360). Bitwise AND of two D registers. -/
  | and (i : Issue) (d a b : Fin 16) (r : CompRest)
  /-- OR (R360). Bitwise OR of two D registers. -/
  | or (i : Issue) (d a b : Fin 16) (r : CompRest)
  /-- XOR (R360). Bitwise XOR of two D registers. -/
  | xor (i : Issue) (d a b : Fin 16) (r : CompRest)
  /-- CMP (R360). Sets flags from a subtraction without writing a register. -/
  | cmp (i : Issue) (a b : Fin 16) (r : CompRest)
  /-- MOV (R360). Copies a D register. -/
  | mov (i : Issue) (d a : Fin 16) (r : CompRest)
  /-- NEG (R360). Negates a D register modulo 2^32. -/
  | neg (i : Issue) (d a : Fin 16) (r : CompRest)
  /-- ABS (R360). Takes the absolute value of a D register. -/
  | abs (i : Issue) (d a : Fin 16) (r : CompRest)
  /-- MIN (R360). Signed minimum of two D registers. -/
  | min (i : Issue) (d a b : Fin 16) (r : CompRest)
  /-- MAX (R360). Signed maximum of two D registers. -/
  | max (i : Issue) (d a b : Fin 16) (r : CompRest)
  /-- SHL (R360). Shifts a D register left. -/
  | shl (i : Issue) (d a : Fin 16) (n : Fin 32) (r : CompRest)
  /-- ASR (R360). Shifts a D register right arithmetically. -/
  | asr (i : Issue) (d a : Fin 16) (n : Fin 32) (r : CompRest)
  /-- LSR (R360). Shifts a D register right logically. -/
  | lsr (i : Issue) (d a : Fin 16) (n : Fin 32) (r : CompRest)
  /-- MUL (R360). Writes the low 32 bits of a signed product. -/
  | mul (i : Issue) (d a b : Fin 16) (r : CompRest)
  /-- MPY15 (R360). Fractional Q15 multiply with rounding and saturation. -/
  | mpy15 (i : Issue) (d a b : Fin 16) (r : CompRest)
  /-- MPY31 (R361). Two-cycle fractional Q31 multiply with rounding and saturation. -/
  | mpy31 (i : Issue) (d a b : Fin 16) (r : CompRest)
  /-- MAC31 (R361). Two-cycle Q31 multiply accumulated into an accumulator's real half. -/
  | mac31 (i : Issue) (k : Fin 8) (a b : Fin 16) (r : CompRest)
  /-- NORM (R360). Counts the redundant sign bits of a D register. -/
  | norm (i : Issue) (d a : Fin 16) (r : CompRest)
  /-- MFS (R360). Copies SR or LC into a D register. -/
  | mfs (i : Issue) (d : Fin 16) (lc : Bool) (r : CompRest)
  /-- LD_Q (R355). Loads 16 bytes into a vector register through a side's address unit. -/
  | ldQ (i : Issue) (reg ptr : Fin 8) (mode : AMode) (r : MoveRest)
  /-- ST_Q (R355). Stores a vector register as 16 bytes. -/
  | stQ (i : Issue) (reg ptr : Fin 8) (mode : AMode) (r : MoveRest)
  /-- LD_W (R355). Loads 4 bytes into a D register. -/
  | ldW (i : Issue) (reg : Fin 16) (ptr : Fin 8) (mode : AMode) (r : MoveRest)
  /-- LD_H (R355). Loads 2 bytes sign-extended into a D register. -/
  | ldH (i : Issue) (reg : Fin 16) (ptr : Fin 8) (mode : AMode) (r : MoveRest)
  /-- ST_W (R355). Stores a D register as 4 bytes by read-modify-write. -/
  | stW (i : Issue) (reg : Fin 16) (ptr : Fin 8) (mode : AMode) (r : MoveRest)
  /-- ST_H (R355). Stores the low half of a D register as 2 bytes by read-modify-write. -/
  | stH (i : Issue) (reg : Fin 16) (ptr : Fin 8) (mode : AMode) (r : MoveRest)
  /-- LD_A (R355). Loads an address, offset or modulo register from memory. -/
  | ldA (i : Issue) (cls : AClass) (idx ptr : Fin 8) (mode : AMode) (r : MoveRest)
  /-- ST_AC (R355). Narrows and stores an accumulator with post-increment of the pointer. -/
  | stAc (i : Issue) (k shift ptr : Fin 8) (form : Bool) (r : MoveRest)
  /-- LD_L (R355). Loads 8 bytes into an even D register pair. -/
  | ldL (i : Issue) (half ptr : Fin 8) (mode : AMode) (r : MoveRest)
  /-- ST_L (R355). Stores an even D register pair as 8 bytes. -/
  | stL (i : Issue) (half ptr : Fin 8) (mode : AMode) (r : MoveRest)
  /-- AADD (R359). Post-modifies a P or Q register by a small immediate. -/
  | aadd (i : Issue) (qside : Bool) (k : Fin 8) (imm : BitVec 6) (r : SlotRest)
  /-- AMOV (R359). Moves a value between address, offset and modulo registers. -/
  | amov (i : Issue) (dst : AClass) (di : Fin 8) (src : AClass) (si : Fin 8) (r : SlotRest)
  /-- XFER (R359). Transfers a value between an address-class register and a D register. -/
  | xfer (i : Issue) (out : Bool) (cls : AClass) (idx : Fin 8) (d : Fin 16) (r : SlotRest)
  /-- REP (R335). Repeats the next word an immediate number of times. -/
  | rep (i : Issue) (n1 : BitVec 10) (r : SlotRest)
  /-- REPLC (R335). Repeats the next word LC times. -/
  | replc (i : Issue) (r : SlotRest)
  /-- LCI (R359). Loads LC with an immediate. -/
  | lci (i : Issue) (imm : BitVec 10) (r : SlotRest)
  /-- IMMEDIATE (R364). Executes a compute operation and writes a 32-bit immediate to the register DEST names. -/
  | immediate (i : Issue) (c : Comp) (dest : ImmDest)
  /-- ADDI (R365). Adds a sign-extended immediate to a D register. -/
  | addi (i : Issue) (d a : Fin 16) (imm : BitVec 16) (r : TwoMoves)
  /-- ANDI (R365). ANDs a zero-extended immediate into a D register. -/
  | andi (i : Issue) (d a : Fin 16) (imm : BitVec 16) (r : TwoMoves)
  /-- ORI (R365). ORs a zero-extended immediate into a D register. -/
  | ori (i : Issue) (d a : Fin 16) (imm : BitVec 16) (r : TwoMoves)
  /-- XORI (R365). XORs a zero-extended immediate into a D register. -/
  | xori (i : Issue) (d a : Fin 16) (imm : BitVec 16) (r : TwoMoves)
  /-- CMPI (R365). Sets flags from a D register minus an immediate. -/
  | cmpi (i : Issue) (a : Fin 16) (imm : BitVec 16) (r : TwoMoves)
  /-- MOVI (R365). Writes a sign-extended immediate to a D register. -/
  | movi (i : Issue) (d : Fin 16) (imm : BitVec 16) (r : TwoMoves)
  /-- MOVHI (R365). Writes an immediate to the upper half of a D register. -/
  | movhi (i : Issue) (d a : Fin 16) (imm : BitVec 16) (r : TwoMoves)
  /-- BR (R366). Branches to a word address if the condition holds, after two delay words. -/
  | br (i : Issue) (cond : Cond) (target : BitVec 13) (r : TwoMoves)
  /-- BRLC (R366). Decrements LC and branches while it stays non-zero. -/
  | brlc (i : Issue) (target : BitVec 13) (r : TwoMoves)
  /-- CALL (R366). Saves the return address in D15 and branches. -/
  | call (i : Issue) (cond : Cond) (target : BitVec 13) (r : TwoMoves)
  /-- JMPR (R368). Branches to the word address held in a D register. -/
  | jmpr (i : Issue) (cond : Cond) (k : Fin 16) (r : TwoMoves)
  /-- CALLU (R369). Enters the user kernel at an entry index in user mode. -/
  | callu (i : Issue) (entry : Fin 16) (r : TwoMoves)
  /-- RETU (R369). Leaves the user kernel to the fixed firmware return vector. -/
  | retu (i : Issue) (r : TwoMoves)
  /-- DONE (R342). Ends the thread's run, requesting a commit and swapping to the next staged thread after two delay words. -/
  | done (i : Issue) (commit : Bool) (r : TwoMoves)
  /-- TRAP (R366). Raises a TRAP_OP cell trap carrying a code. -/
  | trap (i : Issue) (code : BitVec 8) (r : TwoMoves)
  /-- WATCHDOG (R345). The cell watchdog reaches 3,000,000 cycles without a swap and raises a WATCHDOG trap. -/
  | watchdog (cell : Nat)
  /-- USER_BUDGET (R351). User cycles exceed USER_KC times 1,000 and USER_BUDGET is raised at the next boundary outside a REP. -/
  | userBudget (cell : Nat)
  /-- PHASE_BOUNDARY (R374). At each 125 µs phase the dispatcher releases threads of that phase and decides displacement. -/
  | phaseBoundary (block : Nat)
  /-- TICK_ORIGIN (R381). At each tick origin the dispatcher may rebind one thread and pending commits and scheduling changes take effect. -/
  | tickOrigin
  /-- EVENT_FIFO_ENTRY (R377). The dispatcher takes an event FIFO entry and appends it to the named thread's pending list. -/
  | eventFifoEntry (block : Nat)
  /-- STAGING_START (R387). The dispatcher begins staging a candidate thread's context into its cell's shadow bank and stage pages. -/
  | stagingStart (cell : Nat) (ecc : Ecc)
  /-- STAGING_COMPLETE (R382). Staging completes and the cell swaps to the staged thread where a swap is due. -/
  | stagingComplete (cell : Nat)
  /-- SUSPEND_SAVE (R384). A displaced thread's bank and extents are saved to its suspend record before the shadow is reused. -/
  | suspendSave (cell : Nat)
  /-- COMMIT_COMPLETE (R388). The buffered commit copy is written to DRAM and the run becomes committed. -/
  | commitComplete (block : Nat) (ecc : Ecc)
  /-- DEADLINE_MISS (R390). A run has not issued DONE by its deadline and a miss is counted. -/
  | deadlineMiss (block slot : Nat)
  /-- TICK_RUN (R31). A channel thread's run applies commands, decodes, plays out, fixes audio, cancels echo, detects tones, encodes and commits. -/
  | tickRun (channel : Nat)
  /-- SSRC_ADOPTION (R176). A new SSRC is adopted after 3 consecutive packets carry it. -/
  | ssrcAdoption (channel leg : Nat)
  /-- DT_HANG_END (R256). Double-talk hangover expires after DT_HANG and adaptation may resume. -/
  | dtHangEnd (channel : Nat)
  /-- NLP_HANG_END (R260). The nonlinear processor releases after NLP_HANG. -/
  | nlpHangEnd (channel : Nat)
  /-- PATH_CHANGE (R257). The energy test holding double-talk for 500 ms enters CONVERGING. -/
  | pathChange (channel : Nat)
  /-- DIVERGENCE (R258). Four adapting blocks with residual above near-end lower every exponent and enter CONVERGING. -/
  | divergence (channel : Nat)
  /-- CONVERGED (R259). ERLE held at 12 dB over 20 or 40 adapting blocks moves the canceller to CONVERGED. -/
  | converged (channel : Nat)
  /-- TONE_DISABLE_END (R263). 250 ms of quiet in both directions ends a tone disable. -/
  | toneDisableEnd (channel : Nat)
  /-- EVENT_EXTEND_TIMEOUT (R280). Event rendering runs EVENT_EXTEND past the last duration without update and ends with TIMEOUT. -/
  | eventExtendTimeout (channel leg : Nat)
  /-- CONTEXT_CLEARED (R48). Zeroing of an IDLE channel's context slot ends and a waiting CH_OPEN is applied. -/
  | contextCleared (channel : Nat)
  /-- RS_IN_RECORD (R221). The resampling array takes a closed input block, discarding a second one of the same tick. -/
  | rsInRecord (channel key tick : Nat) (samples : List (BitVec 16))
  /-- PE_DESCRIPTOR (R164). The packet engine builds, protects and queues a frame from an egress descriptor and template. -/
  | peDescriptor (region : Nat)
  /-- SIGNAL_RECORD (R378). A closed SIGNAL record enters the block's event FIFO. -/
  | signalRecord (block sender seq slot value : Nat)
  /-- NOTICE_RECORD (R343). Damium takes a closed notice record from a cell. -/
  | noticeRecord (block : Nat)
  /-- DISSOLVE_END (R237). A dissolve completes its settle count and cross-fade, and the old chain is dropped or the held request starts. -/
  | dissolveEnd (channel key : Nat)
  /-- SETTLE_END (R240). A stream finishes its flagged settling outputs and applies dr. -/
  | settleEnd (channel key : Nat)
  /-- FILL_MEASUREMENT (R233). A clock-crossing stream measures its fill, sets trim, and may request a realignment. -/
  | fillMeasurement (channel key : Nat)
  /-- FRAME_RECEIVED (R26). A frame whose last byte has arrived is stamped, checked, counted and classified. -/
  | frameReceived (f : RxFrame)
  /-- HELD_PACKET_POST (R161). A packet held in the region ingress buffer is posted once its block's FIFO and packet area have room. -/
  | heldPacketPost (block : Nat)
  /-- EGRESS_PARTITION_ACCEPT (R65). A frame waiting at its source enters the port's egress partition once it has room. -/
  | egressPartitionAccept (port : Nat) (src : EgSource)
  /-- FRAME_COMMIT (R607). The MAC commits a media or bulk frame to start 64 ns ahead, fixing one-step and residence times. -/
  | frameCommit (port vary : Nat)
  /-- FRAME_SFD_TX (R121). A sent frame's SFD crosses the boundary and its stamp is recorded in the contact sheet or lost. -/
  | frameSfdTx (port vary : Nat)
  /-- SHUTTER_INTERVAL (R73). A gate control list interval begins and the media gate opens or closes. -/
  | shutterInterval (port : Nat)
  /-- SHUTTER_CYCLE_BOUNDARY (R80). A cycle boundary restarts the list and activates a pending schedule. -/
  | shutterCycleBoundary (port : Nat)
  /-- GUARD_BAND_START (R87). At G before an opening with media queued, the port holds bulk and requests a preemption cut. -/
  | guardBandStart (port : Nat)
  /-- PAUSE_TIMER_EXPIRY (R90). A pause timer reaches zero and its class resumes. -/
  | pauseTimerExpiry (port : Nat) (prio : Option Nat)
  /-- VERIFY_RESPONSE (R84). A successful 802.3br verify response makes preemption active. -/
  | verifyResponse (port : Nat)
  /-- VERIFY_TIMEOUT (R84). A verify attempt times out, retrying or leaving preemption inactive. -/
  | verifyTimeout (port : Nat)
  /-- PCS_CONDITION_LOST (R63). Block lock, FEC lock or fault-free reception fails, starting the 100 µs link-down timer. -/
  | pcsConditionLost (port : Nat) (cond : PcsCondition)
  /-- PCS_CONDITION_REGAINED (R63). The failed condition is regained, counting an interruption or starting the link-up timer. -/
  | pcsConditionRegained (port : Nat) (cond : PcsCondition)
  /-- LINK_DOWN (R604). A condition fails for 100 µs; the port goes link-down, aborts frames in flight and reports a LINK notice. -/
  | linkDown (port : Nat)
  /-- LINK_UP (R63). All conditions hold for 100 µs and the port goes link-up. -/
  | linkUp (port : Nat)
  /-- REVERT_HOLD_EXPIRY (R98). The lower member has been link-up for REVERT_HOLD and becomes active again. -/
  | revertHoldExpiry (pair : Nat)
  /-- OFFSET_SAMPLE (R132). Damium's PTP engine writes an offset sample that the servo handles. -/
  | offsetSample (x : Int) (masterChanged : Bool)
  /-- QUARANTINE_END (R137). A quarantine lasts QUARANTINE seconds and ends ACCEPTED, passing the held sample to classify. -/
  | quarantineEnd
  /-- SLEW_END (R134). A slew removes its offset and the servo resumes. -/
  | slewEnd
  /-- STEP_APPLY (R120). A pending step is applied after the last committed one-step or forwarded frame's SFD, changing the epoch. -/
  | stepApply
  /-- PPS_EDGE (R117). A filtered PPS_IN rising edge is stamped and delivered to the PTP owner. `high`: how many cycles of the
  time domain the input has stayed high since it, when the filter judges it (R594). -/
  | ppsEdge (high : Nat)
  /-- TDM_FRAME (R376). At each group frame the TDM unit moves slot samples, updates the slot map and sets TDM_PEND. -/
  | tdmFrame (group : Nat) (fsGood : Bool) (rx : List (Nat × List Byte))
  /-- TDM_FRAMED (R302). Sixteen consecutive FS pulses frame a slave group and reset its streams. -/
  | tdmFramed (group : Nat)
  /-- TDM_GROUP_LOST (R302). Three FS errors, 1 µs without CLK or m out of range make a slave group LOST then SEARCH. -/
  | tdmGroupLost (group : Nat) (clk : Bool)
  /-- TDM_M_UPDATE (R303). Once per tick the TDM unit fits the group's frame-clock offset m. `up`: which of the two whole units
  about a fit that is none the unit's arithmetic gives, the upper one or the lower. -/
  | tdmMUpdate (group : Nat) (up : Bool)
  /-- TDM_MASTER_START (R300). A new master group starts its first frame at the ALIGN_OFFSET instant. -/
  | tdmMasterStart (group : Nat)
  /-- REFERENCE_TRIP (R471). A missing edge or loss of lock clears a source's qualification and may trip the selected reference. -/
  | referenceTrip (source : Nat)
  /-- REFERENCE_QUALIFIED (R471). A source's count reaches 4,096 edges and it qualifies. -/
  | referenceQualified (source : Nat)
  /-- REFERENCE_LOCK (R477). Lock on the new source is declared and the controller is LOCKED. -/
  | referenceLock
  /-- COAST_END (R482). The coast reaches the floor and enters FROST or ACQUIRE. -/
  | coastEnd
  /-- ACQUIRE_LOCK (R482). Lock at the floor is declared and RAMP begins. -/
  | acquireLock
  /-- RAMP_END (R482). The ramp reaches 3 GHz, the controller locks and media resumes. -/
  | rampEnd
  /-- GATE_QUIESCED (R485). A quiescing domain's ports go idle and its clock stops. -/
  | gateQuiesced (domain : Nat)
  /-- GATE_TIMEOUT (R485). A quiescing domain's ports stay busy for 2,048 cycles and the gate ends GATE_BUSY. -/
  | gateTimeout (domain : Nat)
  /-- POWER_WAKE_DONE (R495). A domain returns to RUN and Damium restores its logic before service. -/
  | powerWakeDone (domain : Nat)
  /-- DEEP_SLEEP_ENTERED (R494). A domain completes isolation and power-off into DEEP_SLEEP. -/
  | deepSleepEntered (domain : Nat)
  /-- AUTO_DEEP_SLEEP (R498). A block empty for 10 s enters DEEP_SLEEP automatically. -/
  | autoDeepSleep (block : Nat)
  /-- POWER_ON_RESET (R499). A supply falls below threshold, or all come into range, asserting or releasing power-on reset. -/
  | powerOnReset (asserted : Bool) (straps : BitVec 4)
  /-- RESET_N (R499). A filtered low on RESET_N holds the device in reset until the rising edge. -/
  | resetN (low : Bool)
  /-- PERST_N (R499). A filtered PCIe fundamental reset holds the device in reset as RESET_N does. -/
  | perstN (low : Bool)
  /-- CHIP_WATCHDOG (R523). The chip watchdog expires, logs, and resets the device. -/
  | chipWatchdog
  /-- DEVICE_RESET_SEQUENCE (R502). The device runs clock, fuse, wipe, DRAM, boot and ready steps after a reset source. -/
  | deviceResetSequence (facts : BootFacts)
  /-- LIFE_CYCLE_TRANSITION (R507). Burns TRANS, locks lower key banks, wipes, burns WIPE and resets the device. -/
  | lifeCycleTransition (till : TransitionEnd)
  /-- PATROL_SCRUB (R515). Patrol scrubbing reads protected words, corrects and writes back, or applies the uncorrectable effect. -/
  | patrolScrub (place : ErrorPlace) (address : Nat) (uncorrectable : Bool)
  /-- CONTEXT_REBUILT (R519). Damium finishes rewriting the slot and the thread is staged with RESTART and FIRST. -/
  | contextRebuilt (channel : Nat)
  /-- BLOCK_ISOLATION (R522). A control-area error or a 1 ms handshake timeout isolates a block and faults its channels. -/
  | blockIsolation (block : Nat) (handshake : Bool) (address : Nat)
  /-- CELL_RETURN (R521). 10 ms after a trap the cell is reset and returns as reserve, or is retired on a repeat. -/
  | cellReturn (cell : Nat)
  /-- JOB_START (R468). An engine half takes its next queued Reducer or Enlarger job. -/
  | jobStart (region : Nat) (reducer : Bool)
  /-- ENLARGER_JOB_END (R461). An Enlarger job ends CONFIRMED, CHECK_FAILED or OUT_OF_SPACE and commits or reports. -/
  | enlargerJobEnd (region : Nat) (err : JobError)
  /-- REDUCER_JOB_END (R460). A Reducer job ends COMPLETE or OUT_OF_SPACE and reports. -/
  | reducerJobEnd (region : Nat) (err : JobError)
  /-- FLIT_RECEIVED (R528). A Bilgaup flit is checked, acknowledged or NAKed, and its message assembled or forwarded. -/
  | flitReceived (port : Nat) (flit : List Byte)
  /-- LINK_RETRAIN (R529). A flit resent 8 times makes the port retrain. -/
  | linkRetrain (port : Nat)
  /-- LANE_LOST (R532). A lane loses lock for 1 µs and the port continues on 3 lanes. -/
  | laneLost (port : Nat)
  /-- LANE_RETRAINED (R532). A retrained lane or link is taken back in after a LANE_MAP flit. -/
  | laneRetrained (port : Nat)
  /-- STACK_LINK_LOST (R534). A whole link is lost, paths are recomputed and the root may change. -/
  | stackLinkLost (port : Nat)
  /-- FORWARDED_PACKET (R146). A packet from another member is handled as if it arrived locally. -/
  | forwardedPacket (device : Nat) (packet : StackPacket)
  /-- STACK_LEG_BLOCK (R543). A stack leg block is buffered for the receiving leg. -/
  | stackLegBlock (device channel leg tick : Nat) (samples : List (BitVec 16 × Bool))
  /-- TIME_FLIT_EXCHANGE (R537). A TIME flit exchange yields a servo sample on a stack member. -/
  | timeFlitExchange (port : Nat) (t1 t2 t3 t4 : Stamp)
  /-- STACK_STEP_RELAY (R538). A member applies the root's relayed step with the same epoch. -/
  | stackStepRelay (amount : Int) (epoch : BitVec 16)
  /-- ADVERTISEMENT (R548). A member's advertisement updates the stack's versions, formats and Equinox state. -/
  | advertisement (member : Nat) (info : Option MemberInfo)
  /-- CONTEXT_FRAME_RECEIVED (R545). A migrating context frame reaches the destination for enlargement and commit. -/
  | contextFrameReceived (device channel cut held : Nat) (frame : List Byte)
  /-- FLOW_TABLE_COPY (R536). A joining device receives the sequencer's flow table entry by entry. -/
  | flowTableCopy (entry : Option FlowSettings) (mediaNs : Nat)
  /-- STACK_JOIN_TIMEOUT (R536). A join not finished in 10 s completes STACK_UNREACHABLE. -/
  | stackJoinTimeout
  /-- FORWARDED_FYLOS (R411). A Fylos command, reply, completion or notice crossing Bilgaup is applied or returned. -/
  | forwardedFylos (device : Nat) (message : StackFylos)
  /-- ILLEGAL_WORD (R353). A word of reserved format or with a reserved or malformed field reaches D and raises an ILLEGAL_WORD trap. -/
  | illegalWord (i : Issue) (w : BitVec 64)
  /-- NOP (R360). A word whose compute, move and slot fields are all NOP issues, advances PC and changes nothing else. -/
  | nop (i : Issue)
  /-- DAMIUM_LOCKSTEP_MISMATCH (R512). The two Damium cores disagree in a cycle, which is logged as fatal and expires the chip watchdog. -/
  | damiumLockstepMismatch
  /-- SCOPE_RESET_COMPLETE (R440). The wipe and refill of a block, region or cell reset end, the scope returns to service and the reset command completes. -/
  | scopeResetComplete (scope id : Nat)
  /-- MANAGEMENT_FIRMWARE_SWITCHED (R550). Damium finishes its switch to the new slot's management firmware, and ring commands and UDP intake resume. -/
  | managementFirmwareSwitched
  deriving DecidableEq, Repr

end Sys2Proof
end

