-- ==== Sys2Proof/Decode.lean ====
section
/-! DEFINITION. The vector engine's word decoder (R352 to R366), total on every 64-bit word, and the decoder of table
words: no row of the table gives bits, so that one answers none. -/

namespace Sys2Proof

/-! ## Fields -/

/-- Bits [hi:lo] of a word. -/
def bits (w hi lo : Nat) : Nat := w / 2 ^ lo % 2 ^ (hi + 1 - lo)

def bit (w k : Nat) : Bool := w.testBit k
def f8 (w lo : Nat) : Fin 8 := Fin.ofNat 8 (bits w (lo + 2) lo)
def f16 (w lo : Nat) : Fin 16 := Fin.ofNat 16 (bits w (lo + 3) lo)
def f4 (w lo : Nat) : Fin 4 := Fin.ofNat 4 (bits w (lo + 1) lo)
def f32 (w lo : Nat) : Fin 32 := Fin.ofNat 32 (bits w (lo + 4) lo)

/-- A value kept where a condition holds. -/
def keep {α : Type} (c : Bool) (v : α) : Option α := if c then some v else none

/-- Whether a word has no bit outside a mask. -/
def within (w mask : Nat) : Bool := w &&& mask == w

/-! ## Moves (Table 13.3) -/

def modeAt (f : Nat) : AMode :=
  match bits f 2 1 with
  | 0 => .plain
  | 1 => .postN
  | 2 => .postInc
  | _ => .indexed

def classAt (n : Nat) : AClass :=
  match n with
  | 0 => .p
  | 1 => .q
  | 2 => .n
  | _ => .m

def decodeMove (f : Nat) : Option Move :=
  let ptr := f8 f 3
  let mode := modeAt f
  let w := bit f 0
  match bits f 12 10 with
  | 0 => keep (bits f 9 0 == 0) .nop
  | 1 => keep (!bit f 9 && !w) (.ldQ (f8 f 6) ptr mode)
  | 2 => keep (!bit f 9 && !w) (.stQ (f8 f 6) ptr mode)
  | 3 => some (if w then .ldH (f16 f 6) ptr mode else .ldW (f16 f 6) ptr mode)
  | 4 => some (if w then .stH (f16 f 6) ptr mode else .stW (f16 f 6) ptr mode)
  | 5 => some (.ldA (classAt (bits f 9 8)) (Fin.ofNat 8 (2 * bits f 7 6 + bits f 0 0)) ptr mode)
  | 6 => some (.stAC (f8 f 7) (f8 f 4) (f8 f 1) w)
  | _ => keep (!bit f 6) (if w then .stL (f8 f 7) ptr mode else .ldL (f8 f 7) ptr mode)

/-! ## The slot (Table 13.4) -/

def decodeSlot (f : Nat) : Option Slot :=
  match bits f 12 10 with
  | 0 => keep (bits f 9 0 == 0) .nop
  | 1 => some (.aadd (bit f 9) (f8 f 6) (BitVec.ofNat 6 (bits f 5 0)))
  | 2 => some (.amov (classAt (bits f 9 8)) (f8 f 5) (classAt (bits f 4 3)) (f8 f 0))
  | 3 => some (if bit f 9 then .xferOut (classAt (bits f 8 7)) (f8 f 4) (f16 f 0)
               else .xferIn (classAt (bits f 8 7)) (f8 f 4) (f16 f 0))
  | 4 => some (.rep (BitVec.ofNat 10 (bits f 9 0)))
  | 5 => keep (bits f 9 0 == 0) .replc
  | 6 => some (.lci (BitVec.ofNat 10 (bits f 9 0)))
  | _ => none

/-! ## Compute fields (Table 13.5) -/

/-- Vector and accumulator operations, COP 0x00 to 0x15; `o` holds the operand bits. -/
def decodeVector (cop o : Nat) : Option Comp :=
  let d := f8 o 13
  let a := f8 o 10
  let b := f8 o 7
  let s := f8 o 3
  match cop with
  | 0x00 => keep (o == 0) .nop
  | 0x01 => keep (within o 0xFFF0) (.cmac4 d a b (bit o 6) (bit o 5) (bit o 4))
  | 0x02 => keep (within o 0x9FF0) (.cmac4v (bit o 15) a b (bit o 6) (bit o 5) (bit o 4))
  | 0x03 => keep (within o 0xFFB0) (.rmac8 d a b (bit o 5) (bit o 4))
  | 0x04 => keep (within o 0xFFF8) (.cmul4 d a b (bit o 6) s)
  | 0x05 => some (.vcmac4 d a b (f8 o 4) (bit o 3) (f8 o 0))
  | 0x06 => keep (within o 0xFFB8) (.vmul8 d a b s)
  | 0x07 => keep (within o 0xDFB8) (.bfly (f4 o 14) a b s)
  | 0x08 => keep (within o 0xFFBC) (.vadd d a b s (bit o 2))
  | 0x09 => keep (within o 0xFFBC) (.vsub d a b s (bit o 2))
  | 0x0A => keep (within o 0xFC38) (.vshr d a s)
  | 0x0B => keep (within o 0xFC38) (.vshl d a s)
  | 0x0C => keep (within o 0xDF80) (.czip (f4 o 14) a b)
  | 0x0D => keep (within o 0xDF80) (.cunzip (f4 o 14) a b)
  | 0x0E => keep (within o 0xFC00) (.vmov d a)
  | 0x0F => keep (within o 0xFE00) (.vbcast d (f16 o 9))
  | 0x10 => keep (within o 0xFF00 && !(bit o 8 && bit o 9)) (.vmaxa (f16 o 12) (f8 o 9) (bit o 8))
  | 0x11 => keep (within o 0xF038) (.pack d (bit o 12) s)
  | 0x12 => keep (within o 0xE038) (.acshr d s)
  | 0x13 => keep (within o 0xFC00) (.acadd d a)
  | 0x14 => keep (within o 0xFE38) (.actod (f16 o 12) (f8 o 9) s)
  | 0x15 => keep (within o 0xFE00) (.dtoac d (f16 o 9))
  | _ => none

/-- Scalar operations, COP 0x20 to 0x35. -/
def decodeScalar (cop o : Nat) : Option Comp :=
  let d := f16 o 12
  let a := f16 o 8
  let b := f16 o 4
  let n := f32 o 3
  let three := within o 0xFFF0
  let two := within o 0xFF00
  let shift := within o 0xFFF8
  match cop with
  | 0x20 => keep three (.add d a b)
  | 0x21 => keep three (.sub d a b)
  | 0x22 => keep three (.adds d a b)
  | 0x23 => keep three (.subs d a b)
  | 0x24 => keep three (.and d a b)
  | 0x25 => keep three (.or d a b)
  | 0x26 => keep three (.xor d a b)
  | 0x27 => keep (within o 0x0FF0) (.cmp a b)
  | 0x28 => keep two (.mov d a)
  | 0x29 => keep two (.neg d a)
  | 0x2A => keep two (.abs d a)
  | 0x2B => keep three (.min d a b)
  | 0x2C => keep three (.max d a b)
  | 0x2D => keep shift (.shl d a n)
  | 0x2E => keep shift (.asr d a n)
  | 0x2F => keep shift (.lsr d a n)
  | 0x30 => keep three (.mul d a b)
  | 0x31 => keep three (.mpy15 d a b)
  | 0x32 => keep three (.mpy31 d a b)
  | 0x33 => keep (within o 0xEFF0) (.mac31 (f8 o 13) a b)
  | 0x34 => keep two (.norm d a)
  | 0x35 => keep (within o 0xF100) (.mfs d (bit o 8))
  | _ => none

def decodeComp (f : Nat) : Option Comp :=
  if bits f 21 16 < 0x20 then decodeVector (bits f 21 16) (bits f 15 0) else decodeScalar (bits f 21 16) (bits f 15 0)

/-! ## Immediates (Tables 13.7 and 13.8) -/

def decodeDest (c i : Nat) : Option ImmDest :=
  let k := f8 c 0
  match c / 8 with
  | 0 => some (.v k (BitVec.ofNat 32 i))
  | 1 =>
    match c with
    | 8 => keep (decide (i < 65536)) (.lc (BitVec.ofNat 16 i))
    | 9 => some (.sr (BitVec.ofNat 32 i))
    | _ => none
  | 2 => some (.d (f16 c 0) (BitVec.ofNat 32 i))
  | 3 => some (.d (f16 c 0) (BitVec.ofNat 32 i))
  | 4 => keep (decide (i < 2 ^ 24)) (.p k (BitVec.ofNat 24 i))
  | 5 => keep (decide (i < 2 ^ 24)) (.q k (BitVec.ofNat 24 i))
  | 6 => keep (bits i 31 24 == (if bit i 23 then 255 else 0)) (.n k (BitVec.ofNat 24 i))
  | _ => keep (decide (i < 2 ^ 17)) (.m k (BitVec.ofNat 17 i))

def decodeSImm (op w : Nat) : Option SImm :=
  let d := f16 w 51
  let a := f16 w 47
  let i := BitVec.ofNat 16 (bits w 46 31)
  match op with
  | 0 => some (.addi d a i)
  | 1 => some (.andi d a i)
  | 2 => some (.ori d a i)
  | 3 => some (.xori d a i)
  | 4 => keep (bits w 54 51 == 0) (.cmpi a i)
  | 5 => keep (bits w 50 47 == 0) (.movi d i)
  | 6 => some (.movhi d a i)
  | _ => none

/-! ## Control (Tables 13.9 and 13.10) -/

def condAt (n : Nat) : Option Cond :=
  [Cond.always, .eq, .ne, .lt, .ge, .gt, .le, .cs, .cc, .vs, .vc, .mi, .pl, .gos, .sats][n]?

def decodeCtl (w : Nat) : Option Ctl :=
  let aux := bits w 25 13
  let t := BitVec.ofNat 13 (bits w 12 0)
  let none_ := bits w 12 0 == 0
  let always := bits w 55 52 == 0
  match bits w 60 56 with
  | 0 => (condAt (bits w 55 52)).bind (fun c => keep (aux == 0) (.br c t))
  | 1 => keep (always && aux == 0) (.brlc t)
  | 2 => (condAt (bits w 55 52)).bind (fun c => keep (aux == 0) (.call c t))
  | 3 => (condAt (bits w 55 52)).bind (fun c => keep (decide (aux < 16) && none_) (.jmpr c (Fin.ofNat 16 aux)))
  | 4 => keep (always && decide (aux < 16) && none_) (.callu (Fin.ofNat 16 aux))
  | 5 => keep (always && aux == 0 && none_) .retu
  | 6 => keep (always && decide (aux < 2) && none_) (.done (aux == 1))
  | 7 => keep (always && decide (aux < 256) && none_) (.trap (BitVec.ofNat 8 aux))
  | _ => none

/-! ## Words (Tables 13.1 and 13.2) -/

/-- The word that 64 bits spell; none where they raise ILLEGAL_WORD by their encoding (R353). -/
def decodeNat (w : Nat) : Option VeWord :=
  match bits w 63 61 with
  | 0 =>
    match decodeComp (bits w 60 39), decodeMove (bits w 38 26), decodeMove (bits w 25 13), decodeSlot (bits w 12 0) with
    | some c, some x, some y, some s => some (.parallel c x y s)
    | _, _, _, _ => none
  | 1 =>
    match decodeComp (bits w 60 39), decodeDest (bits w 38 33) (bits w 31 0) with
    | some c, some d => keep (!bit w 32) (.immediate c d)
    | _, _ => none
  | 2 =>
    match decodeCtl w, decodeMove (bits w 51 39), decodeMove (bits w 38 26) with
    | some c, some x, some y => some (.control c x y)
    | _, _, _ => none
  | 3 =>
    match decodeSImm (bits w 60 55) w, decodeMove (bits w 25 13), decodeMove (bits w 12 0) with
    | some o, some x, some y => keep (bits w 30 26 == 0) (.scalarImm o x y)
    | _, _, _ => none
  | _ => none

def decodeWord (w : BitVec 64) : Option VeWord := decodeNat w.toNat

/-! ## The encoder: a word from its fields, by the same tables -/

def codeBool (b : Bool) : Nat := if b then 1 else 0
def codeMode (m : AMode) : Nat := match m with | .plain => 0 | .postN => 1 | .postInc => 2 | .indexed => 3
def codeClass (c : AClass) : Nat := match c with | .p => 0 | .q => 1 | .n => 2 | .m => 3

/-- A pointer, a mode and the low bit: bits 5 to 0 of a move. -/
def codePtr (p : Fin 8) (m : AMode) (low : Nat) : Nat := p.val * 8 + codeMode m * 2 + low

def encodeMove (m : Move) : Nat :=
  match m with
  | .nop => 0
  | .ldQ r p k => 1 * 1024 + r.val * 64 + codePtr p k 0
  | .stQ r p k => 2 * 1024 + r.val * 64 + codePtr p k 0
  | .ldW r p k => 3 * 1024 + r.val * 64 + codePtr p k 0
  | .ldH r p k => 3 * 1024 + r.val * 64 + codePtr p k 1
  | .stW r p k => 4 * 1024 + r.val * 64 + codePtr p k 0
  | .stH r p k => 4 * 1024 + r.val * 64 + codePtr p k 1
  | .ldA c i p k => 5 * 1024 + codeClass c * 256 + i.val / 2 * 64 + codePtr p k (i.val % 2)
  | .stAC k s p form => 6 * 1024 + k.val * 128 + s.val * 16 + p.val * 2 + codeBool form
  | .ldL h p k => 7 * 1024 + h.val * 128 + codePtr p k 0
  | .stL h p k => 7 * 1024 + h.val * 128 + codePtr p k 1

def encodeSlot (s : Slot) : Nat :=
  match s with
  | .nop => 0
  | .aadd q k i => 1 * 1024 + codeBool q * 512 + k.val * 64 + i.toNat
  | .amov c i d j => 2 * 1024 + codeClass c * 256 + i.val * 32 + codeClass d * 8 + j.val
  | .xferIn c i d => 3 * 1024 + codeClass c * 128 + i.val * 16 + d.val
  | .xferOut c i d => 3 * 1024 + 512 + codeClass c * 128 + i.val * 16 + d.val
  | .rep n => 4 * 1024 + n.toNat
  | .replc => 5 * 1024
  | .lci i => 6 * 1024 + i.toNat

/-- Two or three scalar registers at their places. -/
def codeDAB (d a b : Fin 16) : Nat := d.val * 4096 + a.val * 256 + b.val * 16
/-- Vector operands: D, A, B and S at their places. -/
def codeVec (d a b s : Fin 8) : Nat := d.val * 8192 + a.val * 1024 + b.val * 128 + s.val * 8

/-- COP and the operand bits of a compute field. -/
def codeComp (c : Comp) : Nat × Nat :=
  match c with
  | .nop => (0x00, 0)
  | .cmac4 k a b j n r => (0x01, codeVec k a b 0 + codeBool j * 64 + codeBool n * 32 + codeBool r * 16)
  | .cmac4v h a b j n r => (0x02, codeBool h * 32768 + codeVec 0 a b 0 + codeBool j * 64 + codeBool n * 32 + codeBool r * 16)
  | .rmac8 k a b n r => (0x03, codeVec k a b 0 + codeBool n * 32 + codeBool r * 16)
  | .cmul4 d a b j s => (0x04, codeVec d a b s + codeBool j * 64)
  | .vcmac4 d c a b j s => (0x05, codeVec d c a 0 + b.val * 16 + codeBool j * 8 + s.val)
  | .vmul8 d a b s => (0x06, codeVec d a b s)
  | .bfly h a b s => (0x07, h.val * 16384 + codeVec 0 a b s)
  | .vadd d a b s t => (0x08, codeVec d a b s + codeBool t * 4)
  | .vsub d a b s t => (0x09, codeVec d a b s + codeBool t * 4)
  | .vshr d a s => (0x0A, codeVec d a 0 s)
  | .vshl d a s => (0x0B, codeVec d a 0 s)
  | .czip h a b => (0x0C, h.val * 16384 + codeVec 0 a b 0)
  | .cunzip h a b => (0x0D, h.val * 16384 + codeVec 0 a b 0)
  | .vmov d a => (0x0E, codeVec d a 0 0)
  | .vbcast d a => (0x0F, d.val * 8192 + a.val * 512)
  | .vmaxa d a p => (0x10, d.val * 4096 + a.val * 512 + codeBool p * 256)
  | .pack d h s => (0x11, d.val * 8192 + codeBool h * 4096 + s.val * 8)
  | .acshr k s => (0x12, codeVec k 0 0 s)
  | .acadd d s => (0x13, codeVec d s 0 0)
  | .actod d k s => (0x14, d.val * 4096 + k.val * 512 + s.val * 8)
  | .dtoac k a => (0x15, k.val * 8192 + a.val * 512)
  | .add d a b => (0x20, codeDAB d a b)
  | .sub d a b => (0x21, codeDAB d a b)
  | .adds d a b => (0x22, codeDAB d a b)
  | .subs d a b => (0x23, codeDAB d a b)
  | .and d a b => (0x24, codeDAB d a b)
  | .or d a b => (0x25, codeDAB d a b)
  | .xor d a b => (0x26, codeDAB d a b)
  | .cmp a b => (0x27, codeDAB 0 a b)
  | .mov d a => (0x28, codeDAB d a 0)
  | .neg d a => (0x29, codeDAB d a 0)
  | .abs d a => (0x2A, codeDAB d a 0)
  | .min d a b => (0x2B, codeDAB d a b)
  | .max d a b => (0x2C, codeDAB d a b)
  | .shl d a n => (0x2D, codeDAB d a 0 + n.val * 8)
  | .asr d a n => (0x2E, codeDAB d a 0 + n.val * 8)
  | .lsr d a n => (0x2F, codeDAB d a 0 + n.val * 8)
  | .mul d a b => (0x30, codeDAB d a b)
  | .mpy15 d a b => (0x31, codeDAB d a b)
  | .mpy31 d a b => (0x32, codeDAB d a b)
  | .mac31 k a b => (0x33, k.val * 8192 + codeDAB 0 a b)
  | .norm d a => (0x34, codeDAB d a 0)
  | .mfs d lc => (0x35, d.val * 4096 + codeBool lc * 256)

def encodeComp (c : Comp) : Nat := (codeComp c).1 * 65536 + (codeComp c).2

/-- The destination code and the 32 immediate bits of an IMMEDIATE word. -/
def encodeDest (d : ImmDest) : Nat × Nat :=
  match d with
  | .v k i => (k.val, i.toNat)
  | .lc i => (8, i.toNat)
  | .sr i => (9, i.toNat)
  | .d k i => (16 + k.val, i.toNat)
  | .p k i => (32 + k.val, i.toNat)
  | .q k i => (40 + k.val, i.toNat)
  | .n k i => (48 + k.val, if i.getLsbD 23 then 255 * 2 ^ 24 + i.toNat else i.toNat)
  | .m k i => (56 + k.val, i.toNat)

/-- The operation and registers of a SCALAR_IMM word, bits 60 to 31. -/
def encodeSImm (o : SImm) : Nat :=
  let at_ := fun (op d a : Nat) (i : BitVec 16) => op * 2 ^ 24 + d * 2 ^ 20 + a * 2 ^ 16 + i.toNat
  match o with
  | .addi d a i => at_ 0 d a i
  | .andi d a i => at_ 1 d a i
  | .ori d a i => at_ 2 d a i
  | .xori d a i => at_ 3 d a i
  | .cmpi a i => at_ 4 0 a i
  | .movi d i => at_ 5 d 0 i
  | .movhi d a i => at_ 6 d a i

def codeCond (c : Cond) : Nat :=
  match c with
  | .always => 0 | .eq => 1 | .ne => 2 | .lt => 3 | .ge => 4 | .gt => 5 | .le => 6 | .cs => 7 | .cc => 8 | .vs => 9
  | .vc => 10 | .mi => 11 | .pl => 12 | .gos => 13 | .sats => 14

/-- The control operation with its condition, bits 60 to 52, and its AUX and target, bits 25 to 0. -/
def encodeCtl (c : Ctl) : Nat × Nat :=
  match c with
  | .br k t => (0 * 16 + codeCond k, t.toNat)
  | .brlc t => (1 * 16, t.toNat)
  | .call k t => (2 * 16 + codeCond k, t.toNat)
  | .jmpr k r => (3 * 16 + codeCond k, r.val * 8192)
  | .callu e => (4 * 16, e.val * 8192)
  | .retu => (5 * 16, 0)
  | .done commit => (6 * 16, codeBool commit * 8192)
  | .trap code => (7 * 16, code.toNat * 8192)

def encodeNat (w : VeWord) : Nat :=
  match w with
  | .parallel c x y s => 0 * 2 ^ 61 + encodeComp c * 2 ^ 39 + encodeMove x * 2 ^ 26 + encodeMove y * 2 ^ 13 + encodeSlot s
  | .immediate c d => 1 * 2 ^ 61 + encodeComp c * 2 ^ 39 + (encodeDest d).1 * 2 ^ 33 + (encodeDest d).2
  | .control c x y =>
    2 * 2 ^ 61 + (encodeCtl c).1 * 2 ^ 52 + encodeMove x * 2 ^ 39 + encodeMove y * 2 ^ 26 + (encodeCtl c).2
  | .scalarImm o x y => 3 * 2 ^ 61 + encodeSImm o * 2 ^ 31 + encodeMove x * 2 ^ 13 + encodeMove y

/-- The 64 bits of a word. -/
def encodeWord (w : VeWord) : BitVec 64 := BitVec.ofNat 64 (encodeNat w)

/-- The command that a table word spells. The table gives none of its rows bits, so no word spells a command. -/
def decodeTableWord (_nbits _w : Nat) : Option Instr := none

end Sys2Proof
end

