-- ==== Sys2Proof/Config.lean ====
section
/-! DEFINITION. What the spec leaves open: free values, each a constant with no body, so that every claim holds
whatever it is. -/

namespace Sys2Proof.Config

/-- A free number for the `n`th draw of the machine, whatever it is used for (log entry 1). -/
opaque freeNat : Nat → Nat

/-- HMAC-SHA256 truncated to 16 bytes (R422): the key, then the bytes it covers (log entry 2). -/
opaque hmacTag : List Byte → List Byte → BitVec 128

/-- SHA-384 of a byte string (R573, R578; log entry 2). -/
opaque sha384 : List Byte → List Byte

/-- Whether an ECDSA P-384 signature verifies: public key, signature, digest (R573, R578; log entry 2). -/
opaque ecdsaVerifies : List Byte → List Byte → List Byte → Bool

/-- Byte `k` of the key stream that the cipher of an SRTP suite adds to a packet: suite, master key and salt, whether SRTCP, SSRC,
index, `k` (R152, R156; log entry 2). -/
opaque srtpStream : Nat → List Byte → Bool → Nat → Int → Nat → Byte

/-- The tag of an SRTP suite, of which a packet carries the first bytes: suite, master key and salt, whether SRTCP, index, the bytes it
covers (R152, R156; log entry 2). -/
opaque srtpTag : Nat → List Byte → Bool → Int → List Byte → BitVec 128

/-- A free number for item `i` of the `n`th draw: a run of a channel takes one draw and numbers what it needs of it
(log entry 1). -/
opaque freeAt : Nat → Nat → Nat

/-- The smoothed level of a gain stage after 5 ms with a time constant in ms: the level before, that of the frame (R282; log entry
101). -/
opaque smoothed : Nat → Int → Int → Int

/-- A running estimate of a level with a time constant of 200 ms after a block: the block's ms, the estimate before, the level of the
block, in 0.1 dB (R251; log entry 106). -/
opaque runningLevel : Nat → Int → Int → Int

/-- The linear factor, of which 2^24 is unity, of a gain in units of 0.0005 dB other than 0 (R281; log entry 101). -/
opaque gainFactor : Int → Int

/-- Word `k` of half-band response `r` of the coefficient ROM, Q23 (R228; log entry 3). -/
opaque halfBand : Nat → Nat → BitVec 24

/-- Word `k` of interpolator prototype `p` of the coefficient ROM, Q23 (R228; log entry 3). -/
opaque prototype : Nat → Nat → BitVec 24

/-- The image of a shipped table (R284; log entry 3). -/
opaque shippedImage : Nat → List Byte

/-- The input bytes the Reducer has read when it has written so many bytes (R465; log entry 2). -/
opaque deflateRead : List Byte → Nat → Nat

/-- The DEFLATE stream the Reducer writes for its input, where R460 allows it (log entry 110). -/
opaque deflate : List Byte → List Byte

/-- The device's own IP addresses on a port, or on a pair under its lower port: Damium's configuration (R96, R140, R418;
log entry 2). -/
opaque ownAddresses : Nat → List (List Byte)

/-- Whether the device's own clock uses a PTP domain: Damium's configuration (R101; log entry 2). -/
opaque ptpDomainUsed : Nat → Bool

/-- What Damium's firmware answers, if it answers, to an ARP, neighbour discovery or ICMP frame received on a port: the frame it
sends (R67; log entry 2). -/
opaque protocolAnswer : Nat → List Byte → Option (List Byte)

/-- The bytes of a stack message after its KIND and length, from its kind and what it carries (R530; log entry 2). -/
opaque messageBody : Nat → List (List Byte) → List Byte

/-- The KIND of the messages that Table 21.3 does not list: a relayed step, the reservation of a move, its result, a frame for
a port of another device (R166, R538, R545; log entry 2). -/
opaque messageKind : Nat → Nat

/-- What the command set of a firmware release lacks of this manual: Fylos version, opcode, parameter type, value (R548, R551;
log entry 2). -/
opaque releaseLacks : Nat → List (Nat × Nat × Option Nat × Option (List Byte))

/-- ERROR_OFFSET of a refusal for which no byte of the parameters is at fault, by the command's SEQUENCE and the parameter's type (R403,
Table 15.3; log entry 76). -/
opaque openOffset : Nat → Nat → Nat

/-- The kind number that the INSTANCE before each power domain of a POWER_QUERY reply carries: the list of kinds has none
(R436, R505; log entry 2). -/
opaque powerKind : Nat

end Sys2Proof.Config
end

