-- ==== Sys2Proof/Machine/StHost.lean ====
section
/-! DEFINITION. State of the Fylos protocol (R399 to R431), the host rings (Table 15.5), the notice destinations
(R426, R427) and the error log (R524). -/

namespace Sys2Proof.Machine

/-- A table with natural-number keys: strictly rising keys, no entry equal to the default of its key. -/
abbrev Tab (α : Type) := List (Nat × α)

/-- Counters of one unit, keyed by row order in the unit's counters table; unlisted counters read 0. -/
abbrev Counts := Tab Nat

/-- KIND of a packet (Table 15.1). -/
inductive PacketKind
  | command | reply | completion | notice
  deriving DecidableEq, Repr

/-- What happens once a reply has left (R439). -/
inductive Fence
  | none | reset | lifeCycle (target : Nat)
  deriving DecidableEq, Repr

/-- One part of a reply, completion or notice on its way out (R408). `dest` is the notice destination it belongs to. -/
structure OutPart where
  kind : PacketKind
  version : Nat
  opcode : Nat
  status : Nat
  sequence : Nat
  target : Nat
  part : Nat
  parts : Nat
  device : Nat
  tagged : Bool
  dest : Option Nat
  fence : Fence
  tlvs : List Tlv
  deriving DecidableEq, Repr

/-- One ring pair (Table 15.5). `covered` holds the entries the doorbell has covered and Damium has not read,
`waiting` the parts that wait for room (R416), `written` the parts in host memory between RPL_HEAD and RPL_TAIL; `stopped`
tells that intake has stopped until the pair is enabled again (R415), `coalSince` when the first unsignalled entry was written. -/
structure Ring where
  cmdBaseLo : Word := 0
  cmdBaseHi : Word := 0
  rplBaseLo : Word := 0
  rplBaseHi : Word := 0
  cmdTail : BitVec 12 := 0
  cmdHead : BitVec 12 := 0
  rplHead : BitVec 12 := 0
  rplTail : BitVec 12 := 0
  enable : Bool := false
  vector : BitVec 6 := 0
  coalCount : BitVec 8 := 1
  coalTime : BitVec 16 := 0
  cmdError : Bool := false
  dmaError : Bool := false
  errCause : BitVec 4 := 0
  errIndex : BitVec 12 := 0
  covered : List (List Byte) := []
  held : List (Nat × Packet) := []
  waiting : List OutPart := []
  written : List OutPart := []
  unsignalled : Nat := 0
  coalSince : Nat := 0
  stopped : Bool := false
  deriving DecidableEq, Repr

/-- KIND of a notice destination (Table 16.2). -/
inductive DestKind
  | none | ring | udp
  deriving DecidableEq, Repr

/-- One notice destination (R426, R427, R441). -/
structure NoticeDest where
  kind : DestKind := .none
  ringPair : Nat := 0
  addr : List Byte := []
  port : Nat := 0
  groups : Nat := 0
  version : Nat := 4
  sequence : BitVec 32 := 0
  lostCount : Nat := 0
  lostFirst : Nat := 0
  lostLast : Nat := 0
  deriving DecidableEq, Repr

/-- One cached command (R425). -/
structure Cached where
  sequence : Nat
  header : List Nat
  params : List Byte
  replies : List OutPart
  completions : List OutPart
  deriving DecidableEq, Repr

/-- A datagram waiting for the bulk class of a port (R418). -/
structure Datagram where
  addr : List Byte
  port : Nat
  egress : Option Nat
  part : OutPart
  deriving DecidableEq, Repr

/-- The order of R430. -/
inductive FylosCount
  | badMagic | badLength | authFail | helloDiscard | badStateDiscard | duplicates | droppedCompletions
  | noticesLost | noticesFiltered
  deriving DecidableEq, Repr

/-- The Fylos interpreter (R405 to R430). `window` holds the accepted sequences among the 1,024 at and below `highest`
as their distances from it. -/
structure Fylos where
  bootNonce : List Byte := List.replicate 16 0
  highest : BitVec 32 := 0
  first : Bool := true
  window : List Nat := []
  cache : List Cached := []
  outstanding : List CmdRef := []
  hellos : List Nat := []
  counts : Counts := []
  dests : Tab NoticeDest := []
  udpOut : List Datagram := []
  ready : Bool := true
  readySent : Bool := false
  halted : Bool := false
  switching : Bool := false
  heldUdp : List (Nat × Packet) := []
  nextSource : Nat := 0
  deriving DecidableEq, Repr

/-- Leg types (Table 2.1). -/
inductive LegKind
  | none | tdm | rtp | stack
  deriving DecidableEq, Repr

/-- One leg and its binding (Table 16.4). -/
structure Leg where
  kind : LegKind := .none
  bound : Bool := false
  highway : Nat := 0
  slot : Nat := 0
  law : Nat := 0
  compand : Nat := 0
  template : Nat := 0
  dstAddr : List Byte := []
  dstPort : Nat := 0
  srcPort : Nat := 0
  ssrc : Nat := 0
  txSrtp : Option Nat := none
  egress : Nat := 0
  peerDevice : Nat := 0
  peerChannel : Nat := 0
  peerLeg : Nat := 0
  deriving DecidableEq, Repr

/-- One error log entry (Table 20.4). -/
structure LogEntry where
  seq : Nat
  cause : Nat
  level : Nat
  action : Nat
  unit : Nat
  channel : Nat
  detail : Nat
  memory : Nat
  address : Nat
  time : Nat
  deriving DecidableEq, Repr

/-- Correctable errors of one memory kind and unit over the trailing 10 s (R514). -/
structure Threshold where
  times : List Nat := []
  armed : Bool := true
  belowSince : Option Nat := none
  deriving DecidableEq, Repr

/-- The error log store and the trackers beside it (R513, R514, R524). -/
structure ErrorLog where
  entries : List LogEntry := []
  next : Nat := 1
  corrected : Nat := 0
  uncorrected : Nat := 0
  fatal : Nat := 0
  thresholds : Tab Threshold := []
  deriving DecidableEq, Repr

end Sys2Proof.Machine
end

