-- ==== Sys2Proof/Machine/StBoard.lean ====
section
/-! DEFINITION. State of the host-visible registers outside the rings, of boot, of the interrupt table and of the test
port (R558 to R581). -/

namespace Sys2Proof.Machine

/-- PHASE of BOOT_STATUS (Table 23.3). -/
inductive BootPhase
  | reset | flashSelect | flashLoad | verify | waitHost | hostVerify | start | running | failed
  deriving DecidableEq, Repr

/-- ERROR of BOOT_STATUS (Table 23.3). -/
inductive BootError
  | none | selector | header | key | signature | payloadHash | enlarge | directory | size | flashIo | dram
  deriving DecidableEq, Repr

/-- One entry of the MSI-X table: its four dwords; the mask bit is set until written. -/
structure MsixEntry where
  addrLo : Word := 0
  addrHi : Word := 0
  data : Word := 0
  control : Word := 1
  deriving DecidableEq, Repr

/-- The instruction in force of the test port (Table 23.8). -/
inductive TapInstr
  | idcode | samplePreload | extest | extestPulse | extestTrain | clamp | highz | debug | debugUnlock | fuseProg | bypass
  deriving DecidableEq, Repr

/-- Board-side state. `msixSent` counts the messages sent by vector, `balls` are the values the boundary cells hold;
`dataRegister` is the data register last shifted out, `weights` the DRAM weights of DEV_ARB_SET, `readData` what the last
read of BAR0, BAR2 or DEBUG returned, `damium` the bytes DEBUG has written to Damium. -/
structure Board where
  devIrq : BitVec 3 := 3
  devIrqMask : BitVec 3 := 0
  msix : Tab MsixEntry := []
  pba : Tab Bool := []
  msixSent : Counts := []
  bootPhase : BootPhase := .running
  bootError : BootError := .none
  bootSel : Nat := 0
  bootAddrLo : Word := 0
  bootAddrHi : Word := 0
  bootLen : BitVec 25 := 0
  barPartial : Nat := 0
  barOutside : Nat := 0
  dramTrain : Nat := 15
  tap : TapInstr := .idcode
  boundary : List Bool := []
  ballsHeld : Bool := false
  dataRegister : List Byte := []
  debugUnlocked : Bool := false
  debugDenied : Bool := false
  unlockFails : Nat := 0
  memorySpace : Bool := true
  weights : Tab Nat := []
  tdmVsel : Bool := false
  readData : List Byte := []
  damium : Tab Byte := []
  deriving DecidableEq, Repr

end Sys2Proof.Machine
end

