-- ==== Sys2Proof/Machine/StMedia.lean ====
section
/-! DEFINITION. Media state of a channel: streams (R217 to R244), playout (R169 to R197), codecs (R198 to R216), the echo
canceller (R245 to R267) and tones, gains and prompts (R269 to R295). Samples are Q15 integers; positions count samples
at the channel rate. -/

namespace Sys2Proof.Machine

/-! ## Resampling -/

/-- One filter chain (R223, R227): `hist` holds each stage's inputs, newest first, `odd` whether a decimating stage has
taken one of its two inputs, `x` the interpolator's inputs, newest first, the newest with index `newest`; `edges` holds the
indexes of the first samples after the latest boundaries, newest first (R235). -/
structure Chain where
  fin : Nat := 8
  fout : Nat := 8
  n : Nat := 0
  stage : Nat := 14
  proto : Nat := 6
  shifts : List Nat := [0, 0, 0, 0, 0]
  snap : Bool := false
  hist : List (List Int) := []
  odd : List Bool := []
  x : List Int := []
  newest : Int := -1
  pos : Int := 0
  fr : Nat := 0
  sub : Nat := 0
  edges : List Int := [0]
  deriving DecidableEq, Repr

/-- A dissolve in progress (R237): its old chain, the outputs made since it began, whether the old chain receives zeros,
and the whole samples a realignment moves pos by. -/
structure Dissolve where
  old : Chain
  count : Nat
  oldZeros : Bool
  move : Int
  deriving DecidableEq, Repr

/-- The counters of Table 8.11, in its order. -/
inductive StreamCount
  | syncResets | settleRestart | dissolves | dissolveReplaced | realign
  | satStage1 | satStage2 | satStage3 | satStage4 | satInterp | defaulted | dupBlock | storeError
  deriving DecidableEq, Repr

/-- One stream (Table 8.1). `inRate` is the rate in kHz of its input; `held` tells of a request held behind a dissolve, `heldMove` the
move of a realignment and `heldZeros` whether it is for another Fin or slot (R237, R239). `settle` is the flagged outputs still to
come (R240); `measured` the tick of the last fill measurement (R233); `out` the outputs, with their settling flag, not yet taken;
`last` those of the last hand-over, or those last taken by a run of tick `taken` (R221). -/
structure Stream where
  present : Bool := false
  inRate : Nat := 8
  chain : Chain := {}
  dissolve : Option Dissolve := none
  held : Bool := false
  heldMove : Int := 0
  heldZeros : Bool := false
  settle : Nat := 0
  settling : Bool := false
  trim : Int := 0
  fill : Int := 0
  target : Option Int := none
  measured : Option Nat := none
  lastTick : Option Nat := none
  out : List (Int × Bool) := []
  last : List (Int × Bool) := []
  taken : Option Nat := none
  counts : Counts := []
  deriving DecidableEq, Repr

/-! ## Playout -/

/-- What a sample of provisional audio is. -/
inductive Mark
  | decoded | concealed | fec | quiet | event
  deriving DecidableEq, Repr

/-- A packet in the jitter buffer (R174): its extended number, payload type, playout point, samples and payload, whether it is a
telephone event's (R195), and whether its number belongs to an earlier SSRC (R177). -/
structure HeldPacket where
  ext : Int
  pt : Nat
  pos : Int
  len : Nat
  event : Bool
  old : Bool := false
  payload : List Byte
  deriving DecidableEq, Repr

/-- A frame that has become due (R173): where it lies, what its audio is, the codec that decodes or conceals it (R201), whether it
holds a negative and how a late packet recovered it (0 no, 1 whole, 2 in part). `payload` is what its samples follow from: the
G.711 codes, or the number of a telephone event; the first of them lies at `org`. -/
structure FrameRec where
  pos : Int
  len : Nat
  mark : Mark
  codec : Nat := 0
  payload : List Byte := []
  org : Int := 0
  negative : Bool := false
  late : Nat := 0
  deriving DecidableEq, Repr

/-- Whether a frame was concealed (R182, R204). -/
def FrameRec.concealed (f : FrameRec) : Bool := f.mark == .concealed || f.mark == .fec

/-- A received telephone event (R195). -/
structure RxEvent where
  pos : Int
  event : Nat
  volume : Nat
  duration : Nat
  ended : Bool
  reported : Option Nat
  extended : Nat
  deriving DecidableEq, Repr

/-- The playout counters of Table 6.3, in its order. -/
inductive PlayCount
  | framesPlayed | concealMs | lostFrames | lateRecovered | latePartial | lateDiscard | duplicate | earlyDiscard
  | storeFull | negativeReleasedEarly | ssrcPending | ssrcStale | tsJump | growMs | shrinkMs | driftExcess | restarts
  | eventsProvisional | eventsConfirmed | eventsWithdrawn
  deriving DecidableEq, Repr

/-- The playout of one RTP leg. Positions count samples at the channel rate, times ns; `fix` is F; `audio` is [F, H) at `rate` kHz,
the rate of the codec in use; `cursor` is where the frames already due end, `lastExt` the number of the last of them; `quiet` tells
that silence or comfort noise follows. `adopted` tells that the next packet of `ssrc` starts its timeline (R176); the latest packet
placed has timestamp `baseTs`, position `basePos` and number `baseExt`, and `baseSid` tells that it ends in a silence descriptor;
`lineStart` is where the present timeline begins. `jitters` are those of the packets in `transits` as they were placed (R178);
`shifts` holds the latest moves of the timeline by time-scaling: where, and by how many samples; `scaled` those not yet fixed:
position, samples, whether they were added. `redo` is where a telephone event's update asks for its audio again (R195).
`fixedConcealed` and `fixedFec` count fixed samples of each kind. -/
structure Play where
  started : Bool := false
  fresh : Bool := true
  ssrc : Nat := 0
  candidate : Option (Nat × Nat) := none
  stale : Option Nat := none
  adopted : Bool := false
  baseTs : Int := 0
  basePos : Int := 0
  baseExt : Int := 0
  baseSid : Bool := false
  lineStart : Int := 0
  lastExt : Option Int := none
  oldTiming : Option (Int × Int) := none
  clock : Nat := 8000
  rate : Nat := 8
  cursor : Int := 0
  quiet : Bool := true
  pt : Option Nat := none
  frameLen : Nat := 160
  high : Int := 0
  placed : List Int := []
  fix : Int := 0
  audio : List (Int × Mark) := []
  packets : List HeldPacket := []
  frames : List FrameRec := []
  scaled : List (Int × Nat × Bool) := []
  shifts : List (Int × Int) := []
  events : List RxEvent := []
  redo : Option Int := none
  transits : List Int := []
  jitters : List Int := []
  placedSince : Nat := 0
  target : Nat := 40000000
  depth : Int := 0
  drift : Int := 0
  epoch : Option Nat := none
  fixedConcealed : Nat := 0
  fixedFec : Nat := 0
  fixedGrow : Nat := 0
  fixedShrink : Nat := 0
  counts : Counts := []
  deriving DecidableEq, Repr

/-! ## Codecs -/

/-- The codec counters of Table 7.8, in its order. -/
inductive CodecCount
  | ptUnknown | switchRx | switchTx | fecMs | cnRx | sidTx | cmrFollowed | eventsTx | faxDecisions | faxSwitches
  | modeDiscard | t38IfpRx | t38IfpTx | t38LostIfp | t38RedundancyUsed
  deriving DecidableEq, Repr

/-- A telephone event being sent (R210): its onset, decision sample and end as positions of the channel, the packets sent, the time
since the last, the end packets sent, and the clock ticks of the segments that are full (RFC 4733). -/
structure TxEvent where
  event : Nat
  onset : Int
  decision : Int
  volume : Nat
  endAt : Option Int := none
  sent : Nat := 0
  sinceMs : Nat := 0
  ends : Nat := 0
  segTicks : Nat := 0
  deriving DecidableEq, Repr

/-- The encoder of one RTP leg: TX_PT and its map entry in use; `waitSwitch` is the automatic switch decided in the last run (R213),
`newCodec` tells that no packet of the codec has been sent yet (R209). `ts` is the timestamp of the first sample of the block of tick
`tsTick`. A packet begun has the timestamp `partialTs` and holds `frames`, each with its frame type, and `pendMs` of a frame not yet
whole. -/
structure TxLeg where
  started : Bool := false
  pt : Nat := 128
  entry : List Byte := []
  waitSwitch : Option Nat := none
  vadOff : Bool := false
  fax : Bool := false
  seq : Nat := 0
  ts : Nat := 0
  tsTick : Nat := 0
  marker : Bool := true
  newCodec : Bool := true
  frames : List (Nat × List Byte) := []
  pendMs : Nat := 0
  partialTs : Nat := 0
  silent : Bool := false
  sinceSid : Nat := 0
  mode : Option Nat := none
  events : List TxEvent := []
  udptlSeq : Nat := 0
  ifpSent : List (List Byte) := []
  ifpSeen : Option Nat := none
  ifpQueue : List (List Byte) := []
  ifpStart : Option Nat := none
  counts : Counts := []
  deriving DecidableEq, Repr

/-! ## Echo canceller -/

/-- Canceller states (Table 9.4), in its order. -/
inductive EchoState
  | off | reset | converging | converged | frozen | toneDisabled
  deriving DecidableEq, Repr

/-- The echo counters of Table 9.9, in its order. -/
inductive EchoCount
  | adaptBlocks | dtBlocks | nlpBlocks | bypassBlocks | pathChange | divergence | toneDisables | nlpDisables
  | resets | coefSat | storeError | settleSkipped
  deriving DecidableEq, Repr

/-- A partition of the filter (R252, Table 9.2): COEF_EXP, REF_EXP, PEAK_TAP with the magnitude found there, and its mantissas, re then
im of each bin, as far as they have been written. -/
structure Partition where
  exp : Int := 0
  refExp : Int := 0
  peakTap : Nat := 0
  peakSize : Nat := 0
  coefs : List Int := []
  deriving DecidableEq, Repr

/-- The canceller of a channel (Tables 9.2 and 9.3). `delay` holds the reference samples, with their settling flag, newest first;
`peaks` the largest reference magnitude of each past block, newest first; `parts` the partitions; `spectra` the reference spectra by
ring slot, `powers` the bin powers, `noise` the near-end noise spectrum; `estimates` the eight of Table 9.8 in 0.1 dB, `echoLevel` that
of the modelled echo. -/
structure Echo where
  state : EchoState := .off
  before : EchoState := .off
  leg : Nat := 1
  align : Nat := 0
  delay : List (Int × Bool) := []
  peaks : List Nat := []
  parts : List Partition := []
  spectra : List (List Int) := []
  powers : List Nat := []
  noise : List Nat := []
  blocks : Nat := 0
  estimates : List Int := []
  echoLevel : Int := 0
  doubleTalk : Bool := false
  hang : Nat := 0
  energyMs : Nat := 0
  convergeRun : Nat := 0
  divergeRun : Nat := 0
  nlp : Bool := false
  nlpHang : Nat := 0
  bypass : Bool := false
  nlpDisabled : Bool := false
  quietMs : Nat := 0
  decided : Option Bool := none
  lastOut : List Int := []
  counts : Counts := []
  deriving DecidableEq, Repr

/-! ## Tones, gains and prompts -/

/-- A detector at work (R271 to R275): the image it runs, its state machine, its resonators and those of the previous
frame end. `declared`, `evTyp` and `evValue` are the event declared and not yet ended. -/
structure Detector where
  table : Nat
  image : List Byte
  state : Nat := 0
  timer : Nat := 0
  typ : Nat := 0
  value : Nat := 0
  onset : Int := 0
  declared : Option (Nat × Int) := none
  evTyp : Nat := 0
  evValue : Nat := 0
  bins : List (Int × Int) := []
  old : List (Int × Int) := []
  deriving DecidableEq, Repr

/-- A tone event reported as PROVISIONAL and not yet settled (R189, R190). -/
structure ProvEvent where
  id : Nat
  table : Nat
  typ : Nat
  value : Nat
  onset : Int
  decision : Int
  deriving DecidableEq, Repr

/-- A fixed-pass event decided of late, against which provisional ones are settled (R190). -/
structure FixedEvent where
  id : Nat
  typ : Nat
  value : Nat
  onset : Int
  matched : Bool
  deriving DecidableEq, Repr

/-- A generator at work toward a leg (R278, R279): the image it began with, its segment, the samples played of it and
the loops done. -/
structure Generator where
  table : Nat
  image : List Byte
  replace : Bool
  level : Int
  segment : Nat := 0
  played : Nat := 0
  loops : Nat := 0
  deriving DecidableEq, Repr

/-- A prompt play (R292): its list, the place in it, the repetitions done and its settings. -/
structure Prompting where
  prompts : List Nat
  index : Nat := 0
  position : Nat := 0
  repeats : Nat
  done : Nat := 0
  replace : Bool
  level : Int
  notify : Bool
  deriving DecidableEq, Repr

/-- A gain stage (R281, R282): its smoothed input level in 0.1 dBm0, if it has one yet, its AGC gain in units of 0.0005 dB, and the
linear factor at the end of the last frame, of which 2^24 is unity. -/
structure GainStage where
  level : Option Int := none
  agc : Int := 0
  factor : Int := 16777216
  deriving DecidableEq, Repr

/-- The media state of one leg. `stackIn` holds the blocks of a STACK leg with their tick numbers (R543), `stackCounts` its
counters OVERRUN, UNDERRUN and WAIT, `stackRate` the rate in kHz of the blocks its peer sends, 0 before the first; `gainRx` and `gainTx` are its gain stages; `toneWanted` and `playsWanted` say what the commands
accepted so far ask for, `toneRate` and `playRates` the rates in kHz of what they play, `toneEdges` where segments of its generator began in
the last block (R235); `nearDiscard` counts the near-end samples
discarded in HOLD and OPEN (R42); `out` is the audio sent toward the leg in the last run. -/
structure LegMedia where
  play : Play := {}
  tx : TxLeg := {}
  detectors : List Detector := []
  prov : List ProvEvent := []
  fixedEvents : List FixedEvent := []
  nextEvent : Nat := 0
  generator : Option Generator := none
  prompt : Option Prompting := none
  queue : List Prompting := []
  gainRx : GainStage := {}
  gainTx : GainStage := {}
  stackIn : List (Nat × List (Int × Bool)) := []
  stackStarted : Bool := false
  stackRate : Nat := 0
  stackCounts : Counts := []
  toneWanted : Bool := false
  playsWanted : Nat := 0
  toneRate : Nat := 0
  toneEdges : List Nat := []
  playRates : List Nat := []
  nearDiscard : Nat := 0
  out : List Int := []
  deriving DecidableEq, Repr

/-- The media state of a channel: its legs, its streams (Table 8.1 order), the units each leg and generator has reserved
(R220), its canceller, whether it has run since Frost began (R480), and whether it has yet to run since Frost ended (R482). -/
structure ChMedia where
  a : LegMedia := {}
  b : LegMedia := {}
  streams : Tab Stream := []
  reserved : Tab Nat := []
  echo : Echo := {}
  restart : Bool := false
  echoReset : Bool := false
  frosted : Bool := false
  thawing : Bool := false
  deriving DecidableEq, Repr

end Sys2Proof.Machine
end

