-- ==== Sys2Proof/Machine/StVoice.lean ====
section
/-! DEFINITION. State of the voice engine cells (R314 to R351) and of the block dispatchers (R371 to R398). -/

namespace Sys2Proof.Machine

/-- The producer of a register write, by the rows of Table 12.7; `mul31` and `acc31` are the late results of R361. -/
inductive Producer
  | load | compute | mul31 | acc | acc31 | addr | control | flags | vmaxa
  deriving DecidableEq, Repr

/-- A register write on its way: the word that issued it, its producer, the register's number and the value. -/
structure RegWrite where
  issue : Nat
  producer : Producer
  reg : Nat
  value : BitVec 128
  deriving DecidableEq, Repr

/-- One register bank (Table 12.3), with the user cycles of the run it holds (R344). `regs` holds the settled values by register number (0 where not listed),
`flight` the writes not yet seen by every reader (R332). -/
structure Bank where
  regs : Tab (BitVec 128) := []
  flight : List RegWrite := []
  pc : BitVec 13 := 0
  user : Bool := false
  userCycles : Nat := 0
  deriving DecidableEq, Repr

/-- What happens after two delay words (R366). -/
inductive Delayed
  | fall | jump (target : BitVec 13) | endRun (commit : Bool) | enterUser (target : BitVec 13) | leaveUser
  deriving DecidableEq, Repr

/-- A store not yet seen by loads (R358): the word that issued it, the side (true for Y), the physical address, the bytes. -/
structure PendStore where
  issue : Nat
  yside : Bool
  addr : Nat
  bytes : List Byte
  deriving DecidableEq, Repr

/-- Trap causes (Table 12.12). -/
inductive TrapCause
  | uncorrectableX | uncorrectableY | uncorrectableI | watchdog | illegalWord | illegalSequence
  | alignment | address | privilege | userBudget | trapOp
  deriving DecidableEq, Repr

/-- A trap as taken: its cause and the code of a TRAP operation (R366). -/
structure Trapped where
  cause : TrapCause
  code : Nat
  since : Nat := 0
  deriving DecidableEq, Repr

/-- A closed or open record of the port window (R343). -/
structure PortRecord where
  slot : Nat
  tick : Nat
  seq : Nat
  body : List Byte
  deriving DecidableEq, Repr

/-- One cell (R314 to R346). Memories are lists of cells by physical byte address; unlisted bytes read 0 (R324). -/
structure Cell where
  bank0 : Bank := {}
  bank1 : Bank := {}
  bank : Bool := false
  xmem : List Host.Cell := []
  ymem : List Host.Cell := []
  imem : Tab (BitVec 64) := []
  issued : Nat := 0
  stores : List PendStore := []
  delay : Option (Nat × Delayed) := none
  mpyShadow : Bool := false
  rep : Nat := 0
  trap : Option Trapped := none
  cycle : BitVec 64 := 0
  stall : BitVec 64 := 0
  budgetEnd : Nat := 0
  userStatus : Byte := 0
  sinceSwap : Nat := 0
  userKc : Nat := 0
  userHook : Nat := 0
  open_ : Tab (List Host.Cell) := []
  running : Option Nat := none
  shadow : Option Nat := none
  retired : Bool := false
  underReset : Bool := false
  memTraps : List Nat := []
  deriving DecidableEq, Repr

/-- Thread states (Table 14.2). -/
inductive ThreadState
  | free | waiting | ready | staging | staged | running | suspended
  deriving DecidableEq, Repr

/-- What a packet handed to a block is. -/
inductive RxKind
  | rtp | rtcp | udptl
  deriving DecidableEq, Repr

/-- A packet handed to a block (R160): its flow, leg, kind, bytes past the UDP header, and its arrival stamp in ns of the
time counter with fraction [31:16] and epoch (R115). -/
structure RxPacket where
  flow : Nat
  leg : Nat
  kind : RxKind
  bytes : List Byte
  stamp : Nat
  frac : Nat := 0
  epoch : Nat
  deriving DecidableEq, Repr

/-- A datagram with what its lookup found: its frame, the UDP payload, the sender, its stamp and the port of its arrival. -/
structure Arrival where
  flow : FlowSettings
  port : Nat
  frame : List Byte
  payload : List Byte
  srcAddr : List Byte
  srcPort : Nat
  stamp : Stamp
  deriving DecidableEq, Repr

/-- A command event (R38). -/
inductive ChEvent
  | activate | hold | resume | drain
  | settings (keys : List (Nat × List Byte))
  | bind (leg : Nat) (l : Leg) (fresh : Bool)
  | echoReset
  | play (leg : Nat) (prompts : List Nat) (rep mode : Nat) (level : Int) (notify queue : Bool)
  | stopPlay (leg : Nat)
  | tone (leg table mode : Nat) (offset : Int)
  | stopTone (leg : Nat)
  | resampleReset (stream : Option Nat)
  | gainChanged (leg : Nat)
  | windowRestart
  | complete (ref : CmdRef) (status : Nat)
  deriving DecidableEq, Repr

/-- One event FIFO or pending entry (Table 14.3). -/
inductive PendEntry
  | packet (p : RxPacket)
  | command (e : ChEvent)
  | signal (value : Nat) (sender : Nat)
  deriving DecidableEq, Repr

/-- One thread record (Table 14.1) with its pending list; `taken` holds the entries the present run took (R29),
`rebuild` tells that Damium is writing the channel's slot again (R519). -/
structure Thread where
  state : ThreadState := .free
  cell : Nat := 0
  priority : Nat := 0
  phase : Nat := 0
  wakeTick : Bool := false
  wakeTdm0 : Bool := false
  wakeTdm1 : Bool := false
  wakeSignal : Bool := false
  wakeCommand : Bool := false
  tickPend : Bool := false
  tdmPend : Bool := false
  eventPend : Bool := false
  channel : Nat := 0
  stageList : Nat := 0
  budget : Nat := 0
  pending : List PendEntry := []
  deadline : Nat := 0
  tick : Nat := 0
  runs : BitVec 32 := 0
  misses : BitVec 32 := 0
  skips : BitVec 32 := 0
  suspendRec : Option Nat := none
  restart : Bool := false
  first : Bool := false
  missed : Bool := false
  rebuild : Bool := false
  taken : List PendEntry := []
  deriving DecidableEq, Repr

/-- The order of Table 14.9. -/
inductive BlockCount
  | releases | runs | misses | frostMisses | skips | preemptions | preemptDeferred | suspendSaves
  | stageLate | pendingDiscard | signalDiscard | rebinds | takeovers
  deriving DecidableEq, Repr

/-- A commit copy in the block's commit buffer, or one that waits for room in it: the thread's slot and tick, the cell whose stage page
it comes from, and the bytes of the COMMIT extents (R388). -/
structure CommitCopy where
  slot : Nat
  tick : Nat
  cell : Nat := 0
  bytes : List Byte := []
  deriving DecidableEq, Repr

/-- A closed notice record that Damium has not taken (R343): the group's number, the version mark and the notice. -/
structure NoticeRec where
  group : Nat
  v4 : Bool
  opcode : Nat
  target : Nat
  tlvs : List Tlv
  deriving DecidableEq, Repr

/-- A suspend record (R384): the bank and the thread pages of the thread it holds, the pages by offset. -/
structure SuspendRec where
  bank : Bank
  xpage : List Host.Cell
  ypage : List Host.Cell
  deriving DecidableEq, Repr

/-- One block: its dispatcher, block memory and resampler reservation (R371 to R398, R219). `records` lists the suspend records reserved, `saves`
what is in them, `lastPhase` the last phase, counted from the media origin, whose boundary was taken; `role` is the cell that has
the reserve role under spare policy ONE (R394, R395), `activate` the firmware slot that the
reset under way fills it from (R550), `evacuation` the BLOCK_EVACUATE commands not
complete and `evacuateTo` where they move channels. -/
structure Block where
  spareOne : Bool := true
  sparePending : Option Bool := none
  reserve : Option Nat := some 7
  role : Nat := 7
  isolated : Bool := false
  underReset : Bool := false
  threads : Tab Thread := []
  fifo : List (Nat × PendEntry) := []
  commandHold : List (Nat × PendEntry) := []
  packetHold : List Arrival := []
  peakFifo : Nat := 0
  peakPool : Nat := 0
  records : List Nat := []
  saves : Tab SuspendRec := []
  lastPhase : Option Nat := none
  commits : List CommitCopy := []
  memory : List Host.Cell := []
  counts : Counts := []
  taken : List (Nat × Nat × Nat × Nat) := []
  schedule : List (Nat × List (Nat × List Byte)) := []
  notices : List NoticeRec := []
  firmware : Nat := 0
  activate : Option Nat := none
  evacuating : Bool := false
  evacuation : List CmdRef := []
  evacuateTo : Nat := 0
  emptySince : Nat := 0
  deriving DecidableEq, Repr

end Sys2Proof.Machine
end

