-- ==== Sys2Proof/Machine/StChannel.lean ====
section
/-! DEFINITION. State of a channel (R39 to R48) and of its two legs (Table 16.4). -/

namespace Sys2Proof.Machine

/-- Channel states (Table 2.2), in its order. -/
inductive ChState
  | idle | opened | active | hold | migrating | draining | faulted
  deriving DecidableEq, Repr

/-- A move in progress (R47, R544 to R546): its command, if it has one of its own, the state it began in, the device at its
other end, the destination block with its reserved slot and the charge. `inbound` marks the destination side; `cut` is the
cut tick, `sent` tells that the context is on its way, `done` that the destination has committed it. -/
structure Move_ where
  ref : Option CmdRef
  from_ : ChState
  inbound : Bool := false
  device : Nat
  block : Nat
  slot : Nat
  charge : Nat × Nat
  cut : Option Nat := none
  sent : Bool := false
  done : Bool := false
  deriving DecidableEq, Repr

/-- One channel. `accepted` holds the settings accepted last, `applied` those a run has applied (R38), both by
setting key and as the encoded value bytes; `legA` and `legB` the legs accepted last, `runA` and `runB` those a run has
applied; `openWaits` tells of a CH_OPEN that is applied once the clearing of its slot ends (R48); `slotBad` tells of an uncorrectable error that a scrub has found in its context slot (R515); `resumeAt` is the first tick it may run in after a move between devices (R545). -/
structure Channel where
  state : ChState := .idle
  wide : Bool := false
  block : Nat := 0
  slot : Option Nat := none
  legA : Leg := {}
  legB : Leg := {}
  runA : Leg := {}
  runB : Leg := {}
  accepted : Tab (List Byte) := []
  applied : Tab (List Byte) := []
  runState : ChState := .idle
  restarts : List Nat := []
  clearing : Bool := false
  openWaits : Bool := false
  wakeRef : Option CmdRef := none
  move : Option Move_ := none
  resumeAt : Nat := 0
  drainTicks : Nat := 0
  position : Nat := 0
  slotBad : Bool := false
  format : Nat := 0
  counts : Counts := []
  media : ChMedia := {}
  deriving DecidableEq, Repr, Inhabited

/-- A run whose commit is not complete (R33, R388): the channel as the run found it, the tick whose outputs it handed over, the
entries it took, and whether it has ended with COMMIT, its copy being in the commit buffer. -/
structure OpenRun where
  channel : Channel
  tick : Nat
  entries : List PendEntry
  ended : Bool := false
  deriving DecidableEq, Repr

end Sys2Proof.Machine

namespace Sys2Proof.Config

open Sys2Proof.Machine

/-- What a context slot and a channel's stream units hold, as bytes: Table 2.7 and the firmware's own fields (R545; log
entry 2). -/
opaque contextImage : Channel → List Byte

/-- The channel that the bytes of a context hold (R545; log entry 2). -/
opaque contextChannel : List Byte → Channel

/-- Whether firmware of a native format reads the record: one of the next format keeps its new fields 0 (R547; log entry 2). -/
opaque contextReadable : Nat → List Byte → Bool

end Sys2Proof.Config
end

