-- ==== Sys2Proof/Machine/StClock.lean ====
section
/-! DEFINITION. State of the clock controller, clock domains, power domains, resets, fuses and firmware slots (R470 to
R511, R571). -/

namespace Sys2Proof.Machine

/-- States of the clock controller (Table 18.3), in the order of CTRL_STATE. -/
inductive CtrlState
  | start | locked | hold | coast | frost | acquire | ramp
  deriving DecidableEq, Repr

/-- Power modes (Table 19.2). -/
inductive PowerMode
  | run | sleep | deepSleep
  deriving DecidableEq, Repr

/-- A power domain (Tables 19.1, 19.6 and 19.7). `changing` is the mode it is changing to with the command that asked
for it, `changeSince` the powered time at which the change began. -/
structure PowerDomain where
  mode : PowerMode := .run
  auto : Bool := false
  changing : Option (PowerMode × Option CmdRef) := none
  changeSince : Nat := 0
  counts : Counts := []
  deriving DecidableEq, Repr

/-- The enables of a clock domain (R484). -/
structure ClockDomain where
  runEn : Bool := true
  sleepEn : Bool := false
  deepEn : Bool := false
  deriving DecidableEq, Repr

/-- What a gate sequence is for (R484 to R486, R498): the enables of one domain, or a mode of one or more power domains. -/
inductive GateUse
  | enables (domain mask : Nat)
  | power (domains : List Nat) (mode : PowerMode)
  deriving DecidableEq, Repr

/-- A DOMAIN_GATE, POWER_SET or automatic entry under way or waiting its turn (R486): the clock domains still quiescing. -/
structure GateJob where
  ref : Option CmdRef
  use : GateUse
  touches : List Nat
  waiting : List Nat := []
  begun : Bool := false
  deriving DecidableEq, Repr

/-- The order of Table 18.7. -/
inductive ClockCount
  | tripsRefa | tripsRefb | tripsPcie | tripsEth0 | tripsEth1 | tripsEth2 | tripsEth3 | qualifications | switches
  | frostEntries | frostNs | exitAborts | frostDiscard | gateOps | gateBusy
  deriving DecidableEq, Repr

/-- Clocks and power. `frost` is CLK_STATUS.FROST; `since` the powered time at which the controller entered its state,
`level` how many of the 64 coast steps the root lies below full speed as it entered that state (R478, R483), `frostSince`
the powered time of the entry to COAST, `recheck` that an order accepted meanwhile is looked at when the state is LOCKED
again (R472), `floorAt` the powered time of the last lock. `mediaNs` is the media clock in ns.
`tclkPhase` is the phase of TCLK_OUT once `tclkStarted`: FREQUENCY times the time since its rising edge, in units of 2^-48 ns (R489), `tclkError` how far its edges lie
from the aligned instants of the time counter in units of 2^-48 ns, positive where they are late, and `tclkAligns` that it
slews toward them after a step (R490). `clkoutSlew` and `tclkSlew` are the slew steps of the two outputs (R593). -/
structure Clocks where
  ctrl : CtrlState := .locked
  selected : Option Nat := some 0
  qualified : List Nat := [0]
  order : List Nat := [0, 1, 2]
  refFreq : Bool := false
  since : Nat := 0
  level : Nat := 0
  frostSince : Nat := 0
  recheck : Bool := false
  floorAt : Nat := 0
  frost : Bool := false
  counts : Counts := []
  mediaNs : Nat := 0
  mediaFrac : Nat := 0
  lastOrigin : Option Nat := none
  domains : Tab ClockDomain := []
  gates : List GateJob := []
  power : Tab PowerDomain := []
  clkoutDomain : Option Nat := none
  clkoutDivide : Nat := 1
  clkoutOn : Bool := false
  tclkFreq : Nat := 0
  tclkOn : Bool := false
  tclkPhase : Nat := 0
  tclkStarted : Bool := false
  tclkError : Int := 0
  tclkAligns : Bool := false
  clkoutSlew : Nat := 0
  tclkSlew : Nat := 0
  deriving DecidableEq, Repr

/-- A firmware slot of the flash (R511, R573): whether it holds a verified image, what its header says, and the original data of its
payload: the directory and the sections (R572). -/
structure FwSlot where
  held : Bool := false
  version : Nat := 0
  format : Nat := 0
  fylosMin : Nat := 0
  fylosMax : Nat := 0
  data : List Byte := []
  deriving DecidableEq, Repr

/-- RST_CAUSE.CAUSE (Table 19.5). -/
inductive ResetCause
  | powerOn | resetN | pcie | watchdog | command | lifeCycle
  deriving DecidableEq, Repr

/-- One selector copy of the flash (R571): whether it is valid, its slot and its generation. -/
structure Selector where
  valid : Bool := false
  slot : Nat := 0
  generation : BitVec 32 := 0
  deriving DecidableEq, Repr

/-- Resets, fuses, life cycle and firmware. `fwSource` is 1 for slot A, 2 for slot B, 3 for an image from the host.
`failedSlots` lists the slots that failed their checks at a boot and have not been written since (R574); `trans` and `wipe` hold the burned bits of TRANS_k and WIPE_k by k; `held` lists the sources that hold the device in reset,
`progress` the last step of R502 begun; `resetAt` and `transitionAt` tell of a reply that has left (R439). `resets` lists the reset commands of a region, block or cell
not complete, by target scope and ID (R440). -/
structure Life where
  lifeCycle : Nat := 0
  trans : Tab Nat := []
  wipe : Tab Nat := []
  locked : List Nat := []
  slots : Tab FwSlot := [(0, { held := true, version := 0x01000000, format := 1, fylosMin := 3, fylosMax := 4 })]
  failedSlots : List Nat := []
  selector0 : Selector := { valid := true }
  selector1 : Selector := {}
  fwSource : Nat := 1
  fwVersion : Nat := 0x01000000
  fwFormat : Nat := 1
  management : Nat := 0
  switchTo : Option Nat := none
  keyHash : List Byte := []
  keyBlank : Bool := true
  udpKeys : Tab (List Byte) := []
  macBase : Nat := 0
  serial : Nat := 0
  subsystem : Nat := 0
  held : List ResetCause := []
  progress : Nat := 8
  cause : ResetCause := .powerOn
  wipeResumed : Bool := false
  warmResets : Nat := 0
  watchdogResets : Nat := 0
  scratch : Word := 0
  resetAt : Option Nat := none
  transitionAt : Option (Nat × Nat) := none
  resets : List (Nat × Nat × CmdRef) := []
  deriving DecidableEq, Repr

end Sys2Proof.Machine
end

