-- ==== Sys2Proof/Machine/StPorts.lean ====
section
/-! DEFINITION. State of the Ethernet ports, their shutters, pause timers and pairs (R60 to R105, R604 to R607). -/

namespace Sys2Proof.Machine

/-- Port modes (Table 3.1), in the order of Table 3.4. -/
inductive PortMode
  | disabled | g25 | g25rs | g10 | g10fec
  deriving DecidableEq, Repr

/-- What a frame on its way out carries: a forwarded PTP event message with its ingress stamp and the powered time of its SFD in
units of 2^-16 ns (R103). -/
inductive FrameContent
  | rtp (channel leg : Nat) (packet : List Byte)
  | fylos (d : Datagram)
  | ptp (frame : List Byte)
  | ptpForward (frame : List Byte) (ingress : Stamp) (powered : Nat)
  | announcement (address : List Byte)
  | other (frame : List Byte)
  deriving DecidableEq, Repr

/-- The port settings that act on a frame in a partition: those in force as it entered (R104). -/
structure PortRules where
  maxFrame : Nat
  shutters : Bool
  flowCtrl : Nat
  bulkPfcMask : Nat
  mediaPcp : Nat
  mediaPfc : Bool
  deriving DecidableEq, Repr

/-- A frame in an egress partition (R64): its class, its length from destination address to FCS, its content, and what
PTP_SEND asked for it (R118); a `spoiled` one ends with an inverted FCS (Table 20.1). `rules` are the settings it entered its
partition under (R104), `entered` the port a forwarded message came in by (R101). -/
structure EgFrame where
  media : Bool
  length : Nat
  content : FrameContent
  tsReq : Bool := false
  oneStep : Bool := false
  frameId : Nat := 0
  spoiled : Bool := false
  rules : Option PortRules := none
  entered : Option Nat := none
  deriving DecidableEq, Repr

/-- A shutter schedule (R72). -/
structure Schedule where
  cycle : Nat
  baseSeconds : Nat
  baseNs : Nat
  list : List Word
  deriving DecidableEq, Repr

/-- A schedule waiting for its boundary, with the command that brought it and the counter instant, in units of 10 ps,
before which no boundary counts (R80). -/
structure PendSchedule where
  schedule : Schedule
  ref : CmdRef
  notBefore : Int
  deriving DecidableEq, Repr

/-- The order of Table 3.5. -/
inductive PortCount
  | rxFrames | txMedia | txBulk | rxFcsError | rxLengthError | rxAddrDiscard | rxBufferDiscard
  | linkDown | verifyFailed | preemptTx | fragmentsTx | reassemblyError
  | mediaGateOversize | mediaOpeningMissed | shutterRestart | shutterReplaced
  | pauseRx | pfcRx | pauseIgnored | pauseZeroIdle | failoverDiscard
  | ptpForwarded | ptpNotForwarded | rxNotUp | rxPcsInterrupt | txAborted
  deriving DecidableEq, Repr

/-- A frame the MAC has committed, or one in transmission (R85, R607): the bytes of it sent in earlier fragments, the instant
at which its SFD crosses or has crossed the boundary in units of 10 ps of powered time, and the bytes at which the
present fragment is to be cut; `fixed` is the content with the egress time that its commitment wrote into it (R120). -/
structure InFlight where
  frame : EgFrame
  from_ : Nat := 0
  sfdAt : Nat := 0
  cut : Option Nat := none
  fixed : Option FrameContent := none
  deriving DecidableEq, Repr

/-- A preempted frame in reassembly (R88): its bytes so far, the fragment count due, and the stamp and powered time of its SFD. -/
structure Reassembly where
  bytes : List Byte
  next : Nat
  stamp : Stamp
  powered : Nat
  deriving DecidableEq, Repr

/-- An Ethernet port. `failed` lists the conditions that do not hold, the one that failed first at the head, with the powered
time of each; `regained` is the last condition to hold again. `waiting` holds the frames that wait at Damium (R65),
`lineFree` the powered instant, in units of 10 ps, at which the last transmission ended. Pause timers hold the powered
instant, in units of 10 ps, at which they reach zero; 0 is a timer that does not run. `holdFrom` is the counter instant
of the step that holds the gate open, `headWaits` tells that the head frame of the opening has not started (R79),
`verifying` the powered time of the verify attempt in progress; `committed` holds the frames committed and not begun, in order
(R607), `fragmentDue` tells that the partner still owes fragments of a frame whose partial was discarded (R88). -/
structure Port where
  mode : PortMode := .disabled
  mac : Option Nat := none
  maxFrame : Nat := 1522
  shutters : Bool := false
  preempt : Nat := 1
  flowCtrl : Nat := 1
  bulkPfcMask : Nat := 0xDF
  mediaPcp : Nat := 5
  mediaPfc : Bool := false
  ptpTc : Bool := false
  up : Bool := false
  failed : List (PcsCondition × Nat) := []
  regained : Option (PcsCondition × Nat) := none
  upSince : Nat := 0
  waiting : List EgFrame := []
  media : List EgFrame := []
  bulk : List EgFrame := []
  committed : List InFlight := []
  flight : Option InFlight := none
  remainder : Option InFlight := none
  lineFree : Nat := 0
  schedule : Option Schedule := none
  pendingSchedule : Option PendSchedule := none
  entry : Nat := 0
  gateOpen : Bool := true
  stepHold : Bool := false
  holdFrom : Int := 0
  headWaits : Bool := false
  guard : Bool := false
  preemptActive : Bool := false
  verifyAttempts : Nat := 0
  verifying : Option Nat := none
  pauseTimer : Nat := 0
  pfcTimers : Tab Nat := []
  reassembly : Option Reassembly := none
  fragmentDue : Bool := false
  ipv4Id : BitVec 16 := 0
  boardTx : Int := 0
  boardRx : Int := 0
  asymmetry : Int := 0
  counts : Counts := []
  deriving DecidableEq, Repr

/-- A redundant pair (R94 to R98). -/
structure Pair where
  joined : Bool := false
  active : Option Nat := none
  revert : Bool := false
  revertHold : Nat := 10000000000
  deriving DecidableEq, Repr

end Sys2Proof.Machine
end

