-- ==== Sys2Proof/Machine/StFlows.lean ====
section
/-! DEFINITION. State of the flow table, the SRTP contexts, the header templates, the packet engine and the regions
(R140 to R168). -/

namespace Sys2Proof.Machine

/-- Flow actions (Table 5.3). -/
inductive FlowAction
  | rtp | rtcp | mux | udptl | drop | host
  deriving DecidableEq, Repr

/-- The flow counters of Table 5.8. -/
inductive FlowCount
  | rxPackets | rxBytes | stateDiscard | flowDrop
  deriving DecidableEq, Repr

/-- A flow entry (Tables 5.1 and 5.2). -/
structure FlowEntry where
  key : List Byte
  id : Nat
  device : Nat
  channel : Nat
  leg : Nat
  action : FlowAction
  srtp : Option Nat
  latch : Bool
  counts : Counts
  deriving DecidableEq, Repr

/-- The SRTP counters of Table 5.8. -/
inductive SrtpCount
  | authFail | replayDup | replayOld | ssrcMismatch | mkiUnknown | keyExhausted | txPackets | rocIncrements
  deriving DecidableEq, Repr

/-- A replay window (R156): the highest index accepted and the distances below it that are marked. -/
structure ReplayWindow where
  fresh : Bool := true
  hi : Int := 0
  marks : List Nat := []
  deriving DecidableEq, Repr

/-- An SRTP context (Table 5.5). `used` counts the packets under a key, `2 k` SRTP and `2 k + 1`
SRTCP; `exhausted` lists the keys already reported (R159). -/
structure SrtpCtx where
  transmit : Bool
  suite : Nat
  key0 : List Byte
  key1 : List Byte
  mkiLen : Nat
  roc : Nat
  fixedSsrc : Bool
  ssrc : Nat
  learned : Bool
  srtcpEncrypt : Bool
  txKey : Nat
  sl : Nat
  rtp : ReplayWindow
  rtcp : ReplayWindow
  srtcpIndex : Nat
  lastSeq : Option Nat
  used : Tab Nat
  exhausted : List Nat
  initialRoc : Nat
  counts : Counts
  deriving DecidableEq, Repr

/-- A header template (R163): KIND 0 RTP, 1 RTCP, 2 UDPTL. -/
structure Template where
  kind : Nat
  udpCsum : Bool
  bytes : List Byte
  deriving DecidableEq, Repr

/-- The region counters of Table 5.8, in its row order. -/
inductive RegionCount
  | ipError | ipFragment | ipUnsupported | udpChecksum | flowMiss | hostRateDrop | oversize | ingressDiscard | nonIp
  deriving DecidableEq, Repr

/-- A descriptor a thread hands to the packet engine (R164, R210, R214): its channel and leg with the leg's egress record,
whether it is a UDPTL datagram, the RTP fields and the payload. -/
structure Descriptor where
  channel : Nat
  leg : Nat
  record : Leg := {}
  udptl : Bool
  marker : Bool
  pt : Nat
  seq : Nat
  ts : Nat
  payload : List Byte
  deriving DecidableEq, Repr

/-- A region (R20): its buffer use, egress queues by port, DRAM weights (R438) and reset state. -/
structure Region where
  bufferUsed : Nat := 0
  egress : Tab (List EgFrame) := []
  descriptors : List Descriptor := []
  weights : Tab Nat := []
  underReset : Bool := false
  counts : Counts := []
  deriving DecidableEq, Repr

/-- The device counters of Table 5.8 (TABLE_ENTRIES and CAM_ENTRIES are read from the table itself). -/
inductive TableCount
  | tableEntries | camEntries | walkFailures | camPromotions
  deriving DecidableEq, Repr

/-- The flow table (R143, R148), the contexts, the templates and the packet engine's settings (R167). -/
structure Flows where
  way0 : Tab FlowEntry := []
  way1 : Tab FlowEntry := []
  cam : List FlowEntry := []
  contexts : Tab SrtpCtx := []
  templates : Tab Template := []
  hostMiss : Bool := false
  hostRate : Nat := 1000
  holdLimit : Nat := 2097152
  udpPort : Nat := 61861
  hostTimes : List Nat := []
  counts : Counts := []
  blockCounts : Tab Counts := []
  deriving DecidableEq, Repr

end Sys2Proof.Machine
end

