-- ==== Sys2Proof/Machine/StStack.lean ====
section
/-! DEFINITION. State of the stack and its Bilgaup ports (R527 to R552). -/

namespace Sys2Proof.Machine

/-- A block of fixed audio on its way to a STACK leg of another member (R543). -/
structure LegBlock where
  device : Nat
  channel : Nat
  leg : Nat
  tick : Nat
  samples : List (Int × Bool)
  deriving DecidableEq, Repr

/-- TOPOLOGY (R533), in its order. -/
inductive Topology
  | none | ring | mesh
  deriving DecidableEq, Repr

/-- A DATA flit without the fields the port gives it (Tables 21.1 and 21.2): CLASS 0 media, 1 control, 2 bulk. -/
structure Flit where
  cls : Nat
  last : Bool
  src : Nat
  dst : Nat
  hops : Nat
  payload : List Byte
  deriving DecidableEq, Repr

/-- A DATA flit in the replay buffer (R529): its SEQ and how often it was resent. -/
structure Sent where
  seq : Nat
  flit : Flit
  resends : Nat
  deriving DecidableEq, Repr

/-- A message being assembled from its flits (R530). -/
structure Assembly where
  cls : Nat
  src : Nat
  bytes : List Byte
  deriving DecidableEq, Repr

/-- The port counters of Table 21.5, in its order. -/
inductive BgCount
  | flitsTx | flitsRx | crcErrors | naksTx | replays | retrains | lanesLost | linkDown | lostFlits
  deriving DecidableEq, Repr

/-- A Bilgaup port. `lanes` are the lanes in use, 0 while the link is down; `txSeq` and `rxNext` the SEQ of the next DATA
flit each way; `replay` the flits not acknowledged, oldest first, `waiting` those not yet sent. -/
structure BgPort where
  lanes : Nat := 0
  peer : Option Nat := none
  txSeq : Nat := 0
  rxNext : Nat := 0
  replay : List Sent := []
  waiting : List Flit := []
  assembling : List Assembly := []
  counts : Counts := []
  deriving DecidableEq, Repr

/-- The device counters of Table 21.5, in its order. -/
inductive StackCount
  | forwardedPackets | unreachableDiscard | flowChanges | flowAbandoned | movesOut | movesIn | movesFailed
  | timeStepsRelayed
  deriving DecidableEq, Repr

/-- A STACK_CONFIG whose join is under way (R536): its command, the powered time it began, and whether the flow table has
been received. -/
structure Join where
  ref : CmdRef
  since : Nat
  tableCopied : Bool
  deriving DecidableEq, Repr

/-- An Equinox in progress (R549): its two versions and the common format. -/
structure Equinox where
  low : Nat
  high : Nat
  format : Nat
  deriving DecidableEq, Repr

/-- A command forwarded to another member (R411): the member, the command as taken here. -/
structure Forwarded where
  device : Nat
  ref : CmdRef
  deriving DecidableEq, Repr

/-- The stack. `members` are the device numbers of the stack, this one's among them; `infos` what the others advertise;
`inbox` the messages assembled and not yet acted on, with their source; `changes` the flow changes accepted here that wait
for the sequencer; `applying` the changes that members have still to apply, with the command here that completes once they have and
those members; `commitFormat` the format every commit is written in while an Equinox lasts; `holdUntil` that the servo
of a new root holds until its own PTP owner supplies a sample (R538). -/
structure Stack where
  number : Nat := 0
  topology : Topology := .none
  links : Nat := 0
  ptpForward : Bool := false
  members : List Nat := [0]
  infos : Tab MemberInfo := []
  ports : Tab BgPort := []
  joining : Option Join := none
  equinox : Option Equinox := none
  commitFormat : Option Nat := none
  holdUntil : Bool := false
  wasRoot : Bool := true
  legBlocks : List LegBlock := []
  inbox : List (Nat × List Byte) := []
  changes : List (Option CmdRef × FlowChange) := []
  applying : List (Option CmdRef × FlowChange × List Nat) := []
  forwarded : List Forwarded := []
  counts : Counts := []
  deriving DecidableEq, Repr

end Sys2Proof.Machine
end

