-- ==== Sys2Proof/Machine/StStore.lean ====
section
/-! DEFINITION. State of the table store, the prompt store, the user kernel and the region engines (R269 to R295, R347,
R457 to R469). -/

namespace Sys2Proof.Machine

/-- A prompt held (R289 to R291): its image. -/
structure Prompt where
  encoding : Nat
  rate : Nat
  samples : Nat
  pieceSamples : Nat
  image : List Byte
  deriving DecidableEq, Repr

/-- What an engine job is for (Table 17.3, R453). -/
inductive JobUse
  | firmware (slot : Nat)
  | table (id : Nat)
  | kernel
  | prompt (id : Nat)
  | piece (prompt index : Nat)
  | contextIn (channel : Nat)
  | contextOut (channel : Nat)
  | imageEnlarge
  | imageReduce
  | traceDump
  deriving DecidableEq, Repr

/-- Where a job reads its input: device DRAM, or bytes the part itself holds. -/
inductive JobSource
  | dram (addr len : Nat)
  | bytes (l : List Byte)
  deriving DecidableEq, Repr

/-- One job of a Reducer or an Enlarger (R468): its command, what it is for, its class (0 migration, 1 prompt piece,
2 other), its place in the order of acceptance, its source, and its chain with the window captured for it (R569). -/
structure Job where
  ref : Option CmdRef
  use : JobUse
  cls : Nat
  order : Nat
  source : JobSource
  chain : Option Nat
  base : Nat
  deriving DecidableEq, Repr

/-- One half of an engine: its running job and its queue. -/
structure Half where
  running : Option Job := none
  queue : List Job := []
  deriving DecidableEq, Repr

/-- One region's engine. -/
structure Engine where
  reducer : Half := {}
  enlarger : Half := {}
  deriving DecidableEq, Repr

/-- A table load that waits (R285). -/
structure TableLoad where
  ref : CmdRef
  id : Nat
  source : JobSource
  deriving DecidableEq, Repr

/-- A table image that waits for the next tick origin (R286). -/
structure TableCommit where
  ref : CmdRef
  id : Nat
  image : List Byte
  deriving DecidableEq, Repr

/-- A decompressed piece in the prompt cache (R293). -/
structure CachedPiece where
  prompt : Nat
  index : Nat
  bytes : Nat
  deriving DecidableEq, Repr

/-- The prompt counters (Table 16.6). -/
inductive PromptCount
  | underrun | hits | misses
  deriving DecidableEq, Repr

/-- Tables (host IDs), prompts, the user kernel (R347) and engines. `retired` holds the version of a GENERATOR table
that plays still use (R287); the cache lists its least recently used piece first. `badPieces` lists the pieces an uncorrectable DRAM error has spoiled (Table 20.1); `dram` is the host area of device
DRAM by device address (R567), `bar2Base` the window's base, `traceRan` whether anything has been traced since the trace was last discarded. -/
structure Store where
  tables : Tab (List Byte) := []
  retired : Tab (List Byte) := []
  loads : List TableLoad := []
  commits : List TableCommit := []
  prompts : Tab Prompt := []
  storeSize : Nat := 268435456
  cacheSize : Nat := 67108864
  cache : List CachedPiece := []
  promptCounts : Counts := []
  badPieces : List (Nat × Nat) := []
  kernel : List Byte := []
  engines : Tab Engine := []
  nextOrder : Nat := 0
  dram : List Host.Cell := []
  populatedGib : Nat := 16
  bar2Base : Nat := 0x50000000
  traceSize : Nat := 16777216
  traceOn : Bool := false
  traceMask : Nat := 0
  traceRan : Bool := false
  deriving DecidableEq, Repr

end Sys2Proof.Machine
end

