-- ==== Sys2Proof/Machine/StTdm.lean ====
section
/-! DEFINITION. State of the TDM unit (R296 to R313). -/

namespace Sys2Proof.Machine

/-- Framing states of a slave group (R302). -/
inductive Framing_
  | search | framed | lost
  deriving DecidableEq, Repr

/-- Reasons of a TDM_GROUP notice (Table 16.10). -/
inductive GroupReason
  | fs | clk | range | config
  deriving DecidableEq, Repr

/-- The group counters of Table 11.4, in its order. -/
inductive GroupCount
  | frames | fsError | los | reframes | trackSlews | slips | frostFrames
  deriving DecidableEq, Repr

/-- The slot counters of Table 11.4. -/
inductive SlotCount
  | underrun | overrun | loopbackDiscard
  deriving DecidableEq, Repr

/-- A clock group: its settings (Table 11.3), framing, m in units of 2^-48 (R303), the consecutive FS seen or missed,
the frames since it became FRAMED, the stamps of FS by frame number, newest first, in units of 2^-16 ns, a TRACK slew in progress and the phase error in units of 10 ps, positive where the frames are late (R301). A master group's `m`
holds only its slew. `ever` tells whether the group has been FRAMED, `started` whether a master sends frames. -/
structure TdmGroup where
  master : Bool := false
  clkX2 : Bool := false
  fsLow : Bool := false
  fsOffset : Nat := 0
  txFalling : Bool := false
  rxFalling : Bool := true
  free : Bool := false
  alignOffset : Nat := 0
  framing : Framing_ := .search
  started : Bool := false
  ever : Bool := false
  fsRun : Nat := 0
  fsMissed : Nat := 0
  framesIn : Nat := 0
  stamps : List (Nat × Int) := []
  m : Int := 0
  slewing : Bool := false
  phaseError : Int := 0
  counts : Counts := []
  deriving DecidableEq, Repr

/-- Highway modes (R296). -/
inductive HwMode
  | disabled | narrow | wide
  deriving DecidableEq, Repr

/-- Loopback modes (R311). -/
inductive LoopMode
  | none | local_ | remote
  deriving DecidableEq, Repr

/-- A highway: its settings and loopback mode. -/
structure Highway where
  mode : HwMode := .disabled
  bitOffset : Nat := 0
  unusedIdle : Bool := false
  idleCode : Byte := 0xD5
  loop : LoopMode := .none
  deriving DecidableEq, Repr

/-- A change of the slot map that the next frame makes (R309). -/
inductive MapChange
  | keep | bind (channel leg : Nat) | release
  deriving DecidableEq, Repr

/-- A slot: the leg it counts as bound to, the leg the slot map gives it, the change the next frame makes, its loopback
mode, the received samples not yet taken (R37), the octets it sent last and the octets a REMOTE loop sends next. -/
structure TdmSlot where
  bound : Option (Nat × Nat) := none
  mapped : Option (Nat × Nat) := none
  change : MapChange := .keep
  loop : LoopMode := .none
  near : List Int := []
  sent : Option (List Byte) := none
  remote : List Byte := []
  counts : Counts := []
  deriving DecidableEq, Repr

/-- The TDM unit: groups, highways, slots by highway × 128 + slot. -/
structure Tdm where
  groups : Tab TdmGroup := []
  highways : Tab Highway := []
  slots : Tab TdmSlot := []
  deriving DecidableEq, Repr

end Sys2Proof.Machine
end

