-- ==== Sys2Proof/Machine/StTime.lean ====
section
/-! DEFINITION. State of the time unit, the servo and the contact sheets (R106 to R138). -/

namespace Sys2Proof.Machine

/-- TIME_STATE (Table 4.2). -/
inductive TimeState
  | unset | set | locked
  deriving DecidableEq, Repr

/-- SERVO_MODE (R131). -/
inductive ServoMode
  | off | run | hold
  deriving DecidableEq, Repr

/-- What a step does to the counter (R133, R135): by an amount in Q32.32 ns, or to an absolute time with the fraction in
units of 2^-32 ns. -/
inductive StepKind
  | sample (amount : Int)
  | command (amount : Int)
  | set (seconds ns frac : Nat)
  /-- A step relayed by the root of a stack, with its epoch (R538). -/
  | relayed (amount : Int) (epoch : BitVec 16)
  deriving DecidableEq, Repr

/-- TYPE of a contact sheet entry (Table 4.4). -/
inductive SheetKind
  | empty | stamp | gap | discarded
  deriving DecidableEq, Repr

/-- A contact sheet entry (Table 4.4). -/
structure SheetEntry where
  kind : SheetKind
  epoch : Nat
  frameId : Nat
  lastId : Nat := 0
  seconds : Nat := 0
  ns : Nat := 0
  frac : Nat := 0
  lost : Nat := 0
  deriving DecidableEq, Repr

/-- The contact sheet of one port (R121 to R126). -/
structure Sheet where
  entries : List SheetEntry := []
  pendingLost : Nat := 0
  firstId : Nat := 0
  lastId : Nat := 0
  lostTotal : Nat := 0
  wmIe : Bool := true
  wm : Bool := false
  deriving DecidableEq, Repr

/-- A quarantine in progress (R137): the held latest and the powered time at which it began. -/
structure Quarantine where
  latest : Int
  since : Nat
  deriving DecidableEq, Repr

/-- The latched registers of a snapshot (Table 4.1); `frac` in units of 2^-32 ns. -/
structure Snapshot where
  seconds : Nat := 0
  ns : Nat := 0
  frac : Nat := 0
  epoch : BitVec 16 := 0
  powered : Nat := 0
  deriving DecidableEq, Repr

/-- The last PPS_IN edge (R117). -/
structure PpsEdge where
  seconds : Nat := 0
  ns : Nat := 0
  epoch : BitVec 16 := 0
  count : BitVec 32 := 0
  deriving DecidableEq, Repr

/-- The order of Table 4.10. -/
inductive TimeCount
  | samplesUsed | samplesDiscarded | stepsForward | stepsBackward | slews | suspectSteps | quarantineWithdrawn
  | quarantineAccepted | clamped | csLost0 | csLost1 | csLost2 | csLost3
  deriving DecidableEq, Repr

/-- The time unit and its servo. `frac` and `poweredFrac` keep 48 fraction bits of a nanosecond (R108). Samples are in
Q32.32 ns; `slew` is the offset a slew has yet to remove and `slewOf` all of it, in units of 2^-48 ns. `clockEvent` tells of a reference switch or an exit from Frost since the
previous sample; `lastStep` is the last step of the counter: the powered instant in units of 10 ps, the amount in units of 2^-48 ns, and the
epoch before it. -/
structure TimeUnit where
  powered : Nat := 0
  poweredFrac : Nat := 0
  seconds : Nat := 0
  ns : Nat := 0
  frac : Nat := 0
  corr : Int := 0
  epoch : BitVec 16 := 0
  phase : Nat := 0
  hostOwner : Bool := false
  mode : ServoMode := .off
  kp : Nat := 0xB333
  ki : Nat := 0x4CCD
  sampleLog2 : Int := -4
  manualFreq : Int := 0
  lockCount : Nat := 16
  stepThreshold : Nat := 100000
  slewRate : Nat := 500
  backwardStep : Bool := false
  suspectThreshold : Nat := 250
  quarantineLimit : Nat := 16000000000
  integ : Int := 0
  lastAccepted : Int := 0
  lockRun : Nat := 0
  state : TimeState := .unset
  slew : Option Nat := none
  slewOf : Nat := 0
  quarantine : Option Quarantine := none
  clockEvent : Bool := false
  steps : List StepKind := []
  lastStep : Option (Nat × Int × BitVec 16) := none
  stepped : Bool := false
  suspect : Bool := false
  lastSample : Option Nat := none
  snapshot : Snapshot := {}
  snapValid : Bool := false
  pps : PpsEdge := {}
  sheets : Tab Sheet := []
  counts : Counts := []
  deriving DecidableEq, Repr

end Sys2Proof.Machine
end

