-- ==== Sys2Proof/Machine/State.lean ====
section
/-! DEFINITION. The state of the K16: plain data, every piece the spec names, and the queue of waiting commands. -/

namespace Sys2Proof.Machine

/-- The whole machine. `pending` is the queue of waiting commands, first in, first out. `draws` counts the free values
taken so far: it is the model's own field and not the spec's. -/
structure State where
  pending : List Instr := []
  draws : Nat := 0
  rings : Tab Ring := []
  fylos : Fylos := {}
  log : ErrorLog := {}
  channels : Tab Channel := []
  openRuns : Tab (List OpenRun) := []
  blocks : Tab Block := []
  cells : Tab Cell := []
  ports : Tab Port := []
  pairs : Tab Pair := []
  regions : Tab Region := []
  flows : Flows := {}
  time : TimeUnit := {}
  tdm : Tdm := {}
  store : Store := {}
  clocks : Clocks := {}
  life : Life := {}
  stack : Stack := {}
  board : Board := {}
  deriving DecidableEq, Repr

/-- Why the machine stops with a fault. No command of the K16 stops the machine: a fault of the part is a change of
state (R24). -/
inductive Fault
  /-- Raised by no meaning: the spec has no behaviour that stops the part. Safe. -/
  | noBehaviour
  deriving DecidableEq, Repr

/-- Why a command has no meaning. -/
inductive Refusal
  /-- Raised by a dispatch arm whose command has no meaning yet. Safe. -/
  | notModelled (mnemonic : String)
  deriving DecidableEq, Repr

/-- The machine right after a power-on reset has run its sequence to the end of step 9 of R502. -/
def State.reset : State := {}

end Sys2Proof.Machine
end

