-- ==== Sys2Proof/Machine/Base.lean ====
section
/-! DEFINITION. The plain helpers of every meaning: bytes, tables, counters, memories, CRC-32C and free values. -/

namespace Sys2Proof.Machine

/-! ## Bytes (R11, R12) -/

/-- The `n` bytes of `v`, most significant first (R11). -/
def beBytes : Nat → Nat → List Byte
  | 0, _ => []
  | n + 1, v => BitVec.ofNat 8 (v / 256 ^ n) :: beBytes n v

/-- The number that bytes spell, most significant first (R11). -/
def beNat (l : List Byte) : Nat := l.foldl (fun a b => a * 256 + b.toNat) 0

/-- The `n` bytes of `v`, least significant first. -/
def leBytes (n v : Nat) : List Byte := (beBytes n v).reverse

/-- The number that bytes spell, least significant first. -/
def leNat (l : List Byte) : Nat := beNat l.reverse

/-- The bytes of a signed value in two's complement, most significant first (R12). -/
def beInt (n : Nat) (i : Int) : List Byte := beBytes n (patternOf (8 * n) i)

/-- `n` bytes from offset `o`. -/
def slice (l : List Byte) (o n : Nat) : List Byte := (l.drop o).take n

/-- The bytes at an offset as a number, most significant first. -/
def fieldAt (l : List Byte) (o n : Nat) : Nat := beNat (slice l o n)

/-- `n` zero bytes. -/
def zeroBytes (n : Nat) : List Byte := List.replicate n 0

/-- Whether every byte is zero. -/
def allZero (l : List Byte) : Bool := l.all (· == 0)

/-- The least multiple of 4 at or above `n` (R402). -/
def pad4 (n : Nat) : Nat := (n + 3) / 4 * 4

/-- The remainder of dividing by a bound, as an index. -/
def boolNat (b : Bool) : Nat := if b then 1 else 0

/-! ## Tables -/

/-- The entry of key `k`, or the default. -/
def tabGet {α : Type} : Tab α → Nat → α → α
  | [], _, d => d
  | (j, v) :: r, k, d => if j = k then v else tabGet r k d

/-- The table with key `k` put at `v`, in key order. -/
def tabPut {α : Type} : Tab α → Nat → α → Tab α
  | [], k, v => [(k, v)]
  | (j, w) :: r, k, v =>
    if k < j then (k, v) :: (j, w) :: r else if k = j then (k, v) :: r else (j, w) :: tabPut r k v

/-- The table without key `k`. -/
def tabDrop {α : Type} (t : Tab α) (k : Nat) : Tab α := t.filter (fun e => e.1 ≠ k)

/-- The table with key `k` at `v`; an entry equal to the default is not listed. -/
def tabSet {α : Type} [DecidableEq α] (t : Tab α) (k : Nat) (v d : α) : Tab α :=
  if v = d then tabDrop t k else tabPut t k v

/-- Whether key `k` is listed. -/
def tabHas {α : Type} (t : Tab α) (k : Nat) : Bool := t.any (fun e => e.1 == k)

/-- The entry of key `k`, if listed. -/
def tabFind? {α : Type} : Tab α → Nat → Option α
  | [], _ => none
  | (j, v) :: r, k => if j = k then some v else tabFind? r k

/-! ## Counters (64 bits) -/

/-- Counter `i` advanced by `n`, modulo 2^64. -/
def countAdd (c : Counts) (i n : Nat) : Counts := tabSet c i ((tabGet c i 0 + n) % 2 ^ 64) 0

/-- Counter `i` advanced by one. -/
def bump (c : Counts) (i : Nat) : Counts := countAdd c i 1

/-- Counter `i` raised to `v` where `v` is larger. -/
def countMax (c : Counts) (i v : Nat) : Counts := tabSet c i (max (tabGet c i 0) v) 0

/-! ## Memories -/

/-- The canonical form of a memory: addresses strictly rise and no listed byte is the 0 an unlisted one reads as. -/
def memoryWf (m : List Host.Cell) : Bool :=
  match m with
  | [] => true
  | [(_, b)] => b != 0
  | (a, b) :: (a', b') :: r => b != 0 && decide (a < a') && memoryWf ((a', b') :: r)

/-- One byte of a memory; an unlisted byte reads 0 (R324, R501). -/
def memByte (m : List Host.Cell) (a : Nat) : Byte := tabGet m a 0

/-- A memory with one byte written. -/
def memSet (m : List Host.Cell) (a : Nat) (b : Byte) : List Host.Cell := tabSet m a b 0

/-- `n` bytes from address `a`. -/
def memRead (m : List Host.Cell) (a n : Nat) : List Byte := (List.range n).map (fun i => memByte m (a + i))

/-- A memory with bytes written from address `a`. -/
def memWrite (m : List Host.Cell) (a : Nat) : List Byte → List Host.Cell
  | [] => m
  | b :: r => memWrite (memSet m a b) (a + 1) r

/-- A memory with `n` bytes from `a` set to 0. -/
def memWipe (m : List Host.Cell) (a n : Nat) : List Host.Cell := m.filter (fun c => c.1 < a ∨ a + n ≤ c.1)

/-! ## Free values -/

/-- A free number for the machine's present draw. -/
def State.freeValue (s : State) : Nat := Config.freeNat s.draws

/-- The machine with its draw count advanced. -/
def State.drawn (s : State) : State := { s with draws := s.draws + 1 }

/-! ## CRC-32C (R148, R459) -/

/-- One bit of reflected CRC-32C. -/
def crcBit (c : Word) : Word := if c.getLsbD 0 then (c >>> 1) ^^^ 0x82F63B78 else c >>> 1

/-- One byte of reflected CRC-32C. -/
def crcByte (c : Word) (b : Byte) : Word :=
  crcBit (crcBit (crcBit (crcBit (crcBit (crcBit (crcBit (crcBit (c ^^^ b.setWidth 32))))))))

/-- Reflected CRC-32C of bytes from a seed, no final inversion. -/
def crc32c (l : List Byte) (seed : Word) : Word := l.foldl crcByte seed

/-- CRC-32C as R459 has it: register initialised to ones and inverted at the end. -/
def crcFinal (l : List Byte) : Nat := (crc32c l 0xFFFFFFFF ^^^ 0xFFFFFFFF).toNat

end Sys2Proof.Machine
end

