-- ==== Sys2Proof/Machine/Bilgaup.lean ====
section
/-! DEFINITION. The Bilgaup links: flits, sequence numbers and replay, messages and their paths (R527 to R534). -/

namespace Sys2Proof.Machine

/-- Bilgaup port `p`. -/
def State.bgPort (s : State) (p : Nat) : BgPort := tabGet s.stack.ports p {}
def State.setBgPort (s : State) (p : Nat) (v : BgPort) : State :=
  { s with stack := { s.stack with ports := tabSet s.stack.ports p v {} } }
def State.modBgPort (s : State) (p : Nat) (f : BgPort → BgPort) : State := s.setBgPort p (f (s.bgPort p))

/-- Counters of Table 21.5 advanced. -/
def BgPort.bump (v : BgPort) (c : BgCount) (n : Nat) : BgPort := { v with counts := countAdd v.counts c.ctorIdx n }
def State.bumpStack (s : State) (c : StackCount) : State :=
  { s with stack := { s.stack with counts := bump s.stack.counts c.ctorIdx } }

/-- Whether the device is stacked (R533). -/
def State.stacked (s : State) : Bool := s.stack.topology != .none

/-- Whether LINKS names a port. -/
def State.linkConfigured (s : State) (p : Nat) : Bool := s.stack.links.testBit p

/-- The up links of this device. -/
def State.ownLinks (s : State) : List MemberLink :=
  [0, 1, 2, 3].filterMap (fun p =>
    let v := s.bgPort p
    match v.peer with
    | some d => if s.linkConfigured p ∧ v.lanes ≠ 0 then some { port := p, peer := d, lanes := v.lanes } else none
    | none => none)

/-! ## Paths (R534) -/

/-- The devices linked to device `d`, as this device knows. -/
def State.neighbours (s : State) (d : Nat) : List Nat :=
  if d = s.stack.number then s.ownLinks.map (·.peer)
  else match tabFind? s.stack.infos d with
    | some i => i.links.map (·.peer)
    | none => []

/-- The devices at most `n` links from `d`, this device itself not passed through. -/
def State.within (s : State) (d : Nat) : Nat → List Nat
  | 0 => [d]
  | n + 1 =>
    let l := s.within d n
    (l ++ (List.range 8).filter (fun a => a ≠ s.stack.number ∧ l.any (fun b => (s.neighbours a).contains b))).eraseDups

/-- The number of links from device `a` to device `d`, if a path joins them. -/
def State.hopsFrom (s : State) (d a : Nat) : Option Nat := (List.range 8).find? (fun n => (s.within d n).contains a)

/-- The better of two links toward a device, with their hops: fewer hops, then the lower port in a ring and the
lower-numbered member in a mesh. -/
def betterLink (t : Topology) (a b : Nat × MemberLink) : Nat × MemberLink :=
  if a.1 < b.1 then a
  else if b.1 < a.1 then b
  else if t = .mesh then (if b.2.peer < a.2.peer then b else a)
  else if b.2.port < a.2.port then b else a

/-- The port by which a message for device `d` leaves. -/
def State.pathPort (s : State) (d : Nat) : Option Nat :=
  let l := s.ownLinks.filterMap (fun k => (s.hopsFrom d k.peer).map (fun n => (n, k)))
  match l with
  | [] => none
  | k :: r => some (r.foldl (betterLink s.stack.topology) k).2.port

/-- Whether a path reaches device `d` (R534). -/
def State.canReach (s : State) (d : Nat) : Bool := d == s.stack.number || (s.stacked && (s.pathPort d).isSome)

/-- The members a path reaches, this device among them, in ascending order. -/
def State.reachableMembers (s : State) : List Nat :=
  (List.range 8).filter (fun d => s.stack.members.contains d ∧ s.canReach d)

/-- The time root and sequencer: the lowest-numbered member that is reachable (R537, R538, R540). -/
def State.stackRoot (s : State) : Nat := (s.reachableMembers.head?).getD s.stack.number

/-- Whether this device is a member of a stack other than its root (R537). -/
def State.isFollower (s : State) : Bool := s.stacked && s.stackRoot != s.stack.number

/-! ## Sending (R528 to R530) -/

/-- The payload of one flit. -/
def flitPayload : Nat := 244

/-- A message cut into flits. -/
def cutFlits (cls src dst : Nat) : Nat → List Byte → List Flit
  | 0, _ => []
  | fuel + 1, l =>
    let rest := l.drop flitPayload
    { cls := cls, last := rest.isEmpty, src := src, dst := dst, hops := 0, payload := l.take flitPayload } ::
      (if rest.isEmpty then [] else cutFlits cls src dst fuel rest)

/-- The class of a message kind (Table 21.3). -/
def messageClass (kind : Nat) : Nat := if kind < 0x10 then 0 else if kind < 0x20 then 1 else 2

/-- The first flit of the highest class that waits, and the others. -/
def nextFlit (l : List Flit) : Option (Flit × List Flit) :=
  match [0, 1, 2].findSome? (fun c => l.find? (fun f => f.cls == c)) with
  | some f => some (f, l.erase f)
  | none => none

/-- The most DATA flits outstanding on a link (R529). -/
def replayRoom : Nat := 512

/-- Waiting flits sent while fewer than 512 are outstanding, in the order of R530. -/
def BgPort.pump : Nat → BgPort → BgPort
  | 0, v => v
  | n + 1, v =>
    if v.lanes = 0 ∨ replayRoom ≤ v.replay.length then v
    else
      match nextFlit v.waiting with
      | none => v
      | some (f, r) =>
        let sent : Sent := { seq := v.txSeq, flit := f, resends := 0 }
        BgPort.pump n
          (BgPort.bump { v with waiting := r, txSeq := (v.txSeq + 1) % 4096, replay := v.replay ++ [sent] } .flitsTx 1)

/-- Flits handed to port `p`. -/
def State.queueFlits (s : State) (p : Nat) (l : List Flit) : State :=
  s.modBgPort p (fun v => BgPort.pump (v.waiting ++ l).length { v with waiting := v.waiting ++ l })

/-- Flits sent on their path; those of a device that no path reaches are discarded, a packet among them counted (R534). -/
def State.routeFlits (s : State) (d : Nat) (l : List Flit) : State :=
  match s.pathPort d with
  | some p => s.queueFlits p l
  | none => (l.filter (fun f => f.cls == 0 && f.last)).foldl (fun s _ => s.bumpStack .unreachableDiscard) s

/-- A message of `kind` and class `cls` sent to device `d` (R530). -/
def State.sendClass (s : State) (d cls kind : Nat) (content : List (List Byte)) : State :=
  let body := Config.messageBody kind content
  let bytes := beBytes 4 kind ++ beBytes 4 body.length ++ body
  s.routeFlits d (cutFlits cls s.stack.number d bytes.length bytes)

/-- A message of a kind that Table 21.3 lists. -/
def State.sendMessage (s : State) (d kind : Nat) (content : List (List Byte)) : State :=
  s.sendClass d (messageClass kind) kind content

/-- A message sent to every other member that is reachable. -/
def State.sendAll (s : State) (cls kind : Nat) (content : List (List Byte)) : State :=
  (s.reachableMembers.filter (· ≠ s.stack.number)).foldl (fun s d => s.sendClass d cls kind content) s

/-! ## Receiving (R528 to R531) -/

/-- A field of a flit header: `n` bits from bit `lo` (Table 21.2). -/
def headerField (h lo n : Nat) : Nat := h / 2 ^ lo % 2 ^ n

/-- Whether TYPE and the RSVD bits of a header keep to Table 21.2. -/
def flitLegal (h : Nat) : Bool :=
  decide (headerField h 60 4 ≤ 5) && headerField h 0 16 == 0 && !(headerField h 60 4 == 1 && headerField h 58 2 == 3)

/-- ACK taken: the flits up to that SEQ leave the replay buffer. -/
def BgPort.acked (v : BgPort) (a : Nat) : BgPort :=
  match v.replay.findIdx? (fun f => f.seq == a) with
  | some i => BgPort.pump v.waiting.length { v with replay := v.replay.drop (i + 1) }
  | none => v

/-- Every flit of the replay buffer sent again (R529). -/
def BgPort.resend (v : BgPort) : BgPort :=
  BgPort.bump { v with replay := v.replay.map (fun f => { f with resends := f.resends + 1 }) } .replays v.replay.length

/-- A DATA flit added to its message; the message, once whole. -/
def BgPort.assemble (v : BgPort) (f : Flit) : BgPort × Option (List Byte) :=
  let mine := fun (a : Assembly) => a.cls == f.cls && a.src == f.src
  let sofar := match v.assembling.find? mine with | some a => a.bytes | none => []
  let others := v.assembling.filter (fun a => !mine a)
  if f.last then ({ v with assembling := others }, some (sofar ++ f.payload))
  else ({ v with assembling := others ++ [{ cls := f.cls, src := f.src, bytes := sofar ++ f.payload }] }, none)

/-- The flit a header and payload spell. -/
def flitOf (h : Nat) (payload : List Byte) : Flit :=
  { cls := headerField h 58 2, last := headerField h 57 1 == 1, src := headerField h 22 3, dst := headerField h 19 3,
    hops := headerField h 16 3, payload := payload.take (headerField h 25 8) }

/-- A DATA flit in order: its message assembled here, or the flit forwarded with HOPS incremented (R531). -/
def State.takeFlit (s : State) (p : Nat) (f : Flit) : State :=
  let v := s.bgPort p
  let w := BgPort.bump { v with rxNext := (v.rxNext + 1) % 4096 } .flitsRx 1
  if f.dst = s.stack.number then
    match w.assemble f with
    | (u, some m) =>
      let s1 := s.setBgPort p u
      { s1 with stack := { s1.stack with inbox := s1.stack.inbox ++ [(f.src, m)] } }
    | (u, none) => s.setBgPort p u
  else (s.setBgPort p w).routeFlits f.dst [{ f with hops := f.hops + 1 }]

/-- A flit received on port `p`, as its 256 bytes (R528, R529). -/
def State.flitIn (s : State) (p : Nat) (b : List Byte) : State :=
  let h := fieldAt b 0 8
  let v := s.bgPort p
  if crcFinal (b.take 0xFC) ≠ fieldAt b 0xFC 4 ∨ ¬ flitLegal h then
    s.setBgPort p ((v.bump .crcErrors 1).bump .naksTx 1)
  else
    let s1 := s.setBgPort p (v.acked (headerField h 33 12))
    match headerField h 60 4 with
    | 1 => if headerField h 45 12 = (s1.bgPort p).rxNext then s1.takeFlit p (flitOf h (slice b 8 flitPayload)) else s1
    | 2 => s1.modBgPort p BgPort.resend
    | 5 => s1.modBgPort p (fun v => { v with peer := some (headerField h 22 3) })
    | _ => s1

/-- The oldest message of this kind from device `d` taken from the inbox. -/
def State.takeMessage (s : State) (d kind : Nat) : State :=
  match s.stack.inbox.find? (fun m => m.1 == d && fieldAt m.2 0 4 == kind) with
  | some m => { s with stack := { s.stack with inbox := s.stack.inbox.erase m } }
  | none => s

end Sys2Proof.Machine
end

