-- ==== Sys2Proof/Machine/Ops.lean ====
section
/-! DEFINITION. The named operations every meaning shares: the units of the machine by number, packets on their way
out, notices, interrupt vectors and the error log. -/

namespace Sys2Proof.Machine

/-! ## Units of the machine by number -/

/-- Ring pair `n`; its VECTOR is `n + 1` until written (Table 15.5). -/
def ringDefault (n : Nat) : Ring := { vector := BitVec.ofNat 6 (n + 1) }
def State.ring (s : State) (n : Nat) : Ring := tabGet s.rings n (ringDefault n)
def State.setRing (s : State) (n : Nat) (r : Ring) : State := { s with rings := tabSet s.rings n r (ringDefault n) }
def State.modRing (s : State) (n : Nat) (f : Ring → Ring) : State := s.setRing n (f (s.ring n))

/-- Channel `c` (R39). -/
def State.channel (s : State) (c : Nat) : Channel := tabGet s.channels c {}
def State.setChannel (s : State) (c : Nat) (v : Channel) : State := { s with channels := tabSet s.channels c v {} }
def State.modChannel (s : State) (c : Nat) (f : Channel → Channel) : State := s.setChannel c (f (s.channel c))

/-- Block `b` (R20). -/
def State.block (s : State) (b : Nat) : Block := tabGet s.blocks b {}
def State.setBlock (s : State) (b : Nat) (v : Block) : State := { s with blocks := tabSet s.blocks b v {} }
def State.modBlock (s : State) (b : Nat) (f : Block → Block) : State := s.setBlock b (f (s.block b))

/-- Cell `n` (R20). -/
def State.cell (s : State) (n : Nat) : Cell := tabGet s.cells n {}
def State.setCell (s : State) (n : Nat) (v : Cell) : State := { s with cells := tabSet s.cells n v {} }
def State.modCell (s : State) (n : Nat) (f : Cell → Cell) : State := s.setCell n (f (s.cell n))

/-- Ethernet port `i`. -/
def State.port (s : State) (i : Nat) : Port := tabGet s.ports i {}
def State.setPort (s : State) (i : Nat) (v : Port) : State := { s with ports := tabSet s.ports i v {} }
def State.modPort (s : State) (i : Nat) (f : Port → Port) : State := s.setPort i (f (s.port i))

/-- Port pair `i` (R94). -/
def State.pair (s : State) (i : Nat) : Pair := tabGet s.pairs i {}
def State.setPair (s : State) (i : Nat) (v : Pair) : State := { s with pairs := tabSet s.pairs i v {} }

/-- Region `r` (R20). -/
def State.region (s : State) (r : Nat) : Region := tabGet s.regions r {}
def State.setRegion (s : State) (r : Nat) (v : Region) : State := { s with regions := tabSet s.regions r v {} }
def State.modRegion (s : State) (r : Nat) (f : Region → Region) : State := s.setRegion r (f (s.region r))

/-- Thread slot `t` of a block (R371). -/
def blockThread (b : Block) (t : Nat) : Thread := tabGet b.threads t {}
def blockSetThread (b : Block) (t : Nat) (v : Thread) : Block := { b with threads := tabSet b.threads t v {} }
def State.thread (s : State) (b t : Nat) : Thread := blockThread (s.block b) t
def State.modThread (s : State) (b t : Nat) (f : Thread → Thread) : State :=
  s.modBlock b (fun k => blockSetThread k t (f (blockThread k t)))

/-- The block of cell `n`, and its local number (R20). -/
def cellBlock (n : Nat) : Nat := n / 8
def cellLocal (n : Nat) : Nat := n % 8

/-- The region of block `b` (R20). -/
def blockRegion (b : Nat) : Nat := b / 4

/-- A counter of the Fylos interpreter (R430). -/
def State.bumpFylos (s : State) (c : FylosCount) : State :=
  { s with fylos := { s.fylos with counts := bump s.fylos.counts c.ctorIdx } }

/-- A counter of port `i` (Table 3.5). -/
def State.bumpPort (s : State) (i : Nat) (c : PortCount) : State :=
  s.modPort i (fun p => { p with counts := bump p.counts c.ctorIdx })

/-- A counter of block `b` (Table 14.9). -/
def State.bumpBlock (s : State) (b : Nat) (c : BlockCount) : State :=
  s.modBlock b (fun k => { k with counts := bump k.counts c.ctorIdx })

/-- A counter of region `r` (Table 5.8). -/
def State.bumpRegion (s : State) (r : Nat) (c : RegionCount) : State :=
  s.modRegion r (fun k => { k with counts := bump k.counts c.ctorIdx })

/-! ## Packets on their way out -/

/-- The bytes a parameter takes in a packet (R402). -/
def tlvSize (t : Tlv) : Nat := 4 + pad4 t.val.length

/-- The bytes a list of parameters takes. -/
def tlvsSize (l : List Tlv) : Nat := (l.map tlvSize).sum

/-- Parameters of one packet grouped into parts of at most `limit` bytes, none split (R408). -/
def partition (limit : Nat) : List Tlv → List Tlv → List (List Tlv)
  | [], acc => [acc]
  | t :: r, acc =>
    if acc ≠ [] ∧ tlvsSize acc + tlvSize t > limit then acc :: partition limit r [t]
    else partition limit r (acc ++ [t])

/-- The ring entries a part takes (R413). -/
def partEntries (p : OutPart) : Nat := 1 + (tlvsSize p.tlvs - 32 + 63) / 64

/-- The free entries of a reply ring (R416). -/
def Ring.room (r : Ring) : Nat := (r.rplHead - r.rplTail - 1).toNat

/-- REPLY_WAIT: the item at the head waits for room (R416). -/
def Ring.replyWait (r : Ring) : Bool :=
  match r.waiting with
  | [] => false
  | p :: _ => decide (r.room < partEntries p)

/-- The parameter limit of one part on a ring (R413). -/
def ringPartLimit : Nat := 16352

/-- The parameter limit of one part on UDP: MAX_FRAME less the headers with one VLAN tag, the Fylos header, the tag and
the FCS (R419). -/
def udpPartLimit (maxFrame : Nat) (ipv6 : Bool) : Nat := (maxFrame - (if ipv6 then 118 else 98)) / 4 * 4

/-- The parts of one packet (R408): every part but the last carries ACCEPTED. -/
def partsOf (p : OutPart) (limit : Nat) : List OutPart :=
  let groups := partition limit p.tlvs []
  let n := groups.length
  (groups.zipIdx).map fun g =>
    { p with tlvs := g.1, part := g.2, parts := n,
             status := if g.2 + 1 < n then 0x0100 else p.status,
             fence := if g.2 + 1 < n then .none else p.fence }

/-- The longest frame that may be built for port `i`: for a pair, whose active member can change, the shorter of its members' (R66,
R95). -/
def State.frameLimit (s : State) (i : Nat) : Nat :=
  if (s.pair (i / 2)).joined then min (s.port (i / 2 * 2)).maxFrame (s.port (i / 2 * 2 + 1)).maxFrame else (s.port i).maxFrame

/-- The parameter limit of a packet to a source. -/
def State.partLimit (s : State) (src : Source) : Nat :=
  match src with
  | .ring _ => ringPartLimit
  | .udp a _ i => udpPartLimit (s.frameLimit i) (a.length == 16)
  | .stack _ _ => 2 ^ 32

/-- What a reply does once it has left (R439): the life cycle and the reset follow their own rows. -/
def State.fenceLeft (s : State) (f : Fence) : State :=
  match f with
  | .none => s
  | .reset => { s with life := { s.life with resetAt := some s.time.powered } }
  | .lifeCycle t => { s with life := { s.life with transitionAt := some (t, s.time.powered) } }

/-- What a reply, completion or notice carries across Bilgaup (R411). -/
def partContent (p : OutPart) : List (List Byte) :=
  [beBytes 1 p.kind.ctorIdx, beBytes 1 p.version, beBytes 2 p.opcode, beBytes 2 p.status, beBytes 4 p.sequence,
   beBytes 4 p.target, beBytes 1 p.device] ++ p.tlvs.map (fun t => beBytes 2 t.typ ++ beBytes 2 t.val.length ++ t.val)

/-- Parts handed to where their command came from (R406, R418). -/
def State.send (s : State) (src : Source) (parts : List OutPart) : State :=
  match src with
  | .ring n => s.modRing n (fun r => { r with waiting := r.waiting ++ parts })
  | .udp a p i =>
    { s with fylos := { s.fylos with
        udpOut := s.fylos.udpOut ++ parts.map (fun x => { addr := a, port := p, egress := some i, part := x }) } }
  | .stack d _ => parts.foldl (fun s x => (s.sendMessage d 0x10 (partContent x)).fenceLeft x.fence) s

/-- The packet that answers a command (R406, R407). -/
def answer (k : PacketKind) (r : CmdRef) (device status : Nat) (tlvs : List Tlv) (f : Fence) : OutPart :=
  { kind := k, version := r.version, opcode := r.opcode, status := status, sequence := r.sequence, target := r.target,
    part := 0, parts := 1, device := device, tagged := r.tagged, dest := none, fence := f, tlvs := tlvs }

/-- The cached commands with parts added to the one of this sequence (R425). -/
def cacheAdd (l : List Cached) (r : CmdRef) (reply : Bool) (parts : List OutPart) : List Cached :=
  if r.tagged then
    l.map fun c =>
      if c.sequence = r.sequence then
        if reply then { c with replies := c.replies ++ parts } else { c with completions := c.completions ++ parts }
      else c
  else l

/-- The one reply to a command (R406). -/
def State.reply (s : State) (r : CmdRef) (status : Nat) (tlvs : List Tlv) (f : Fence) : State :=
  let parts := partsOf (answer .reply r s.stack.number status tlvs f) (s.partLimit r.source)
  let s1 := s.send r.source parts
  { s1 with fylos := { s1.fylos with cache := cacheAdd s1.fylos.cache r true parts } }

/-- Whether a completion can still be delivered: that of a disabled pair is dropped (R412). -/
def State.deliverable (s : State) (src : Source) : Bool :=
  match src with
  | .ring n => (s.ring n).enable
  | .udp _ _ _ => true
  | .stack d _ => s.canReach d

/-- The completion of a command (R407): it leaves the outstanding list, and is dropped and counted where its pair is
disabled (R412). -/
def State.complete (s : State) (r : CmdRef) (status : Nat) (tlvs : List Tlv) : State :=
  let s0 := { s with fylos := { s.fylos with outstanding := s.fylos.outstanding.erase r } }
  if s.deliverable r.source then
    let parts := partsOf (answer .completion r s.stack.number status tlvs .none) (s.partLimit r.source)
    let s1 := s0.send r.source parts
    { s1 with fylos := { s1.fylos with cache := cacheAdd s1.fylos.cache r false parts } }
  else s0.bumpFylos .droppedCompletions

/-! ## Notices (R426, R427, R454) -/

/-- Fields of a notice, numbered from 1 (R454). -/
def fields (l : List (List Byte)) : List Tlv := (l.zipIdx 1).map (fun p => { typ := p.2, val := p.1 })

/-- A TARGET that names an object of this device (Table 15.1). -/
def targetOf (device scope id : Nat) : Nat := scope * 2 ^ 28 + device * 2 ^ 24 + id

/-- The groups of the notice catalogue (R454). -/
inductive Group
  | system | channel | tone | media | flow | time | port | tdm | clockPower | fault | stack
  deriving DecidableEq, Repr

/-- Notice destination 0 as a device reset leaves it (R441). -/
def destDefault (d : Nat) : NoticeDest :=
  if d = 0 then { kind := .ring, ringPair := 0, groups := 2 ^ 11 - 1, version := 4 } else {}

def State.dest (s : State) (d : Nat) : NoticeDest := tabGet s.fylos.dests d (destDefault d)
def State.setDest (s : State) (d : Nat) (v : NoticeDest) : State :=
  { s with fylos := { s.fylos with dests := tabSet s.fylos.dests d v (destDefault d) } }

/-- How many notices of destination `d` are queued (R427). -/
def State.noticesQueued (s : State) (d : Nat) : Nat :=
  let v := s.dest d
  match v.kind with
  | .none => 0
  | .ring => ((s.ring v.ringPair).waiting.filter (fun p => p.dest == some d && p.part + 1 == p.parts)).length
  | .udp => (s.fylos.udpOut.filter (fun p => p.part.dest == some d && p.part.part + 1 == p.part.parts)).length

/-- Whether a notice of destination `d` finds a place (R427). -/
def State.noticeRoom (s : State) (d : Nat) : Bool :=
  let v := s.dest d
  decide (s.noticesQueued d < 512) && (v.kind != .ring || (s.ring v.ringPair).enable)

/-- The lowest port that is link-up, by which a UDP notice leaves. -/
def State.lowestUp (s : State) : Option Nat := [0, 1, 2, 3].find? (fun i => (s.port i).up)

/-- A notice placed in the queue of destination `d`, which takes its SEQUENCE. -/
def State.queueNotice (s : State) (d opcode target : Nat) (tlvs : List Tlv) : State :=
  let v := s.dest d
  let p : OutPart :=
    { kind := .notice, version := v.version, opcode := opcode, status := 0, sequence := v.sequence.toNat,
      target := target, part := 0, parts := 1, device := s.stack.number, tagged := v.kind == .udp, dest := some d,
      fence := .none, tlvs := tlvs }
  let s1 := s.setDest d { v with sequence := v.sequence + 1 }
  match v.kind with
  | .none => s1
  | .ring => s1.modRing v.ringPair (fun r => { r with waiting := r.waiting ++ partsOf p ringPartLimit })
  | .udp =>
    let e := s.lowestUp
    let parts := partsOf p (udpPartLimit (s.frameLimit (e.getD 0)) (v.addr.length == 16))
    { s1 with fylos := { s1.fylos with
        udpOut := s1.fylos.udpOut ++ parts.map (fun x => { addr := v.addr, port := v.port, egress := e, part := x }) } }

/-- The NOTICES_LOST notice of destination `d`, once a place is free (R427). -/
def State.tellLost (s : State) (d : Nat) : State :=
  let v := s.dest d
  if v.lostCount ≠ 0 ∧ s.noticeRoom d then
    let s1 := s.setDest d { v with lostCount := 0, lostFirst := 0, lostLast := 0 }
    s1.queueNotice d 0x0F00 (targetOf s.stack.number 0 0)
      (fields [beBytes 4 v.lostCount, beBytes 4 v.lostFirst, beBytes 4 v.lostLast])
  else s

/-- A notice lost at destination `d`: it takes its SEQUENCE and is counted (R427). -/
def State.loseNotice (s : State) (d : Nat) : State :=
  let v := s.dest d
  let n := v.sequence.toNat
  (s.setDest d { v with sequence := v.sequence + 1, lostCount := v.lostCount + 1,
                        lostFirst := if v.lostCount = 0 then n else v.lostFirst, lostLast := n }).bumpFylos .noticesLost

/-- One notice at one destination: filtered, lost or queued (R426 to R428). -/
def State.noticeAt (s : State) (g : Group) (v4 : Bool) (opcode target : Nat) (tlvs : List Tlv) (d : Nat) : State :=
  let v := s.dest d
  if v.kind = .none ∨ v.groups.testBit g.ctorIdx = false then s
  else if v4 ∧ v.version = 3 then s.bumpFylos .noticesFiltered
  else
    let s1 := s.tellLost d
    if (s1.dest d).lostCount = 0 ∧ s1.noticeRoom d then s1.queueNotice d opcode target tlvs else s1.loseNotice d

/-- A notice, to every destination whose mask holds its group (R426). -/
def State.notice (s : State) (g : Group) (v4 : Bool) (opcode target : Nat) (tlvs : List Tlv) : State :=
  [0, 1, 2, 3].foldl (fun s d => s.noticeAt g v4 opcode target tlvs d) s

/-- A notice about an object of this device. -/
def State.notify (s : State) (g : Group) (opcode scope id : Nat) (l : List (List Byte)) : State :=
  s.notice g false opcode (targetOf s.stack.number scope id) (fields l)

/-- As `notify`, for a notice of version 4 only. -/
def State.notify4 (s : State) (g : Group) (opcode scope id : Nat) (l : List (List Byte)) : State :=
  s.notice g true opcode (targetOf s.stack.number scope id) (fields l)

/-- CHANNEL_STATE (Table 16.10): old and new state, CAUSE and STATUS. -/
def State.channelNotice (s : State) (c : Nat) (old new : ChState) (cause status : Nat) : State :=
  s.notify .channel 0x0F01 4 c
    [beBytes 1 old.ctorIdx, beBytes 1 new.ctorIdx, beBytes 1 cause, beBytes 2 status]

/-! ## MSI-X vectors (R564) -/

/-- The MSI-X table entry of vector `v`. -/
def State.msixEntry (s : State) (v : Nat) : MsixEntry := tabGet s.board.msix v {}

/-- Vector `v` signalled: sent, or pending while its entry is masked. -/
def State.signal (s : State) (v : Nat) : State :=
  if (s.msixEntry v).control.getLsbD 0 then { s with board := { s.board with pba := tabSet s.board.pba v true false } }
  else { s with board := { s.board with msixSent := bump s.board.msixSent v } }

/-- Bit `i` of DEV_IRQ_STATUS set: vector 0 is signalled where the bit rises and is not masked (Table 23.4). -/
def State.deviceIrq (s : State) (i : Nat) : State :=
  if s.board.devIrq.getLsbD i then s
  else
    let s1 := { s with board := { s.board with devIrq := s.board.devIrq ||| (1#3 <<< i) } }
    if s.board.devIrqMask.getLsbD i then s1 else s1.signal 0

/-! ## The error log (R513, R514, R524, R525) -/

/-- Saturating advance. -/
def satAdd (bits v n : Nat) : Nat := min (2 ^ bits - 1) (v + n)

/-- Whether a cause counts in ELOG_UNCORRECTED (Table 20.3). -/
def uncorrectedCause (c : Nat) : Bool := (1 ≤ c && c ≤ 9) || (0x20 ≤ c && c ≤ 0x50)

/-- A new entry: the newest 256 are held (R524). -/
def logAppend (l : ErrorLog) (e : LogEntry) : ErrorLog :=
  let es := l.entries ++ [{ e with seq := l.next }]
  { l with entries := es.drop (es.length - 256), next := (l.next + 1) % 2 ^ 32,
           uncorrected := if uncorrectedCause e.cause then satAdd 32 l.uncorrected 1 else l.uncorrected,
           fatal := if e.action = 7 ∧ e.cause ≠ 0x45 then satAdd 16 l.fatal 1 else l.fatal }

/-- The scope and ID a FAULT notice targets: by LEVEL, and the channel's block level objects by UNIT. -/
def levelTarget (level unit : Nat) : Nat × Nat :=
  if level = 1 then (3, unit) else if level = 2 then (2, unit) else if level = 3 then (1, unit) else (0, 0)

/-- An entry written to the log, with its FAULT notice where Table 20.6 asks for one (R525). Table 20.4 gives ADDRESS for a granule and for a trap's
PC; the ADDRESS of any other entry is free (log entry 1). -/
def State.logError (s : State) (cause level action unit channel detail memory address : Nat) : State :=
  let seq := s.log.next
  let e : LogEntry :=
    { seq := seq, cause := cause, level := level, action := action, unit := unit, channel := channel,
      detail := detail, memory := memory,
      address := if memory = 6 ∧ 0x10 ≤ cause then Config.freeAt s.draws (0x2000000 + seq) % 2 ^ 64 else address,
      time := s.time.powered }
  let s0 := { s with log := logAppend s.log e }
  let s1 := if s.log.uncorrected < s0.log.uncorrected then s0.deviceIrq 2 else s0
  if action ≤ 6 ∧ ¬ (0x10 ≤ cause ∧ cause ≤ 0x14) then
    let t := levelTarget level unit
    s1.notify .fault 0x0F15 t.1 t.2 [beBytes 1 cause, beBytes 1 action, beBytes 4 seq]
  else s1

/-- The errors of the trailing 10 s of powered time (R514). -/
def trailing (now : Nat) (l : List Nat) : List Nat := l.filter (fun t => now < t + 10000000000)

/-- One more correctable error at `now`: the tracker after it, and the COUNT of a notice if one is due (R514). -/
def thresholdStep (t : Threshold) (now : Nat) : Threshold × Option Nat :=
  let live := trailing now t.times
  -- the first instant at which the trailing count was below 16, if it has come
  let below := match t.belowSince with
    | some b => some b
    | none =>
      match (t.times.reverse)[15]? with
      | some u => if u + 10000000000 ≤ now then some (u + 10000000000) else none
      | none => none
  let armed := t.armed || (match below with | some b => decide (b + 10000000000 ≤ now) | none => false)
  let times := live ++ [now]
  if times.length < 16 then ({ times := times, armed := armed, belowSince := if armed then none else below }, none)
  else if armed then ({ times := times, armed := false, belowSince := none }, some times.length)
  else ({ times := times, armed := false, belowSince := none }, none)

/-- A correctable error (R513, R514): merged into the first such entry of the last second, counted, and reported at
the threshold. `kind` 0 to 4 is X, Y, I, BLOCK, DRAM; others have no threshold. -/
def State.correctable (s : State) (cause level unit memory address kind kindUnit : Nat) : State :=
  let now := s.time.powered
  let same := fun (e : LogEntry) =>
    decide (e.cause = cause ∧ e.memory = memory ∧ e.unit = unit ∧ now < e.time + 1000000000)
  let s1 :=
    if s.log.entries.any same then
      { s with log := { s.log with
          entries := s.log.entries.map (fun e => if same e then { e with detail := satAdd 16 e.detail 1 } else e) } }
    else s.logError cause level 0 unit 0xFFFF 0 memory address
  let s2 := { s1 with log := { s1.log with corrected := satAdd 32 s1.log.corrected 1 } }
  if kind ≤ 4 then
    let key := kind * 16 + kindUnit
    let r := thresholdStep (tabGet s2.log.thresholds key {}) now
    let s3 := { s2 with log := { s2.log with thresholds := tabPut s2.log.thresholds key r.1 } }
    match r.2 with
    | none => s3
    | some n => s3.notify .fault 0x0F16 (if kind = 4 then 0 else 2) (if kind = 4 then 0 else kindUnit)
        [beBytes 1 kind, beBytes 4 n]
  else s2

end Sys2Proof.Machine
end

