-- ==== Sys2Proof/Machine/Operands.lean ====
section
/-! DEFINITION. The operands of Fylos commands: parameters in bytes (R402), their kinds and ranges (R434, R435,
Table 16.1) and the checks of R403. -/

namespace Sys2Proof.Machine

/-- The kind of a parameter (Table 16.1): its lengths and its range. -/
inductive PKind
  /-- Clear or set: one byte, 0 or 1. -/
  | flag
  /-- An enumeration of `n` values: one byte. -/
  | enum (n : Nat)
  /-- An unsigned value of `len` bytes from `lo` to `hi` in steps of `step`. -/
  | uint (len lo hi step : Nat)
  /-- A 4-byte value from `lo` to `hi`, or 0xFFFF_FFFF for NONE or AUTO. -/
  | uintOr (lo hi : Nat)
  /-- A two's complement value of `len` bytes. -/
  | sint (len : Nat) (lo hi : Int) (step : Nat)
  /-- Bytes: `lo` to `hi` of them, a multiple of `mult`. -/
  | bytes (lo hi mult : Nat)
  /-- Bytes of one of these lengths. -/
  | lens (l : List Nat)
  deriving DecidableEq, Repr

/-- One parameter of a command: `most` is how often it may appear (1: not repeatable; 0: any number of times).
`late` leaves a count beyond `most` to the opcode's own rules (R403). -/
structure PSpec where
  typ : Nat
  kind : PKind
  req : Bool := false
  repeats : Bool := false
  most : Nat := 1
  late : Bool := false
  deriving DecidableEq, Repr

/-- One parameter as it stands in a packet: its offset from the start of the parameters. -/
structure Param where
  offset : Nat
  typ : Nat
  val : List Byte
  deriving DecidableEq, Repr

/-- What stops the structural reading of parameters: where. -/
inductive Parsed
  | good (l : List Param)
  | bad (typ offset : Nat)
  deriving DecidableEq, Repr

/-- Whether a length fits a kind (R403). -/
def lengthFits (k : PKind) (n : Nat) : Bool :=
  match k with
  | .flag => n == 1
  | .enum _ => n == 1
  | .uint len _ _ _ => n == len
  | .uintOr _ _ => n == 4
  | .sint len _ _ _ => n == len
  | .bytes lo hi mult => decide (lo ≤ n ∧ n ≤ hi ∧ n % mult = 0)
  | .lens l => l.contains n

/-- Whether a value lies in the range of its kind (R403, R435). -/
def valueFits (k : PKind) (v : List Byte) : Bool :=
  match k with
  | .flag => decide (beNat v ≤ 1)
  | .enum n => decide (beNat v < n)
  | .uint _ lo hi step => decide (lo ≤ beNat v ∧ beNat v ≤ hi ∧ beNat v % step = 0)
  | .uintOr lo hi => decide ((lo ≤ beNat v ∧ beNat v ≤ hi) ∨ beNat v = 0xFFFFFFFF)
  | .sint len lo hi step =>
    let i := signedOf (8 * len) (beNat v)
    decide (lo ≤ i ∧ i ≤ hi ∧ i % (step : Int) = 0)
  | .bytes _ _ _ => true
  | .lens _ => true

/-- The structural checks of the BAD_TLV case, in order of appearance (R403 step 1): the rest of the parameters from
offset `o`, with the types seen so far. `fuel` bounds the number of parameters. -/
def parseParams (specs : List PSpec) : Nat → Nat → List Nat → List Byte → Parsed
  | 0, o, _, l => if l = [] then .good [] else .bad 0 o
  | fuel + 1, o, seen, l =>
    if l = [] then .good []
    else if l.length < 4 then .bad (fieldAt l 0 2) o
    else
      let t := fieldAt l 0 2
      let n := fieldAt l 2 2
      if l.length < 4 + pad4 n then .bad t (o + 2)
      else
        match specs.find? (fun p => p.typ == t) with
        | none => .bad t o
        | some p =>
          if ¬ lengthFits p.kind n then .bad t (o + 2)
          else if p.repeats = false ∧ seen.contains t then .bad t o
          else
            let pad := slice l (4 + n) (pad4 n - n)
            if ¬ allZero pad then .bad t (o + 4 + n + (pad.takeWhile (· == 0)).length)
            else
              match parseParams specs fuel (o + 4 + pad4 n) (t :: seen) (l.drop (4 + pad4 n)) with
              | .good r => .good ({ offset := o, typ := t, val := slice l 4 n } :: r)
              | .bad t' o' => .bad t' o'

/-- The lowest required type that is absent (R403 step 2). -/
def missingParam (specs : List PSpec) (l : List Param) : Option Nat :=
  ((specs.filter (fun p => p.req && !(l.any (fun q => q.typ == p.typ)))).map (·.typ)).min?

/-- The first parameter out of range, in order of appearance (R403 step 3): its type and offset. -/
def rangeFault (specs : List PSpec) : List Nat → List Param → Option (Nat × Nat)
  | _, [] => none
  | seen, q :: r =>
    match specs.find? (fun p => p.typ == q.typ) with
    | none => rangeFault specs (q.typ :: seen) r
    | some p =>
      if ¬ valueFits p.kind q.val then some (q.typ, q.offset + 4)
      else if p.repeats ∧ ¬ p.late ∧ p.most ≠ 0 ∧ p.most ≤ seen.count q.typ then some (q.typ, q.offset)
      else rangeFault specs (q.typ :: seen) r

/-! ## Reading accepted parameters -/

def paramHas (l : List Param) (t : Nat) : Bool := l.any (fun q => q.typ == t)

/-- The bytes of the parameter of type `t`, if given. -/
def paramBytes? (l : List Param) (t : Nat) : Option (List Byte) := (l.find? (fun q => q.typ == t)).map (·.val)

def paramNat? (l : List Param) (t : Nat) : Option Nat := (paramBytes? l t).map beNat

def paramNat (l : List Param) (t d : Nat) : Nat := (paramNat? l t).getD d

def paramFlag (l : List Param) (t : Nat) (d : Bool) : Bool :=
  match paramNat? l t with
  | some v => v != 0
  | none => d

/-- The signed value of the parameter of type `t`. -/
def paramInt? (l : List Param) (t : Nat) : Option Int :=
  (paramBytes? l t).map (fun v => signedOf (8 * v.length) (beNat v))

/-- Every value of a repeatable parameter, in order. -/
def paramAll (l : List Param) (t : Nat) : List (List Byte) := (l.filter (fun q => q.typ == t)).map (·.val)

/-- The offset of the value of the parameter of type `t`. -/
def paramOffset (l : List Param) (t : Nat) : Nat := ((l.find? (fun q => q.typ == t)).map (·.offset + 4)).getD 0

/-! ## Shorthands for the kinds of Table 16.1 -/

def flagP (t : Nat) : PSpec := { typ := t, kind := .flag }
def enumP (t n : Nat) : PSpec := { typ := t, kind := .enum n }
def uintP (t lo hi : Nat) : PSpec := { typ := t, kind := .uint 4 lo hi 1 }
def byteP (t lo hi : Nat) : PSpec := { typ := t, kind := .uint 1 lo hi 1 }
def wideP (t lo hi : Nat) : PSpec := { typ := t, kind := .uint 8 lo hi 1 }
def noneP (t lo hi : Nat) : PSpec := { typ := t, kind := .uintOr lo hi }
/-- A duration in ns. -/
def durP (t lo hi step : Nat) : PSpec := { typ := t, kind := .uint 8 lo hi step }
/-- A level or gain in 0.1 dB. -/
def levelP (t : Nat) (lo hi : Int) (step : Nat) : PSpec := { typ := t, kind := .sint 2 lo hi step }
/-- A 2-byte fraction or percentage. -/
def shortP (t lo hi : Nat) : PSpec := { typ := t, kind := .uint 2 lo hi 1 }
def sintP (t len : Nat) (lo hi : Int) : PSpec := { typ := t, kind := .sint len lo hi 1 }
def bytesP (t lo hi : Nat) : PSpec := { typ := t, kind := .bytes lo hi 1 }
def ipP (t : Nat) : PSpec := { typ := t, kind := .lens [4, 16] }
def macP (t : Nat) : PSpec := { typ := t, kind := .lens [6] }
/-- A required parameter. -/
def needed (p : PSpec) : PSpec := { p with req := true }

def ms (n : Nat) : Nat := n * 1000000
def us (n : Nat) : Nat := n * 1000

end Sys2Proof.Machine
end

