-- ==== Sys2Proof/Machine/FylosSchema.lean ====
section
/-! DEFINITION. The command reference as data (R432 to R452): for every opcode its scope, marks and parameters. -/

namespace Sys2Proof.Machine

/-- Target scopes (Table 15.2), in its order. -/
inductive Scope
  | device | region | block | cell | channel | port | group | highway
  deriving DecidableEq, Repr

/-- How many IDs a scope has (Table 15.2). -/
def scopeSize (s : Scope) : Nat :=
  match s with
  | .device => 1 | .region => 4 | .block => 16 | .cell => 128 | .channel => 16384 | .port => 4 | .group => 2
  | .highway => 32

/-- One entry of the command reference (R432). `query`, `pcie`, `v4` are the marks Q, P and 4; `fixedOnly` that
FIXED_ONLY is taken; `accepts` that a reply may be ACCEPTED; `settings` that the channel-settings row of Table 2.3
applies (R437). -/
structure OpSpec where
  code : Nat
  scope : Scope
  query : Bool := false
  fixedOnly : Bool := false
  pcie : Bool := false
  v4 : Bool := false
  accepts : Bool := false
  settings : Bool := false
  params : List PSpec := []
  deriving DecidableEq, Repr

/-- Parameters of consecutive types from `t`. -/
def weights (t n : Nat) : List PSpec := (List.range n).map (fun i => uintP (t + i) 1 255)

/-- LEG, where an entry lists it (R447). -/
def legP : PSpec := needed (enumP 0x0040 2)

def srcAddrP (t : Nat) : PSpec := needed (wideP t 0 (2 ^ 64 - 1))
def srcLenP (t : Nat) : PSpec := needed (uintP t 0 (2 ^ 32 - 1))

/-- Table 5.2. -/
def flowParams : List PSpec :=
  [uintP 1 0 262143, uintP 2 0 7, uintP 3 0 16383, enumP 4 2, enumP 5 6, noneP 6 0 65535, flagP 7]

/-- Table 5.5 and R446. -/
def srtpParams : List PSpec :=
  [enumP 1 2, enumP 2 3, bytesP 3 0 48, bytesP 4 0 48, uintP 5 0 4, uintP 6 0 (2 ^ 32 - 1), enumP 7 2,
   uintP 8 0 (2 ^ 32 - 1), flagP 9, flagP 10, needed (uintP 0x0040 0 65535), uintP 0x0041 0 1]

/-- Table 16.4. -/
def legParams : List PSpec :=
  [legP, enumP 0x0041 4, uintP 0x0042 0 31, uintP 0x0043 0 127, enumP 0x0044 4, uintP 0x0045 0 0x3FF,
   uintP 0x0046 0 65535, ipP 0x0047, uintP 0x0048 1 65535, uintP 0x0049 1 65535, uintP 0x004A 0 (2 ^ 32 - 1),
   noneP 0x004B 0 65535, uintP 0x004C 0 (2 ^ 32 - 1), uintP 0x004D 0 7, uintP 0x004E 0 16383, enumP 0x004F 2]

/-- Table 6.2. -/
def playoutParams : List PSpec :=
  [enumP 1 2, durP 2 (ms 10) (ms 500) 1, durP 3 (ms 10) (ms 500) 1, durP 4 (ms 10) (ms 500) 1, uintP 5 64 2000,
   shortP 6 900 999, durP 7 0 (ms 20) (ms 1), enumP 8 2, flagP 9]

/-- Table 7.7 under R448, and the payload map entry. -/
def codecParams : List PSpec :=
  [uintP 1 0 128, durP 2 (ms 10) (ms 60) (ms 10), durP 4 (ms 100) (ms 5000) 1, enumP 18 3,
   durP 19 (ms 10) (ms 100) (ms 10), flagP 20, enumP 21 4, uintP 22 0 3, uintP 23 2400 14400, enumP 24 2,
   uintP 25 0 7, uintP 26 0 7, uintP 27 72 1400, durP 28 (ms 40) (ms 400) 1, uintP 29 0 65535, uintP 30 1 65535,
   uintP 31 1 65535, legP,
   { typ := 0x0041, kind := .lens [16], repeats := true, most := 8, late := true }]

/-- Table 8.10. -/
def resampleParams : List PSpec :=
  [needed (enumP 1 8), uintP 2 0 4, enumP 3 24, enumP 4 8, uintP 5 0 7, uintP 6 0 7, uintP 7 0 7, uintP 8 0 7,
   uintP 9 0 7, flagP 10, uintP 11 16 256, enumP 12 2]

/-- Table 9.7. -/
def echoParams : List PSpec :=
  [flagP 1, enumP 2 3, durP 3 (ms 10) (ms 260) (ms 10), flagP 4, shortP 5 64 1024, shortP 6 64 1024, shortP 7 0 1024,
   levelP 8 (-120) 0 10, levelP 9 30 200 1, durP 10 0 (ms 200) (ms 10), levelP 11 (-600) (-300) 1, enumP 12 3,
   levelP 13 0 120 1, durP 14 0 (ms 200) (ms 10), enumP 15 3, levelP 16 (-600) (-300) 1, enumP 17 3, enumP 18 3,
   flagP 19]

/-- Table 3.4. -/
def portParams : List PSpec :=
  [enumP 1 5, macP 2, uintP 3 1518 9216, enumP 4 2, enumP 5 3, enumP 6 3, byteP 7 0 255, uintP 8 0 7, flagP 9,
   flagP 10]

/-- ±1,000 ppm in units of 2^-48 (R127). -/
def freqMax : Int := 281474976711

/-- The SERVO_CONFIG rows of Table 4.9. -/
def servoParams : List PSpec :=
  [enumP 1 3, uintP 2 0 0x7FFFFFFF, uintP 3 0 0x7FFFFFFF, sintP 4 4 (-7) 4, sintP 5 8 (-freqMax) freqMax, uintP 6 1 256,
   durP 7 (us 1) (ms 1000) 1, uintP 8 1 500, flagP 9, durP 10 10 (ms 1000) 1, durP 11 0 (ms 600000) 1]

/-- The command reference. -/
def commandReference : List OpSpec :=
  [{ code := 0x0101, scope := .device },
   { code := 0x0102, scope := .device, pcie := true, params := [needed { typ := 0x40, kind := .lens [32] }] },
   { code := 0x0103, scope := .device, params :=
       [needed (uintP 0x40 0 3), enumP 0x41 3, uintP 0x42 0 3, ipP 0x43, uintP 0x44 1 65535,
        uintP 0x45 0 (2 ^ 32 - 1), byteP 0x46 3 4] },
   { code := 0x0104, scope := .device, query := true },
   { code := 0x0105, scope := .device },
   { code := 0x0106, scope := .device, pcie := true, params :=
       [needed (enumP 0x40 4), needed { typ := 0x41, kind := .lens [4] }] },
   { code := 0x0107, scope := .device, params := weights 0x40 10 },
   { code := 0x0110, scope := .block, params := [enumP 0x40 2] },
   { code := 0x0111, scope := .block, query := true },
   { code := 0x0112, scope := .block, accepts := true },
   { code := 0x0113, scope := .cell, accepts := true },
   { code := 0x0114, scope := .region, accepts := true },
   { code := 0x0115, scope := .region, params := weights 0x40 7 }] ++
  [{ code := 0x0201, scope := .channel, accepts := true, params := [needed (enumP 0x40 2), byteP 0x41 0 255] },
   { code := 0x0202, scope := .channel, params := legParams },
   { code := 0x0203, scope := .channel },
   { code := 0x0204, scope := .channel },
   { code := 0x0205, scope := .channel },
   { code := 0x0206, scope := .channel },
   { code := 0x0207, scope := .channel },
   { code := 0x0208, scope := .channel, accepts := true, params := [uintP 0x40 0 7, byteP 0x41 0 255] },
   { code := 0x0209, scope := .channel, accepts := true },
   { code := 0x020A, scope := .channel, query := true },
   { code := 0x020B, scope := .channel, settings := true, params :=
       [uintP 1 16 47, noneP 2 0 79, durP 3 (us 125) (us 1000) (us 125)] }] ++
  [{ code := 0x0301, scope := .device, params :=
       [needed (uintP 1 0 262143), uintP 2 0 7, needed (uintP 3 0 16383), needed (enumP 4 2), enumP 5 6, noneP 6 0 65535,
        flagP 7, needed { typ := 0x40, kind := .lens [40] }] },
   { code := 0x0302, scope := .device, params := [needed (uintP 1 0 262143)] },
   { code := 0x0303, scope := .device, params := needed (uintP 1 0 262143) :: flowParams.tail },
   { code := 0x0304, scope := .device, query := true, params := [needed (uintP 1 0 262143)] },
   { code := 0x0305, scope := .device, params := srtpParams },
   { code := 0x0306, scope := .device, params := [needed (uintP 0x40 0 65535)] },
   { code := 0x0307, scope := .device, query := true, params := [needed (uintP 0x40 0 65535)] },
   { code := 0x0308, scope := .device, params :=
       [needed (uintP 0x40 0 65535), needed (enumP 0x41 3), flagP 0x42, needed (bytesP 0x43 14 128)] },
   { code := 0x0309, scope := .device, params := [needed (uintP 0x40 0 65535)] },
   { code := 0x030A, scope := .device, params :=
       [enumP 0x40 2, uintP 0x41 0 100000, { typ := 0x42, kind := .uint 4 524288 4194304 65536 }, uintP 0x43 1 65535] },
   { code := 0x030B, scope := .device, query := true }] ++
  [{ code := 0x0401, scope := .channel, settings := true, params := echoParams },
   { code := 0x0402, scope := .channel, query := true },
   { code := 0x0403, scope := .channel, params := [needed (uintP 0x40 0 51), needed (uintP 0x41 1 52)] },
   { code := 0x0501, scope := .channel, settings := true, params := playoutParams },
   { code := 0x0502, scope := .channel, query := true, fixedOnly := true, settings := true },
   { code := 0x0601, scope := .channel, settings := true, params := codecParams },
   { code := 0x0602, scope := .channel, query := true, fixedOnly := true, settings := true, params := [enumP 0x40 2] },
   { code := 0x0603, scope := .channel, settings := true, params := resampleParams },
   { code := 0x0604, scope := .channel, settings := true, params := [enumP 1 8] },
   { code := 0x0605, scope := .channel, query := true, settings := true, params := [enumP 1 8] },
   { code := 0x0701, scope := .channel, settings := true, params :=
       [{ typ := 1, kind := .lens [0, 4], repeats := true, most := 4, late := true }, uintP 2 0 0x3FF,
        durP 3 0 (ms 200) 1, legP] },
   { code := 0x0702, scope := .channel, settings := true, params :=
       [legP, needed (uintP 0x41 0 0x3FF), enumP 0x42 2, levelP 0x43 (-32768) 32767 1] },
   { code := 0x0703, scope := .channel, settings := true, params := [legP] },
   { code := 0x0704, scope := .channel, settings := true, params :=
       [levelP 1 (-240) 240 1, levelP 2 (-240) 240 1, noneP 3 0 0x3FF, noneP 4 0 0x3FF, noneP 5 0 0x3FF, noneP 6 0 0x3FF,
        legP] },
   { code := 0x0710, scope := .device, accepts := true, params :=
       [needed (uintP 0x40 0 0x3FF), wideP 0x41 0 (2 ^ 64 - 1), uintP 0x42 0 (2 ^ 32 - 1),
        { typ := 0x43, kind := .bytes 0 65535 1, repeats := true, most := 0 }] },
   { code := 0x0711, scope := .device, params := [needed (uintP 0x40 0 0x3FF)] },
   { code := 0x0712, scope := .device, query := true, params := [uintP 0x40 0 0x3FF] },
   { code := 0x0713, scope := .device, params := [needed (uintP 0x40 0 0x3FF)] },
   { code := 0x0720, scope := .device, accepts := true, params :=
       [needed (uintP 0x40 0 65535), srcAddrP 0x41, srcLenP 0x42] },
   { code := 0x0721, scope := .device, params := [needed (uintP 0x40 0 65535)] },
   { code := 0x0722, scope := .channel, settings := true, params :=
       [legP, { typ := 0x41, kind := .uint 4 0 65535 1, req := true, repeats := true, most := 8 }, uintP 0x42 0 255,
        enumP 0x43 2, levelP 0x44 (-240) 240 1, flagP 0x45, flagP 0x46] },
   { code := 0x0723, scope := .channel, settings := true, params := [legP] },
   { code := 0x0724, scope := .device, query := true, params := [uintP 0x40 0 65535] },
   { code := 0x0725, scope := .device, params := [wideP 0x40 0 (2 ^ 64 - 1), wideP 0x41 0 (2 ^ 64 - 1)] }] ++
  [{ code := 0x0801, scope := .group, params :=
       [enumP 1 2, enumP 2 2, enumP 3 2, uintP 4 0 1023, enumP 5 2, enumP 6 2, enumP 7 2, durP 8 0 124998 2] },
   { code := 0x0802, scope := .highway, params := [enumP 1 3, uintP 2 0 1023, enumP 3 2, uintP 4 0 255] },
   { code := 0x0803, scope := .highway, params := [needed (enumP 0x40 3), uintP 0x41 0 127] },
   { code := 0x0804, scope := .device, query := true, params := [uintP 0x40 0 1, uintP 0x41 0 31, uintP 0x42 0 127] },
   { code := 0x0901, scope := .device, params := [enumP 1 2] },
   { code := 0x0902, scope := .device, params :=
       [needed (wideP 0x40 0 (2 ^ 64 - 1)), needed (uintP 0x41 0 999999999), uintP 0x42 0 (2 ^ 32 - 1)] },
   { code := 0x0903, scope := .device, params := [needed (sintP 0x40 8 (-(2 ^ 63)) (2 ^ 63 - 1))] },
   { code := 0x0904, scope := .device, query := true },
   { code := 0x0905, scope := .device, params := servoParams },
   { code := 0x0906, scope := .device, params := [needed (sintP 0x40 8 (-(2 ^ 63)) (2 ^ 63 - 1)), flagP 0x41] },
   { code := 0x0907, scope := .port, params :=
       [sintP 1 8 (-6553600) 6553600, sintP 2 8 (-6553600) 6553600, sintP 3 8 (-65536000000) 65536000000] },
   { code := 0x0908, scope := .port, params :=
       [needed (bytesP 0x40 60 9212), flagP 0x41, flagP 0x42, uintP 0x43 0 65535] },
   { code := 0x0A01, scope := .port, params := portParams },
   { code := 0x0A02, scope := .port, accepts := true, params :=
       [needed (uintP 0x40 0 (2 ^ 32 - 1)), needed (wideP 0x41 0 (2 ^ 64 - 1)), needed (uintP 0x42 0 (2 ^ 32 - 1)),
        needed (bytesP 0x43 0 65535)] },
   { code := 0x0A03, scope := .port },
   { code := 0x0A04, scope := .port, params := [needed (flagP 0x40), flagP 0x41, durP 0x42 (ms 1000) (ms 600000) 1] },
   { code := 0x0A05, scope := .port, query := true }] ++
  [{ code := 0x0B01, scope := .device, v4 := true, accepts := true, params :=
       [uintP 0x40 0 7, enumP 0x41 3, byteP 0x42 0 15, flagP 0x43] },
   { code := 0x0B02, scope := .device, query := true, v4 := true },
   { code := 0x0B03, scope := .block, v4 := true, accepts := true, params := [uintP 0x40 0 7] },
   { code := 0x0C01, scope := .device, accepts := true, params := [needed (enumP 0x40 2), srcAddrP 0x41, srcLenP 0x42] },
   { code := 0x0C02, scope := .device, params := [needed (enumP 0x40 2)] },
   { code := 0x0C03, scope := .device, query := true },
   { code := 0x0C04, scope := .block, v4 := true, accepts := true, params := [needed (enumP 0x40 2)] },
   { code := 0x0C05, scope := .device, accepts := true, params := [srcAddrP 0x41, srcLenP 0x42, srcAddrP 0x43] },
   { code := 0x0C06, scope := .device, accepts := true, params := [srcAddrP 0x41, srcLenP 0x42, srcAddrP 0x43] },
   { code := 0x0C20, scope := .device, v4 := true, accepts := true, params := [srcAddrP 0x41, srcLenP 0x42] },
   { code := 0x0C21, scope := .channel, v4 := true, settings := true, params :=
       [noneP 0x40 0 15, noneP 0x41 0 15, uintP 0x42 1 200] },
   { code := 0x0C22, scope := .device, query := true, v4 := true },
   { code := 0x0D01, scope := .device, params :=
       [{ typ := 0x40, kind := .enum 7, req := true, repeats := true, most := 7 }] },
   { code := 0x0D02, scope := .device, query := true },
   { code := 0x0D03, scope := .device, accepts := true, params := [needed (uintP 0x40 0 99), needed (byteP 0x41 0 7)] },
   { code := 0x0D04, scope := .device, params := [uintP 0x40 0 99, uintP 0x42 1 1024, flagP 0x43] },
   { code := 0x0D05, scope := .device, params := [uintP 0x40 1 125000000, flagP 0x41] },
   { code := 0x0D06, scope := .device, accepts := true, params := [needed (uintP 0x40 0 62), enumP 0x41 3, flagP 0x42] },
   { code := 0x0D07, scope := .device, query := true },
   { code := 0x0E01, scope := .device, query := true, params := [uintP 0x40 0 (2 ^ 32 - 1), uintP 0x41 1 256] },
   { code := 0x0E02, scope := .device, params :=
       [flagP 0x40, { typ := 0x41, kind := .uint 4 0 (2 ^ 32 - 1) 1 }, uintP 0x42 1 256] },
   { code := 0x0E03, scope := .device, accepts := true, params := [srcAddrP 0x43] },
   { code := 0x0E04, scope := .device, query := true },
   { code := 0x0E10, scope := .device, v4 := true, params :=
       [uintP 0x40 0 31, uintP 0x41 0 (2 ^ 32 - 1), uintP 0x42 0 (2 ^ 32 - 1)] }]

/-- The entry of an opcode, if the manual lists it. -/
def opSpec? (code : Nat) : Option OpSpec := commandReference.find? (fun o => o.code == code)

/-! ## Settings of a channel by key -/

/-- The settings groups of a channel. -/
inductive SetGroup
  | playout | codec | resample | echo | tone | gain | sched | hook
  deriving DecidableEq, Repr

/-- The key of a setting: its group, the leg or stream it belongs to, and its type (R434). -/
def setKey (g : SetGroup) (unit typ : Nat) : Nat := (g.ctorIdx * 8 + unit) * 65536 + typ

/-- The settings of one group and unit that a command carries. -/
def settingsOf (g : SetGroup) (unit : Nat) (l : List Param) : List (Nat × List Byte) :=
  (l.filter (fun q => decide (q.typ < 0x40))).map (fun q => (setKey g unit q.typ, q.val))

/-- Settings merged over held ones. -/
def mergeSettings (t : Tab (List Byte)) (l : List (Nat × List Byte)) : Tab (List Byte) :=
  l.foldl (fun t p => tabPut t p.1 p.2) t

/-- The value of a setting, or its default. -/
def settingNat (t : Tab (List Byte)) (g : SetGroup) (unit typ d : Nat) : Nat :=
  match tabFind? t (setKey g unit typ) with
  | some v => beNat v
  | none => d

/-- The value of a signed setting, or its default. -/
def settingInt (t : Tab (List Byte)) (g : SetGroup) (unit typ : Nat) (d : Int) : Int :=
  match tabFind? t (setKey g unit typ) with
  | some v => signedOf (8 * v.length) (beNat v)
  | none => d

end Sys2Proof.Machine
end

