-- ==== Sys2Proof/Machine/FylosFront.lean ====
section
/-! DEFINITION. What every Fylos command passes before its own rules (R400 to R409, R420 to R428): framing, the UDP
checks, the header, the target, the parameters, the channel-settings row; and the one reply it then gets. -/

namespace Sys2Proof.Machine

/-- What a command's own rules are given: the command, its target ID, its parameters and the flags of a query. -/
structure Ctx where
  ref : CmdRef
  id : Nat
  params : List Param
  clear : Bool
  fixedOnly : Bool
  deriving DecidableEq, Repr

/-- What a command's own rules answer. -/
inductive Answer
  /-- A success-class reply, with what it carries, and the machine after the command. -/
  | done (status : Nat) (tlvs : List Tlv) (s : State)
  /-- As `done`, with what happens once the reply has left (R439). -/
  | fenced (f : Fence) (s : State)
  /-- Accepted: exactly one completion follows (R406); `after` is what the machine does once the reply is on its way. -/
  | accepted (s : State) (after : State → State := id)
  /-- Accepted, and complete at once: the completion follows the reply (R407). -/
  | completed (status : Nat) (tlvs : List Tlv) (s : State)
  /-- A refusal: nothing changes (R404). -/
  | refuse (status : Nat) (tlvs : List Tlv)

/-- The own rules of an opcode. -/
abbrev Body := Ctx → State → Answer

/-! ## Statuses (Table 15.7) -/

def stOk : Nat := 0x0000
def stNoChange : Nat := 0x0001
def stConfirmed : Nat := 0x0002
def stAccepted : Nat := 0x0100
def stBadHeader : Nat := 0x0200
def stUnknownOpcode : Nat := 0x0201
def stBadTlv : Nat := 0x0202
def stMissingParam : Nat := 0x0203
def stOutOfRange : Nat := 0x0204
def stBadTarget : Nat := 0x0205
def stBadBlock : Nat := 0x0206
def stBadShutterList : Nat := 0x0207
def stPairModeMismatch : Nat := 0x0208
def stBadKey : Nat := 0x0209
def stSrtpCtxNotFound : Nat := 0x020A
def stFlowNotFound : Nat := 0x020B
def stBadTemplate : Nat := 0x020C
def stTemplateNotFound : Nat := 0x020D
def stBadPayloadMap : Nat := 0x020E
def stRateMismatch : Nat := 0x020F
def stBadChain : Nat := 0x0210
def stBadTable : Nat := 0x0211
def stTableNotFound : Nat := 0x0212
def stBadPrompt : Nat := 0x0213
def stPromptNotFound : Nat := 0x0214
def stUserKernelBad : Nat := 0x0215
def stWrongState : Nat := 0x0300
def stChannelMigrating : Nat := 0x0301
def stLegUnbound : Nat := 0x0302
def stLegConflict : Nat := 0x0303
def stBlockUnavailable : Nat := 0x0304
def stFlowIdInUse : Nat := 0x0305
def stFlowExists : Nat := 0x0306
def stSrtpCtxInUse : Nat := 0x0307
def stTemplateInUse : Nat := 0x0308
def stShutterReplaced : Nat := 0x0309
def stTableProtected : Nat := 0x030A
def stTableInUse : Nat := 0x030B
def stPromptInUse : Nat := 0x030C
def stUserKernelInUse : Nat := 0x030D
def stGateBusy : Nat := 0x030E
def stDuplicateMismatch : Nat := 0x030F
def stNoThreadSlot : Nat := 0x0400
def stAdmissionCompute : Nat := 0x0401
def stAdmissionDram : Nat := 0x0402
def stFlowTableFull : Nat := 0x0403
def stTemplateTableFull : Nat := 0x0404
def stResamplerFull : Nat := 0x0405
def stTooManyDetectors : Nat := 0x0406
def stTableTooLarge : Nat := 0x0407
def stTableStoreFull : Nat := 0x0408
def stTableBusy : Nat := 0x0409
def stPromptStoreFull : Nat := 0x040A
def stPlayQueueFull : Nat := 0x040B
def stOutOfSpace : Nat := 0x040C
def stPendingLimit : Nat := 0x040D
def stAuthRequired : Nat := 0x0500
def stAuthReplay : Nat := 0x0501
def stNotPermitted : Nat := 0x0502
def stNoUdpKey : Nat := 0x0503
def stImageAuthFailed : Nat := 0x0504
def stVersionUnsupported : Nat := 0x0600
def stOpcodeVersion : Nat := 0x0601
def stReplyTooLarge : Nat := 0x0602
def stFeatureVersion : Nat := 0x0603
def stFormatUnreadable : Nat := 0x0604
def stInternalFault : Nat := 0x0700
def stCheckFailed : Nat := 0x0701
def stChannelFaulted : Nat := 0x0702
def stStackUnreachable : Nat := 0x0703

/-- Whether a status is a refusal: neither success nor ACCEPTED (Table 0.3, R406). -/
def isRefusal (st : Nat) : Bool := decide (0x0200 ≤ st)

/-- ERROR_PARAM and ERROR_OFFSET (Table 15.3). -/
def errorTlvs (typ offset : Nat) : List Tlv :=
  [{ typ := 0xFF00, val := beBytes 2 typ }, { typ := 0xFF01, val := beBytes 4 offset }]

/-- A refusal that names the parameter at fault. Where the value at fault is one held and not one given, the spec gives no
offset: it is a free value (R403, Table 15.3; log entry 76). -/
def refuseParam (c : Ctx) (status typ : Nat) : Answer :=
  .refuse status (errorTlvs typ
    (if paramHas c.params typ then paramOffset c.params typ else Config.openOffset c.ref.sequence typ % 2 ^ 32))

/-- The parameter that a refusal names: the first given of those that a rule sets against each other (R403; log entry 76). -/
def blamed (c : Ctx) (types : List Nat) : Nat := (types.find? (paramHas c.params)).getD (types.headD 0)

/-- MISSING_PARAM of a type (R403): its offset is PARAM_LEN. -/
def refuseMissing (c : Ctx) (typ : Nat) : Answer :=
  .refuse stMissingParam (errorTlvs typ ((c.params.map (fun q => 4 + pad4 q.val.length)).sum))

/-- SUPPORTED_VERSIONS (Table 15.3, Table 15.5). -/
def supportedVersions : Tlv := { typ := 0xFF02, val := beBytes 1 3 ++ beBytes 1 4 }

/-! ## The header (Table 15.1) -/

def packetKind (p : Packet) : Nat := p.flags.toNat % 4
def packetAuth (p : Packet) : Bool := p.flags.toNat.testBit 2
def packetClear (p : Packet) : Bool := p.flags.toNat.testBit 4
def packetFixedOnly (p : Packet) : Bool := p.flags.toNat.testBit 5
def packetScope (p : Packet) : Nat := p.target.toNat / 2 ^ 28
def packetDevice (p : Packet) : Nat := p.target.toNat / 2 ^ 24 % 16
def packetId (p : Packet) : Nat := p.target.toNat % 2 ^ 24

/-- Whether a command came over PCIe (R420). -/
def isRing (s : Source) : Bool := match s with | .ring _ => true | .udp _ _ _ => false | .stack _ pcie => pcie

/-- The 32 header bytes of a command (Table 15.1). -/
def headerBytes (op : Nat) (p : Packet) : List Byte :=
  beBytes 2 p.magic.toNat ++ [p.version, p.flags] ++ beBytes 2 op ++ beBytes 2 p.status.toNat ++
  beBytes 4 p.sequence.toNat ++ beBytes 4 p.target.toNat ++ beBytes 4 p.paramLen.toNat ++ beBytes 2 p.part.toNat ++
  beBytes 2 p.parts.toNat ++ [p.sourceDevice] ++ p.rsvd

/-- What a reply to a command carries back of it; a VERSION other than 3 and 4 is answered in version 4 (R428). -/
def refOf (op : Nat) (p : Packet) (tagged : Bool) : CmdRef :=
  { source := p.source, version := if p.version = 3 then 3 else 4, opcode := op, sequence := p.sequence.toNat,
    target := p.target.toNat, tagged := tagged }

/-- A command of one packet, refused with BAD_HEADER whatever its opcode (R401). -/
def badHeader (p : Packet) : Bool :=
  packetKind p != 0 || (p.flags.toNat / 64 != 0) || !(allZero p.rsvd) || p.part != 0 || p.parts != 1 ||
  p.status != 0 || p.sourceDevice != 0 || p.paramLen.toNat % 4 != 0 || (isRing p.source && packetAuth p) ||
  (p.version == 3 && packetFixedOnly p)

/-- Whether the DEVICE field names this device or another of the stack (R400, R428). -/
def deviceKnown (s : State) (p : Packet) : Bool :=
  if p.version = 3 then packetDevice p == 0
  else packetDevice p == 0xF || (decide (packetDevice p < 8) && s.stack.members.contains (packetDevice p))

/-- Whether a command is for this device (R411). -/
def deviceHere (s : State) (p : Packet) : Bool :=
  p.version == 3 || packetDevice p == 0xF || packetDevice p == s.stack.number

/-- The opcodes accepted in DECOMMISSIONED (R506): DEV_HELLO, DEV_QUERY, FW_QUERY, ERROR_LOG_READ, SENSOR_QUERY. -/
def decommissionedOpcodes : List Nat := [0x0101, 0x0104, 0x0C03, 0x0E01, 0x0E04]

/-- The channel-settings row of Table 2.3. -/
def settingsRow (st : ChState) : Option Nat :=
  match st with
  | .opened | .active | .hold => none
  | .migrating => some stChannelMigrating
  | .idle | .draining | .faulted => some stWrongState

/-- Whether an entry of a lacking command set covers an opcode, a type or a value of a type (R549). -/
def lackCovers (version op : Nat) (q : Option Param) (l : Lack) : Bool :=
  l.version == version && l.opcode == op &&
  (match l.typ, q with
   | none, none => true
   | some t, some q => t == q.typ && (match l.value with | none => true | some v => v == q.val)
   | none, some _ => false
   | some _, none => false)

/-- What the members of the stack and this device's own blocks lack of this manual (R548). -/
def versionLacks (v : Nat) : List Lack :=
  (Config.releaseLacks v).map (fun e => { version := e.1, opcode := e.2.1, typ := e.2.2.1, value := e.2.2.2 })

/-- The firmware version of a slot (R511). -/
def State.slotVersion (s : State) (k : Nat) : Nat := (tabGet s.life.slots k {}).version

/-- The firmware versions that this device's blocks run. -/
def State.ownVersions (s : State) : List Nat := ((List.range 16).map (fun b => s.slotVersion (s.block b).firmware)).eraseDups

/-- While an Equinox lasts: whether some member lacks an opcode for a Fylos version, or a parameter of it (R429, R549). -/
def State.featureLacks (s : State) (version op : Nat) (q : Option Param) : Bool :=
  s.stack.equinox.isSome &&
  ((s.ownVersions.flatMap versionLacks).any (lackCovers version op q) ||
   s.stack.infos.any (fun i => decide (version < i.2.fylosMin ∨ i.2.fylosMax < version) || i.2.lacks.any (lackCovers version op q)))

/-- The refusal of an ID outside its range (R400); BLOCK_CONFIG and BLOCK_QUERY name theirs (R398). -/
def rangeStatus (op : Nat) : Nat := if op = 0x0110 ∨ op = 0x0111 then stBadBlock else stBadTarget

/-- The checks of R400, R401, R420, R428, R429 and R506 that come before the parameters: the first refusal, if any.
`none` for an opcode the manual does not list (R432). -/
def headerRefusal (s : State) (op : Nat) (o : Option OpSpec) (p : Packet) : Option (Nat × List Tlv) :=
  if p.version ≠ 3 ∧ p.version ≠ 4 then some (stVersionUnsupported, [supportedVersions])
  else if badHeader p then some (stBadHeader, [])
  else
    match o with
    | none => some (stUnknownOpcode, [])
    | some o =>
      if (packetClear p ∧ ¬ o.query) ∨ (packetFixedOnly p ∧ ¬ o.fixedOnly) then some (stBadHeader, [])
      else if packetScope p ≠ o.scope.ctorIdx ∨ ¬ deviceKnown s p then some (stBadTarget, [])
      else if scopeSize o.scope ≤ packetId p then some (rangeStatus op, [])
      else if o.v4 ∧ p.version = 3 then some (stOpcodeVersion, [])
      else if s.featureLacks p.version.toNat op none then some (stFeatureVersion, [])
      else if o.pcie ∧ ¬ isRing p.source then some (stNotPermitted, [])
      else if s.life.lifeCycle = 3 ∧ ¬ decommissionedOpcodes.contains op then some (stNotPermitted, [])
      else none

/-- The checks of R403 over the parameters: the parameters, or the refusal. -/
def paramCheck (o : OpSpec) (p : Packet) : Parsed × Option (Nat × List Tlv) :=
  match parseParams o.params (p.params.length + 1) 0 [] p.params with
  | .bad t off => (.bad t off, some (stBadTlv, errorTlvs t off))
  | .good l =>
    match missingParam o.params l with
    | some t => (.good l, some (stMissingParam, errorTlvs t p.paramLen.toNat))
    | none =>
      match rangeFault o.params [] l with
      | some (t, off) => (.good l, some (stOutOfRange, errorTlvs t off))
      | none => (.good l, none)

/-- Whether two commands come from one source (R405). -/
def sameSource : Source → Source → Bool
  | .ring a, .ring b => a == b
  | .udp _ _ _, .udp _ _ _ => true
  | _, _ => false

/-- The outstanding completions of a source (R409), those on another member of the stack among them. -/
def outstandingOf (s : State) (src : Source) : Nat := (s.fylos.outstanding.filter (fun r => sameSource r.source src)).length

/-- Whether an opcode is answered ACCEPTED: in a stack a change of the flow table is too (R144). -/
def State.mayAccept (s : State) (o : OpSpec) : Bool :=
  o.accepts || (s.stacked && (o.code == 0x0301 || o.code == 0x0302 || o.code == 0x0303))

/-- The context of a command for this device, past its header, if nothing refuses it before its own rules (R403, R428,
Table 2.3), else the refusal. -/
def admitCommand (s : State) (op : Nat) (o : OpSpec) (p : Packet) (tagged : Bool) : (Nat × List Tlv) ⊕ Ctx :=
  match paramCheck o p with
  | (_, some r) => .inl r
  | (.bad t off, none) => .inl (stBadTlv, errorTlvs t off)
  | (.good l, none) =>
    if l.any (fun q => s.featureLacks p.version.toNat op (some q)) then .inl (stFeatureVersion, [])
    else
      match (if o.settings then settingsRow (s.channel (packetId p)).state else none) with
      | some st => .inl (st, [])
      | none =>
        .inr { ref := refOf op p tagged, id := packetId p, params := l, clear := packetClear p,
               fixedOnly := packetFixedOnly p }

/-- An answer turned into its one reply (R404, R406). A version 3 reply of more than one part is refused with
REPLY_TOO_LARGE and the command has no effect (R428). One that would be answered ACCEPTED while its source has 1,024 completions
outstanding is refused with PENDING_LIMIT (R409). -/
def giveAnswer (s : State) (c : CmdRef) (a : Answer) : State :=
  match a with
  | .done st tlvs t =>
    if c.version = 3 ∧ 1 < (partition (s.partLimit c.source) tlvs []).length then s.reply c stReplyTooLarge [] .none
    else t.reply c st tlvs .none
  | .fenced f t => t.reply c stOk [] f
  | .accepted t after =>
    if 1024 ≤ outstandingOf s c.source then s.reply c stPendingLimit [] .none
    else after (({ t with fylos := { t.fylos with outstanding := t.fylos.outstanding ++ [c] } }).reply c stAccepted [] .none)
  | .completed st tlvs t =>
    if 1024 ≤ outstandingOf s c.source then s.reply c stPendingLimit [] .none
    else (t.reply c stAccepted [] .none).complete c st tlvs
  | .refuse st tlvs => s.reply c st tlvs .none

/-- The bytes of a command as it is forwarded (R411). -/
def commandContent (op : Nat) (p : Packet) : List (List Byte) := [headerBytes op p, p.params, [BitVec.ofNat 8 (boolNat (isRing p.source))]]

/-- A command for another member forwarded to it, or refused where no path reaches it (R411). -/
def forwardCommand (op : Nat) (p : Packet) (c : CmdRef) (s : State) : State :=
  let d := packetDevice p
  if ¬ s.canReach d then s.reply c stStackUnreachable [] .none
  else if (((opSpec? op).map (fun o => s.mayAccept o)).getD false) ∧ 1024 ≤ outstandingOf s p.source then
    s.reply c stPendingLimit [] .none
  else
    let s1 := s.sendMessage d 0x10 (commandContent op p)
    { s1 with stack := { s1.stack with forwarded := s1.stack.forwarded ++ [{ device := d, ref := c }] } }

/-- A command that Damium takes, past framing and the UDP checks: its one reply, and its effect where nothing refuses
it. A command for another device of the stack is forwarded once its header has been checked (R411). -/
def runCommand (op : Nat) (body : Body) (p : Packet) (tagged : Bool) (s : State) : State :=
  let c := refOf op p tagged
  match headerRefusal s op (opSpec? op) p with
  | some (st, tlvs) => s.reply c st tlvs .none
  | none =>
    if ¬ deviceHere s p then forwardCommand op p c s
    else
      match opSpec? op with
      | none => s.reply c stUnknownOpcode [] .none
      | some o =>
        match admitCommand s op o p tagged with
        | .inl (st, tlvs) => s.reply c st tlvs .none
        | .inr ctx => giveAnswer s c (body ctx s)

/-! ## Transport checks -/

/-- A ring pair's intake stops at an entry (R415): the error bits and the RING_STOP notice. -/
def stopIntake (s : State) (n cause index : Nat) : State :=
  (s.modRing n (fun r => { r with cmdError := true, errCause := BitVec.ofNat 4 cause, errIndex := BitVec.ofNat 12 index,
                                  stopped := true, covered := [] })).notify
    .system 0x0F11 0 0 [beBytes 4 n, beBytes 1 cause, beBytes 4 index]

/-- Powered nanoseconds in one second. -/
def oneSecond : Nat := 1000000000

/-- Whether one more untagged answer fits the limit of 100 per second, and the machine with it counted (R421, R423). -/
def helloRoom (s : State) : Option State :=
  let live := s.fylos.hellos.filter (fun t => s.time.powered < t + oneSecond)
  if live.length < 100 then
    some { s with fylos := { s.fylos with hellos := live ++ [s.time.powered] } }
  else none

/-- The UDP key of the present life-cycle state, if one is held (R420). -/
def State.udpKey? (s : State) : Option (List Byte) := tabFind? s.life.udpKeys s.life.lifeCycle

/-- The tag a packet must carry (R422). -/
def wantedTag (s : State) (key : List Byte) (op : Nat) (p : Packet) : List Byte :=
  beBytes 16 (Config.hmacTag key (s.fylos.bootNonce ++ headerBytes op p ++ p.params)).toNat

/-- The header fields that a duplicate must match, RETRY ignored (R425). -/
def headerKey (op : Nat) (p : Packet) : List Nat :=
  [op, p.version.toNat, p.flags.toNat &&& 0xF7, p.target.toNat, p.paramLen.toNat]

/-- The window after a new highest sequence (R424). -/
def windowShift (w : List Nat) (d : Nat) : List Nat := 0 :: ((w.map (· + d)).filter (· < 1024))

/-- A command accepted under its sequence enters the cache of 256 (R425). -/
def cacheNew (l : List Cached) (op : Nat) (p : Packet) : List Cached :=
  let l1 := l ++ [{ sequence := p.sequence.toNat, header := headerKey op p, params := p.params, replies := [],
                    completions := [] }]
  l1.drop (l1.length - 256)

/-- A duplicate (R425): the cached reply and completion again, or a refusal. -/
def resendDuplicate (op : Nat) (p : Packet) (s : State) : State :=
  match s.fylos.cache.find? (fun c => c.sequence == p.sequence.toNat) with
  | none => s.reply { refOf op p true with sequence := p.sequence.toNat } stAuthReplay [] .none
  | some c =>
    if c.header = headerKey op p ∧ c.params = p.params then
      (s.send p.source (c.replies ++ c.completions)).bumpFylos .duplicates
    else
      -- the refusal is not cached under the sequence it repeats
      s.send p.source (partsOf (answer .reply (refOf op p true) s.stack.number stDuplicateMismatch [] .none)
        (s.partLimit p.source))

/-- A tagged command through the sequence window (R424). -/
def sequenceWindow (op : Nat) (p : Packet) (s : State) (run : State → State) : State :=
  let f := s.fylos
  let d := (p.sequence - f.highest).toNat
  let refuse := s.send p.source (partsOf (answer .reply (refOf op p true) s.stack.number stAuthReplay [] .none)
    (s.partLimit p.source))
  if f.first then
    run { s with fylos := { f with first := false, highest := p.sequence, window := [0], cache := cacheNew f.cache op p } }
  else if d ≠ 0 ∧ d < 0x80000000 then
    run { s with fylos := { f with highest := p.sequence, window := windowShift f.window d,
                                   cache := cacheNew f.cache op p } }
  else
    let back := (f.highest - p.sequence).toNat
    if 1024 ≤ back then refuse
    else if f.window.contains back then
      match f.cache.find? (fun c => c.sequence == p.sequence.toNat) with
      | none => refuse
      | some _ => resendDuplicate op p s
    else run { s with fylos := { f with window := back :: f.window, cache := cacheNew f.cache op p } }

/-- A UDP command (R419 to R425). -/
def udpCommand (op : Nat) (body : Body) (p : Packet) (s : State) : State :=
  if p.params.length ≠ p.paramLen.toNat ∨ p.tag.length ≠ (if packetAuth p then 16 else 0) ∨ p.rsvd.length ≠ 7 then
    s.bumpFylos .badLength
  else if s.life.lifeCycle = 3 then s.bumpFylos .badStateDiscard
  else if op = 0x0101 ∧ ¬ packetAuth p then
    match helloRoom s with
    | some t => runCommand op body p false t
    | none => s.bumpFylos .helloDiscard
  else
    match s.udpKey? with
    | none =>
      match helloRoom s with
      | some t => t.reply (refOf op p false) stNoUdpKey [] .none
      | none => s.bumpFylos .helloDiscard
    | some key =>
      if packetAuth p then
        if p.tag = wantedTag s key op p then sequenceWindow op p s (fun t => runCommand op body p (op != 0x0101) t)
        else s.bumpFylos .authFail
      else
        match helloRoom s with
        | some t => t.reply (refOf op p false) stAuthRequired [] .none
        | none => s.bumpFylos .helloDiscard

/-- A ring command (R401, R415): its bad MAGIC or length stops intake at the entry CMD_HEAD names. -/
def ringCommand (op n : Nat) (body : Body) (p : Packet) (s : State) : State :=
  if p.magic ≠ 0x4659 then stopIntake (s.bumpFylos .badMagic) n 1 (s.ring n).cmdHead.toNat
  else if 16352 < p.paramLen.toNat then stopIntake (s.bumpFylos .badLength) n 2 (s.ring n).cmdHead.toNat
  else runCommand op body { p with params := p.params.take p.paramLen.toNat } false s

/-- Whether Damium takes commands now (R550, R578) and has begun service (R502). -/
def State.damiumTakes (s : State) : Bool := s.fylos.ready && !s.fylos.halted && !s.fylos.switching

/-- A Fylos command that reaches Damium. It waits at its source while Damium takes none, or, on a ring, while an item
of the pair waits for room (R416, R578); a datagram that comes during a reset or a firmware switch is discarded (R550, R554), and so is
a command from the stack during a reset. -/
def fylosRun (op : Nat) (body : Body) (p : Packet) (s : State) : State :=
  match p.source with
  | .ring n =>
    if ¬ s.damiumTakes ∨ (s.ring n).held ≠ [] ∨ (s.ring n).replyWait then
      s.modRing n (fun r => { r with held := r.held ++ [(op, p)] })
    else ringCommand op n body p s
  | .udp _ _ _ =>
    if s.fylos.switching ∨ ¬ s.fylos.ready then s
    else if ¬ s.damiumTakes then { s with fylos := { s.fylos with heldUdp := s.fylos.heldUdp ++ [(op, p)] } }
    else if p.magic ≠ 0x4659 then s.bumpFylos .badMagic
    else udpCommand op body p s
  | .stack _ _ =>
    if ¬ s.fylos.ready then s
    else if ¬ s.damiumTakes then { s with fylos := { s.fylos with heldUdp := s.fylos.heldUdp ++ [(op, p)] } }
    else runCommand op body p false s

end Sys2Proof.Machine
end

