-- ==== Sys2Proof/Machine/Admission.lean ====
section
/-! DEFINITION. What a channel costs and whether a block takes it (R49 to R57, R205, R371, R381). -/

namespace Sys2Proof.Machine

/-! ## The payload map (Table 16.7) -/

/-- The entries of a payload map held as one string of 16-byte entries. -/
def mapEntries : Nat → List Byte → List (List Byte)
  | 0, _ => []
  | fuel + 1, l => if l.length < 16 then [] else l.take 16 :: mapEntries fuel (l.drop 16)

def entryPt (e : List Byte) : Nat := fieldAt e 0 1
def entryCodec (e : List Byte) : Nat := fieldAt e 1 1
def entryFlags (e : List Byte) : Nat := fieldAt e 2 1
def entryVad (e : List Byte) : Bool := (entryFlags e).testBit 0
def entryG726Rate (e : List Byte) : Nat := fieldAt e 3 1
def entryModeSet (e : List Byte) : Nat := fieldAt e 4 2
def entryMode (e : List Byte) : Nat := fieldAt e 6 1
def entryCmrSend (e : List Byte) : Nat := fieldAt e 7 1
def entryWideband (e : List Byte) : Bool := fieldAt e 8 1 == 1
def entryComplexity (e : List Byte) : Nat := fieldAt e 9 1
def entryLossPct (e : List Byte) : Nat := fieldAt e 10 1
def entryClock (e : List Byte) : Nat := fieldAt e 12 4

/-- CODEC 0 to 7 are audio codecs; 8 CN, 9 TELEPHONE_EVENT, 10 T38 (Table 16.7). -/
def isAudio (e : List Byte) : Bool := decide (entryCodec e ≤ 7)
def isT38 (e : List Byte) : Bool := entryCodec e == 10
def isG711 (e : List Byte) : Bool := decide (entryCodec e ≤ 1)

/-- The map a new RTP binding starts with: PCMU under payload type 0, VAD set (R443, Table 7.7). -/
def defaultMap : List Byte := [0, 0, 1] ++ zeroBytes 13

/-- The accepted payload map of a leg. -/
def legMap (t : Tab (List Byte)) (leg : Nat) : List (List Byte) :=
  mapEntries 8 ((tabFind? t (setKey .codec leg 0x41)).getD defaultMap)

/-- PTIME of a leg in ms; 20 by default. -/
def legPtime (t : Tab (List Byte)) (leg : Nat) : Nat := settingNat t .codec leg 2 (ms 20) / ms 1

/-- TX_PT of a leg: its value, else the first audio entry's, else 128 (R198). -/
def legTxPt (t : Tab (List Byte)) (leg : Nat) : Nat :=
  settingNat t .codec leg 1 (match (legMap t leg).find? isAudio with | some e => entryPt e | none => 128)

/-! ## Charges (R52, R53, R205) -/

/-- A row of Table 7.3: durations in ms and kc, nearest to 20 ms first. -/
def durationRow (codec : Nat) : List (Nat × Int) :=
  if codec ≤ 1 then [(20, 3), (10, 4), (30, 3), (40, 3), (60, 3)]
  else if codec = 2 then [(20, 9), (10, 10), (30, 9), (40, 9), (60, 9)]
  else if codec = 3 then [(20, 14), (10, 15), (30, 14), (40, 14), (60, 14)]
  else if codec = 4 then [(20, 107), (10, 112), (30, 105), (40, 104), (60, 103)]
  else if codec = 5 then [(20, 78), (40, 76), (60, 75)]
  else if codec = 6 then [(20, 289), (40, 286), (60, 285)]
  else if codec = 7 then [(20, 0), (10, 29), (40, -12), (60, -16)]
  else if codec = 10 then [(10, 152)]
  else []

/-- Table 7.4. -/
def opusCharge (wideband : Bool) (complexity : Nat) : Int :=
  if complexity ≤ 2 then (if wideband then 196 else 139)
  else if complexity ≤ 4 then (if wideband then 262 else 185)
  else if complexity = 5 then (if wideband then 343 else 241)
  else if complexity ≤ 8 then (if wideband then 421 else 296)
  else (if wideband then 497 else 349)

/-- The compute cost of a map entry at a PTIME: the row's value there, else at the duration nearest 20 ms (R53). -/
def entryCompute (ptime : Nat) (e : List Byte) : Nat :=
  let row := durationRow (entryCodec e)
  let v := match row.find? (fun p => p.1 == ptime) with
    | some p => p.2
    | none => match row with | [] => 0 | p :: _ => p.2
  (v + (if entryCodec e = 7 then opusCharge (entryWideband e) (entryComplexity e) else 0)).toNat

/-- Codec state in bytes (Table 7.2). -/
def codecState (codec : Nat) : Nat :=
  if codec ≤ 2 then 128 else if codec = 3 then 192 else if codec = 4 then 960 else if codec = 5 then 1216
  else if codec = 6 then 2880 else if codec = 7 then 3968 else if codec = 10 then 1536 else 0

/-- The leg charge: compute in kc and DRAM bytes (Table 2.6, R53). -/
def legCharge (t : Tab (List Byte)) (leg : Nat) (l : Leg) : Nat × Nat :=
  match l.kind with
  | .none => (0, 0)
  | .tdm => (1, 256)
  | .stack => (2, 128)
  | .rtp =>
    let es := (legMap t leg).filter (fun e => isAudio e || isT38 e)
    ((es.map (entryCompute (legPtime t leg))).foldl max 0, (es.map (fun e => 2 * codecState (entryCodec e))).foldl max 0)

/-- The common charge (Table 2.5). -/
def commonCharge (wide echo : Bool) : Nat × Nat :=
  if wide then (if echo then (44, 67384) else (18, 11264)) else (if echo then (20, 36252) else (9, 8192))

/-- USER_KC of a channel with a hook set (R348). -/
def hookCharge (t : Tab (List Byte)) : Nat :=
  if settingNat t .hook 0 0x40 0xFFFFFFFF = 0xFFFFFFFF ∧ settingNat t .hook 0 0x41 0xFFFFFFFF = 0xFFFFFFFF then 0
  else settingNat t .hook 0 0x42 0

/-- The charge a channel would have with these settings and legs (R52). -/
def chargeOf (wide : Bool) (t : Tab (List Byte)) (a b : Leg) : Nat × Nat :=
  let c := commonCharge wide (settingNat t .echo 0 1 1 == 1)
  let x := legCharge t 0 a
  let y := legCharge t 1 b
  (c.1 + x.1 + y.1 + hookCharge t, c.2 + x.2 + y.2)

/-- A channel's charge (R52). -/
def Channel.charge (c : Channel) : Nat × Nat := chargeOf c.wide c.accepted c.legA c.legB

/-- Whether a state carries its charge (Table 2.2). -/
def charged (st : ChState) : Bool :=
  match st with
  | .active | .hold | .migrating | .draining => true
  | .idle | .opened | .faulted => false

/-- What channel `c` adds to the sums of block `b`: its own charge, and a destination reservation (R55). -/
def channelLoad (device b : Nat) (c : Channel) : Nat × Nat :=
  let inbound : Bool := match c.move with | some m => m.inbound | none => false
  let own := if charged c.state ∧ c.block = b ∧ c.slot.isSome ∧ ¬ inbound then c.charge else (0, 0)
  let res := match c.move with
    | some m => if (m.device = device ∨ m.inbound) ∧ m.block = b then m.charge else (0, 0)
    | none => (0, 0)
  (own.1 + res.1, own.2 + res.2)

/-- The compute and DRAM sums of a block (R55). -/
def State.blockSums (s : State) (b : Nat) : Nat × Nat :=
  s.channels.foldl (fun a e => let l := channelLoad s.stack.number b e.2; (a.1 + l.1, a.2 + l.2)) (0, 0)

/-- Whether a cell is in service: not halted, not retired, not under reset (R521). -/
def cellInService (c : Cell) : Bool := c.trap.isNone && !c.retired && !c.underReset

/-- The active cells of a block: in service and not the reserve (R381). -/
def State.activeCells (s : State) (b : Nat) : List Nat :=
  (List.range 8).filter (fun i => cellInService (s.cell (8 * b + i)) && (s.block b).reserve != some i)

/-- A block's compute budget: 14,280 kc for each active cell (Table 2.8, R521). -/
def State.computeBudget (s : State) (b : Nat) : Nat := 14280 * (s.activeCells b).length

/-- A block's DRAM budget (Table 2.8). -/
def dramBudget : Nat := 37650000

/-- Admission of a charge increase to a block: the refusal, if any, the compute test first (R56). A change that raises neither
part is no increase. -/
def State.admission (s : State) (b : Nat) (old new : Nat × Nat) : Option Nat :=
  let sum := s.blockSums b
  if new.1 ≤ old.1 ∧ new.2 ≤ old.2 then none
  else if s.computeBudget b + old.1 < sum.1 + new.1 then some stAdmissionCompute
  else if dramBudget + old.2 < sum.2 + new.2 then some stAdmissionDram
  else none

/-- Admission of a change of settings or legs: only where the channel is charged now (note (a) of Table 2.3). -/
def State.admitChange (s : State) (c : Channel) (new : Nat × Nat) : Option Nat :=
  if charged c.state then s.admission c.block c.charge new else none

/-! ## Context formats (R438, R547, R549) -/

/-- The slots of the firmware that this device's blocks run. -/
def State.runningSlots (s : State) : List FwSlot :=
  (((List.range 16).map (fun b => (s.block b).firmware)).eraseDups).map (fun k => tabGet s.life.slots k {})

/-- Whether Damium or any block runs the firmware of a slot. -/
def State.slotRuns (s : State) (k : Nat) : Bool :=
  s.life.management == k || (List.range 16).any (fun b => (s.block b).firmware == k)

/-- The formats that firmware of native format `n` reads, as a mask (R547). -/
def formatMask (n : Nat) : Nat := if n = 0 then 3 else 7 * 2 ^ (n - 1)

/-- FORMATS_READ of the device: what all its blocks' firmware reads (R548). -/
def State.formatsRead (s : State) : Nat := (s.runningSlots.map (fun k => formatMask k.format)).foldl (· &&& ·) (2 ^ 32 - 1)

/-- The native format of block `b`'s firmware, and the format its commits are written in (R549). -/
def State.nativeFormat (s : State) (b : Nat) : Nat := (tabGet s.life.slots (s.block b).firmware {}).format
def State.commitFormat (s : State) (b : Nat) : Nat := s.stack.commitFormat.getD (s.nativeFormat b)

/-! ## Placement (R49 to R51, R371, R381) -/

/-- The thread slot a channel takes in a block, if one is free (R371). -/
def freeSlot (k : Block) (c : Nat) : Option Nat :=
  if (blockThread k (c % 1024)).state = .free then some (c % 1024)
  else (List.range 1024).find? (fun i => (blockThread k i).state == .free)

/-- Whether a block can take a channel at all (note (c) of Table 2.3, R440). -/
def State.blockInService (s : State) (b : Nat) : Bool :=
  !(s.block b).isolated && !(s.block b).underReset && !(s.block b).evacuating && !(s.region (blockRegion b)).underReset && s.activeCells b != []

/-- The placement of channel `c` in block `b`: a slot, or the refusal (note (c) of Table 2.3). -/
def State.place (s : State) (b c : Nat) : Nat ⊕ Nat :=
  if ¬ s.blockInService b then .inr stBlockUnavailable
  else match freeSlot (s.block b) c with
    | some t => .inl t
    | none => .inr stNoThreadSlot

/-- The compute charges of the channel threads bound to each local cell (R381, R398). -/
def State.cellSum (s : State) (b i : Nat) : Nat :=
  (s.block b).threads.foldl (fun a e =>
    if e.1 < 1024 ∧ e.2.state ≠ .free ∧ e.2.cell = i then a + (s.channel e.2.channel).charge.1 else a) 0

/-- The first local cell of `l` with the smallest sum. -/
def leastCell (sum : Nat → Nat) : List Nat → Option Nat
  | [] => none
  | i :: r =>
    match leastCell sum r with
    | none => some i
    | some j => if sum i ≤ sum j then some i else some j

/-- The active cell a thread is bound to: the smallest sum, ties to the lower cell (R381). -/
def State.bindCell (s : State) (b : Nat) : Nat := (leastCell (s.cellSum b) (s.activeCells b)).getD 0

/-- The thread record of a channel just placed (Table 14.1, Table 14.8). -/
def placedThread (c cell : Nat) : Thread :=
  { state := .waiting, cell := cell, priority := 32, phase := c % 80, wakeTick := true, channel := c, budget := 500,
    first := true }

/-- NONE, AUTO and the like (R435). -/
def noneValue : Nat := 0xFFFFFFFF

/-- A channel's thread under the scheduling settings held (Table 14.8). -/
def schedThread (t : Tab (List Byte)) (c : Nat) (k : Thread) : Thread :=
  let phase := settingNat t .sched 0 2 noneValue
  { k with priority := settingNat t .sched 0 1 32, phase := if phase = noneValue then c % 80 else phase,
           budget := settingNat t .sched 0 3 (us 500) / 1000 }

/-- Channel `c` given slot `t` of block `b`. -/
def State.takeSlot (s : State) (b t c : Nat) : State :=
  s.modThread b t (fun _ => schedThread (s.channel c).accepted c (placedThread c (s.bindCell b)))

/-- A cell that no longer runs or has staged the thread of a slot. -/
def unloadCell (t : Nat) (c : Cell) : Cell :=
  { c with running := if c.running = some t then none else c.running, shadow := if c.shadow = some t then none else c.shadow }

/-- A thread slot made FREE (R373); what its thread held is dropped. -/
def State.freeSlotOf (s : State) (b : Nat) (t : Option Nat) : State :=
  match t with
  | none => s
  | some t => ((List.range 8).foldl (fun s i => s.modCell (8 * b + i) (unloadCell t)) s).modBlock b (fun k =>
      { blockSetThread k t {} with
        records := match (blockThread k t).suspendRec with
          | some r => k.records.erase r
          | none => k.records })

/-! ## Power of a block (R51, R495 to R497) -/

def State.powerDomain (s : State) (p : Nat) : PowerDomain := tabGet s.clocks.power p {}
def State.setPower (s : State) (p : Nat) (v : PowerDomain) : State :=
  { s with clocks := { s.clocks with power := tabSet s.clocks.power p v {} } }

/-- The power domain of a clock domain (Table 19.1). -/
def powerOf (d : Nat) : Nat :=
  if d < 48 then d
  else if d < 52 then d
  else if d < 56 then d - 4
  else if d < 60 then d - 8
  else if d < 64 then d - 8
  else if d < 68 then d - 16
  else if d < 72 then d - 12
  else if d < 76 then d - 16
  else if d < 80 then d - 20
  else if d = 84 ∨ d = 85 then 60
  else if d = 86 ∨ d = 87 then 61
  else if d = 89 then 62
  else 63

/-- The clock domains that cannot be gated (R487). -/
def ungated (d : Nat) : Bool :=
  (decide (80 ≤ d ∧ d ≤ 83)) || d == 88 || d == 90 || d == 91 || d == 92 || d == 96 || d == 97 || d == 98

def State.clockDomain (s : State) (d : Nat) : ClockDomain := tabGet s.clocks.domains d {}

/-- The enable that matches a mode (R484). -/
def ClockDomain.enable (k : ClockDomain) (m : PowerMode) : Bool :=
  match m with | .run => k.runEn | .sleep => k.sleepEn | .deepSleep => k.deepEn

/-- Whether a clock domain runs in the present mode of its power domain (R484). -/
def State.clockRuns (s : State) (d : Nat) : Bool :=
  ungated d || (s.clockDomain d).enable (s.powerDomain (powerOf d)).mode

/-- The deepest mode among a block's domains and its region logic. -/
def State.blockMode (s : State) (b : Nat) : PowerMode :=
  let l := [b, 16 + b, 32 + b, 48 + blockRegion b].map (fun p => (s.powerDomain p).mode)
  if l.contains .deepSleep then .deepSleep else if l.contains .sleep then .sleep else .run

/-- A POWER notice (Table 16.10): CAUSE 0 COMMAND, 1 AUTO, 2 WAKE. -/
def State.powerNotice (s : State) (p : Nat) (m : PowerMode) (cause : Nat) : State :=
  s.notify .clockPower 0x0F14 0 0 [beBytes 4 p, beBytes 1 m.ctorIdx, beBytes 1 cause]

/-- Counters of Table 19.7 by row: entries to each mode, wakes, the longest wake, busy ends. -/
inductive PowerCount
  | sleepEntries | deepEntries | wakes | wakeNsMax | powerBusy | autoBusy
  deriving DecidableEq, Repr

/-- A power counter advanced. -/
def PowerDomain.count (d : PowerDomain) (c : PowerCount) : PowerDomain := { d with counts := bump d.counts c.ctorIdx }

/-- The completion of the command that asked for a change, if one did. -/
def State.completeOpt (s : State) (r : Option CmdRef) (st : Nat) : State :=
  match r with
  | some r => s.complete r st []
  | none => s

/-- The entry of a domain to DEEP_SLEEP ends (R494). -/
def State.endEntry (s : State) (p : Nat) : State :=
  let d := s.powerDomain p
  match d.changing with
  | some (.deepSleep, r) =>
    ((s.setPower p ({ d with changing := none }.count .deepEntries)).powerNotice p .deepSleep (if r.isSome then 0 else 1)).completeOpt
      r stOk
  | _ => s

/-- A domain back in RUN (Table 19.7): WAKES counts it. -/
def State.wakeDomain (s : State) (p : Nat) : State :=
  let s1 := s.endEntry p
  let d := s1.powerDomain p
  if d.mode = .run then s1
  else
    let r := match d.changing with | some x => x.2 | none => none
    ((s1.setPower p ({ d with mode := .run, changing := none }.count .wakes)).powerNotice p .run 2).completeOpt r stOk

/-- The domains a block needs, shallowest dependency first (R497). -/
def blockDomains (b : Nat) : List Nat := [48 + blockRegion b, 16 + b, b, 32 + b]

/-- A block's domains woken at once, as from SLEEP (R497). -/
def State.wakeBlock (s : State) (b : Nat) : State := (blockDomains b).foldl (fun s p => s.wakeDomain p) s

/-- One domain set waking, unless it wakes already. -/
def State.startWakeDomain (s : State) (p : Nat) : State :=
  let s1 := s.endEntry p
  let d := s1.powerDomain p
  if d.mode = .run ∨ d.changing.isSome then s1
  else s1.setPower p { d with changing := some (.run, none), changeSince := s1.time.powered }

/-- A block's domains set waking from DEEP_SLEEP: POWER_WAKE_DONE ends it (R51, R494). -/
def State.startWake (s : State) (b : Nat) : State := (blockDomains b).foldl (fun s p => s.startWakeDomain p) s

/-- A block that a channel is placed in while it sleeps wakes (R497). -/
def State.wakeFor (s : State) (b : Nat) : State :=
  match s.blockMode b with
  | .run => s
  | .sleep => s.wakeBlock b
  | .deepSleep => s.startWake b

/-- A slot held for a channel that is not to run in it yet: nothing wakes its thread. -/
def State.holdSlot (s : State) (b t c : Nat) : State :=
  (s.takeSlot b t c).modThread b t (fun k => { k with wakeTick := false })

/-- The tick whose run a channel's thread works on (R374). -/
def State.runTick (s : State) (c : Nat) : Nat :=
  match (s.channel c).slot with
  | some t => (s.thread (s.channel c).block t).tick
  | none => 0

end Sys2Proof.Machine
end

