-- ==== Sys2Proof/Machine/FlowTable.lean ====
section
/-! DEFINITION. The flow table: hashing, lookup, the relocation walk, the overflow CAM and removal (R141 to R151). -/

namespace Sys2Proof.Machine

/-! ## Hashing (R148) -/

/-- The slot of a key in a way (R148). -/
def flowSlot (key : List Byte) (w : Nat) : Nat :=
  (crc32c key (if w = 0 then 0x9E3779B9 else 0x7F4A7C15)).toNat % 65536

/-! ## Lookup (R145) -/

def flowWay (f : Flows) (w : Nat) : Tab FlowEntry := if w = 0 then f.way0 else f.way1

def setWay (f : Flows) (w : Nat) (t : Tab FlowEntry) : Flows := if w = 0 then { f with way0 := t } else { f with way1 := t }

/-- The entry with this key: its slot in each way and the whole CAM are examined. -/
def flowLookup (f : Flows) (key : List Byte) : Option FlowEntry :=
  match tabFind? f.way0 (flowSlot key 0) with
  | some e => if e.key = key then some e else
    match tabFind? f.way1 (flowSlot key 1) with
    | some e => if e.key = key then some e else f.cam.find? (fun e => e.key == key)
    | none => f.cam.find? (fun e => e.key == key)
  | none =>
    match tabFind? f.way1 (flowSlot key 1) with
    | some e => if e.key = key then some e else f.cam.find? (fun e => e.key == key)
    | none => f.cam.find? (fun e => e.key == key)

/-- Every entry held. -/
def flowAll (f : Flows) : List FlowEntry := f.way0.map (·.2) ++ f.way1.map (·.2) ++ f.cam

/-- The entry with this flow ID. -/
def flowById (f : Flows) (id : Nat) : Option FlowEntry := (flowAll f).find? (fun e => e.id == id)

/-- An entry changed in place, by flow ID. -/
def flowUpdate (f : Flows) (id : Nat) (g : FlowEntry → FlowEntry) : Flows :=
  let u := fun (e : FlowEntry) => if e.id = id then g e else e
  { f with way0 := f.way0.map (fun p => (p.1, u p.2)), way1 := f.way1.map (fun p => (p.1, u p.2)), cam := f.cam.map u }

/-- Where an entry lies: 0, 1, or 2 for the CAM (Table 16.5). -/
def flowPlace (f : Flows) (id : Nat) : Nat :=
  if f.way0.any (fun p => p.2.id == id) then 0 else if f.way1.any (fun p => p.2.id == id) then 1 else 2

/-! ## Insertion (R149, R150) -/

/-- The moves of a walk written back, last first, so that each entry reaches its new slot before its old one is
reused; `e` is written last. `path` lists the slots to move, first first. -/
def walkApply (f : Flows) (e : FlowEntry) : List (Nat × Nat) → Flows
  | [] => f
  | (w, s) :: rest =>
    -- the later moves first: they free this occupant's other slot
    match tabFind? (flowWay f w) s with
    | none => setWay f w (tabPut (flowWay f w) s e)
    | some occ =>
      let f1 := match rest with
        | [] => setWay f (1 - w) (tabPut (flowWay f (1 - w)) (flowSlot occ.key (1 - w)) occ)
        | _ :: _ => walkApply f occ rest
      setWay f1 w (tabPut (flowWay f1 w) s e)

/-- The relocation walk of at most 8 steps: its path, if it ends at a free slot. -/
def walkPlan (f : Flows) : Nat → FlowEntry → Nat → List (Nat × Nat) → Option (List (Nat × Nat))
  | 0, _, _, _ => none
  | n + 1, cur, w, path =>
    let s := flowSlot cur.key w
    if path.contains (w, s) then none
    else
      match tabFind? (flowWay f w) s with
      | none => none
      | some occ =>
        let path1 := path ++ [(w, s)]
        if ¬ tabHas (flowWay f (1 - w)) (flowSlot occ.key (1 - w)) then some path1
        else walkPlan f n occ (1 - w) path1

/-- What an insertion into the ways comes to: placed (`true` after a walk), or a failed walk. -/
inductive Insertion
  | placed (f : Flows)
  | failed
  deriving Repr

/-- An entry put into the ways (R149). -/
def wayInsert (f : Flows) (e : FlowEntry) : Insertion :=
  if ¬ tabHas f.way0 (flowSlot e.key 0) then .placed (setWay f 0 (tabPut f.way0 (flowSlot e.key 0) e))
  else if ¬ tabHas f.way1 (flowSlot e.key 1) then .placed (setWay f 1 (tabPut f.way1 (flowSlot e.key 1) e))
  else
    match walkPlan f 8 e 0 [] with
    | some path => .placed (walkApply f e path)
    | none => .failed

/-- A walk failure counted (R150). -/
def countWalkFailure (f : Flows) : Flows := { f with counts := bump f.counts TableCount.walkFailures.ctorIdx }

/-- A new entry in the table: the ways, else the CAM, else nothing (R149, R150). A failed walk is counted either way. -/
def flowInsert (f : Flows) (e : FlowEntry) : Flows × Bool :=
  match wayInsert f e with
  | .placed f1 => (f1, true)
  | .failed =>
    let f1 := countWalkFailure f
    if f.cam.length < 256 then ({ f1 with cam := f1.cam ++ [e] }, true) else (f1, false)

/-- The oldest CAM entry tried once after a removal frees a slot in a way (R151). -/
def camPromote (f : Flows) : Flows :=
  match f.cam with
  | [] => f
  | e :: r =>
    match wayInsert { f with cam := r } e with
    | .placed f1 => { f1 with counts := bump f1.counts TableCount.camPromotions.ctorIdx }
    | .failed => countWalkFailure f

/-- The entry of a flow ID removed; a removal from a way tries one promotion (R151). -/
def flowRemove (f : Flows) (id : Nat) : Flows :=
  let inWay := flowPlace f id ≠ 2
  let f1 := { f with way0 := f.way0.filter (fun p => p.2.id ≠ id), way1 := f.way1.filter (fun p => p.2.id ≠ id),
                     cam := f.cam.filter (fun e => e.id ≠ id) }
  if inWay then camPromote f1 else f1

/-- Every entry bound to channel `c` of device `d` removed (R48). -/
def flowRemoveChannel (f : Flows) (d c : Nat) : Flows :=
  ((flowAll f).filter (fun e => e.channel == c && e.device == d)).foldl (fun f e => flowRemove f e.id) f

/-- An entry's counter advanced. -/
def flowCount (f : Flows) (id : Nat) (c : FlowCount) (n : Nat) : Flows :=
  flowUpdate f id (fun e => { e with counts := countAdd e.counts c.ctorIdx n })

end Sys2Proof.Machine
end

