-- ==== Sys2Proof/Machine/Arith.lean ====
section
/-! DEFINITION. The arithmetic of audio: saturation, rounding, dissolves, levels and 8-bit laws (R13, R186, R251, R272,
R283). -/

namespace Sys2Proof.Machine

/-- Saturation to 16 bits. -/
def sat16 (v : Int) : Int := if v < -32768 then -32768 else if 32767 < v then 32767 else v

/-- Whether `sat16` changes a value. -/
def saturates (v : Int) : Bool := decide (v < -32768 ∨ 32767 < v)

/-- Division by 2^n rounded to nearest, ties to even. -/
def rne (v : Int) (n : Nat) : Int :=
  let q := v / 2 ^ n
  let r := v % 2 ^ n
  if 2 * r < 2 ^ n then q
  else if 2 ^ n < 2 * r then q + 1
  else if q % 2 = 0 then q else q + 1

/-- `v` held between `lo` and `hi`. -/
def clampInt (v lo hi : Int) : Int := if v < lo then lo else if hi < v then hi else v

def clampNat (v lo hi : Nat) : Nat := if v < lo then lo else if hi < v then hi else v

/-- One output of a dissolve over `l` samples: `n` counts from 0 (R186). -/
def fade (old new : Int) (n l : Nat) : Int :=
  let w : Int := ((n + 1) * 32768 / l : Nat)
  sat16 (rne (old * (32768 - w) + new * w) 15)

/-- A dissolve from `old` to `new`, sample by sample; past `l` samples it is `new` alone (R186). -/
def dissolveList (l : Nat) : Nat → List Int → List Int → List Int
  | _, _, [] => []
  | _, [], n => n
  | i, o :: os, v :: vs => (if i < l then fade o v i l else v) :: dissolveList l (i + 1) os vs

/-- The sum of squares of a block. -/
def energy (l : List Int) : Nat := (l.map (fun v => (v * v).toNat)).sum

/-- The largest magnitude in a block. -/
def peak (l : List Int) : Nat := (l.map Int.natAbs).foldl max 0

/-- The greatest k with 10^k at most `v`, for `v` at least 1. -/
def logTen : Nat → Nat → Nat
  | 0, _ => 0
  | fuel + 1, v => if v < 10 then 0 else logTen fuel (v / 10) + 1

/-- The least k with `a` × 10^k at least `b`. -/
def logUp : Nat → Nat → Nat → Nat
  | 0, _, _ => 0
  | fuel + 1, a, b => if b ≤ a then 0 else logUp fuel (a * 10) b + 1

/-- floor(100 × log10(e / n)) for positive e and n (R272): the greatest k with n^100 × 10^k at most e^100. -/
def floorLog100 (e n : Nat) : Int :=
  let a := e ^ 100
  let b := n ^ 100
  if b ≤ a then (logTen 4000 (a / b) : Nat)
  else -((logUp 4000 a b : Nat) : Int)

/-- The level of a block in 0.1 dBm0: a full-scale sine reads +31 (R251, R272). Silence reads −1,000. -/
def levelOf (l : List Int) : Int := if energy l = 0 then -1000 else floorLog100 (energy l) l.length - 842

/-- Whether `a` exceeds `b` by more than `db` whole dB, as powers. -/
def moreByDb (a b db : Nat) : Bool := decide (b ^ 10 * 10 ^ db < a ^ 10)

/-- 10^(l / 100) in units of 10^-12, rounded down: the greatest r with r^100 at most 10^(l + 1200). -/
def tenPower (l : Int) : Nat :=
  let t := 10 ^ (l + 1200).toNat
  (List.range 64).foldl (fun r i => let c := r + 2 ^ (63 - i); if c ^ 100 ≤ t then c else r) 0

/-! ## 8-bit laws (R283) -/

/-- MAG[i] of a COMPAND image. -/
def compandMag (img : List Byte) (i : Nat) : Nat := fieldAt img (0x30 + 2 * i) 2

/-- The linear value of a code under a COMPAND image (R283). -/
def compandExpand (img : List Byte) (code : Nat) : Int :=
  let r := Nat.xor code (fieldAt img 0x20 1)
  let mag : Int := compandMag img (r % 128)
  if r / 128 = fieldAt img 0x21 1 then mag else -mag

/-- The index whose MAG is nearest `v`, ties to the smaller MAG (R283). -/
def nearestMag (img : List Byte) (v : Nat) : Nat :=
  (List.range 128).foldl (fun b i =>
    let d := fun k => (((compandMag img k : Nat) : Int) - v).natAbs
    if d i < d b then i else b) 0

/-- The code of a linear value under a COMPAND image (R283). -/
def compandEncode (img : List Byte) (v : Int) : Nat :=
  let sign := fieldAt img 0x21 1
  let s := if v < 0 then 1 - sign else sign
  Nat.xor (s * 128 + nearestMag img v.natAbs) (fieldAt img 0x20 1)

/-! ## Free values of a run -/

/-- A free sample of draw `d`, item `i`. -/
def freeSample (d i : Nat) : Int := signedOf 16 (Config.freeAt d i)

/-- `n` free samples of draw `d` from item `i`. -/
def freeSamples (d i n : Nat) : List Int := (List.range n).map (fun k => freeSample d (i + k))

/-- A free truth of draw `d`, item `i`. -/
def freeBool (d i : Nat) : Bool := Config.freeAt d i % 2 == 1

/-- `n` free bytes of draw `d` from item `i`. -/
def freeBytes (d i n : Nat) : List Byte := (List.range n).map (fun k => BitVec.ofNat 8 (Config.freeAt d (i + k)))

end Sys2Proof.Machine
end

