-- ==== Sys2Proof/Machine/Resample.lean ====
section
/-! DEFINITION. The resampling arrays: chains, units, arithmetic, snapshot mode, drift, dissolves and synchronising
resets (R217 to R242). -/

namespace Sys2Proof.Machine

/-! ## The coefficient ROM (Tables 8.3 and 8.4) -/

/-- Taps, delay in quarter high-rate samples, MAC per high-rate sample of each half-band response (Table 8.3). -/
def halfBandTable : List (Nat × Nat × Nat) :=
  [(75, 148, 20), (51, 100, 14), (39, 76, 11), (95, 188, 25), (63, 124, 17), (47, 92, 13), (115, 228, 30),
   (79, 156, 21), (59, 116, 16), (139, 276, 36), (91, 180, 24), (71, 140, 19), (38, 27, 19), (26, 18, 13),
   (20, 14, 10), (48, 35, 24), (32, 23, 16), (24, 17, 12), (58, 42, 29), (40, 29, 20), (30, 21, 15), (70, 51, 35),
   (46, 33, 23), (36, 26, 18)]

def stageTaps (r : Nat) : Nat := ((halfBandTable[r]?).getD (0, 0, 0)).1
def stageDelay (r : Nat) : Nat := ((halfBandTable[r]?).getD (0, 0, 0)).2.1
def stageMac (r : Nat) : Nat := ((halfBandTable[r]?).getD (0, 0, 0)).2.2

/-- Word `k` of a half-band response (R228): past its taps 0; a linear-phase one, 0 to 11, is symmetric, and 0 at every even distance from
its centre but the centre itself. -/
def halfBandWord (r k : Nat) : Int :=
  let n := stageTaps r
  let c := (n - 1) / 2
  let j := if k < c then c - k else k - c
  if n ≤ k then 0
  else if 12 ≤ r then (Config.halfBand r k).toInt
  else if j ≠ 0 ∧ j % 2 = 0 then 0
  else (Config.halfBand r (c - j)).toInt

/-- Delay of a prototype in quarter samples (Table 8.4). -/
def protoDelay (p : Nat) : Nat := if p < 6 then 30 else if p = 6 then 5 else 7

/-! ## The chain of a stream (R223 to R225, R231) -/

def settingOf (t : Tab (List Byte)) (stream typ d : Nat) : Nat := settingNat t .resample stream typ d

/-- How often a rate halves while it stays at or above the output rate. -/
def downStages (fin fout : Nat) : Nat := if fout ≤ fin / 4 then 2 else if fout ≤ fin / 2 then 1 else 0

/-- n of R223. -/
def chainStages (fin fout oversample : Nat) : Nat := if fout < fin then downStages fin fout else oversample

/-- The interpolator's input rate over the chain input rate, as a rate in kHz (R223). -/
def chainFi (fin fout n : Nat) : Nat := if fout < fin then fin / 2 ^ n else fin * 2 ^ n

/-- STAGE_RESP permitted (Table 8.2). -/
def stagePermitted (n r : Nat) : Bool := decide (r < 12 ∨ n ≤ 2)

/-- PROTO permitted (Table 8.2). -/
def protoPermitted (fin fout n p : Nat) : Bool :=
  let down := decide (fout < fin)
  let fi := chainFi fin fout n
  if p = 0 ∨ p = 1 ∨ p = 6 then !down || fi == fout
  else if p = 2 then down && fi * 3 == fout * 4
  else if p = 3 ∨ p = 7 then down && (fi * 3 == fout * 4 || fi * 2 == fout * 3)
  else if p = 4 then !down && decide (1 ≤ n)
  else !down && decide (2 ≤ n)

/-- SNAPSHOT permitted (Table 8.2). -/
def snapshotPermitted (fin fout : Nat) : Bool := fin == fout && decide (fout ≤ 8)

/-- The default PROTO of a pair of rates (R231). -/
def defaultProto (fin fout n : Nat) : Nat := if protoPermitted fin fout n 6 then 6 else 7

/-- The PROTO in use before R225 is applied: the stored one, else the default. -/
def storedProto (t : Tab (List Byte)) (stream fin fout n : Nat) : Nat :=
  settingOf t stream 4 (defaultProto fin fout n)

/-- Whether the stored settings of a stream are permitted at its rates (R225). -/
def chainPermitted (t : Tab (List Byte)) (stream fin fout : Nat) : Bool :=
  let n := chainStages fin fout (settingOf t stream 2 0)
  stagePermitted n (settingOf t stream 3 14) && protoPermitted fin fout n (storedProto t stream fin fout n) &&
  (settingOf t stream 10 0 == 0 || snapshotPermitted fin fout)

/-- Whether stored STAGE_RESP and PROTO hold at these rates, as R225 judges them after a change of rate. -/
def respPermitted (t : Tab (List Byte)) (stream fin fout : Nat) : Bool :=
  let n := chainStages fin fout (settingOf t stream 2 0)
  stagePermitted n (settingOf t stream 3 14) && protoPermitted fin fout n (storedProto t stream fin fout n)

/-- The chain that a stream's settings give at its rates, in its zero state (R223, R225, R231): where STAGE_RESP or PROTO does not hold
there, that of the default settings. -/
def chainFor (t : Tab (List Byte)) (stream fin fout : Nat) : Chain :=
  let ok := respPermitted t stream fin fout
  let n := chainStages fin fout (if ok then settingOf t stream 2 0 else 0)
  let snap := ok && settingOf t stream 10 0 == 1 && snapshotPermitted fin fout
  let n1 := if snap then 0 else n
  { fin := fin, fout := fout, n := n1, stage := if ok then settingOf t stream 3 14 else 14,
    proto := if ok then storedProto t stream fin fout n else defaultProto fin fout n,
    shifts := (List.range 5).map (fun i => if ok then settingOf t stream (5 + i) 0 else 0), snap := snap,
    hist := List.replicate n1 [], odd := List.replicate n1 false }

/-- U of R224. -/
def ratioUnit : Nat := 0x0C000000

/-- RATIO of a chain (R224). -/
def chainRatio (c : Chain) : Nat := chainFi c.fin c.fout c.n * ratioUnit / c.fout

/-! ## Units (R219) -/

/-- The high rate of stage `j` (from 1), in kHz. -/
def highRate (c : Chain) (j : Nat) : Nat := if c.fout < c.fin then c.fin / 2 ^ (j - 1) else c.fin * 2 ^ j

/-- Units a chain holds. -/
def chainUnits (c : Chain) (crossing : Bool) : Nat :=
  let js := (List.range c.n).map (· + 1)
  let taps := stageTaps c.stage
  let h := c.n * (if c.fout < c.fin then taps else (taps + 1) / 2) + 16 + (if crossing then 8 else 0)
  let w := (js.map (fun j => stageMac c.stage * highRate c j * 1000)).sum + 32 * c.fout * 1000
  max ((2 * h + 63) / 64) ((w + 999999) / 1000000)

/-! ## Group delay and settle count (R229) -/

/-- Group delay in 1/64 input samples; in snapshot mode 2 - f (R235). -/
def chainDelay (c : Chain) : Nat :=
  if c.snap then 128 - c.fr / 3072 / 1024 else
  let js := (List.range c.n).map (· + 1)
  let down := decide (c.fout < c.fin)
  (js.map (fun j => if down then stageDelay c.stage * 16 * 2 ^ (j - 1) else stageDelay c.stage * 16 / 2 ^ j)).sum +
  (if down then protoDelay c.proto * 16 * 2 ^ c.n else protoDelay c.proto * 16 / 2 ^ c.n)

/-- Settle span in 1/64 input samples. -/
def chainSpan (c : Chain) : Nat :=
  let js := (List.range c.n).map (· + 1)
  let down := decide (c.fout < c.fin)
  let nt := stageTaps c.stage
  (js.map (fun j => if down then (nt - 1) * 64 * 2 ^ (j - 1) else ((nt + 1) / 2 - 1) * 64 / 2 ^ (j - 1))).sum +
  (if down then 15 * 64 * 2 ^ c.n else 15 * 64 / 2 ^ c.n)

/-- Settle count; 0 in snapshot mode (R235). -/
def settleCount (c : Chain) : Nat :=
  if c.snap then 0 else (chainSpan c * c.fout + c.fin * 64 - 1) / (c.fin * 64)

/-! ## Filtering (R226, R227, R235) -/

/-- The sum of coefficient times sample, the sample at offset `k` times `step` from the front. -/
def dot (h : Nat → Int) : Nat → List Int → Int
  | _, [] => 0
  | k, v :: r => h k * v + dot h (k + 1) r

/-- One input through one stage: its history, whether it now waits for a second input, its outputs before narrowing. A doubling stage
makes two outputs, each of every second word times 2, from half as many samples as it has taps. -/
def stageStep (down : Bool) (resp : Nat) (h : List Int) (odd : Bool) (v : Int) : List Int × Bool × List Int :=
  let n := stageTaps resp
  if down then
    let h1 := (v :: h).take n
    if odd then (h1, false, [dot (halfBandWord resp) 0 h1]) else (h1, true, [])
  else
    let h1 := (v :: h).take ((n + 1) / 2)
    (h1, odd, [dot (fun k => 2 * halfBandWord resp (2 * k)) 0 h1, dot (fun k => 2 * halfBandWord resp (2 * k + 1)) 0 h1])

/-- Inputs through one stage, in order, narrowed once each; the number of narrowings that saturate. -/
def stageRun (down : Bool) (resp shift : Nat) : List Int → Bool → List Int → List Int × Bool × List Int × Nat
  | h, odd, [] => (h, odd, [], 0)
  | h, odd, v :: r =>
    let a := stageStep down resp h odd v
    let outs := a.2.2.map (fun x => rne x (23 + shift))
    let b := stageRun down resp shift a.1 a.2.1 r
    (b.1, b.2.1, outs.map sat16 ++ b.2.2.1, (outs.filter saturates).length + b.2.2.2)

/-- Inputs through the stages from stage index `j`: histories, flags, outputs and saturations by stage. -/
def stagesRun (down : Bool) (resp : Nat) (shifts : List Nat) :
    Nat → List (List Int) → List Bool → List Int → List (List Int) × List Bool × List Int × List Nat
  | _, [], _, ins => ([], [], ins, [])
  | j, h :: hs, odds, ins =>
    let a := stageRun down resp ((shifts[j]?).getD 0) h (odds.headD false) ins
    let b := stagesRun down resp shifts (j + 1) hs odds.tail a.2.2.1
    (a.1 :: b.1, a.2.1 :: b.2.1, b.2.2.1, a.2.2.2 :: b.2.2.2)

/-- The interpolator inputs a chain keeps. -/
def chainKeep : Nat := 8192

/-- Inputs taken by a chain; the saturations by stage. -/
def chainPush (c : Chain) (ins : List Int) : Chain × List Nat :=
  let a := stagesRun (decide (c.fout < c.fin)) c.stage c.shifts 0 c.hist c.odd ins
  ({ c with hist := a.1, odd := a.2.1, x := (a.2.2.1.reverse ++ c.x).take chainKeep,
            newest := c.newest + a.2.2.1.length }, a.2.2.2)

/-- Interpolator input `i`; 0 where it has not come or is no longer kept. -/
def chainAt (c : Chain) (i : Int) : Int := if c.newest < i then 0 else (c.x[(c.newest - i).toNat]?).getD 0

/-- The position after one output's advance (R227). -/
def chainAdvance (c : Chain) (dr : Int) : Chain :=
  let ratio : Int := chainRatio c
  let adv := ratio * 2 ^ 32 + ratio * dr / 2 ^ 16
  let a := (c.fr : Int) * 2 ^ 32 + c.sub + adv
  let u : Int := (ratioUnit : Int) * 2 ^ 32
  let f := a % u
  { c with pos := c.pos + a / u, fr := (f / 2 ^ 32).toNat, sub := (f % 2 ^ 32).toNat }

/-- Coefficient `i` of a prototype; the word past the last reads 0 (R227). -/
def protoWord (p i : Nat) : Int := if i < 1024 then (Config.prototype p i).toInt else 0

/-- The accumulator of the interpolator at the present position (R227). -/
def polyAcc (c : Chain) : Int :=
  let p := c.fr / 3145728
  let w : Int := (c.fr % 3145728 / 3072 : Nat)
  ((List.range 16).map (fun (k : Nat) =>
    let c0 := protoWord c.proto (64 * k + p)
    (c0 + rne ((protoWord c.proto (64 * k + p + 1) - c0) * w) 10) * chainAt c (c.pos - (k : Int)))).sum

/-- The first sample after the latest boundary that an output's block reaches (R235). -/
def snapEdge (c : Chain) : Int := (c.edges.find? (fun e => decide (e ≤ c.pos + 2))).getD 0

/-- A sample of the snapshot block: one before the boundary is replaced by the first after it (R235). -/
def snapAt (c : Chain) (i : Int) : Int := chainAt c (if i < snapEdge c then snapEdge c else i)

/-- A boundary before input `i` of a chain. -/
def markEdge (c : Chain) (i : Int) : Chain := { c with edges := (i :: c.edges).take 64 }

/-- rne of a / b for positive b. -/
def rneDiv (a b : Int) : Int :=
  let q := a / b
  let r := a % b
  if 2 * r < b then q else if b < 2 * r then q + 1 else if q % 2 = 0 then q else q + 1

/-- The accumulator of the snapshot interpolator (R235): f is f16 / 65,536, and each weight is rounded to Q23. -/
def snapAcc (c : Chain) : Int :=
  let f : Int := (c.fr / 3072 : Nat)
  let one : Int := 65536
  let q := fun (num den : Int) => rneDiv (num * 2 ^ 23) (den * one * one * one)
  q (-(f * (f - one) * (f - 2 * one))) 6 * snapAt c (c.pos - 1) +
  q ((f + one) * (f - one) * (f - 2 * one)) 2 * snapAt c c.pos +
  q (-((f + one) * f * (f - 2 * one))) 2 * snapAt c (c.pos + 1) +
  q ((f + one) * f * (f - one)) 6 * snapAt c (c.pos + 2)

/-- The newest input an output needs. -/
def chainNeeds (c : Chain) : Int := if c.snap then c.pos + 2 else c.pos

/-- The output at the present position, and whether it saturates. -/
def chainOutput (c : Chain) : Int × Bool :=
  let y := rne (if c.snap then snapAcc c else polyAcc c) (23 + (c.shifts[4]?).getD 0)
  (sat16 y, saturates y)

/-! ## Streams -/

def countStream (s : Stream) (c : StreamCount) (n : Nat) : Stream := { s with counts := countAdd s.counts c.ctorIdx n }

/-- Saturations by stage counted, from SAT_STAGE_1 (R226). -/
def countStages (s : Stream) (l : List Nat) : Stream :=
  { s with counts := (l.zipIdx).foldl (fun c p => countAdd c (StreamCount.satStage1.ctorIdx + p.2) p.1) s.counts }

/-- What a chain of a stream receives of its input: zeros at its own rate where the input has changed its rate or slot since (R237). -/
def inputFor (s : Stream) (c : Chain) (zeros : Bool) (ins : List Int) : List Int :=
  if zeros ∨ c.fin ≠ s.inRate then List.replicate (ins.length * c.fin / s.inRate) 0 else ins

/-- Inputs handed to a stream: both chains of a dissolve receive them. -/
def streamPush (s : Stream) (ins : List Int) : Stream :=
  let a := chainPush s.chain (inputFor s s.chain (s.held && s.heldZeros) ins)
  let d := s.dissolve.map (fun d =>
    let b := chainPush d.old (inputFor s d.old (d.oldZeros || (s.held && s.heldZeros)) ins)
    ({ d with old := b.1 }, b.2))
  countStages (countStages { s with chain := a.1, dissolve := d.map (·.1) } a.2) ((d.map (·.2)).getD [])

/-- One output of a stream under drift term `dr`: none where its input has not arrived (R234). `len` is DISSOLVE_LEN,
`pass` SETTLE_MODE PASS. -/
def streamOutput (s : Stream) (dr : Int) (len : Nat) (pass : Bool) : Option ((Int × Bool) × Stream) :=
  let use := if s.settle = 0 then dr else 0
  let c := chainAdvance s.chain use
  if c.newest < chainNeeds c then none
  else
    let y := chainOutput c
    let s1 := countStream { s with chain := c } .satInterp (boolNat y.2)
    if s.settle ≠ 0 then some ((if pass then y.1 else 0, true), { s1 with settle := s.settle - 1 })
    else
      match s.dissolve with
      | none => some ((y.1, false), s1)
      | some d =>
        let o := chainAdvance d.old use
        let z := chainOutput o
        let k := settleCount c
        let out := if d.count < k then z.1 else if d.count < k + len then fade z.1 y.1 (d.count - k) len else y.1
        some ((out, false), { countStream s1 .satInterp (boolNat z.2) with dissolve := some { d with old := o, count := d.count + 1 } })

/-- At most `n` outputs of a stream. -/
def streamTake (dr : Int) (len : Nat) (pass : Bool) : Nat → Stream → List (Int × Bool) × Stream
  | 0, s => ([], s)
  | n + 1, s =>
    match streamOutput s dr len pass with
    | none => ([], s)
    | some (y, s1) => let r := streamTake dr len pass n s1; (y :: r.1, r.2)

/-- A synchronising reset to a chain in its zero state; `margin` is 2 for a clock-crossing stream (R240). -/
def streamReset (s : Stream) (c : Chain) (margin : Int) : Stream :=
  { s with present := true, inRate := c.fin, chain := { c with pos := c.newest - margin }, dissolve := none, held := false,
           heldMove := 0, heldZeros := false, settle := settleCount c, settling := decide (settleCount c ≠ 0), trim := 0,
           target := none }

/-- Whether a dissolve is running (R239). -/
def dissolving (s : Stream) : Bool := s.dissolve.isSome

/-- A dissolve begun toward `c` (R237): the new chain starts from zero state at the old one's position. One with a move is a
realignment: trim returns to 0 and the target is recorded again (R233). -/
def startDissolve (s : Stream) (c : Chain) (zeros : Bool) (move : Int) : Stream :=
  let o := s.chain
  let scale := fun (p : Int) => p * chainFi c.fin c.fout c.n / chainFi o.fin o.fout o.n
  let c1 := { c with newest := scale o.newest, pos := scale o.pos + move, fr := o.fr, sub := o.sub,
                     edges := if zeros then [scale o.newest + 1] else o.edges.map scale }
  let s1 := countStream { s with chain := c1, held := false, heldMove := 0, heldZeros := false,
                                 dissolve := some { old := o, count := 0, oldZeros := zeros, move := move } } .dissolves 1
  if move = 0 then s1 else countStream { s1 with trim := 0, target := none } .realign 1

/-- A request for a dissolve to the stored settings (R239, R241): what it asks of the input stands when a further one replaces it. -/
def requestDissolve (s : Stream) (c : Chain) (margin : Int) (zeros : Bool) (move : Int) : Stream :=
  if s.settle ≠ 0 then countStream (streamReset s c margin) .settleRestart 1
  else if dissolving s then
    let s1 := { s with held := true, heldMove := move, heldZeros := (s.held && s.heldZeros) || zeros }
    if s.held then countStream s1 .dissolveReplaced 1 else s1
  else startDissolve s c zeros move

/-- The end of a dissolve (R237 step 4, R239): the old chain is dropped, or the held request starts. -/
def endDissolve (s : Stream) (len : Nat) (c : Chain) : Stream :=
  match s.dissolve with
  | none => s
  | some d =>
    if d.count < settleCount s.chain + len then s
    else if s.held then startDissolve { s with dissolve := none } c s.heldZeros s.heldMove
    else { s with dissolve := none }

/-! ## Fill and trim (R233) -/

/-- 8 ppm in units of 2^-48, times `n`, and the clamp of 20 ppm. -/
def trimOf (n : Int) : Int := clampInt (rneDiv (n * 8 * 2 ^ 48) 1000000) (-5629499534) 5629499534

/-- One fill measurement of a clock-crossing stream in a tick: whether it asks for a realignment and by how much. One that is held has been
asked for (R233, R239). -/
def measureFill (tick : Nat) (s : Stream) : Stream × Option Int :=
  let fill := s.chain.newest - s.chain.pos
  let s1 := { s with fill := fill, measured := some tick }
  if s.measured = some tick then (s, none)
  else
    match s.target with
    | none => ({ s1 with target := some fill }, none)
    | some t =>
      let e := fill - t
      if 4 < e.natAbs then (s1, if s.held ∧ s.heldMove ≠ 0 then none else some e)
      else ({ s1 with trim := trimOf e }, none)

end Sys2Proof.Machine
end

