-- ==== Sys2Proof/Machine/Streams.lean ====
section
/-! DEFINITION. The streams of a channel: which exist, what they reserve and how settings reach them (R217, R220, R222,
R225, R232, R237 to R244). -/

namespace Sys2Proof.Machine

/-- The channel rate in kHz (R41). -/
def Channel.rate (c : Channel) : Nat := if c.wide then 16 else 8

def Channel.leg (c : Channel) (i : Nat) : Leg := if i = 0 then c.legA else c.legB
def Channel.setLeg (c : Channel) (i : Nat) (l : Leg) : Channel := if i = 0 then { c with legA := l } else { c with legB := l }
/-- The leg a run has applied last (R38). -/
def Channel.runLeg (c : Channel) (i : Nat) : Leg := if i = 0 then c.runA else c.runB
def Channel.setRunLeg (c : Channel) (i : Nat) (l : Leg) : Channel := if i = 0 then { c with runA := l } else { c with runB := l }
def Channel.legMedia (c : Channel) (i : Nat) : LegMedia := if i = 0 then c.media.a else c.media.b
def Channel.setLegMedia (c : Channel) (i : Nat) (m : LegMedia) : Channel :=
  if i = 0 then { c with media := { c.media with a := m } } else { c with media := { c.media with b := m } }

/-! ## The TDM unit's tables -/

def State.group (s : State) (g : Nat) : TdmGroup := tabGet s.tdm.groups g {}
def State.setGroup (s : State) (g : Nat) (v : TdmGroup) : State :=
  { s with tdm := { s.tdm with groups := tabSet s.tdm.groups g v {} } }
def State.highway (s : State) (h : Nat) : Highway := tabGet s.tdm.highways h {}
def State.setHighway (s : State) (h : Nat) (v : Highway) : State :=
  { s with tdm := { s.tdm with highways := tabSet s.tdm.highways h v {} } }
/-- Slot `n` of highway `h` has key h × 128 + n. -/
def slotKey (h n : Nat) : Nat := h * 128 + n
def State.tdmSlot (s : State) (k : Nat) : TdmSlot := tabGet s.tdm.slots k {}
def State.setTdmSlot (s : State) (k : Nat) (v : TdmSlot) : State :=
  { s with tdm := { s.tdm with slots := tabSet s.tdm.slots k v {} } }
/-- The clock group of a highway (R296). -/
def highwayGroup (h : Nat) : Nat := h / 16

/-- The slot rate of a leg in kHz. -/
def State.slotRate (s : State) (l : Leg) : Nat := if (s.highway l.highway).mode = .wide then 16 else 8

/-! ## Rate pairs -/

/-- The rate in kHz at which an entry's codec decodes and encodes (R200). -/
def entryRate (e : List Byte) : Nat :=
  if entryCodec e = 3 ∨ entryCodec e = 6 then 16 else if entryCodec e = 7 ∧ entryWideband e then 16 else 8

/-- A stream as the legs allow it: its key, Fin and Fout. Keys 0 to 7 follow Table 8.1; 8 and 9 are the TDM streams of
leg B. The settings are those of key modulo 8. -/
structure RatePair where
  key : Nat
  fin : Nat
  fout : Nat
  deriving DecidableEq, Repr

def tdmInKey (leg : Nat) : Nat := leg * 8
def tdmOutKey (leg : Nat) : Nat := leg * 8 + 1
def rxKey (leg : Nat) : Nat := 2 + leg
def txKey (leg : Nat) : Nat := 4 + leg
def genKey (leg : Nat) : Nat := 6 + leg

/-- The rate pairs a leg's settings allow (R220). -/
def State.legPairs (s : State) (t : Tab (List Byte)) (rate leg : Nat) (l : Leg) : List RatePair :=
  match l.kind with
  | .none => []
  | .tdm => [{ key := tdmInKey leg, fin := s.slotRate l, fout := rate },
             { key := tdmOutKey leg, fin := rate, fout := s.slotRate l }]
  | .rtp =>
    (((legMap t leg).filter isAudio).filter (fun e => entryRate e != rate)).foldr (fun e r =>
      { key := rxKey leg, fin := entryRate e, fout := rate } ::
      { key := txKey leg, fin := rate, fout := entryRate e } :: r) []
  | .stack => [{ key := rxKey leg, fin := if rate = 8 then 16 else 8, fout := rate }]

/-- The units of a rate pair's chain. -/
def pairUnits (t : Tab (List Byte)) (p : RatePair) : Nat :=
  chainUnits (chainFor t (p.key % 8) p.fin p.fout) (decide (p.key % 8 < 2))

/-- Twice the units of the most costly chain of each stream among rate pairs (R220). -/
def pairsUnits (t : Tab (List Byte)) (l : List RatePair) : Nat :=
  ((List.range 10).map (fun k =>
    2 * ((l.filter (fun p => p.key == k)).map (pairUnits t)).foldl max 0)).sum

/-- What a leg reserves. -/
def State.legUnits (s : State) (t : Tab (List Byte)) (rate leg : Nat) (l : Leg) : Nat :=
  pairsUnits t (s.legPairs t rate leg l)

/-- The units one channel has reserved. -/
def Channel.reservedUnits (c : Channel) : Nat := (c.media.reserved.map (·.2)).sum

/-- The units reserved in block `b`, destination reservations of moves included. -/
def State.unitSum (s : State) (b : Nat) : Nat :=
  (s.channels.map (fun e =>
    (if e.2.slot.isSome ∧ e.2.block = b then e.2.reservedUnits else 0) +
    (match e.2.move with
     | some m => if ¬ m.inbound ∧ m.device = s.stack.number ∧ m.block = b then e.2.reservedUnits else 0
     | none => 0))).sum

/-- A block's units (R219). -/
def blockUnits : Nat := 16000

/-- Whether a channel's reservation may go from `old` to `new` units (R220). -/
def State.unitsFit (s : State) (b old new : Nat) : Bool := decide (new ≤ old ∨ s.unitSum b + (new - old) ≤ blockUnits)

/-- Reservation keys: 0 and 1 the legs, 2 and 3 their generators, 4 and 5 their prompts. -/
def Channel.reserve (c : Channel) (key units : Nat) : Channel :=
  { c with media := { c.media with reserved := tabSet c.media.reserved key units 0 } }

def Channel.reservedAt (c : Channel) (key : Nat) : Nat := tabGet c.media.reserved key 0

/-! ## Streams in being -/

def Channel.stream (c : Channel) (k : Nat) : Stream := tabGet c.media.streams k {}
def Channel.setStream (c : Channel) (k : Nat) (v : Stream) : Channel :=
  { c with media := { c.media with streams := tabSet c.media.streams k v {} } }

/-- Whether a channel in this state has TDM streams (Table 8.1). -/
def streaming (st : ChState) : Bool :=
  match st with
  | .active | .hold | .draining | .migrating => true
  | .idle | .opened | .faulted => false

/-- Clock-crossing streams are the TDM streams. -/
def crossing (k : Nat) : Bool := decide (k % 8 < 2)

/-- The clock-crossing margin (R240). -/
def marginOf (k : Nat) : Int := if crossing k then 2 else 0

/-- dr of a stream without its trim (R232). -/
def State.driftOf (s : State) (c : Channel) (k : Nat) : Int :=
  let l := c.runLeg (k / 8)
  let g := s.group (highwayGroup l.highway)
  let m := if g.master then s.time.corr + g.m else g.m
  if k % 8 = 0 then m - s.time.corr else if k % 8 = 1 then s.time.corr - m else 0

/-- dr of a stream (R232). -/
def State.drift (s : State) (c : Channel) (k : Nat) : Int :=
  if crossing k then s.driftOf c k + (c.stream k).trim else 0

/-- Whether a stream uses its stored settings at its rates, not the defaults (R225). -/
def ownSettings (c : Channel) (k : Nat) : Bool :=
  let x := (c.stream k).chain
  respPermitted c.applied (k % 8) x.fin x.fout

/-- DISSOLVE_LEN and SETTLE_MODE of a stream (R238). -/
def dissolveLen (c : Channel) (k : Nat) : Nat := if ownSettings c k then settingOf c.applied (k % 8) 11 64 else 64
def settlePass (c : Channel) (k : Nat) : Bool := ownSettings c k && settingOf c.applied (k % 8) 12 0 == 1

/-- The chain that the applied settings give stream `k` at its rates. -/
def streamChain (c : Channel) (k fin fout : Nat) : Chain := chainFor c.applied (k % 8) fin fout

/-- DEFAULTED counted where stored settings do not hold at the rates a stream has come to (R225). -/
def countDefaulted (c : Channel) (k fin fout : Nat) (s : Stream) : Stream :=
  if respPermitted c.applied (k % 8) fin fout then s else countStream s .defaulted 1

/-- A synchronising reset of stream `k` at its rates (R240). -/
def resetStream (c : Channel) (k fin fout : Nat) (s : Stream) : Stream :=
  countStream (streamReset { s with out := [], last := [], lastTick := none, taken := none } (streamChain c k fin fout) (marginOf k))
    .syncResets 1

/-- Stream `k` brought to what is wanted of it: it comes into being, ends, dissolves to a new Fin, or is replaced for a
new Fout (R222, R237, R238). -/
def wantStream (c : Channel) (k : Nat) (want : Option (Nat × Nat)) (s : Stream) : Stream :=
  match want with
  | none => { counts := s.counts }
  | some (fin, fout) =>
    if ¬ s.present ∨ s.chain.fout ≠ fout then countDefaulted c k fin fout (resetStream c k fin fout s)
    else if s.inRate ≠ fin then
      countDefaulted c k fin fout (requestDissolve { s with inRate := fin } (streamChain c k fin fout) (marginOf k) true 0)
    else s

/-- The rate in kHz of what a STACK leg's peer sends. -/
def State.peerRate (s : State) (v : Channel) (leg : Nat) : Nat :=
  let l := v.runLeg leg
  if l.peerDevice = s.stack.number then (s.channel l.peerChannel).rate
  else if (v.legMedia leg).stackRate = 0 then v.rate else (v.legMedia leg).stackRate

/-- TX_PT of a leg as its encoder has it, or is to begin with. -/
def txPt (v : Channel) (leg : Nat) : Nat :=
  let t := (v.legMedia leg).tx
  if t.started then t.pt else legTxPt v.applied leg

/-- The rates wanted of stream `k` when a run has applied its commands: TDM streams by the leg, RX and TX by the codec in
use, GEN by what plays. `st` is the state of the channel in this run. -/
def State.wanted (s : State) (c : Channel) (st : ChState) (gen : Nat → Option Nat) (k : Nat) : Option (Nat × Nat) :=
  let leg := if k = 8 ∨ k = 9 then 1 else if k < 2 then 0 else k % 2
  let l := c.runLeg leg
  let rate := c.rate
  if k % 8 < 2 then
    if l.kind = .tdm ∧ l.bound ∧ streaming st then
      if k % 8 = 0 then some (s.slotRate l, rate) else some (rate, s.slotRate l)
    else none
  else if k = 2 ∨ k = 3 then
    match l.kind with
    | .rtp =>
      let pt := ((c.legMedia leg).play.pt).getD (legTxPt c.applied leg)
      match (legMap c.applied leg).find? (fun e => isAudio e && entryPt e == pt) with
      | some e => if entryRate e = rate then none else some (entryRate e, rate)
      | none => none
    | .stack =>
      if s.peerRate c leg = rate then none else some (s.peerRate c leg, rate)
    | _ => none
  else if k = 4 ∨ k = 5 then
    match l.kind with
    | .rtp =>
      match (legMap c.applied leg).find? (fun e => isAudio e && entryPt e == txPt c leg) with
      | some e => if entryRate e = rate then none else some (rate, entryRate e)
      | none => none
    | _ => none
  else
    match gen leg with
    | some r => if r = rate then none else some (r, rate)
    | none => none

/-- The stream keys. -/
def streamKeys : List Nat := [0, 1, 2, 3, 4, 5, 6, 7, 8, 9]

/-- Every stream of a channel brought to what is wanted of it. -/
def State.wantStreams (s : State) (c : Channel) (st : ChState) (gen : Nat → Option Nat) : Channel :=
  streamKeys.foldl (fun c k => c.setStream k (wantStream c k (s.wanted c st gen k) (c.stream k))) c

/-- The TDM streams of a channel that no state of it keeps any more (Table 8.1). -/
def dropTdmStreams (v : Channel) : Channel :=
  (streamKeys.filter crossing).foldl (fun v k => v.setStream k (wantStream v k none (v.stream k))) v

/-- Whether settings `old` gave a stream another chain (R237). -/
def chainChanged (old : Tab (List Byte)) (c : Channel) (k : Nat) (s : Stream) : Bool :=
  chainFor old (k % 8) s.inRate s.chain.fout != streamChain c k s.inRate s.chain.fout

/-- Stream `k` asked to follow changed settings: a change that keeps SNAPSHOT set applies at the next output (R236). -/
def followSettings (c : Channel) (k : Nat) (s : Stream) : Stream :=
  if ¬ s.present then s
  else
    let n := streamChain c k s.inRate s.chain.fout
    if n.snap ∧ s.chain.snap then { s with chain := { s.chain with shifts := n.shifts } }
    else requestDissolve s n (marginOf k) false 0

/-- A TDM_IN stream whose leg hops to another slot of the same rate: a boundary in snapshot mode, else a dissolve whose old chain hears
no more (R235, R237, R310). -/
def hopStream (c : Channel) (k : Nat) (s : Stream) : Stream :=
  if ¬ s.present then s
  else if s.chain.snap then { s with chain := markEdge s.chain (s.chain.newest + 1) }
  else requestDissolve s (streamChain c k s.inRate s.chain.fout) (marginOf k) true 0

/-- The boundaries that a generator's segment starts make in the block handed over next (R235). -/
def markSegments (offsets : List Nat) (s : Stream) : Stream :=
  { s with chain := offsets.foldl (fun c (i : Nat) => markEdge c (s.chain.newest + 1 + (i : Int))) s.chain }

/-- A hand-over of one block to a stream (R221): a second one of the same tick is discarded and counted, and its
outputs are those of the first. The outputs of a stream that crosses no clock follow at once. -/
def handOver (s : State) (c : Channel) (k tick : Nat) (ins : List Int) : Channel × List (Int × Bool) :=
  let st := c.stream k
  if ¬ st.present then (c, [])
  else if st.lastTick = some tick then (c.setStream k (countStream st .dupBlock 1), st.last)
  else
    let st1 := streamPush { st with lastTick := some tick } ins
    if crossing k then (c.setStream k { st1 with last := [] }, [])
    else
      let r := streamTake (s.drift c k) (dissolveLen c k) (settlePass c k) (st1.chain.fout * 10) st1
      (c.setStream k { r.2 with last := r.1 }, r.1)

end Sys2Proof.Machine
end

