-- ==== Sys2Proof/Machine/Tables.lean ====
section
/-! DEFINITION. The host area of DRAM (R566 to R569), the table store and the checks of table images (R269 to R288), and
prompt images (R289, R290). -/

namespace Sys2Proof.Machine

/-! ## The host area -/

/-- Usable DRAM in bytes: seven eighths of the population (R566). -/
def State.usableBytes (s : State) : Nat := s.store.populatedGib * 2 ^ 30 / 8 * 7

/-- HOST_END (R567). -/
def State.hostEnd (s : State) : Nat := s.usableBytes - s.store.traceSize - s.store.cacheSize - s.store.storeSize

/-- Where the host area begins (Table 23.5). -/
def hostStart : Nat := 0x50000000

/-- BAR2's size (Table 23.1). -/
def windowSize : Nat := 2 ^ 30

/-- Whether `n` bytes at `a` lie in the host area and in the window at `base` (R569). -/
def State.inWindow (s : State) (base a n : Nat) : Bool :=
  decide (hostStart ≤ a ∧ a + n ≤ s.hostEnd ∧ base ≤ a ∧ a + n ≤ base + windowSize)

/-- Whether `n` bytes at `a` lie in the host area. -/
def State.inHostArea (s : State) (a n : Nat) : Bool := decide (hostStart ≤ a ∧ a + n ≤ s.hostEnd)

/-- The bytes of a job's source as they stand. -/
def State.sourceBytes (s : State) (src : JobSource) : List Byte :=
  match src with
  | .dram a n => memRead s.store.dram a n
  | .bytes l => l

def sourceLength (src : JobSource) : Nat :=
  match src with
  | .dram _ n => n
  | .bytes l => l.length

/-! ## The table store (R269, R284) -/

/-- Table kinds (Table 10.1). -/
inductive TableKind
  | detector | generator | compand | gainCurve | agc
  deriving DecidableEq, Repr

/-- Kind and rate of a shipped table (Table 10.8). -/
def shippedKind (id : Nat) : Option (TableKind × Nat) :=
  if id ≤ 1 then some (.compand, 0)
  else if id = 0x10 ∨ id = 0x12 ∨ id = 0x14 ∨ id = 0x15 ∨ id = 0x16 ∨ id = 0x18 then some (.detector, 8000)
  else if id = 0x11 ∨ id = 0x13 then some (.detector, 16000)
  else if 0x20 ≤ id ∧ id ≤ 0x34 then some (.generator, 8000)
  else if 0x40 ≤ id ∧ id ≤ 0x54 then some (.generator, 16000)
  else if 0x80 ≤ id ∧ id < 0xA8 ∧ id % 8 < 4 then some (.generator, 8000)
  else if id = 0xC0 then some (.gainCurve, 0)
  else if id = 0xC8 then some (.agc, 0)
  else none

/-- KIND of an image. -/
def kindOf (n : Nat) : Option TableKind :=
  if n = 1 then some .detector else if n = 2 then some .generator else if n = 3 then some .compand
  else if n = 4 then some .gainCurve else if n = 5 then some .agc else none

/-- MAG[i] of ITU-T G.711 A-law and µ-law in 16-bit scale (R284; log entry 108). -/
def alawMag (i : Nat) : Nat := if i < 16 then (2 * i + 1) * 8 else (2 * (i % 16) + 33) * 2 ^ (i / 16 - 1) * 8
def ulawMag (i : Nat) : Nat := ((2 * (i % 16) + 33) * 2 ^ (i / 16) - 33) * 4

/-- The body of a shipped table after its header of 32 bytes: the laws and the AGC stand in Table 10.8; of the curve it gives ATTACK_MS
and RELEASE_MS; the rest is free (log entry 3). -/
def shippedBody (id : Nat) (raw : List Byte) : List Byte :=
  if id = 0 then [0x55, 1] ++ zeroBytes 14 ++ ((List.range 128).map (fun i => beBytes 2 (alawMag i))).flatten
  else if id = 1 then [0xFF, 0] ++ zeroBytes 14 ++ ((List.range 128).map (fun i => beBytes 2 (ulawMag i))).flatten
  else if id = 0xC8 then beInt 2 (-180) ++ beInt 2 120 ++ beInt 2 (-120) ++ beBytes 2 30 ++ beBytes 2 120 ++ beInt 2 (-450) ++ zeroBytes 4
  else if id = 0xC0 then slice raw 0x20 1 ++ [0] ++ beBytes 2 5 ++ beBytes 2 200 ++ zeroBytes 10 ++ raw.drop 0x30
  else raw.drop 0x20

/-- The image of a shipped table: its header as Table 10.2 and Table 10.8 give it, with REVISION and NAME free (R284). -/
def shippedTable (id : Nat) (k : TableKind) (rate : Nat) : List Byte :=
  let raw := Config.shippedImage id
  let body := shippedBody id raw
  beBytes 4 0x575A5442 ++ beBytes 2 1 ++ beBytes 1 (k.ctorIdx + 1) ++ [0] ++ beBytes 2 id ++ slice raw 0xA 2 ++
  beBytes 4 (32 + body.length) ++ beBytes 4 rate ++ slice raw 0x14 12 ++ body

/-- The image held under an ID. -/
def State.tableImage (s : State) (id : Nat) : Option (List Byte) :=
  if id < 0x100 then (shippedKind id).map (fun k => shippedTable id k.1 k.2) else tabFind? s.store.tables id

/-- Kind and rate of the table held under an ID. -/
def State.tableKind (s : State) (id : Nat) : Option (TableKind × Nat) :=
  if id < 0x100 then shippedKind id
  else
    match tabFind? s.store.tables id with
    | some img => (kindOf (fieldAt img 6 1)).map (fun k => (k, fieldAt img 0x10 4))
    | none => none

/-- Whether an ID holds a table of a kind. -/
def State.holdsKind (s : State) (id : Nat) (k : TableKind) : Bool :=
  match s.tableKind id with
  | some (j, _) => j == k
  | none => false

/-! ## Checks of an image (R270, Tables 10.2 to 10.7) -/

/-- The first offset whose check fails. -/
def firstBad : List (Bool × Nat) → Option Nat
  | [] => none
  | (ok, o) :: r => if ok then firstBad r else some o

def u8 (l : List Byte) (o : Nat) : Nat := fieldAt l o 1
def u16 (l : List Byte) (o : Nat) : Nat := fieldAt l o 2
def u32 (l : List Byte) (o : Nat) : Nat := fieldAt l o 4
def s16 (l : List Byte) (o : Nat) : Int := signedOf 16 (fieldAt l o 2)

/-- Zero bytes at an offset, one check a byte. -/
def zeroChecks (l : List Byte) (o n : Nat) : List (Bool × Nat) :=
  (List.range n).map (fun i => (u8 l (o + i) == 0, o + i))

/-- LENGTH that a kind's formula gives (Table 10.1). -/
def formulaLength (k : TableKind) (l : List Byte) : Nat :=
  match k with
  | .detector => 48 + 8 * u8 l 0x20 + 8 * u8 l 0x21 + 20 * u16 l 0x24
  | .generator => 48 + 32 * u8 l 0x20
  | .compand => 304
  | .gainCurve => 48 + 4 * u8 l 0x20
  | .agc => 48

/-- NAME: ASCII, padded with zero bytes. -/
def nameChecks (l : List Byte) : List (Bool × Nat) :=
  (List.range 12).map (fun i =>
    (decide (u8 l (0x14 + i) < 128 ∧ (u8 l (0x14 + i) = 0 ∨ i = 0 ∨ u8 l (0x13 + i) ≠ 0)), 0x14 + i))

/-- The bins an operation names lie below NBINS (Table 10.4). -/
def featureChecks (l : List Byte) (o nb : Nat) : List (Bool × Nat) :=
  let op := u8 l o
  let a := decide (u8 l (o + 1) < nb)
  let b := decide (u8 l (o + 2) < nb)
  let c := decide (u8 l (o + 3) < nb)
  [(decide (1 ≤ op ∧ op ≤ 9), o), (a || op == 7 || op == 8, o + 1), (b || !([3, 4, 5, 6].contains op), o + 2),
   (c || op != 5, o + 3)] ++ zeroChecks l (o + 6) 2

/-- The fields of a DETECTOR body (Table 10.3). -/
def detectorChecks (l : List Byte) : List (Bool × Nat) :=
  let nb := u8 l 0x20
  let nf := u8 l 0x21
  let ns := u8 l 0x22
  let nt := u16 l 0x24
  let f0 := 0x30 + 8 * nb
  let t0 := f0 + 8 * nf
  [(decide (1 ≤ nb ∧ nb ≤ 16), 0x20), (decide (1 ≤ nf ∧ nf ≤ 32), 0x21), (decide (1 ≤ ns ∧ ns ≤ 32), 0x22),
   (decide (u8 l 0x23 ≤ 8), 0x23), (decide (1 ≤ nt ∧ nt ≤ 256), 0x24)] ++ zeroChecks l 0x28 8 ++
  ((List.range nb).map (fun i =>
    let o := 0x30 + 8 * i
    (decide (s16 l o * s16 l o + s16 l (o + 2) * s16 l (o + 2) < 32640 * 32768), o) :: zeroChecks l (o + 6) 2)).flatten ++
  ((List.range nf).map (fun i => featureChecks l (f0 + 8 * i) nb)).flatten ++
  ((List.range nt).map (fun i =>
    let o := t0 + 20 * i
    [(decide (u8 l o < ns ∧ (i = 0 ∨ u8 l (o - 20) ≤ u8 l o)), o), (decide (u8 l (o + 1) < ns), o + 1),
     (decide (u8 l (o + 2) < 32), o + 2), (u8 l (o + 5) == 0, o + 5), (decide (u32 l (o + 10) < 2 ^ nf), o + 10),
     (decide (u32 l (o + 14) < 2 ^ nf), o + 14)] ++ zeroChecks l (o + 18) 2)).flatten

/-- The fields of a GENERATOR body (Table 10.6). -/
def generatorChecks (l : List Byte) : List (Bool × Nat) :=
  let n := u8 l 0x20
  [(decide (1 ≤ n ∧ n ≤ 32), 0x20), (decide (u8 l 0x21 < n), 0x21)] ++ zeroChecks l 0x24 12 ++
  ((List.range n).map (fun i =>
    let o := 0x30 + 32 * i
    ((List.range 4).map (fun k =>
      [(decide (u16 l (o + 4 * k) < u32 l 0x10), o + 4 * k),
       (decide (-700 ≤ s16 l (o + 4 * k + 2) ∧ s16 l (o + 4 * k + 2) ≤ 30), o + 4 * k + 2)])).flatten ++
    [(decide (u8 l (o + 18) < 8), o + 18)] ++ zeroChecks l (o + 19) 13)).flatten

/-- The fields of the curve bodies (Table 10.7). -/
def compandChecks (l : List Byte) : List (Bool × Nat) :=
  (decide (u8 l 0x21 ≤ 1), 0x21) :: zeroChecks l 0x22 14 ++
  (List.range 128).map (fun i =>
    (decide (u16 l (0x30 + 2 * i) ≤ 32767 ∧ (i = 0 ∨ u16 l (0x2E + 2 * i) < u16 l (0x30 + 2 * i))), 0x30 + 2 * i))

def curveChecks (l : List Byte) : List (Bool × Nat) :=
  let n := u8 l 0x20
  [(decide (2 ≤ n ∧ n ≤ 16), 0x20), (u8 l 0x21 == 0, 0x21), (decide (1 ≤ u16 l 0x22 ∧ u16 l 0x22 ≤ 1000), 0x22),
   (decide (1 ≤ u16 l 0x24 ∧ u16 l 0x24 ≤ 5000), 0x24)] ++ zeroChecks l 0x26 10 ++
  ((List.range n).map (fun i =>
    let o := 0x30 + 4 * i
    [(decide (-700 ≤ s16 l o ∧ s16 l o ≤ 31 ∧ (i = 0 ∨ s16 l (o - 4) < s16 l o)), o),
     (decide (-400 ≤ s16 l (o + 2) ∧ s16 l (o + 2) ≤ 240), o + 2)])).flatten

def agcChecks (l : List Byte) : List (Bool × Nat) :=
  [(decide (-400 ≤ s16 l 0x20 ∧ s16 l 0x20 ≤ 0), 0x20), (decide (0 ≤ s16 l 0x22 ∧ s16 l 0x22 ≤ 240), 0x22),
   (decide (-240 ≤ s16 l 0x24 ∧ s16 l 0x24 ≤ 0), 0x24), (decide (1 ≤ u16 l 0x26 ∧ u16 l 0x26 ≤ 300), 0x26),
   (decide (1 ≤ u16 l 0x28 ∧ u16 l 0x28 ≤ 600), 0x28), (decide (-700 ≤ s16 l 0x2A ∧ s16 l 0x2A ≤ -300), 0x2A)] ++
  zeroChecks l 0x2C 4

/-- The first offending byte of a table image loaded under `id` (R270). -/
def imageFault (l : List Byte) (id : Nat) : Option Nat :=
  match kindOf (u8 l 6) with
  | none => firstBad [(u32 l 0 == 0x575A5442, 0), (u16 l 4 == 1, 4), (false, 6)]
  | some k =>
    let rated := k = .detector ∨ k = .generator
    let head := [(u32 l 0 == 0x575A5442, 0), (u16 l 4 == 1, 4), (u8 l 7 == 0, 7), (u16 l 8 == id, 8),
      (decide (u32 l 12 = formulaLength k l ∧ u32 l 12 = l.length), 12),
      (decide (if rated then u32 l 16 = 8000 ∨ u32 l 16 = 16000 else u32 l 16 = 0), 16)] ++ nameChecks l
    firstBad (head ++ match k with
      | .detector => detectorChecks l
      | .generator => generatorChecks l
      | .compand => compandChecks l
      | .gainCurve => curveChecks l
      | .agc => agcChecks l)

/-! ## Use of tables (R287, R288) -/

/-- The DETECTORS of a leg: stored IDs, else the defaults of Table 10.10. -/
def detectorIds (t : Tab (List Byte)) (wide : Bool) (leg : Nat) : List Nat :=
  match tabFind? t (setKey .tone leg 1) with
  | some v => (List.range (v.length / 4)).map (fun i => fieldAt v (4 * i) 4)
  | none => if wide then [0x11, 0x13] else [0x10, 0x12]

def eventToneBase (t : Tab (List Byte)) (wide : Bool) (leg : Nat) : Nat :=
  settingNat t .tone leg 2 (if wide then 0x40 else 0x20)

/-- The table IDs that one leg's settings, generator and TDM law name. -/
def legTables (c : Channel) (t : Tab (List Byte)) (leg : Nat) : List Nat :=
  let b := eventToneBase t c.wide leg
  detectorIds t c.wide leg ++ (List.range 21).map (fun i => b + i) ++
  ([3, 4, 5, 6].map (fun k => settingNat t .gain leg k noneValue)) ++
  (match (c.legMedia leg).generator with | some g => [g.table] | none => []) ++
  (let l := c.leg leg; if l.kind = .tdm ∧ l.law = 2 then [l.compand] else [])

/-- How often the channels in being name a table. -/
def State.tableUses (s : State) (id : Nat) : Nat :=
  (s.channels.map (fun e =>
    if e.2.state = .idle then 0
    else (legTables e.2 e.2.accepted 0).count id + (legTables e.2 e.2.accepted 1).count id)).sum

/-- Bytes of the host tables held. -/
def State.tableBytes (s : State) : Nat := (s.store.tables.map (fun e => e.2.length)).sum

/-- How many tables are held, shipped ones included. -/
def State.tableCount (s : State) : Nat :=
  s.store.tables.length + ((List.range 0x100).filter (fun i => (shippedKind i).isSome)).length

/-! ## Prompt images (R290) -/

def promptHeaderOk (l : List Byte) : Bool :=
  let enc := u8 l 6
  let rate := u32 l 8
  let samples := u32 l 12
  let piece := u32 l 20
  u32 l 0 == 0x575A5052 && u16 l 4 == 1 && decide (enc ≤ 2) && u8 l 7 == 0 &&
  (if enc = 0 then rate == 8000 || rate == 16000 || rate == 48000 else rate == 8000) && decide (1 ≤ samples) &&
  decide (0 < piece ∧ piece % (rate / 100) = 0 ∧ piece ≤ rate) && u32 l 16 == (samples + piece - 1) / piece &&
  fieldAt l 24 8 == 0

/-- OFFSET and LENGTH of a piece. -/
def pieceEntry (l : List Byte) (i : Nat) : Nat × Nat := (u32 l (32 + 8 * i), u32 l (36 + 8 * i))

/-- The frame of a piece. -/
def pieceFrame (l : List Byte) (i : Nat) : List Byte := slice l (pieceEntry l i).1 (pieceEntry l i).2

/-- Samples of a piece: the last may be shorter. -/
def pieceSamples (samples piece i : Nat) : Nat := min piece (samples - i * piece)

/-- The directory and the original length of every piece (R290). -/
def promptPiecesOk (l : List Byte) : Bool :=
  let n := u32 l 16
  let bytes := if u8 l 6 = 0 then 2 else 1
  (List.range n).all (fun i =>
    let e := pieceEntry l i
    decide (32 + 8 * n ≤ e.1 ∧ e.1 + e.2 ≤ l.length) &&
    u32 (pieceFrame l i) 8 == pieceSamples (u32 l 12) (u32 l 20) i * bytes)

/-- The store a prompt takes: its compressed image. -/
def State.promptBytes (s : State) : Nat := (s.store.prompts.map (fun e => e.2.image.length)).sum

end Sys2Proof.Machine
end

