-- ==== Sys2Proof/Machine/Replies.lean ====
section
/-! DEFINITION. The values of queries (R436) and the events that commands post to a block (R38, R377, R378). -/

namespace Sys2Proof.Machine

/-- One value of a reply: its type, its length in bytes and its value. -/
def rep (typ len v : Nat) : Tlv := { typ := typ, val := beBytes len v }

/-- A signed value of a reply. -/
def repInt (typ len : Nat) (v : Int) : Tlv := { typ := typ, val := beInt len v }

/-- An INSTANCE (R436). -/
def instanceTlv (kind number : Nat) : Tlv := { typ := 0x03FF, val := beBytes 4 (kind * 2 ^ 24 + number) }

/-- A counter in the layout of R193: PROV and a value that saturates at 63 bits. -/
def counterValue (prov : Bool) (v : Nat) : List Byte := beBytes 8 (boolNat prov * 2 ^ 63 + min v (2 ^ 63 - 1))

/-- `n` counters in row order from type `t` (R436); final counters have PROV 0. -/
def counterTlvs (t n : Nat) (c : Counts) : List Tlv :=
  (List.range n).map (fun i => { typ := t + i, val := counterValue false (tabGet c i 0) })

/-- The stored settings of one group and unit, in the types of their command. -/
def settingTlvs (t : Tab (List Byte)) (g : SetGroup) (unit : Nat) (l : List (Nat × List Byte)) : List Tlv :=
  l.map (fun d => { typ := d.1, val := (tabFind? t (setKey g unit d.1)).getD d.2 })

/-! ## Events to a block (R377, R378) -/

/-- The FIFO's size (R377). -/
def fifoSize : Nat := 512

/-- A command event: it enters the block's FIFO, or waits in Damium in acceptance order while that is full (R378). -/
def State.postCommandTo (s : State) (b slot : Nat) (e : ChEvent) : State :=
  s.modBlock b (fun k =>
    if k.fifo.length < fifoSize ∧ k.commandHold = [] then
      { k with fifo := k.fifo ++ [(slot, .command e)], peakFifo := max k.peakFifo (k.fifo.length + 1) }
    else { k with commandHold := k.commandHold ++ [(slot, .command e)] })

/-- A command event for a channel's thread (R38); a channel without a thread slot takes none. -/
def State.postCommand (s : State) (c : Nat) (e : ChEvent) : State :=
  match (s.channel c).slot with
  | some t => s.postCommandTo (s.channel c).block t e
  | none => s

/-- Settings accepted for a channel, and posted to its thread. -/
def State.acceptSettings (s : State) (c : Nat) (l : List (Nat × List Byte)) : State :=
  (s.modChannel c (fun v => { v with accepted := mergeSettings v.accepted l })).postCommand c (.settings l)

end Sys2Proof.Machine
end

