-- ==== Sys2Proof/Machine/Channels.lean ====
section
/-! DEFINITION. The channel commands CH_OPEN to CH_RECOVER, CH_QUERY and CH_SCHED_SET (R39 to R51, R397, R442 to R444). -/

namespace Sys2Proof.Machine

/-! ## Entry to IDLE (R48) -/

/-- The slots of a TDM leg (R298): LINEAR16 takes a pair. -/
def legSlots (l : Leg) : List Nat :=
  if l.kind = .tdm ∧ l.bound then
    if l.law = 3 then [slotKey l.highway l.slot, slotKey l.highway (l.slot + 1)] else [slotKey l.highway l.slot]
  else []

/-- A slot released: it is free to bind, and the slot map drops it at the next frame (R309). -/
def releaseSlot (s : State) (k : Nat) : State :=
  let t := s.tdmSlot k
  s.setTdmSlot k { t with bound := none, change := .release }

/-- The slots that count as bound to a channel. -/
def State.slotsOf (s : State) (c : Nat) : List Nat :=
  (s.tdm.slots.filter (fun e => match e.2.bound with | some o => o.1 == c | none => false)).map (·.1)

/-- PROMPT_EVENT of a play that ends, where NOTIFY is set (R294): REASON 0 DONE, 1 STOPPED, 2 FAULT, 3 CLOSED,
4 NOT_FOUND. -/
def State.promptNotice (s : State) (c leg : Nat) (p : Prompting) (reason : Nat) : State :=
  if p.notify then
    s.notify .media 0x0F05 4 c [beBytes 1 leg, beBytes 4 ((p.prompts[p.index]?).getD 0), beBytes 1 reason]
  else s

/-- Every play of a leg ended with one reason, the queued ones after the current one. -/
def State.endPlays (s : State) (c leg reason : Nat) : State :=
  let m := (s.channel c).legMedia leg
  let s1 := (m.prompt.toList ++ m.queue).foldl (fun s p => s.promptNotice c leg p reason) s
  s1.modChannel c (fun v => v.setLegMedia leg { v.legMedia leg with prompt := none, queue := [] })

/-- An evacuation that a refused move ends, or that has emptied its block (R546). -/
def State.failEvacuation (s : State) (b status : Nat) : State :=
  (s.block b).evacuation.foldl (fun s r => s.complete r status []) (s.modBlock b (fun k => { k with evacuation := [] }))

/-- A block that has just lost its last channel thread begins to count towards AUTO_DEEP_SLEEP, and its evacuation is
complete (R498, R546). -/
def State.noteEmpty (s : State) (b : Nat) : State :=
  if (s.block b).threads.any (fun e => decide (e.1 < 1024 ∧ e.2.state ≠ .free)) then s
  else (s.modBlock b (fun k => { k with emptySince := s.time.powered })).failEvacuation b stOk

/-- The other end of a move told that it has failed, or a slot reserved on this device given back (R545). -/
def State.abortMove (s : State) (m : Move_) (c status : Nat) : State :=
  if m.device ≠ s.stack.number then s.sendClass m.device 1 (Config.messageKind 3) [beBytes 2 c, beBytes 2 status]
  else s.freeSlotOf m.block (some m.slot)

/-- A move that fails on its source: the channel goes back to its former state, two ticks after its cut where its context
has left (R47, R545, R546). -/
def State.failMove (s : State) (c status : Nat) : State :=
  let v := s.channel c
  match v.move with
  | none => s
  | some m =>
    let s1 := if m.device = s.stack.number then s else s.bumpStack .movesFailed
    let back := if m.sent then m.cut.getD 0 + 2 else v.resumeAt
    let s2 := (s1.modChannel c (fun v => { v with state := m.from_, move := none, resumeAt := back })).completeOpt m.ref status
    let s3 := if m.ref.isNone then s2.failEvacuation v.block status else s2
    s3.channelNotice c .migrating m.from_ 3 status

/-- A channel's entry to IDLE, without its notice: plays end CLOSED, flows, templates, TDM slots, thread slot and charge
go, and its context slot is zeroed before the ID can be opened again (R48). -/
def State.enterIdle (s : State) (c : Nat) : State :=
  let v := s.channel c
  let s1 := (s.endPlays c 0 3).endPlays c 1 3
  let s2 := { s1 with flows := flowRemoveChannel s1.flows s1.stack.number c }
  let s3 := (s2.slotsOf c).foldl releaseSlot s2
  let s4 := s3.freeSlotOf v.block v.slot
  ({ s4 with openRuns := tabDrop s4.openRuns c }.setChannel c
    { clearing := true, wakeRef := v.wakeRef, block := v.block }).noteEmpty v.block

/-- A channel to IDLE with its notice (R47): `cause` as CHANNEL_STATE numbers it. -/
def State.toIdle (s : State) (c cause : Nat) : State :=
  (s.enterIdle c).channelNotice c (s.channel c).state .idle cause 0

/-- A channel to another state by command, reported (Table 16.10). -/
def State.toState (s : State) (c : Nat) (st : ChState) (cause : Nat) : State :=
  (s.modChannel c (fun v => { v with state := st })).channelNotice c (s.channel c).state st cause 0

/-! ## CH_OPEN -/

/-- The block a BLOCK parameter names: 0xFF the default, 0 to 15, else none (R49). -/
def blockOf (c v : Nat) : Option Nat := if v = 0xFF then some (c / 1024) else if v < 16 then some v else none

/-- A channel placed in block `b`, slot `t`, in OPEN. While its context slot is still being cleared its thread only holds
the slot: CONTEXT_CLEARED applies the command (R48). -/
def State.openAt (s : State) (c b t : Nat) (wide : Bool) : State :=
  let old := s.channel c
  (if old.clearing then s.holdSlot b t c else s.takeSlot b t c).setChannel c
    { state := .opened, wide := wide, block := b, slot := some t, clearing := old.clearing, openWaits := old.clearing,
      runState := .opened, format := s.commitFormat b }

def chOpenBody : Body := fun x s =>
  let c := x.id
  match (s.channel c).state with
  | .migrating => .refuse stChannelMigrating []
  | .opened | .active | .hold | .draining | .faulted => .refuse stWrongState []
  | .idle =>
    match blockOf c (paramNat x.params 0x41 0xFF) with
    | none => refuseParam x stBadBlock 0x41
    | some b =>
      match s.place b c with
      | .inr st => .refuse st []
      | .inl t =>
        let s1 := (s.openAt c b t (paramNat x.params 0x40 0 == 1)).channelNotice c .idle .opened 0 0
        match s.blockMode b with
        | .run => .done stOk [] s1
        | .sleep => .done stOk [] (s1.wakeBlock b)
        | .deepSleep => .accepted ((s1.modChannel c (fun v => { v with wakeRef := some x.ref })).startWake b)

/-! ## CH_SET_LEG (R443) -/

/-- Types of Table 16.4 that belong to a leg type. -/
def legTypes (k : LegKind) : List Nat :=
  match k with
  | .none => []
  | .tdm => [0x42, 0x43, 0x44, 0x45]
  | .rtp => [0x46, 0x47, 0x48, 0x49, 0x4A, 0x4B, 0x4C]
  | .stack => [0x4D, 0x4E, 0x4F]

/-- Types needed for a new binding, in ascending order. -/
def legNeeds (k : LegKind) (law : Nat) : List Nat :=
  match k with
  | .none => []
  | .tdm => if law = 2 then [0x42, 0x43, 0x45] else [0x42, 0x43]
  | .rtp => [0x46, 0x47, 0x48, 0x49]
  | .stack => [0x4D, 0x4E, 0x4F]

def legKindOf (n : Nat) : LegKind := if n = 0 then .none else if n = 1 then .tdm else if n = 2 then .rtp else .stack

/-- The offset at which a parameter begins. -/
def paramStart (l : List Param) (t : Nat) : Nat := ((l.find? (fun q => q.typ == t)).map (·.offset)).getD 0

/-- An address that names one host (Table 16.4). -/
def unicast (a : List Byte) : Bool :=
  if a.length = 4 then decide (fieldAt a 0 1 < 224) && !(allZero a) else fieldAt a 0 1 != 0xFF && !(allZero a)

/-- The IP version of a template (R163): its EtherType, past at most one VLAN tag. -/
def templateIpv6 (t : List Byte) : Bool :=
  let o := if fieldAt t 12 2 = 0x8100 then 16 else 12
  fieldAt t o 2 == 0x86DD

/-- EGRESS_PORT is well formed (Table 16.4). -/
def egressOk (v : Nat) : Bool :=
  let dev := v / 2 ^ 24
  let kind := v / 2 ^ 16 % 256
  let n := v / 2 ^ 8 % 256
  decide (dev < 8 ∧ (kind = 0 ∧ n < 4 ∨ kind = 1 ∧ n < 2) ∧ v % 256 = 0)

/-- SRTP NONE or an index. -/
def srtpOf (v : Nat) : Option Nat := if v = noneValue then none else some v

/-- A leg with the parameters given applied to it, over the present one. -/
def legWith (l : List Param) (o : Leg) : Leg :=
  { o with
    highway := paramNat l 0x42 o.highway, slot := paramNat l 0x43 o.slot, law := paramNat l 0x44 o.law,
    compand := paramNat l 0x45 o.compand, template := paramNat l 0x46 o.template,
    dstAddr := (paramBytes? l 0x47).getD o.dstAddr, dstPort := paramNat l 0x48 o.dstPort,
    srcPort := paramNat l 0x49 o.srcPort, ssrc := paramNat l 0x4A o.ssrc,
    txSrtp := match paramNat? l 0x4B with | some v => srtpOf v | none => o.txSrtp,
    egress := paramNat l 0x4C o.egress, peerDevice := paramNat l 0x4D o.peerDevice,
    peerChannel := paramNat l 0x4E o.peerChannel, peerLeg := paramNat l 0x4F o.peerLeg }

/-- The slots of a highway mode. -/
def modeSlots (m : HwMode) : Nat := match m with | .disabled => 0 | .narrow => 128 | .wide => 64

/-- The slots that a binding takes beyond those the leg's present binding names. A slot that the leg has left stays bound until the run
that applies it, against the leg itself too (R309; log entry 77). -/
def newSlots (old l : Leg) : List Nat :=
  if l.slot % 2 = 1 then (if (legSlots old).contains (slotKey l.highway l.slot) then [] else [slotKey l.highway l.slot])
  else (legSlots l).filter (fun k => !(legSlots old).contains k)

/-- Why a TDM leg cannot be bound, if it cannot, in the order of R308: the status, and the parameters that may be at fault. -/
def State.tdmRefusal (s : State) (c leg : Nat) (l : Leg) : Option (Nat × List Nat) :=
  let h := s.highway l.highway
  if (newSlots ((s.channel c).leg leg) l).any (fun k => (s.tdmSlot k).bound.isSome) then some (stLegConflict, [])
  else if h.mode = .disabled then some (stOutOfRange, [0x42, 0x43, 0x44])
  else if modeSlots h.mode ≤ l.slot then some (stOutOfRange, [0x43, 0x42, 0x44])
  else if l.law = 3 ∧ (l.slot % 2 = 1 ∨ h.mode = .wide) then some (stOutOfRange, [0x43, 0x44, 0x42])
  else if l.law = 2 ∧ ¬ s.holdsKind l.compand .compand then some (stTableNotFound, [0x45, 0x44])
  else none

/-- Why an RTP leg cannot be bound, if it cannot (R163, R443). -/
def State.rtpRefusal (s : State) (l : Leg) : Option (Nat × List Nat) :=
  match tabFind? s.flows.templates l.template with
  | none => some (stTemplateNotFound, [0x46])
  | some t =>
    if ¬ unicast l.dstAddr then some (stOutOfRange, [0x47])
    else if templateIpv6 t.bytes ≠ (l.dstAddr.length == 16) then some (stOutOfRange, [0x47, 0x46])
    else if ¬ egressOk l.egress then some (stOutOfRange, [0x4C])
    else
      match l.txSrtp with
      | none => none
      | some i =>
        match tabFind? s.flows.contexts i with
        | some x => if x.transmit then none else some (stOutOfRange, [0x4B])
        | none => some (stSrtpCtxNotFound, [0x4B])

def State.legRefusal (s : State) (c leg : Nat) (l : Leg) : Option (Nat × List Nat) :=
  match l.kind with
  | .tdm => s.tdmRefusal c leg l
  | .rtp => s.rtpRefusal l
  | .none | .stack => none

/-- A status with its error parameters where it is of the parameter class (Table 15.3). -/
def refuseFor (x : Ctx) (st : Nat) (types : List Nat) : Answer :=
  if st / 256 = 2 then refuseParam x st (blamed x types) else .refuse st []

/-- Settings without those of one group and unit. -/
def dropSettings (t : Tab (List Byte)) (g : SetGroup) (unit : Nat) : Tab (List Byte) :=
  t.filter (fun e => e.1 / 65536 ≠ g.ctorIdx * 8 + unit)

/-- The slots of the new leg count as bound from now on (R309). -/
def State.bindSlots (s : State) (c leg : Nat) (l : Leg) : State :=
  (legSlots l).foldl (fun s k => s.setTdmSlot k { s.tdmSlot k with bound := some (c, leg) }) s

/-- A leg accepted: admission on an increase (note (a)), then the units, of which an unbound leg keeps none (R220), then its slots and
the event. -/
def State.acceptLeg (s : State) (c leg : Nat) (l : Leg) (fresh : Bool) : Answer :=
  let v := s.channel c
  let t := if fresh ∧ l.kind = .rtp then dropSettings v.accepted .codec leg else v.accepted
  let w := (v.setLeg leg l)
  let new := chargeOf v.wide t w.legA w.legB
  match s.admitChange v new with
  | some st => .refuse st []
  | none =>
    let units := s.legUnits t v.rate leg l
    if ¬ s.unitsFit v.block (v.reservedAt leg) units then .refuse stResamplerFull []
    else
      let w1 := w.reserve leg units
      let w2 := if l.kind = .none then (w1.reserve (2 + leg) 0).reserve (4 + leg) 0 else w1
      let s1 := s.setChannel c { w2 with accepted := t }
      .done stOk [] ((s1.bindSlots c leg l).postCommand c (.bind leg l fresh))

/-- The type a CH_SET_LEG asks for: the present one where it gives none. -/
def askedKind (l : List Param) (old : Leg) : LegKind := match paramNat? l 0x41 with | some n => legKindOf n | none => old.kind

/-- Whether a CH_SET_LEG is a new binding: it names a type, and the leg has another or is unbound. -/
def freshBinding (l : List Param) (old : Leg) : Bool := paramHas l 0x41 && (decide (askedKind l old ≠ old.kind) || !old.bound)

/-- A new RTP binding draws an SSRC where it names none. -/
def drawsSsrc (l : List Param) (old : Leg) : Bool := freshBinding l old && askedKind l old == .rtp && !(paramHas l 0x4A)

/-- The leg that a CH_SET_LEG asks for: a new binding starts from the defaults, with a free SSRC and this device's egress where it names
none; any other keeps what it does not give (R443). -/
def State.askedLeg (s : State) (l : List Param) (old : Leg) : Leg :=
  let fresh := freshBinding l old
  let base : Leg := if fresh then {} else old
  { legWith l base with
    kind := askedKind l old, bound := fresh || old.bound,
    ssrc := if drawsSsrc l old then s.freeValue % 2 ^ 32 else paramNat l 0x4A base.ssrc,
    egress := if fresh && askedKind l old == .rtp && !(paramHas l 0x4C) then s.stack.number * 2 ^ 24 else paramNat l 0x4C base.egress }

/-- The types that a CH_SET_LEG must give: those of a new binding, and the table of a leg that takes LAW COMPAND. -/
def askedNeeds (l : List Param) (old new : Leg) : List Nat :=
  if freshBinding l old then legNeeds new.kind new.law else if new.kind = .tdm ∧ new.law = 2 ∧ old.law ≠ 2 then [0x45] else []

/-- The first parameter that the type of a leg does not have. -/
def strayParam (l : List Param) (k : LegKind) : Option Param :=
  l.find? (fun q => q.typ != 0x40 && q.typ != 0x41 && !((legTypes k).contains q.typ))

def chSetLegBody : Body := fun x s =>
  let c := x.id
  match settingsRow (s.channel c).state with
  | some st => .refuse st []
  | none =>
    let leg := paramNat x.params 0x40 0
    let old := (s.channel c).leg leg
    let l := s.askedLeg x.params old
    match (askedNeeds x.params old l).find? (fun t => !(paramHas x.params t)) with
    | some t => refuseMissing x t
    | none =>
      match strayParam x.params l.kind with
      | some q => .refuse stBadTlv (errorTlvs q.typ (paramStart x.params q.typ))
      | none =>
        if l.kind = .none ∧ leg = 0 ∧ paramHas x.params 0x41 then refuseParam x stOutOfRange 0x41
        else
          match s.legRefusal c leg l with
          | some r => refuseFor x r.1 r.2
          | none => (if drawsSsrc x.params old then s.drawn else s).acceptLeg c leg l (freshBinding x.params old)

/-! ## CH_ACTIVATE, CH_HOLD, CH_RESUME, CH_DRAIN, CH_CLOSE (Table 2.3) -/

def chActivateBody : Body := fun x s =>
  let c := x.id
  let v := s.channel c
  match v.state with
  | .migrating => .refuse stChannelMigrating []
  | .idle | .hold | .draining | .faulted => .refuse stWrongState []
  | .active => .done stNoChange [] s
  | .opened =>
    if ¬ v.legA.bound ∨ v.legA.kind = .none ∨ (v.legB.kind ≠ .none ∧ ¬ v.legB.bound) then .refuse stLegUnbound []
    else
      match s.admission v.block (0, 0) v.charge with
      | some st => .refuse st []
      | none => .done stOk [] ((s.toState c .active 0).postCommand c .activate)

def chHoldBody : Body := fun x s =>
  let c := x.id
  match (s.channel c).state with
  | .migrating => .refuse stChannelMigrating []
  | .idle | .opened | .draining | .faulted => .refuse stWrongState []
  | .hold => .done stNoChange [] s
  | .active => .done stOk [] ((s.toState c .hold 0).postCommand c .hold)

def chResumeBody : Body := fun x s =>
  let c := x.id
  match (s.channel c).state with
  | .migrating => .refuse stChannelMigrating []
  | .idle | .opened | .draining | .faulted => .refuse stWrongState []
  | .active => .done stNoChange [] s
  | .hold => .done stOk [] ((s.toState c .active 0).postCommand c .resume)

def chDrainBody : Body := fun x s =>
  let c := x.id
  match (s.channel c).state with
  | .migrating => .refuse stChannelMigrating []
  | .idle | .faulted => .refuse stWrongState []
  | .draining => .done stNoChange [] s
  | .opened => .done stOk [] (s.toIdle c 0)
  | .active | .hold =>
    .done stOk [] ((s.toState c .draining 0).postCommand c .drain)

def chCloseBody : Body := fun x s =>
  let c := x.id
  match (s.channel c).state with
  | .migrating => .refuse stChannelMigrating []
  | .idle => .done stNoChange [] s
  | .opened | .active | .hold | .draining | .faulted => .done stOk [] (s.toIdle c 0)

/-! ## CH_RECOVER -/

/-- Whether a block takes a recovered channel (note (c)): neither isolated nor without an active cell. -/
def State.recoverable (s : State) (b : Nat) : Bool :=
  !(s.block b).isolated && !(s.block b).underReset && !(s.region (blockRegion b)).underReset && s.activeCells b != []

/-- Where a recovered channel goes: its former block, else the first in service with a free slot (note (c)). -/
def State.recoverPlace (s : State) (c : Nat) : (Nat × Nat) ⊕ Nat :=
  let v := s.channel c
  if s.recoverable v.block then
    match v.slot with
    | some t => .inl (v.block, t)
    | none => match freeSlot (s.block v.block) c with
      | some t => .inl (v.block, t)
      | none => .inr stNoThreadSlot
  else
    match (List.range 16).find? (fun b => s.recoverable b && (freeSlot (s.block b) c).isSome) with
    | some b => .inl (b, (freeSlot (s.block b) c).getD 0)
    | none => .inr (if (List.range 16).any s.recoverable then stNoThreadSlot else stBlockUnavailable)

def chRecoverBody : Body := fun x s =>
  let c := x.id
  let v := s.channel c
  match v.state with
  | .migrating => .refuse stChannelMigrating []
  | .idle | .opened | .active | .hold | .draining => .refuse stWrongState []
  | .faulted =>
    match s.recoverPlace c with
    | .inr st => .refuse st []
    | .inl (b, t) =>
      let s1 := if b = v.block then s else s.freeSlotOf v.block v.slot
      let s2 := (s1.takeSlot b t c).setChannel c
        { v with state := .opened, block := b, slot := some t, runState := .opened,
                 applied := v.accepted, runA := v.legA, runB := v.legB, position := 0,
                 media := { reserved := v.media.reserved } }
      .accepted (((s2.wakeFor b).channelNotice c .faulted .opened 0 0).postCommandTo b t (.complete x.ref stOk))

/-! ## CH_QUERY (R444) -/

/-- The Table 16.4 values of a leg. -/
def legTlvs (i : Nat) (l : Leg) : List Tlv :=
  [instanceTlv 1 i, rep 0x40 1 i, rep 0x41 1 l.kind.ctorIdx] ++
  match l.kind with
  | .none => []
  | .tdm => [rep 0x42 4 l.highway, rep 0x43 4 l.slot, rep 0x44 1 l.law] ++ (if l.law = 2 then [rep 0x45 4 l.compand] else [])
  | .rtp => [rep 0x46 4 l.template, { typ := 0x47, val := l.dstAddr }, rep 0x48 4 l.dstPort, rep 0x49 4 l.srcPort,
             rep 0x4A 4 l.ssrc, rep 0x4B 4 (l.txSrtp.getD noneValue), rep 0x4C 4 l.egress]
  | .stack => [rep 0x4D 4 l.peerDevice, rep 0x4E 4 l.peerChannel, rep 0x4F 1 l.peerLeg]

/-- The counters of a STACK leg (R543). -/
def stackTlvs (l : Leg) (m : LegMedia) : List Tlv := if l.kind = .stack then counterTlvs 0x800 3 m.stackCounts else []

/-- Restarts counted toward Table 2.4 in the last 10 s. -/
def State.restarts10 (s : State) (v : Channel) : Nat := (trailing s.time.powered v.restarts).length

def State.channelCell (s : State) (v : Channel) : Nat :=
  match v.slot with
  | some t => (s.thread v.block t).cell
  | none => 0xFF

/-- What CH_QUERY reports of a channel: in IDLE its state and rate alone (R444). -/
def State.channelTlvs (s : State) (v : Channel) : List Tlv :=
  let head := [rep 0x400 1 v.state.ctorIdx, rep 0x401 1 (boolNat v.wide)]
  if v.state = .idle then head
  else
    head ++ [rep 0x402 1 v.block, rep 0x403 1 (s.channelCell v), rep 0x404 4 (v.slot.getD noneValue),
      rep 0x405 4 v.charge.1, rep 0x406 4 v.charge.2, rep 0x407 4 v.format, rep 0x408 4 (s.restarts10 v)] ++
      legTlvs 0 v.legA ++ stackTlvs v.legA v.media.a ++ legTlvs 1 v.legB ++ stackTlvs v.legB v.media.b

def chQueryBody : Body := fun x s => .done stOk (s.channelTlvs (s.channel x.id)) s

/-! ## CH_SCHED_SET (R397) -/

/-- The scheduling settings wait in the block for the next tick origin. -/
def chSchedSetBody : Body := fun x s =>
  let c := x.id
  let v := s.channel c
  let l := settingsOf .sched 0 x.params
  let s1 := s.modChannel c (fun v => { v with accepted := mergeSettings v.accepted l })
  .done stOk [] (s1.modBlock v.block (fun k => { k with schedule := k.schedule ++ [(c, l)] }))

/-! ## The meanings -/

def execChOpen (p : Packet) (s : State) : Host.Outcome State Fault Refusal := .next (fylosRun 0x0201 chOpenBody p s)
def execChSetLeg (p : Packet) (s : State) : Host.Outcome State Fault Refusal := .next (fylosRun 0x0202 chSetLegBody p s)
def execChActivate (p : Packet) (s : State) : Host.Outcome State Fault Refusal :=
  .next (fylosRun 0x0203 chActivateBody p s)
def execChHold (p : Packet) (s : State) : Host.Outcome State Fault Refusal := .next (fylosRun 0x0204 chHoldBody p s)
def execChResume (p : Packet) (s : State) : Host.Outcome State Fault Refusal := .next (fylosRun 0x0205 chResumeBody p s)
def execChDrain (p : Packet) (s : State) : Host.Outcome State Fault Refusal := .next (fylosRun 0x0206 chDrainBody p s)
def execChClose (p : Packet) (s : State) : Host.Outcome State Fault Refusal := .next (fylosRun 0x0207 chCloseBody p s)
def execChRecover (p : Packet) (s : State) : Host.Outcome State Fault Refusal :=
  .next (fylosRun 0x0209 chRecoverBody p s)
def execChQuery (p : Packet) (s : State) : Host.Outcome State Fault Refusal := .next (fylosRun 0x020A chQueryBody p s)
def execChSchedSet (p : Packet) (s : State) : Host.Outcome State Fault Refusal :=
  .next (fylosRun 0x020B chSchedSetBody p s)

end Sys2Proof.Machine
end

