-- ==== Sys2Proof/Machine/Tdm.lean ====
section
/-! DEFINITION. The TDM unit: its commands and its events (R296 to R313, R36, R37, R376). -/

namespace Sys2Proof.Machine

/-! ## Groups -/

/-- A TDM_GROUP notice. -/
def State.groupNotice (s : State) (g : Nat) (f : Framing_) (r : GroupReason) : State :=
  s.notify .tdm 0x0F12 6 g [beBytes 1 f.ctorIdx, beBytes 1 r.ctorIdx]

/-- A group counter advanced. -/
def bumpGroup (v : TdmGroup) (c : GroupCount) : TdmGroup := { v with counts := bump v.counts c.ctorIdx }

/-- Whether a group frames its highways: MASTER and started, or FRAMED (R304). -/
def groupRuns (v : TdmGroup) : Bool := if v.master then v.started else v.framing == .framed

/-- The reframing that a change of settings brings (R302, R305). -/
def reframe (v : TdmGroup) : TdmGroup :=
  if v.master then { v with started := false } else { v with framing := .search, fsRun := 0, fsMissed := 0 }

/-- A group's settings as a command leaves them. -/
def groupWith (l : List Param) (v : TdmGroup) : TdmGroup :=
  { v with
    master := match paramNat? l 1 with | some n => n == 0 | none => v.master,
    clkX2 := paramFlag l 2 v.clkX2, fsLow := paramFlag l 3 v.fsLow, fsOffset := paramNat l 4 v.fsOffset,
    txFalling := paramFlag l 5 v.txFalling, rxFalling := paramFlag l 6 v.rxFalling,
    free := match paramNat? l 7 with | some n => n == 0 | none => v.free,
    alignOffset := paramNat l 8 v.alignOffset }

/-- Whether any setting other than ALIGN and ALIGN_OFFSET differs (R305). -/
def reframes (a b : TdmGroup) : Bool :=
  decide ({ a with free := b.free, alignOffset := b.alignOffset } ≠ b)

/-- m carried over a change of SOURCE: held for a slave, none but the slew for a master (R303). -/
def State.carryM (s : State) (old new : TdmGroup) : TdmGroup :=
  if old.master ∧ ¬ new.master then { new with m := s.time.corr + old.m, slewing := false, phaseError := 0 }
  else if ¬ old.master ∧ new.master then { new with m := 0, slewing := false, phaseError := 0 }
  else new

/-- A change of ALIGN_OFFSET moves the grid of a master group under its frames (R301, R305): units of 10 ps, wrapped to
the nearer grid point. -/
def wrapPhase (e : Int) : Int :=
  let r := e % 12500000
  if 6250000 < r then r - 12500000 else r

def shiftGrid (old new : TdmGroup) : TdmGroup :=
  if new.master ∧ new.started ∧ old.master then
    { new with phaseError := wrapPhase (new.phaseError - ((new.alignOffset : Int) - old.alignOffset) * 100) }
  else new

def tdmGroupConfigBody : Body := fun x s =>
  let old := s.group x.id
  let new := s.carryM old (groupWith x.params old)
  if new.master ∧ ¬ old.master ∧ (s.powerDomain 62).mode ≠ .run then .refuse stWrongState []
  else if reframes old new then
    let v := reframe new
    .done stOk [] ((s.setGroup x.id v).groupNotice x.id .search .config)
  else .done stOk [] (s.setGroup x.id (shiftGrid old new))

/-! ## Highways -/

/-- The slots of a highway that are bound. -/
def State.highwayBound (s : State) (h : Nat) : Bool := s.tdm.slots.any (fun e => e.1 / 128 == h && e.2.bound.isSome)

def hwModeOf (n : Nat) : HwMode := if n = 0 then .disabled else if n = 1 then .narrow else .wide
def loopModeOf (n : Nat) : LoopMode := if n = 0 then .none else if n = 1 then .local_ else .remote

def tdmHighwayConfigBody : Body := fun x s =>
  let old := s.highway x.id
  let mode := match paramNat? x.params 1 with | some n => hwModeOf n | none => old.mode
  if mode ≠ old.mode ∧ s.highwayBound x.id then .refuse stWrongState []
  else if mode ≠ old.mode ∧ mode ≠ .disabled ∧ (s.powerDomain 62).mode ≠ .run then .refuse stWrongState []
  else
    .done stOk [] (s.setHighway x.id
      { old with mode := mode, bitOffset := paramNat x.params 2 old.bitOffset,
                 unusedIdle := match paramNat? x.params 3 with | some n => n == 0 | none => old.unusedIdle,
                 idleCode := BitVec.ofNat 8 (paramNat x.params 4 old.idleCode.toNat) })

/-- Whether a slot number lies beyond the slots of a highway: a WIDE highway has 64 (R296, Table 2.1). -/
def Highway.beyond (h : Highway) (n : Nat) : Bool := h.mode == .wide && decide (64 ≤ n)

def tdmLoopbackBody : Body := fun x s =>
  let m := loopModeOf (paramNat x.params 0x40 0)
  match paramNat? x.params 0x41 with
  | none => .done stOk [] (s.setHighway x.id { s.highway x.id with loop := m })
  | some n =>
    let k := slotKey x.id n
    if (s.highway x.id).beyond n then refuseParam x stOutOfRange 0x41
    else .done stOk [] (s.setTdmSlot k { s.tdmSlot k with loop := m })

/-! ## TDM_QUERY (R313) -/

def groupTlvs (s : State) (v : TdmGroup) : List Tlv :=
  [rep 1 1 (boolNat (!v.master)), rep 2 1 (boolNat v.clkX2), rep 3 1 (boolNat v.fsLow), rep 4 4 v.fsOffset,
   rep 5 1 (boolNat v.txFalling), rep 6 1 (boolNat v.rxFalling), rep 7 1 (boolNat (!v.free)), rep 8 8 v.alignOffset,
   rep 0x400 1 (if v.master then 1 else v.framing.ctorIdx),
   repInt 0x401 8 (if v.master then s.time.corr + v.m else v.m)] ++
  (if v.master then [repInt 0x402 8 (v.phaseError / 100)] else []) ++ counterTlvs 0x800 7 v.counts

def slotTlvs (t : TdmSlot) : List Tlv :=
  [rep 0x400 1 t.loop.ctorIdx, rep 0x401 4 (match t.bound with | some o => o.1 | none => noneValue),
   rep 0x402 1 (match t.bound with | some o => o.2 | none => 0)] ++ counterTlvs 0x800 3 t.counts

def highwayTlvs (h : Highway) : List Tlv :=
  [rep 1 1 h.mode.ctorIdx, rep 2 4 h.bitOffset, rep 3 1 (boolNat (!h.unusedIdle)), rep 4 4 h.idleCode.toNat]

/-- The slots a query of a highway reports: those bound or with counts. -/
def State.reportSlots (s : State) (h : Nat) : List Nat :=
  ((s.tdm.slots.filter (fun e => e.1 / 128 == h && (e.2.bound.isSome || e.2.counts != []))).map (·.1))

def clearSlots (s : State) (l : List Nat) : State :=
  l.foldl (fun s k => s.setTdmSlot k { s.tdmSlot k with counts := [] }) s

def tdmQueryBody : Body := fun x s =>
  match paramNat? x.params 0x40, paramNat? x.params 0x41 with
  | none, none => refuseMissing x 0x40
  | some _, some _ => .refuse stBadTlv (errorTlvs 0x41 (paramStart x.params 0x41))
  | some g, none =>
    if paramHas x.params 0x42 then .refuse stBadTlv (errorTlvs 0x42 (paramStart x.params 0x42))
    else .done stOk (groupTlvs s (s.group g)) (if x.clear then s.setGroup g { s.group g with counts := [] } else s)
  | none, some h =>
    let head := highwayTlvs (s.highway h)
    match paramNat? x.params 0x42 with
    | some n =>
      let k := slotKey h n
      if (s.highway h).beyond n then refuseParam x stOutOfRange 0x42
      else .done stOk (head ++ slotTlvs (s.tdmSlot k)) (if x.clear then clearSlots s [k] else s)
    | none =>
      let ks := s.reportSlots h
      .done stOk (head ++ rep 0x400 1 (s.highway h).loop.ctorIdx ::
        (ks.map (fun k => instanceTlv 5 (k % 128) :: slotTlvs (s.tdmSlot k))).flatten)
        (if x.clear then clearSlots s ks else s)

/-! ## Codes of a leg (R298, R299) -/

/-- The COMPAND image of a leg's law. -/
def State.lawImage (s : State) (l : Leg) : List Byte :=
  (s.tableImage (if l.law = 2 then l.compand else l.law)).getD []

/-- The octets of one linear value under a leg's law. -/
def State.encodeSample (s : State) (l : Leg) (v : Int) : List Byte :=
  if l.law = 3 then beInt 2 v else [BitVec.ofNat 8 (compandEncode (s.lawImage l) v)]

/-- The idle code of a leg: its law's encoding of linear 0 (R299). -/
def State.idleCode (s : State) (l : Leg) : List Byte :=
  if l.law = 0 then [0xD5] else if l.law = 1 then [0xFF] else s.encodeSample l 0

/-- The linear values that received octets spell under a leg's law. -/
def State.expandOctets (s : State) (l : Leg) (o : List Byte) : List Int :=
  if l.law = 3 then [signedOf 16 (beNat o)] else o.map (fun b => compandExpand (s.lawImage l) b.toNat)

/-! ## One slot in one frame (R36, R37, R234, R304, R307, R309, R311) -/

/-- The loopback in force on a slot (R311). -/
def loopOf (h : Highway) (t : TdmSlot) : LoopMode := if h.loop = .none then t.loop else h.loop

/-- The slot map as a frame begins (R309). -/
def mapStep (t : TdmSlot) : TdmSlot :=
  match t.change with
  | .keep => t
  | .bind c l => { t with mapped := some (c, l), change := .keep, near := [] }
  | .release => { t with mapped := none, change := .keep, near := [], sent := none }

/-- Whether a channel's run processes media: ACTIVE or DRAINING (Table 2.2). -/
def mediaRuns (st : ChState) : Bool := st == .active || st == .draining

/-- One zero put into the delayed reference for an idle code sent (R247). -/
def insertReference (c : Channel) (leg : Nat) : Channel :=
  let e := c.media.echo
  if e.leg = leg then { c with media := { c.media with echo := { e with delay := (0, false) :: e.delay } } } else c

/-- One sample taken out of the delayed reference for a near-end sample lost (R247). -/
def removeReference (c : Channel) (leg n : Nat) : Channel :=
  let e := c.media.echo
  if e.leg = leg then { c with media := { c.media with echo := { e with delay := e.delay.drop n } } } else c

/-- The `n` samples a slot sends in a frame, encoded, from its stream's outputs; none where they are not all there. -/
def txSamples (s : State) (leg : Nat) (l : Leg) : Nat → Channel → Option (List Byte × Channel)
  | 0, c => some ([], c)
  | n + 1, c =>
    let k := tdmOutKey leg
    match streamOutput (c.stream k) (s.drift c k) (dissolveLen c k) (settlePass c k) with
    | some (y, st) => (txSamples s leg l n (c.setStream k st)).map (fun r => (s.encodeSample l y.1 ++ r.1, r.2))
    | none => none

/-- How many octets of idle code a mapped slot sends in a frame. -/
def State.idleOctets (s : State) (h : Highway) (l : Leg) : List Byte :=
  if h.mode = .wide ∧ l.law ≠ 3 then s.idleCode l ++ s.idleCode l else s.idleCode l

/-- A counter of a slot advanced. -/
def countSlot (t : TdmSlot) (c : SlotCount) (n : Nat) : TdmSlot := { t with counts := countAdd t.counts c.ctorIdx n }

/-- Whether the block's array takes near-end samples now: its domains run and nothing of it is under reset or isolated. -/
def State.arrayRuns (s : State) (b : Nat) : Bool :=
  s.blockMode b == .run && s.clockRuns (32 + b) && !(s.block b).isolated && !(s.block b).underReset && !(s.region (blockRegion b)).underReset

/-- The transmit half of a mapped slot in a frame that runs: without its samples, or while the array does not run, it sends idle code
for the frame, counts an underrun and puts a zero into the delayed reference (R36, R247). -/
def slotTx (s : State) (c leg : Nat) (h : Highway) (t : TdmSlot) : State × TdmSlot :=
  let v := s.channel c
  let l := v.runLeg leg
  let n := if h.mode = .wide then 2 else 1
  if ¬ mediaRuns v.runState ∨ v.media.thawing ∨ ¬ (v.stream (tdmOutKey leg)).present then (s, { t with sent := some (s.idleOctets h l) })
  else
    let r := if s.arrayRuns v.block then txSamples s leg l n v else none
    if loopOf h t = .remote then
      (match r with | some r => s.setChannel c r.2 | none => s,
       { countSlot t .loopbackDiscard (if r.isSome then n else 0) with sent := some t.remote })
    else
      match r with
      | some r => (s.setChannel c r.2, { t with sent := some r.1 })
      | none => (s.setChannel c (insertReference v leg), { countSlot t .underrun 1 with sent := some (s.idleOctets h l) })

/-- Near-end samples discarded and counted in HOLD and OPEN (Table 2.2). -/
def discardNear (v : Channel) (leg n : Nat) : Channel :=
  if v.runState = .hold ∨ v.runState = .opened then
    let m := v.legMedia leg
    v.setLegMedia leg { m with nearDiscard := m.nearDiscard + n }
  else v

/-- The receive half of a mapped slot: `o` holds the octets received at its positions. -/
def slotRx (s : State) (c leg : Nat) (h : Highway) (o : List Byte) (t : TdmSlot) : State × TdmSlot :=
  let v := s.channel c
  let l := v.runLeg leg
  let heard := if loopOf h t = .local_ then t.sent.getD [] else o
  let samples := s.expandOctets l heard
  let per := if h.mode = .wide then 2 else 1
  if ¬ mediaRuns v.runState ∨ v.media.thawing ∨ ¬ (v.stream (tdmInKey leg)).present then
    (s.setChannel c (discardNear v leg samples.length), { t with near := [], remote := o })
  else if s.arrayRuns v.block then
    (s.setChannel c (v.setStream (tdmInKey leg) (streamPush (v.stream (tdmInKey leg)) (t.near ++ samples))),
     { t with near := [], remote := o })
  else if 2 * per ≤ t.near.length then
    (s.setChannel c (removeReference v leg per),
     { countSlot t .overrun 1 with near := t.near.drop per ++ samples, remote := o })
  else (s, { t with near := t.near ++ samples, remote := o })

/-- The octets received at a slot's positions: a LINEAR16 leg hears its pair. -/
def heardAt (rx : Tab (List Byte)) (k : Nat) (l : Leg) : List Byte :=
  if l.law = 3 then tabGet rx k [] ++ tabGet rx (k + 1) [] else tabGet rx k []

/-- One slot in one frame. `frost` and `runs` say what the group does. -/
def slotFrame (rx : Tab (List Byte)) (frost runs : Bool) (s : State) (k : Nat) : State :=
  let h := s.highway (k / 128)
  let t := mapStep (s.tdmSlot k)
  match t.mapped with
  | none =>
    if h.mode = .disabled then s.setTdmSlot k { t with sent := none, near := [], remote := [] }
    else if loopOf h t = .remote ∧ runs then
      s.setTdmSlot k { t with sent := some t.remote, remote := tabGet rx k [] }
    else
      let code := if h.mode = .wide then [h.idleCode, h.idleCode] else [h.idleCode]
      s.setTdmSlot k { t with sent := if h.unusedIdle then some code else none, remote := tabGet rx k [] }
  | some (c, leg) =>
    let l := (s.channel c).runLeg leg
    if l.law = 3 ∧ k % 2 = 1 then s.setTdmSlot k t
    else if frost ∨ ¬ runs then s.setTdmSlot k { t with sent := some (s.idleOctets h l), near := [] }
    else
      let a := slotTx s c leg h t
      let b := slotRx a.1 c leg h (heardAt rx k l) a.2
      b.1.setTdmSlot k b.2

/-- The slots of a group that the unit has anything to do for. -/
def State.groupSlots (s : State) (g : Nat) : List Nat :=
  (s.tdm.slots.filter (fun e => highwayGroup (e.1 / 128) == g)).map (·.1)

/-! ## TRACK (R301) -/

/-- One frame's share of TRACK: a slew begins while the error exceeds 1 µs, takes 6.25 ns a frame, and ends there. -/
def trackStep (v : TdmGroup) : TdmGroup :=
  if v.free ∨ ¬ v.master then v
  else if 100000 < v.phaseError.natAbs then
    let late := decide (0 < v.phaseError)
    let w := if v.slewing then v else bumpGroup { v with slewing := true } .trackSlews
    { w with m := if late then 14073748836 else -14073748836,
             phaseError := if late then v.phaseError - 625 else v.phaseError + 625 }
  else { v with slewing := false, m := 0 }

/-! ## TDM_FRAME (R376) -/

/-- The FS stamps of the last 8,000 frames. -/
def keepStamps (n : Nat) (l : List (Nat × Int)) : List (Nat × Int) := l.takeWhile (fun e => decide (n < e.1 + 8000))

/-- FS as one frame of a slave group finds it, stamped with powered time in units of 2^-16 ns (R302, R303). -/
def fsStep (v : TdmGroup) (fsGood : Bool) (now : Int) : TdmGroup :=
  if v.master then v
  else
    match v.framing with
    | .search | .lost => { v with fsRun := if fsGood then v.fsRun + 1 else 0 }
    | .framed =>
      if fsGood then { v with fsMissed := 0, framesIn := v.framesIn + 1, stamps := keepStamps (v.framesIn + 1) ((v.framesIn + 1, now) :: v.stamps) }
      else { bumpGroup v .fsError with fsMissed := v.fsMissed + 1, framesIn := v.framesIn + 1 }

/-- Whether a thread wakes on the frames of a group (R376). -/
def wakesOn (g : Nat) (t : Thread) : Bool := t.state != .free && (if g = 0 then t.wakeTdm0 else t.wakeTdm1)

/-- TDM_PEND set on the threads that a group's frames wake; one that was WAITING is released at `now`, counted, and has its deadline set
(R376, R389). -/
def wakeByFrame (g now : Nat) (b : Block) : Block :=
  let waking := (b.threads.filter (fun e => wakesOn g e.2 && e.2.state == .waiting)).length
  { b with
    counts := countAdd b.counts BlockCount.releases.ctorIdx waking
    threads := b.threads.map (fun e =>
      if ¬ wakesOn g e.2 then e
      else if e.2.state = .waiting then
        (e.1, { e.2 with tdmPend := true, state := .ready, deadline := now + 1000 * e.2.budget, missed := false })
      else (e.1, { e.2 with tdmPend := true })) }

/-- One frame of a group: whether FS came where it was due, and the octets received by slot key. -/
def tdmFrameStep (g : Nat) (fsGood : Bool) (rx : Tab (List Byte)) (s : State) : State :=
  if ¬ s.clockRuns 89 then s
  else
  let v := fsStep (s.group g) fsGood (s.time.powered * 65536 + s.time.poweredFrac / 2 ^ 32 : Nat)
  let runs := groupRuns v
  let v1 := trackStep (if runs then bumpGroup v .frames else v)
  let v2 := if s.clocks.frost ∧ runs then bumpGroup v1 .frostFrames else v1
  let s1 := s.setGroup g v2
  let s2 := (s1.groupSlots g).foldl (slotFrame rx s.clocks.frost runs) s1
  { s2 with blocks := s2.blocks.map (fun e => (e.1, if s.arrayRuns e.1 ∧ s.clockRuns (16 + e.1) then wakeByFrame g s.clocks.mediaNs e.2 else e.2)) }

/-- What TDMh_TX drives in bit period `n` of a frame, counted from the one in which FS is active, by the slots of the frame just begun;
none where the output is disabled (R296, R297, R299). The second slot of a LINEAR16 pair sends the low byte (Table 11.1). -/
def State.txBit (s : State) (h n : Nat) : Option Bool :=
  let v := s.group (highwayGroup h)
  let w := s.highway h
  let pos := (n + 2048 - v.fsOffset - w.bitOffset) % 1024
  let bitOf := fun (o : List Byte) (i : Nat) => (o[i / 8]?).map (fun b => b.getLsbD (7 - i % 8))
  match w.mode with
  | .disabled => none
  | .wide => ((s.tdmSlot (slotKey h (pos / 16))).sent).bind (fun o => bitOf o (pos % 16))
  | .narrow =>
    let k := pos / 8
    let even := (s.tdmSlot (slotKey h (k - 1))).sent.getD []
    if k % 2 = 1 ∧ even.length = 2 then bitOf even (8 + pos % 8) else ((s.tdmSlot (slotKey h k)).sent).bind (fun o => bitOf o (pos % 8))

/-! ## The other events -/

/-- The (channel, leg) pairs whose applied leg is a TDM leg of group `g`. -/
def State.groupLegs (s : State) (g : Nat) : List (Nat × Nat) :=
  (s.channels.map (fun e => ([0, 1].filter (fun i =>
    let l := e.2.runLeg i
    l.kind == .tdm && l.bound && highwayGroup l.highway == g)).map (fun i => (e.1, i)))).flatten

/-- A alone after a stream of the cancelled leg starts afresh (R246, R247). -/
def alignmentOf (c : Channel) (leg : Nat) : Nat :=
  if (c.runLeg leg).kind ≠ .tdm then 0
  else
    let o := c.stream (tdmOutKey leg)
    let i := c.stream (tdmInKey leg)
    -- 1/64 samples at the channel rate
    let gOut := chainDelay o.chain * c.rate / o.chain.fin
    let gIn := chainDelay i.chain * c.rate / i.chain.fin
    let frames := 2 * (c.rate * 64 / 8)
    min 256 ((gOut + gIn + frames) / 64)

def realignEcho (c : Channel) : Channel :=
  { c with media := { c.media with echo := { c.media.echo with align := alignmentOf c c.media.echo.leg } } }

/-- The streams of a TDM leg restarted with a synchronising reset (R240), and the alignment with them (R247). -/
def resetTdmLeg (s : State) (p : Nat × Nat) : State :=
  s.modChannel p.1 (fun c =>
    let i := tdmInKey p.2
    let o := tdmOutKey p.2
    let c1 := if (c.stream i).present then
      c.setStream i (resetStream c i (c.stream i).chain.fin (c.stream i).chain.fout (c.stream i)) else c
    let c2 := if (c1.stream o).present then
      c1.setStream o (resetStream c1 o (c1.stream o).chain.fin (c1.stream o).chain.fout (c1.stream o)) else c1
    realignEcho c2)

/-- A slave group becomes FRAMED (R302, R304). -/
def tdmFramedStep (g : Nat) (s : State) : State :=
  let v := s.group g
  if v.master ∨ v.framing ≠ .search ∨ v.fsRun < 16 then s
  else
    let w := { v with framing := .framed, fsRun := 0, fsMissed := 0, framesIn := 0, stamps := [], ever := true }
    let w1 := if v.ever then bumpGroup w .reframes else w
    let s1 := (s.setGroup g w1).groupNotice g .framed .fs
    (s1.groupLegs g).foldl resetTdmLeg s1

/-- A slave group LOST, and at once in SEARCH (R302, R304). -/
def loseGroup (g : Nat) (r : GroupReason) (s : State) : State :=
  let v := s.group g
  (s.setGroup g { bumpGroup v .los with framing := .search, fsRun := 0, fsMissed := 0 }).groupNotice g .lost r

/-- TDM_GROUP_LOST: 3 FS errors, or no CLK edge for 1 µs; loss by m out of range comes with TDM_M_UPDATE. -/
def tdmGroupLostStep (g : Nat) (clk : Bool) (s : State) : State :=
  let v := s.group g
  if v.master ∨ v.framing ≠ .framed then s
  else if clk then loseGroup g .clk s
  else if 3 ≤ v.fsMissed then loseGroup g .fs s
  else s

/-- The least-squares fit of a group's frame period over its stamps, as an offset of the frame clock in units of 2^-48 (R303): the sum
of squares of the frame numbers about their mean is `den`, that of their products with the stamps `num`. R303 gives the quotient no
rounding: `up` says which whole unit next to one that is none is taken (log entry 109). -/
def frameOffset (up : Bool) (l : List (Nat × Int)) : Int :=
  let n : Int := l.length
  let si := (l.map (fun e => (e.1 : Int))).sum
  let st := (l.map (·.2)).sum
  let num := n * (l.map (fun e => (e.1 : Int) * e.2)).sum - si * st
  let den := n * (l.map (fun e => (e.1 : Int) * e.1)).sum - si * si
  let top := (125000 * 65536 * den - num) * 2 ^ 48
  if num ≤ 0 then 0 else if up ∧ top % num ≠ 0 then top / num + 1 else top / num

/-- TDM_M_UPDATE: the fit of a tick over the last 8,000 frames, once 80 have passed (R303). -/
def tdmMUpdateStep (g : Nat) (up : Bool) (s : State) : State :=
  let v := s.group g
  let fit := frameOffset up v.stamps
  if v.master ∨ v.framing ≠ .framed ∨ v.framesIn < 80 ∨ v.stamps.length < 2 then s
  else if 281474976711 < fit.natAbs then loseGroup g .range s
  else s.setGroup g { v with m := fit }

/-- Whether the counter has just reached an instant of a group's grid: within one cycle of it (R300). -/
def State.onGrid (s : State) (v : TdmGroup) : Bool := decide ((s.time.ns + 125000 - v.alignOffset) % 125000 < 4)

/-- TDM_MASTER_START: the first frame of a new master begins on the grid (R300). -/
def tdmMasterStartStep (g : Nat) (s : State) : State :=
  let v := s.group g
  if ¬ v.master ∨ v.started ∨ ¬ s.onGrid v then s
  else
    let s1 := s.setGroup g { v with started := true, phaseError := 0, m := 0, slewing := false }
    (s1.groupLegs g).foldl resetTdmLeg s1

/-! ## The meanings -/

def execTdmGroupConfig (p : Packet) (s : State) : Host.Outcome State Fault Refusal :=
  .next (fylosRun 0x0801 tdmGroupConfigBody p s)
def execTdmHighwayConfig (p : Packet) (s : State) : Host.Outcome State Fault Refusal :=
  .next (fylosRun 0x0802 tdmHighwayConfigBody p s)
def execTdmLoopback (p : Packet) (s : State) : Host.Outcome State Fault Refusal :=
  .next (fylosRun 0x0803 tdmLoopbackBody p s)
def execTdmQuery (p : Packet) (s : State) : Host.Outcome State Fault Refusal := .next (fylosRun 0x0804 tdmQueryBody p s)
def execTdmFrame (g : Nat) (fsGood : Bool) (rx : List (Nat × List Byte)) (s : State) :
    Host.Outcome State Fault Refusal := .next (tdmFrameStep g fsGood rx s)
def execTdmFramed (g : Nat) (s : State) : Host.Outcome State Fault Refusal := .next (tdmFramedStep g s)
def execTdmGroupLost (g : Nat) (clk : Bool) (s : State) : Host.Outcome State Fault Refusal :=
  .next (tdmGroupLostStep g clk s)
def execTdmMUpdate (g : Nat) (up : Bool) (s : State) : Host.Outcome State Fault Refusal := .next (tdmMUpdateStep g up s)
def execTdmMasterStart (g : Nat) (s : State) : Host.Outcome State Fault Refusal := .next (tdmMasterStartStep g s)

end Sys2Proof.Machine
end

