-- ==== Sys2Proof/Machine/ClockRef.lean ====
section
/-! DEFINITION. References, trips and the entry to Frost (R470 to R478, R483). -/

namespace Sys2Proof.Machine

/-- EVENT of a CLOCK notice (Table 16.10). -/
inductive ClockEvent
  | qualified | lost | switched | frostEntered | frostExited
  deriving DecidableEq, Repr

def State.clockNotice (s : State) (e : ClockEvent) (src : Nat) : State :=
  s.notify .clockPower 0x0F13 0 0 [beBytes 1 e.ctorIdx, beBytes 1 src]

def State.countClock (s : State) (c : ClockCount) (n : Nat) : State :=
  { s with clocks := { s.clocks with counts := countAdd s.clocks.counts c.ctorIdx n } }

/-- The highest-ranked qualified listed source (R472). -/
def Clocks.best (k : Clocks) : Option Nat := k.order.find? (fun c => k.qualified.contains c)

/-- The controller in another state. -/
def State.ctrl (s : State) (c : CtrlState) : State :=
  { s with clocks := { s.clocks with ctrl := c, since := s.time.powered } }

/-- A switch begun: the loop closes on another source with the control frozen (R477). -/
def State.beginSwitch (s : State) (src : Nat) : State :=
  { s with clocks := { s.clocks with selected := some src } }.ctrl .hold

/-- Entry to COAST with the root `level` of 64 steps below full speed; no source is selected (R478, R483). -/
def State.beginCoast (s : State) (level : Nat) : State :=
  let k := s.clocks
  ({ s with clocks := { k with selected := none, frost := true, level := level,
                               frostSince := if k.frost then k.frostSince else s.time.powered } }.ctrl .coast).countClock
    .frostEntries 1

/-- The steps below full speed at which the root is now: in COAST one more every 1.5625 µs, in RAMP one fewer (R478,
R482). -/
def State.rootLevel (s : State) : Nat :=
  let steps := (s.time.powered - s.clocks.since) * 10 / 15625 + 1
  match s.clocks.ctrl with
  | .start | .locked | .hold => 0
  | .coast => min 64 (s.clocks.level + steps)
  | .frost | .acquire => 64
  | .ramp => 64 - steps

/-- A loss of reference: the trip of the selected source (R477, R478, R483). -/
def State.lossOfReference (s : State) (src : Nat) : State :=
  let s0 := s.logError 0x30 4 9 0 0xFFFF 0 6 0
  match s.clocks.ctrl with
  | .locked | .hold =>
    let s1 := s0.clockNotice .lost src
    match s1.clocks.best with
    | some b => s1.beginSwitch b
    | none => (s1.beginCoast 0).clockNotice .frostEntered src
  | .acquire | .ramp => (s0.countClock .exitAborts 1).beginCoast s.rootLevel
  | .start | .coast | .frost => s

/-- A missing edge, or a loss of lock, on a source: its count and qualification are cleared at once, and a trip of the
selected source is a loss of reference (R471). -/
def State.tripSource (s : State) (src : Nat) : State :=
  let s1 := if s.clocks.qualified.contains src then { s with clocks := { s.clocks with counts := bump s.clocks.counts src } } else s
  let s2 := { s1 with clocks := { s1.clocks with qualified := s1.clocks.qualified.filter (· ≠ src) } }
  if s.clocks.selected = some src then s2.lossOfReference src else s2

end Sys2Proof.Machine
end

