-- ==== Sys2Proof/Machine/Time.lean ====
section
/-! DEFINITION. The time unit: the counter, steps and slews, the servo and the contact sheets (R106 to R139). -/

namespace Sys2Proof.Machine

/-! ## The counter (R106, R113) -/

/-- One nanosecond in units of 2^-48 ns. -/
def oneNs : Nat := 2 ^ 48

/-- The time counter in units of 2^-48 ns. -/
def State.counter48 (s : State) : Nat := (s.time.seconds * 1000000000 + s.time.ns) * oneNs + s.time.frac

/-- Powered time in units of 10 ps. -/
def State.now10 (s : State) : Nat := s.time.powered * 100 + s.time.poweredFrac * 100 / oneNs

/-- The time counter at a number of units of 2^-48 ns; the 64-bit seconds wrap (R106). -/
def counterAt (t : TimeUnit) (v : Int) : TimeUnit :=
  let n := (v % ((2 ^ 64 * 1000000000 * oneNs : Nat) : Int)).toNat
  { t with seconds := n / (1000000000 * oneNs), ns := n / oneNs % 1000000000, frac := n % oneNs }

/-- SLEW_RATE in units of 2^-48. -/
def slewUnits (ppm : Nat) : Int := (ppm * oneNs + 500000) / 1000000

/-- Whether a slew goes on: it pauses from COAST to the end of RAMP, whose increment has no slew term (R110, R485). -/
def State.slews (s : State) : Bool :=
  match s.clocks.ctrl with
  | .start | .locked | .hold => true
  | .coast | .frost | .acquire | .ramp => false

/-- The slew term of R108 while a slew has something left to remove. -/
def TimeUnit.slewTerm (t : TimeUnit) : Int :=
  match t.slew with | some (_ + 1) => -(slewUnits t.slewRate) | _ => 0

/-- How far the counter moves in `n` units of 2^-48 ns, with or without its slew. -/
def TimeUnit.advance (t : TimeUnit) (slews : Bool) (n : Nat) : Int :=
  n + n * (t.corr + (if slews then t.slewTerm else 0)) / (oneNs : Int)

/-- The counter, in units of 2^-48 ns, and its epoch as they stood `d` units of 10 ps of powered time ago, before a step in
between (R113). -/
def State.counterAgo (s : State) (d : Nat) : Int × BitVec 16 :=
  let back : Int := s.counter48 - s.time.advance s.slews (d * oneNs / 100)
  match s.time.lastStep with
  | some (t, a, e) => if s.now10 < t + d then (back - a, e) else (back, s.time.epoch)
  | none => (back, s.time.epoch)

/-- The fraction as registers show it: 32 bits (R108). -/
def TimeUnit.frac32 (t : TimeUnit) : Nat := t.frac / 2 ^ 16

/-- A stamp at a counter value in units of 2^-48 ns (R115). -/
def stampAt (v : Int) (epoch : Nat) : Stamp :=
  let t := counterAt {} v
  { seconds := t.seconds, ns := t.ns, frac := t.frac / 2 ^ 32, epoch := epoch }

/-- The bytes of a stamp (R455). -/
def stampBytes (t : Stamp) : List Byte := beBytes 8 t.seconds ++ beBytes 4 t.ns ++ beBytes 2 t.frac ++ beBytes 2 t.epoch

/-- A stamp in units of 2^-16 ns. -/
def stamp16 (t : Stamp) : Nat := (t.seconds * 1000000000 + t.ns) * 2 ^ 16 + t.frac

/-! ## Contact sheets (R121 to R126) -/

def State.sheet (s : State) (p : Nat) : Sheet := tabGet s.time.sheets p {}
def State.setSheet (s : State) (p : Nat) (v : Sheet) : State :=
  { s with time := { s.time with sheets := tabSet s.time.sheets p v {} } }

/-- Capacity of a contact sheet. -/
def sheetSize : Nat := 64

/-- A time counter of Table 4.10 advanced. -/
def State.bumpTime (s : State) (i : Nat) : State :=
  { s with time := { s.time with counts := bump s.time.counts i } }

/-- The watermark of port `p` set as the count rises from 47 to 48 (R125). -/
def State.watermark (s : State) (p : Nat) : State :=
  let h := s.sheet p
  if h.entries.length ≠ 48 then s
  else
    let s1 := s.setSheet p { h with wm := true }
    if s.time.hostOwner then
      let s2 := if h.wmIe then s1.signal (5 + p) else s1
      s2.notify .time 0x0F0E 5 p [beBytes 4 48, beBytes 4 h.pendingLost]
    else s1

/-- An entry of the contact sheet of port `p` lost (R122). -/
def State.loseStamp (s : State) (p id : Nat) : State :=
  let h := s.sheet p
  (s.setSheet p { h with pendingLost := satAdd 32 h.pendingLost 1, firstId := if h.pendingLost = 0 then id else h.firstId,
                         lastId := id, lostTotal := satAdd 32 h.lostTotal 1 }).bumpTime (TimeCount.csLost0.ctorIdx + p)

/-- An entry recorded on port `p`, or lost where 64 are held (R121, R122, R124). -/
def State.record (s : State) (p : Nat) (e : SheetEntry) : State :=
  let h := s.sheet p
  if sheetSize ≤ h.entries.length then s.loseStamp p e.frameId
  else (s.setSheet p { h with entries := h.entries ++ [e] }).watermark p

/-- A GAP entry in the slot that has just freed, while losses are pending (R123). -/
def State.gapIfLost (s : State) (p : Nat) : State :=
  let h := s.sheet p
  if h.pendingLost = 0 then s
  else
    let e : SheetEntry := { kind := .gap, epoch := s.time.epoch.toNat, frameId := h.firstId, lastId := h.lastId,
                            lost := h.pendingLost }
    (s.setSheet p { h with entries := h.entries ++ [e], pendingLost := 0, firstId := 0, lastId := 0 }).watermark p

/-- POP: the head entry removed; a POP of an empty queue has no effect (R126). -/
def State.popSheet (s : State) (p : Nat) : State :=
  let h := s.sheet p
  match h.entries with
  | [] => s
  | _ :: r => (s.setSheet p { h with entries := r }).gapIfLost p

/-- FLUSH: every entry removed; the pending loss count stays, and its GAP entry follows (R126). -/
def State.flushSheet (s : State) (p : Nat) : State :=
  (s.setSheet p { s.sheet p with entries := [] }).gapIfLost p

/-- A DISCARDED entry for a frame with TS_REQ that is never sent (R124). -/
def State.discardEntry (s : State) (p : Nat) (f : EgFrame) : State :=
  if f.tsReq then s.record p { kind := .discarded, epoch := s.time.epoch.toNat, frameId := f.frameId } else s

/-- Whether an access to a contact sheet acts: the host's through BAR0 while it owns PTP, Damium's through its own view of the
registers while Damium does (R126; log entry 95). -/
def State.sheetActs (s : State) (inner : Bool) : Bool := s.time.hostOwner != inner

def csPopStep (p : Nat) (inner : Bool) (s : State) : State := if s.sheetActs inner then s.popSheet p else s
def csFlushStep (p : Nat) (inner : Bool) (s : State) : State := if s.sheetActs inner then s.flushSheet p else s
/-- A read of CS_LOST_TOTAL clears it (R122); the bytes of the host's read go out on its bus, zeros while Damium owns PTP. -/
def csLostTotalReadStep (p : Nat) (inner : Bool) (s : State) : State :=
  let h := s.sheet p
  let s1 := if s.sheetActs inner then s.setSheet p { h with lostTotal := 0 } else s
  if inner then s1
  else { s1 with board := { s1.board with readData := leBytes 4 (if s.time.hostOwner then h.lostTotal else 0) } }

/-! ## Snapshots (R112) -/

/-- The values a snapshot takes. -/
def State.snapshotNow (s : State) : Snapshot :=
  { seconds := s.time.seconds, ns := s.time.ns, frac := s.time.frac32, epoch := s.time.epoch, powered := s.time.powered }

def tsSnapStep (s : State) : State := { s with time := { s.time with snapshot := s.snapshotNow, snapValid := true } }

/-! ## Steps (R120, R133, R135) -/

/-- TIME_STATE leaves LOCKED for SET. -/
def unlocked (t : TimeUnit) : TimeUnit :=
  if t.state = .locked then { t with state := .set, lockRun := 0 } else t

/-- TIME_STATE leaves UNSET for SET; the lock count starts afresh (R131). -/
def becomeSet (t : TimeUnit) : TimeUnit :=
  if t.state = .unset then { t with state := .set, lockRun := 0 } else t

/-- STEPPED or SUSPECT set: vector 10 is signalled where the host owns PTP (R564). -/
def State.timeIrq (s : State) : State := if s.time.hostOwner then s.signal 10 else s

/-- A port as a step leaves the counter at instant `at_`, in units of 10 ps: the running cycle of a port with SHUTTERS ON
ends, its gate is held open to the next boundary of the new time, and a pending schedule waits for its own first boundary
after the step (R82). -/
def stepPort (at_ : Int) (p : Port) : Port :=
  let q := { p with pendingSchedule := p.pendingSchedule.map (fun k => { k with notBefore := at_ }) }
  if p.shutters ∧ p.schedule.isSome then
    let started := p.committed.any (fun f => f.frame.media)
    { q with stepHold := true, holdFrom := at_, gateOpen := true, entry := 0, guard := false,
             headWaits := if p.gateOpen then p.headWaits else p.media != [] && !started,
             counts := bump p.counts PortCount.shutterRestart.ctorIdx }
  else q

/-- The grid of a running master group after the counter has moved by `a` units of 2^-48 ns: its frames are late by as
much (R130, R301). -/
def shiftGroup (a : Int) (g : TdmGroup) : TdmGroup :=
  if g.master ∧ g.started then { g with phaseError := wrapPhase (g.phaseError + a * 100 / (oneNs : Int)) } else g

/-- Every group after the counter has moved. -/
def State.shiftGroups (s : State) (a : Int) : State :=
  [0, 1].foldl (fun s g => s.setGroup g (shiftGroup a (s.group g))) s

/-- Whether TCLK_OUT is aligned: its period is a whole number of nanoseconds (R490). -/
def tclkAligned (f : Nat) : Bool := f != 0 && 1000000000 % f == 0

/-- A phase error brought to the nearer aligned edge. -/
def nearPhase (period e : Int) : Int :=
  let r := e % period
  if period < 2 * r then r - period else r

/-- TCLK_OUT after a step of `a` units of 2^-48 ns: it keeps its phase, and slews it toward the nearer aligned edge (R490). -/
def State.shiftTclk (s : State) (a : Int) : State :=
  if s.clocks.tclkStarted ∧ tclkAligned s.clocks.tclkFreq then
    let period : Int := (1000000000 / s.clocks.tclkFreq * oneNs : Nat)
    { s with clocks := { s.clocks with tclkError := nearPhase period (s.clocks.tclkError + a), tclkAligns := true } }
  else s

/-- TCLK_OUT after a slew has moved the counter by `a` units of 2^-48 ns: slews act on the counter alone (R130), and only a
step has the output realigned (R490). -/
def State.driftTclk (s : State) (a : Int) : State :=
  if s.clocks.tclkStarted then { s with clocks := { s.clocks with tclkError := s.clocks.tclkError + a } } else s

/-- SOURCE of a TIME_STEP notice (Table 16.10). -/
def stepSource : StepKind → Nat
  | .sample _ => 0 | .set _ _ _ => 1 | .command _ => 2 | .relayed _ _ => 0

/-- The amount of a step as the counter stands, in units of 2^-48 ns (R135). -/
def State.stepAmount (s : State) (k : StepKind) : Int :=
  match k with
  | .sample a | .command a | .relayed a _ => a * 2 ^ 16
  | .set sec ns frac => (((sec * 1000000000 + ns) * oneNs + frac * 2 ^ 16 : Nat) : Int) - s.counter48

/-- The epoch after a step. -/
def stepEpoch (e : BitVec 16) : StepKind → BitVec 16
  | .relayed _ f => f
  | _ => e + 1

/-- A step of the root of a stack sent to every member, with its amount and new epoch (R538). -/
def State.relayStep (s : State) (amount : Int) (epoch : Nat) : State :=
  if s.stacked ∧ ¬ s.isFollower then
    (s.sendAll 1 (Config.messageKind 0) [beInt 8 amount, beBytes 2 epoch]).bumpStack .timeStepsRelayed
  else s

/-- A step applied in one time-domain cycle (R133). -/
def State.applyStep (s : State) (k : StepKind) : State :=
  let a := s.stepAmount k
  let t := counterAt s.time (s.counter48 + a)
  let t1 := unlocked { t with epoch := stepEpoch t.epoch k, lastAccepted := 0, stepped := true,
                              lastStep := some (s.now10, a, t.epoch) }
  let t2 := match k with | .sample _ | .set _ _ _ => becomeSet t1 | .command _ | .relayed _ _ => t1
  let s1 := { s with time := t2 }
  let s2 := s1.bumpTime (if a < 0 then TimeCount.stepsBackward.ctorIdx else TimeCount.stepsForward.ctorIdx)
  let s3 := { s2 with ports := s2.ports.map (fun (e : Nat × Port) => (e.1, stepPort (((s1.counter48 * 100 / oneNs : Nat) : Int)) e.2)) }
  (((s3.shiftGroups a).shiftTclk a).timeIrq.notify .time 0x0F0B 0 0
    [beInt 8 (a / 2 ^ 16), beBytes 2 t2.epoch.toNat, beBytes 1 (stepSource k)]).relayStep (a / 2 ^ 16) t2.epoch.toNat

/-- Whether any port holds a commitment of a one-step or forwarded frame (R120). -/
def timeFixed (f : EgFrame) : Bool :=
  f.oneStep || (match f.content with | .ptpForward _ _ _ => true | _ => false)

def State.holdsCommitment (s : State) : Bool :=
  s.ports.any (fun e => e.2.committed.any (fun k => timeFixed k.frame))

/-- A step that has fallen due: applied at once, or pending behind the commitments (R120). -/
def State.stepDue (s : State) (k : StepKind) : State :=
  if s.holdsCommitment ∨ s.time.steps ≠ [] then { s with time := { s.time with steps := s.time.steps ++ [k] } }
  else s.applyStep k

/-- STEP_APPLY: the oldest pending step, once no commitment is left. -/
def stepApplyStep (s : State) : State :=
  match s.time.steps with
  | [] => s
  | k :: r => if s.holdsCommitment then s else { s with time := { s.time with steps := r } }.applyStep k

/-! ## Slews and quarantines (R134, R137) -/

/-- What of a slew has been removed has moved the counter under the frames of a master group and the edges of TCLK_OUT (R130). -/
def State.dropSlew (s : State) : State :=
  match s.time.slew with
  | none => s
  | some left =>
    let a : Int := -((s.time.slewOf : Int) - left)
    ({ s with time := { s.time with slew := none, slewOf := 0 } }.shiftGroups a).driftTclk a

/-- A quarantine ended: RESULT 0 WITHDRAWN, 1 ACCEPTED, 2 CANCELLED. -/
def State.endQuarantine (s : State) (result : Nat) : State :=
  match s.time.quarantine with
  | none => s
  | some q =>
    let s1 := { s with time := { s.time with quarantine := none } }
    let s2 := if result = 0 then s1.bumpTime TimeCount.quarantineWithdrawn.ctorIdx
      else if result = 1 then s1.bumpTime TimeCount.quarantineAccepted.ctorIdx else s1
    s2.notify4 .time 0x0F0D 0 0 [beBytes 1 result, beInt 8 q.latest]

/-! ## The servo (R129 to R132) -/

/-- FMAX: 1,000 ppm in units of 2^-48. -/
def clampFreq (v : Int) : Int := max (-freqMax) (min freqMax v)

/-- A value kept in 64 bits. -/
def wrap64 (v : Int) : Int := signedOf 64 (patternOf 64 v)

/-- ts_ns of R129: 10^9 × 2^SAMPLE_LOG2. -/
def sampleNs (k : Int) : Nat := if 0 ≤ k then 1000000000 * 2 ^ k.toNat else 1000000000 / 2 ^ (-k).toNat

/-- The PI computation (R129): integ and corr, and whether either was clamped. -/
def piStep (kp ki : Nat) (log2 integ x : Int) : Int × Int × Bool :=
  let e := (x * 2 ^ 16).tdiv (sampleNs log2)
  let p := wrap64 ((kp * e) / 2 ^ 16)
  let i := integ + wrap64 ((ki * e) / 2 ^ 16)
  let i1 := clampFreq i
  let c := -(p + i1)
  (i1, clampFreq c, decide (i1 ≠ i ∨ clampFreq c ≠ c))

/-- A sample passed to the PI. -/
def State.pi (s : State) (x : Int) : State :=
  let r := piStep s.time.kp s.time.ki s.time.sampleLog2 s.time.integ x
  let t := becomeSet { s.time with integ := r.1, corr := r.2.1, lastAccepted := x }
  let s1 := { s with time := t }.bumpTime TimeCount.samplesUsed.ctorIdx
  if r.2.2 then s1.bumpTime TimeCount.clamped.ctorIdx else s1

/-- A slew of `x` begun (R134). -/
def State.startSlew (s : State) (x : Int) : State :=
  let v := (x * 2 ^ 16).toNat
  { s with time := becomeSet (unlocked { s.time with slew := some v, slewOf := v }) }.bumpTime TimeCount.slews.ctorIdx

/-- Nanoseconds as a sample value. -/
def q32 (ns : Nat) : Int := (ns * 2 ^ 32 : Nat)

/-- The lock count as a sample in RUN is handled while the state is SET, one discarded in a slew too (R131). -/
def lockStep (t : TimeUnit) (x : Int) : TimeUnit :=
  if t.state ≠ .set then t
  else if x.natAbs ≤ (q32 t.suspectThreshold).natAbs then
    if t.lockCount ≤ t.lockRun + 1 then { t with state := .locked, lockRun := 0 } else { t with lockRun := t.lockRun + 1 }
  else { t with lockRun := 0 }

/-- classify (R132). -/
def State.classify (s : State) (x : Int) : State :=
  let thr := q32 s.time.stepThreshold
  let tenMs := q32 10000000
  if x < -thr then s.stepDue (.sample (-x))
  else if thr < x ∧ x ≤ tenMs then s.startSlew x
  else if tenMs < x then (if s.time.backwardStep then s.stepDue (.sample (-x)) else s.startSlew x)
  else s.pi x

/-- A quarantine begun (R137). -/
def State.beginQuarantine (s : State) (x : Int) : State :=
  let t := unlocked { s.time with quarantine := some { latest := x, since := s.time.powered }, suspect := true }
  (({ s with time := t }.bumpTime TimeCount.suspectSteps.ctorIdx).timeIrq).notify4 .time 0x0F0C 0 0
    [beInt 8 x, beInt 8 s.time.lastAccepted]

/-- A sample in RUN (R132). -/
def State.runSample (s : State) (x : Int) (masterChanged event : Bool) : State :=
  let far := decide (q32 s.time.suspectThreshold < (x - s.time.lastAccepted).natAbs)
  let s1 := { s with time := lockStep s.time x }
  match s.time.slew with
  | some _ => s1.bumpTime TimeCount.samplesDiscarded.ctorIdx
  | none =>
    match s.time.quarantine with
    | some q =>
      if far then { s1 with time := { s1.time with quarantine := some { q with latest := x } } }
      else (s1.endQuarantine 0).classify x
    | none =>
      if s.time.state = .locked ∧ 0 < s.time.quarantineLimit ∧ far ∧ ¬ masterChanged ∧ ¬ event then s.beginQuarantine x
      else s1.classify x

/-- A sample handled (R131, R132). -/
def State.sample (s : State) (x : Int) (masterChanged : Bool) : State :=
  let event := s.time.clockEvent
  let s1 := { s with time := { s.time with clockEvent := false, lastSample := some s.time.powered } }
  match s.time.mode with
  | .off | .hold => s1.bumpTime TimeCount.samplesDiscarded.ctorIdx
  | .run => s1.runSample x masterChanged event

/-- A sample of this device's own PTP owner: it ends the HOLD of a new root (R538). -/
def State.ownerSample (s : State) (x : Int) (masterChanged : Bool) : State :=
  if s.stack.holdUntil then
    { s with stack := { s.stack with holdUntil := false }, time := { s.time with mode := .run } }.sample x masterChanged
  else s.sample x masterChanged

/-- OFFSET_SAMPLE: Damium's PTP engine writes a sample while it owns PTP (R128); a member other than the root takes its
samples from the stack (R537). -/
def offsetSampleStep (x : Int) (masterChanged : Bool) (s : State) : State :=
  if s.time.hostOwner ∨ s.isFollower then s else s.ownerSample x masterChanged

/-- QUARANTINE_END: QUARANTINE seconds of powered time have passed (R137). -/
def quarantineEndStep (s : State) : State :=
  match s.time.quarantine with
  | none => s
  | some q => if s.time.powered < q.since + s.time.quarantineLimit then s else (s.endQuarantine 1).classify q.latest

/-- SLEW_END: the whole offset has been removed (R134). -/
def slewEndStep (s : State) : State :=
  if s.time.slew = some 0 then
    let s1 := s.dropSlew
    { s1 with time := { s1.time with lastAccepted := 0 } }
  else s

/-- How many cycles of the time domain PPS_IN must stay high: 100 ns (Table 24.8, R594). -/
def State.ppsFilter (s : State) : Nat := if s.clocks.frost then 25 else 50

/-- PPS_EDGE: an edge that has passed its 100 ns filter, stamped with the filter's delay removed (R117; log entry 81). -/
def ppsEdgeStep (high : Nat) (s : State) : State :=
  if high < s.ppsFilter then s else
  let r := s.counterAgo 10000
  let t := counterAt {} r.1
  let s1 := { s with time := { s.time with
    pps := { seconds := t.seconds, ns := t.ns, epoch := r.2, count := s.time.pps.count + 1 } } }
  if s.time.hostOwner then s1.signal 9 else s1

/-! ## The commands (R128, R131, R135, R138) -/

/-- SERVO_MODE changed: a quarantine ends CANCELLED, LOCKED is left, and in OFF corr is MANUAL_FREQ. -/
def State.servoMode (s : State) (m : ServoMode) : State :=
  if s.time.mode = m then s
  else
    let s1 := s.endQuarantine 2
    { s1 with time := unlocked { s1.time with mode := m } }

/-- corr follows MANUAL_FREQ in OFF (R131). -/
def followManual (t : TimeUnit) : TimeUnit := if t.mode = .off then { t with corr := t.manualFreq } else t

/-- A member of a stack other than the root refuses what would take its time from the root (R537). -/
def rootOnly (b : Body) : Body := fun x s => if s.isFollower then .refuse stWrongState [] else b x s

def timeConfigBody : Body := rootOnly fun x s =>
  match paramNat? x.params 1 with
  | none => .done stOk [] s
  | some n =>
    if s.time.hostOwner = (n == 1) then .done stOk [] s
    else
      let s1 := [0, 1, 2, 3].foldl (fun s p => s.flushSheet p) s
      .done stOk [] ({ s1 with time := { s1.time with hostOwner := n == 1 } }.servoMode .hold)

/-- A commanded step: it ends any slew or quarantine (R135). -/
def State.commandStep (s : State) (k : StepKind) : State := (s.dropSlew.endQuarantine 2).stepDue k

def timeSetBody : Body := rootOnly fun x s =>
  .done stOk [] (s.commandStep (.set (paramNat x.params 0x40 0) (paramNat x.params 0x41 0) (paramNat x.params 0x42 0)))

def timeStepBody : Body := rootOnly fun x s =>
  let a := (paramInt? x.params 0x40).getD 0
  if a = 0 then .done stNoChange [] s else .done stOk [] (s.commandStep (.command a))

/-- SERVO_STATE (Table 4.2). -/
def servoState (t : TimeUnit) : Nat :=
  if t.quarantine.isSome then 3 else match t.mode with | .off => 0 | .run => 1 | .hold => 2

/-- What TIME_QUERY reports (R138); the age of a sample where there has been none is a free value. -/
def State.timeTlvs (s : State) : List Tlv :=
  let t := s.time
  let n := s.snapshotNow
  let slew := match t.slew with | some v => v / 2 ^ 16 | none => 0
  let left := match t.quarantine with | some q => q.since + t.quarantineLimit - t.powered | none => 0
  let age := match t.lastSample with | some p => t.powered - p | none => s.freeValue % 2 ^ 64
  [rep 0x400 8 n.seconds, rep 0x401 4 n.ns, rep 0x402 4 n.frac, rep 0x403 2 n.epoch.toNat, rep 0x404 8 n.powered,
   repInt 0x405 8 t.corr, repInt 0x406 8 t.integ, rep 0x407 1 t.state.ctorIdx, rep 0x408 1 (servoState t),
   rep 0x409 8 slew, rep 0x40A 8 left, rep 0x40B 8 age] ++ counterTlvs 0x800 13 t.counts

def timeQueryBody : Body := fun x s =>
  let s1 := if s.time.lastSample.isNone then s.drawn else s
  .done stOk s.timeTlvs (if x.clear then { s1 with time := { s1.time with counts := [] } } else s1)

def servoConfigBody : Body := fun x s =>
  let p := x.params
  let t := s.time
  if s.isFollower ∧ ((paramNat? p 1).isSome ∨ (paramNat? p 11).isSome) then .refuse stWrongState []
  else
  let t1 := { t with
    kp := paramNat p 2 t.kp, ki := paramNat p 3 t.ki, sampleLog2 := (paramInt? p 4).getD t.sampleLog2,
    manualFreq := (paramInt? p 5).getD t.manualFreq, lockCount := paramNat p 6 t.lockCount,
    stepThreshold := paramNat p 7 t.stepThreshold, slewRate := paramNat p 8 t.slewRate,
    backwardStep := paramFlag p 9 t.backwardStep, suspectThreshold := paramNat p 10 t.suspectThreshold,
    quarantineLimit := paramNat p 11 t.quarantineLimit }
  let s1 := { s with time := t1 }
  let s2 := match paramNat? p 1 with
    | some n =>
      { s1 with stack := { s1.stack with holdUntil := false } }.servoMode (if n = 0 then .off else if n = 1 then .run else .hold)
    | none => s1
  .done stOk [] { s2 with time := followManual s2.time }

def servoSampleBody : Body := rootOnly fun x s =>
  if ¬ s.time.hostOwner then .refuse stWrongState []
  else .done stOk [] (s.ownerSample ((paramInt? x.params 0x40).getD 0) (paramFlag x.params 0x41 false))

def portTsConfigBody : Body := fun x s =>
  let p := s.port x.id
  .done stOk [] (s.setPort x.id
    { p with boardTx := (paramInt? x.params 1).getD p.boardTx, boardRx := (paramInt? x.params 2).getD p.boardRx,
             asymmetry := (paramInt? x.params 3).getD p.asymmetry })

/-! ## The meanings -/

def execTimeConfig (p : Packet) (s : State) : Host.Outcome State Fault Refusal := .next (fylosRun 0x0901 timeConfigBody p s)
def execTimeSet (p : Packet) (s : State) : Host.Outcome State Fault Refusal := .next (fylosRun 0x0902 timeSetBody p s)
def execTimeStep (p : Packet) (s : State) : Host.Outcome State Fault Refusal := .next (fylosRun 0x0903 timeStepBody p s)
def execTimeQuery (p : Packet) (s : State) : Host.Outcome State Fault Refusal := .next (fylosRun 0x0904 timeQueryBody p s)
def execServoConfig (p : Packet) (s : State) : Host.Outcome State Fault Refusal :=
  .next (fylosRun 0x0905 servoConfigBody p s)
def execServoSample (p : Packet) (s : State) : Host.Outcome State Fault Refusal :=
  .next (fylosRun 0x0906 servoSampleBody p s)
def execPortTsConfig (p : Packet) (s : State) : Host.Outcome State Fault Refusal :=
  .next (fylosRun 0x0907 portTsConfigBody p s)
def execTsSnap (s : State) : Host.Outcome State Fault Refusal := .next (tsSnapStep s)
def execCsPop (a : SheetAccess) (s : State) : Host.Outcome State Fault Refusal :=
  .next (csPopStep a.port a.inner s)
def execCsFlush (a : SheetAccess) (s : State) : Host.Outcome State Fault Refusal :=
  .next (csFlushStep a.port a.inner s)
def execCsLostTotalRead (a : SheetAccess) (s : State) : Host.Outcome State Fault Refusal :=
  .next (csLostTotalReadStep a.port a.inner s)
def execOffsetSample (x : Int) (masterChanged : Bool) (s : State) : Host.Outcome State Fault Refusal :=
  .next (offsetSampleStep x masterChanged s)
def execQuarantineEnd (s : State) : Host.Outcome State Fault Refusal := .next (quarantineEndStep s)
def execSlewEnd (s : State) : Host.Outcome State Fault Refusal := .next (slewEndStep s)
def execStepApply (s : State) : Host.Outcome State Fault Refusal := .next (stepApplyStep s)
def execPpsEdge (high : Nat) (s : State) : Host.Outcome State Fault Refusal := .next (ppsEdgeStep high s)

end Sys2Proof.Machine
end

