-- ==== Sys2Proof/Machine/PortTime.lean ====
section
/-! DEFINITION. The timing of a port: bytes on the wire, the gate of its shutters, pause timers, cuts and the egress time
of a frame (R60, R72 to R93, R102, R103, R113, R118, R120, R607). -/

namespace Sys2Proof.Machine

/-! ## Units: 10 ps -/

/-- The time counter in units of 10 ps. -/
def State.count10 (s : State) : Int := ((s.counter48 * 100 / oneNs : Nat) : Int)

/-- The time of one byte (Table 3.1). -/
def PortMode.byteTime (m : PortMode) : Nat :=
  match m with | .g10 | .g10fec => 80 | .g25 | .g25rs | .disabled => 32

/-- One pause quantum of 512 bit times (Table 3.1). -/
def PortMode.quantum (m : PortMode) : Nat := 64 * m.byteTime

/-- Whether a mode uses FEC (Table 3.1). -/
def PortMode.fec (m : PortMode) : Bool := m == .g25rs || m == .g10fec

/-- Bytes of preamble and SFD, of mCRC and of inter-packet gap. -/
def preambleBytes : Nat := 8
def mcrcBytes : Nat := 4
def gapBytes : Nat := 12

/-- The commitment comes 24 MAC cycles before the SFD: 64 ns, and 128 ns in Frost (R607, Table 18.4). -/
def State.commitAhead (s : State) : Nat := if s.clocks.frost then 12800 else 6400

/-! ## The gate (R72, R73, R75, R76, R82) -/

def entryOpen (w : Word) : Bool := w.getLsbD 31
def entryInterval (w : Word) : Nat := w.toNat % 2 ^ 29

/-- A cycle as segments: open or closed, and where each ends; cut at the cycle's end, which the last entry's state
reaches (R73). -/
def cycleSegments (cycle : Nat) : Nat → List Word → List (Bool × Nat)
  | _, [] => []
  | at_, [w] => if cycle ≤ at_ then [] else [(entryOpen w, cycle)]
  | at_, w :: r =>
    if cycle ≤ at_ then []
    else (entryOpen w, min cycle (at_ + entryInterval w)) :: cycleSegments cycle (at_ + entryInterval w) r

def Schedule.segments (c : Schedule) : List (Bool × Nat) := cycleSegments c.cycle 0 c.list

/-- The cycle's length, and its base time, in units of 10 ps. -/
def Schedule.cycle10 (c : Schedule) : Nat := c.cycle * 200
def Schedule.base10 (c : Schedule) : Int := (((c.baseSeconds * 1000000000 + c.baseNs) * 100 : Nat) : Int)

/-- The cycle in progress at a counter instant, and the place in it (R73). -/
def Schedule.cycleOf (c : Schedule) (t : Int) : Int := (t - c.base10) / c.cycle10
def Schedule.placeOf (c : Schedule) (t : Int) : Nat := ((t - c.base10) % (c.cycle10 : Int)).toNat

/-- The last cycle boundary at or before an instant. -/
def Schedule.lastBoundary (c : Schedule) (t : Int) : Int := c.base10 + c.cycleOf t * c.cycle10

/-- The segment that holds a place of the cycle. -/
def segmentAt (l : List (Bool × Nat)) (place : Nat) : Option (Nat × Bool) :=
  (l.zipIdx.find? (fun (e : (Bool × Nat) × Nat) => decide (place < e.1.2 * 200))).map (fun e => (e.2, e.1.1))

/-- Whether the gate is open at a place of the cycle, and the entry in force there. -/
def Schedule.openAt (c : Schedule) (place : Nat) : Bool := match segmentAt c.segments place with | some e => e.2 | none => false
def Schedule.entryAt (c : Schedule) (place : Nat) : Nat := match segmentAt c.segments place with | some e => e.1 | none => 0

/-- Where in the cycle the gate first closes after a place at which it is open; none where it stays open to the end. -/
def Schedule.closesAfter (c : Schedule) (place : Nat) : Option Nat :=
  let l := c.segments
  ((l.zipIdx.filter (fun (e : (Bool × Nat) × Nat) => decide (place < e.1.2 * 200 ∧ e.1.1 = false))).head?).map
    (fun e => match e.2 with | 0 => 0 | i + 1 => ((l[i]?).getD (false, 0)).2 * 200)

/-- How long the gate stays open from a place at which it is open; none where it never closes. -/
def Schedule.openFor (c : Schedule) (place : Nat) : Option Nat :=
  match c.closesAfter place with
  | some e => some (e - place)
  | none =>
    if c.openAt 0 then (c.closesAfter 0).map (fun e => c.cycle10 - place + e) else some (c.cycle10 - place)

/-- How long the gate stays closed from a place at which it is closed; none where it never opens. -/
def Schedule.opensAfter (c : Schedule) (place : Nat) : Option Nat :=
  let starts := (0 :: c.segments.map (fun e => e.2 * 200)).filter (fun p => decide (p < c.cycle10) && c.openAt p)
  match starts.find? (fun p => decide (place < p)) with
  | some p => some (p - place)
  | none => starts.head?.map (fun p => c.cycle10 - place + p)

/-- The longest open interval of a schedule; none where the gate never closes. -/
def Schedule.longestOpen (c : Schedule) : Option Nat :=
  let starts := (0 :: c.segments.map (fun e => e.2 * 200)).filter (fun p => decide (p < c.cycle10) && c.openAt p)
  starts.foldl (fun a p => match a, c.openFor p with
    | some x, some y => some (max x y)
    | _, _ => none) (some 0)

/-- The schedule that paces a port, if any (R75). -/
def Port.operative (p : Port) : Option Schedule := if p.shutters then p.schedule else none

/-- How long the gate is open from counter instant `t`: closed there, open for so long, or for ever (R76, R82). -/
inductive Gate
  | closed | openFor (d : Nat) | always
  deriving DecidableEq, Repr

def Port.gateAt (p : Port) (t : Int) : Gate :=
  match p.operative with
  | none => .always
  | some c =>
    let place := c.placeOf t
    if p.stepHold ∧ c.lastBoundary t < p.holdFrom then
      let rest := c.cycle10 - place
      if c.openAt 0 then match c.openFor 0 with | some d => .openFor (rest + d) | none => .always
      else .openFor rest
    else if c.openAt place then match c.openFor place with | some d => .openFor d | none => .always
    else .closed

/-- How long after counter instant `t`, at which the gate is closed, it opens (R87). -/
def Port.opensIn (p : Port) (t : Int) : Option Nat :=
  match p.operative, p.gateAt t with
  | some c, .closed => c.opensAfter (c.placeOf t)
  | _, _ => none

/-- The settings of a port that act on frames which enter a partition now (R104). -/
def Port.rules (p : Port) : PortRules :=
  { maxFrame := p.maxFrame, shutters := p.shutters, flowCtrl := p.flowCtrl, bulkPfcMask := p.bulkPfcMask, mediaPcp := p.mediaPcp,
    mediaPfc := p.mediaPfc }

/-- A port with the settings that act on a frame of its partitions (R104). -/
def Port.asOf (p : Port) (f : EgFrame) : Port :=
  match f.rules with
  | some r => { p with maxFrame := r.maxFrame, shutters := r.shutters, flowCtrl := r.flowCtrl, bulkPfcMask := r.bulkPfcMask,
                       mediaPcp := r.mediaPcp, mediaPfc := r.mediaPfc }
  | none => p

/-! ## Frames on the wire -/

/-- The time from the first preamble byte to the last FCS byte of what is left of a frame. -/
def wireTime (m : PortMode) (f : EgFrame) (from_ : Nat) : Nat := (preambleBytes + (f.length - from_)) * m.byteTime

/-- The instant at which a transmission's last byte leaves. -/
def flightEnd (m : PortMode) (f : InFlight) : Nat :=
  f.sfdAt + (match f.cut with | some n => n + mcrcBytes | none => f.frame.length - f.from_) * m.byteTime

/-- When the line is free of every transmission begun or committed: 10 ps of powered time. -/
def Port.lineEnd (p : Port) : Nat :=
  match p.committed.getLast?, p.flight with
  | some f, _ => flightEnd p.mode f
  | none, some f => flightEnd p.mode f
  | none, none => p.lineFree

/-- A port counter advanced. -/
def bumpPortCount (p : Port) (c : PortCount) : Port := { p with counts := bump p.counts c.ctorIdx }

/-- The port as its transmission stands at instant `now`: a frame that has ended is counted, a cut fragment leaves its
remainder (R85, R105). -/
def Port.settle (p : Port) (now : Nat) : Port :=
  match p.flight with
  | none => p
  | some f =>
    let e := flightEnd p.mode f
    if now < e then p
    else
      let q := { p with flight := none, lineFree := e }
      match f.cut with
      | some n => bumpPortCount { q with remainder := some { frame := f.frame, from_ := f.from_ + n } } .preemptTx
      | none => bumpPortCount q (if f.frame.media then .txMedia else .txBulk)

/-- A cut of the bulk frame in flight requested at `now`: it falls at the first legal boundary, if there is one (R85). -/
def cutFlight (m : PortMode) (now : Nat) (f : InFlight) : InFlight :=
  if f.frame.media ∨ f.cut.isSome then f
  else
    let sent := (now - f.sfdAt + m.byteTime - 1) / m.byteTime
    let b := max 64 ((sent + 7) / 8 * 8)
    if b + 64 ≤ f.frame.length - f.from_ then { f with cut := some b } else f

/-- A cut asked of the last frame in line (R85): one behind which another is committed ends as it stands. -/
def Port.requestCut (p : Port) (now : Nat) : Port :=
  if ¬ p.preemptActive then p
  else
    match p.committed.getLast? with
    | some f => { p with committed := p.committed.dropLast ++ [cutFlight p.mode now f] }
    | none => { p with flight := p.flight.map (cutFlight p.mode now) }

/-- Cuts asked for and not made yet, given up: preemption has become inactive (R86). -/
def Port.withoutCuts (p : Port) : Port :=
  { p with flight := p.flight.map (fun f => { f with cut := none }),
           committed := p.committed.map (fun f => { f with cut := none }) }

/-! ## Pauses (R89 to R93) -/

def Port.bulkPaused (p : Port) : Bool :=
  if p.flowCtrl = 1 then p.pauseTimer != 0
  else if p.flowCtrl = 2 then p.pfcTimers.any (fun e => e.2 != 0 && p.bulkPfcMask.testBit e.1)
  else false

def Port.mediaPaused (p : Port) : Bool := p.flowCtrl == 2 && p.mediaPfc && tabGet p.pfcTimers p.mediaPcp 0 != 0

/-! ## What may start (R71, R76, R77, R87) -/

/-- Whether a media frame whose first preamble byte would leave at counter instant `t` meets conditions 2, 3 and 5. -/
def Port.mediaFits (p : Port) (f : EgFrame) (t : Int) : Bool :=
  !p.mediaPaused && (match p.gateAt t with
    | .closed => false
    | .always => true
    | .openFor d => decide (wireTime p.mode f 0 ≤ d))

/-- A media frame too long for every open interval (R77). -/
def Port.tooLong (p : Port) (f : EgFrame) : Bool :=
  match p.operative with
  | none => false
  | some c => match c.longestOpen with | none => false | some d => decide (d < wireTime p.mode f 0)

/-- The guard band in ns (R87). -/
def Port.guardNs (p : Port) : Nat :=
  let bytes := if p.preemptActive then 147 else p.maxFrame + 20
  (bytes * p.mode.byteTime + 199) / 200 * 2

/-- Whether an edge lies within `g` of now. -/
def within (d : Option Nat) (g : Nat) : Bool := match d with | some x => decide (x ≤ g) | none => false

/-- The hold of R87 as it will stand at counter instant `t` for a bulk frame that would start there, judged at `now` (R607): it
goes on until the media queue is empty or the gate closes, or begins G before an opening edge; a paused media queue is not
eligible (R93). -/
def Port.holdAt (p : Port) (now t : Int) (b : EgFrame) : Bool :=
  match p.media with
  | [] => false
  | f :: _ =>
    let q := p.asOf f
    let g := (p.asOf b).guardNs * 100
    let open_ := fun (x : Int) => decide (q.gateAt x ≠ .closed)
    !q.mediaPaused &&
      ((p.guard && !(open_ now && !open_ t)) || within (q.opensIn t) g ||
       (!open_ now && open_ t && !within (q.opensIn now) g))

/-- The hold of R87 ends with the media queue. -/
def Port.guardEnds (p : Port) : Port := if p.media = [] then { p with guard := false } else p

/-! ## Egress times (R113, R118, R120) -/

/-- The fixed parts of Table 4.3 in tenths of a nanosecond: transmit, receive. -/
def fixedCorrection (m : PortMode) : Nat × Nat :=
  match m with
  | .g25 => (146, 232) | .g25rs => (419, 1187) | .g10 => (293, 475) | .g10fec => (520, 964) | .disabled => (0, 0)

/-- A correction in units of 2^-48 ns: the fixed part, the variable part measured, and the board delay, both in 2^-16 ns. -/
def correction (fixed variable_ : Nat) (board : Int) : Int :=
  ((fixed * oneNs / 10 : Nat) : Int) + (variable_ + board) * 2 ^ 32

def Port.txCorrection (p : Port) (variable_ : Nat) : Int := correction (fixedCorrection p.mode).1 variable_ p.boardTx
def Port.rxCorrection (p : Port) (variable_ : Nat) : Int := correction (fixedCorrection p.mode).2 variable_ p.boardRx

/-! ## PTP messages (R100) -/

/-- Where the type field of a frame lies, past at most one VLAN tag. -/
def etherOffset (f : List Byte) : Nat := if fieldAt f 12 2 = 0x8100 then 16 else 12

/-- The UDP header of an unfragmented IP frame: its offset, and the offset of its checksum. -/
def udpOffset (f : List Byte) : Option Nat :=
  let o := etherOffset f
  if fieldAt f o 2 = 0x0800 then
    if fieldAt f (o + 11) 1 = 17 ∧ fieldAt f (o + 8) 2 % 2 ^ 14 = 0 then some (o + 2 + 4 * (fieldAt f (o + 2) 1 % 16)) else none
  else if fieldAt f o 2 = 0x86DD then
    if fieldAt f (o + 8) 1 = 17 then some (o + 42) else none
  else none

/-- Where the PTP message of a frame begins, in any of the three encapsulations. -/
def ptpOffset (f : List Byte) : Option Nat :=
  if fieldAt f (etherOffset f) 2 = 0x88F7 then some (etherOffset f + 2)
  else
    match udpOffset f with
    | some u => if fieldAt f (u + 2) 2 = 319 ∨ fieldAt f (u + 2) 2 = 320 then some (u + 8) else none
    | none => none

/-- messageType of the PTP message at an offset: 0 Sync, 1 Delay_Req, 2 and 3 Pdelay. -/
def ptpType (f : List Byte) (o : Nat) : Nat := fieldAt f o 1 % 16

/-- Bytes put over those at an offset. -/
def overlay (l : List Byte) (o : Nat) (b : List Byte) : List Byte := l.take o ++ b ++ l.drop (o + b.length)

/-- Ones' complement folding to 16 bits. -/
def fold16 (n : Nat) : Nat := let a := n % 65536 + n / 65536; let b := a % 65536 + a / 65536; b % 65536 + b / 65536

/-- The 16-bit words of a byte string, padded with a zero byte. -/
def words16 : List Byte → List Nat
  | a :: b :: r => (a.toNat * 256 + b.toNat) :: words16 r
  | [a] => [a.toNat * 256]
  | [] => []

/-- A checksum updated for words changed (R102, R118). -/
def updateChecksum (c : Nat) (old new : List Nat) : Nat :=
  let n := (old.zip new).foldl (fun a p => a + (65535 - p.1) + p.2) (65535 - c)
  let r := 65535 - fold16 n
  if r = 0 then 65535 else r

/-- A frame with bytes of its PTP message rewritten: the UDP checksum follows, and an IPv4 checksum of zero stays zero. -/
def rewritePtp (f : List Byte) (o : Nat) (b : List Byte) : List Byte :=
  let g := overlay f o b
  match udpOffset f with
  | none => g
  | some u =>
    let c := fieldAt f (u + 6) 2
    if c = 0 then g
    else
      -- whole words of the UDP datagram around the bytes written
      let st := u + (o - u) / 2 * 2
      let n := (o + b.length - st + 1) / 2 * 2
      overlay g (u + 6) (beBytes 2 (updateChecksum c (words16 (slice f st n)) (words16 (slice g st n))))

/-- A value in 2^-16 ns added to correctionField. -/
def addCorrection (f : List Byte) (o : Nat) (v : Int) : List Byte :=
  rewritePtp f (o + 8) (beInt 8 (signedOf 64 (fieldAt f (o + 8) 8) + v))

/-- A one-step Sync with its egress stamp written (R118). -/
def writeOrigin (f : List Byte) (o : Nat) (t : Stamp) : List Byte :=
  let g := rewritePtp f (o + 34) (beBytes 6 t.seconds ++ beBytes 4 t.ns)
  addCorrection g o t.frac

/-- A powered instant in units of 10 ps with a correction in units of 2^-48 ns, in units of 2^-16 ns (R102, R103). -/
def poweredStamp (at10 : Nat) (correction : Int) : Nat := ((at10 * 65536 / 100 : Nat) + correction / 2 ^ 32).toNat

/-- The residence time in 2^-16 ns (R102, R103): across a change of epoch it is powered time, scaled by corr. -/
def residence (corr : Int) (ingress egress : Stamp) (poweredIn poweredOut : Nat) : Int :=
  if ingress.epoch = egress.epoch then (stamp16 egress : Int) - stamp16 ingress
  else
    let d : Int := (poweredOut : Int) - poweredIn
    d + d * corr / (oneNs : Int)

/-- The content of a frame as the MAC sends it once its egress time is fixed, where it needs one (R120). -/
def fixedContent (corr : Int) (egress : Stamp) (poweredOut : Nat) (f : EgFrame) : Option FrameContent :=
  match f.content with
  | .ptp b => if f.oneStep then (ptpOffset b).map (fun o => .ptp (writeOrigin b o egress)) else none
  | .ptpForward b i pin => (ptpOffset b).map (fun o => .ptp (addCorrection b o (residence corr i egress pin poweredOut)))
  | _ => none

end Sys2Proof.Machine
end

