-- ==== Sys2Proof/Machine/Cycle.lean ====
section
/-! DEFINITION. One cycle of the 500 MHz time domain: the time counter, powered time, the media clock and what slews (R106, R108, R110,
R111, R134, R218, R375, R478, R482, R490). A step on an empty queue is one such cycle. -/

namespace Sys2Proof.Machine

/-- The level of the spread triangle at a phase: 380 steps of 42 cycles, 0 to 189 and back (R108). -/
def spreadLevel (phase : Nat) : Nat := let k := phase / 42; if k < 190 then k else 379 - k

/-- inc_rom: 2 ns / (1 - 0.005 k / 189) in units of 2^-48 ns, to the nearest (R108). -/
def incRom (k : Nat) : Nat := (2 * oneNs * 37800 + (37800 - k) / 2) / (37800 - k)

/-- The length of a cycle with the root `level` of 64 steps below full speed, in units of 2^-48 ns (R110, R478). -/
def rampIncrement (level : Nat) : Nat := 2 * oneNs * 128 / (128 - level)

/-- The length of this cycle, and the phase after it. -/
def State.increment (s : State) : Nat × Nat :=
  match s.clocks.ctrl with
  | .start => (0, s.time.phase)
  | .locked | .hold => (incRom (spreadLevel s.time.phase), if s.time.phase = 15959 then 0 else s.time.phase + 1)
  | .coast | .frost | .acquire | .ramp => (rampIncrement s.rootLevel, s.time.phase)

/-- A count in nanoseconds and its fraction moved on. -/
def moveOn (ns frac : Nat) (by_ : Int) : Nat × Nat :=
  let v := (((ns * oneNs + frac : Nat) : Int) + by_).toNat
  (v / oneNs, v % oneNs)

/-- What a slew removes in a cycle of length `n` (R134). -/
def TimeUnit.slewed (t : TimeUnit) (n : Nat) : Option Nat :=
  match t.slew with
  | none => none
  | some left => some (left - n * (slewUnits t.slewRate).toNat / oneNs)

/-- What TCLK_OUT makes up in a cycle of length `n` while it slews toward its aligned edges: 50 ppm, forward where its edges
are late (R490). -/
def Clocks.tclkMakesUp (k : Clocks) (n : Nat) : Int :=
  let d : Int := (n * 50 / 1000000 : Nat)
  if ¬ k.tclkAligns then 0 else if 0 < k.tclkError then d else -d

/-- Whether a phase error is still 1 ns or more. -/
def farPhase (e : Int) : Bool := decide (oneNs ≤ e.natAbs)

/-- The counter period on which TCLK_OUT starts, in nanoseconds: its own where it is aligned, else a second (R490). -/
def tclkGrid (f : Nat) : Nat := if tclkAligned f then 1000000000 / f else 1000000000

/-- How far past the last starting instant of TCLK_OUT a counter value lies, in units of 2^-48 ns. -/
def tclkPast (f : Nat) (t : TimeUnit) : Nat := (t.ns * oneNs + t.frac) % (tclkGrid f * oneNs)

/-- One period of TCLK_OUT in units of its phase. -/
def tclkTurn : Nat := 1000000000 * oneNs

/-- TCLK_OUT after a cycle of length `n` that leaves the time unit at `t`: its phase advances by FREQUENCY, which takes corr and
no slew of the counter (R489); one that waits starts as the counter passes its starting instant (R490). -/
def Clocks.tclkCycle (k : Clocks) (corr : Int) (n : Nat) (t : TimeUnit) : Clocks :=
  let f := k.tclkFreq
  if ¬ k.tclkOn then k
  else if k.tclkStarted then
    let up := k.tclkMakesUp n
    let p := (k.tclkPhase : Int) + (n + n * corr / (oneNs : Int) + up) * f
    let e := k.tclkError - up
    { k with tclkPhase := (p % (tclkTurn : Int)).toNat, tclkError := e, tclkAligns := k.tclkAligns && farPhase e }
  else
    let past := tclkPast f t
    if past < n then { k with tclkStarted := true, tclkPhase := past * f % tclkTurn } else k

/-- The level of TCLK_OUT: high for the first half of each period (R489). -/
def Clocks.tclkLevel (k : Clocks) : Bool := k.tclkOn && k.tclkStarted && decide (2 * k.tclkPhase < tclkTurn)

/-- The time unit after a cycle of length `n`; a slew that pauses removes nothing. -/
def TimeUnit.cycle (t : TimeUnit) (slews : Bool) (n phase : Nat) : TimeUnit :=
  let at_ : Int := ((t.seconds * 1000000000 + t.ns) * oneNs + t.frac : Nat)
  let p := moveOn t.powered t.poweredFrac n
  { counterAt t (at_ + t.advance slews n) with
    powered := p.1 % 2 ^ 64, poweredFrac := p.2, phase := phase, slew := if slews then t.slewed n else t.slew }

/-- The clocks after a cycle of length `n`; the media clock follows corr without slews, and counts from the device's media origin. -/
def Clocks.cycle (k : Clocks) (corr : Int) (n : Nat) (runs : Bool) : Clocks :=
  let m := moveOn k.mediaNs k.mediaFrac (n + n * corr / (oneNs : Int))
  if runs then { k with mediaNs := m.1, mediaFrac := m.2 } else k

/-- One cycle of the time domain; no core clock runs before a reference has been locked to (R473). -/
def State.cycle (s : State) : State :=
  let r := s.increment
  if r.1 = 0 then s
  else
    let t := s.time.cycle s.slews r.1 r.2
    { s with time := t, clocks := (s.clocks.cycle s.time.corr r.1 (decide (8 ≤ s.life.progress))).tclkCycle s.time.corr r.1 t }

end Sys2Proof.Machine
end

