-- ==== Sys2Proof/Machine/Deflate.lean ====
section
/-! DEFINITION. DEFLATE (RFC 1951): what the Enlarger makes of a stream, with every fault that R461 names, and what the Reducer may
write (R458, R460, R461). The format itself is the RFC's (PRESUMED, log entry 110). -/

namespace Sys2Proof.Machine

/-! ## Bits and codes -/

/-- The bits of a stream in the order they are read: each byte from its least significant bit. -/
abbrev Bits := List Bool

def streamBits (l : List Byte) : Bits := (l.map (fun b => (List.range 8).map b.toNat.testBit)).flatten

/-- A number of `n` bits, least significant first, and the bits after it; the bits left where the source ends before it does. -/
def takeBits : Nat → Bits → Except Bits (Nat × Bits)
  | 0, l => .ok (0, l)
  | _ + 1, [] => .error []
  | n + 1, b :: l =>
    match takeBits n l with
    | .error r => .error r
    | .ok (v, r) => .ok (b.toNat + 2 * v, r)

/-- A Huffman code: how many codes have 1 to 15 bits, and the symbols in the order of their codes. -/
structure Huffman where
  counts : List Nat
  symbols : List Nat
  deriving DecidableEq, Repr

/-- The code whose symbol `i` has the `i`th length; a length of 0 is no code. -/
def huffman (lengths : List Nat) : Huffman :=
  let lens := (List.range 15).map (· + 1)
  { counts := lens.map (fun k => lengths.count k),
    symbols := (lens.map (fun k => (List.range lengths.length).filter (fun i => lengths.getD i 0 == k))).flatten }

/-- The codes that a set leaves unused at its greatest length; negative where some length has too many. -/
def codesLeft (counts : List Nat) : Int :=
  counts.foldl (fun (left : Int) (k : Nat) => if left < 0 then left else 2 * left - (k : Int)) 1

/-- Whether a set of codes is valid: complete, or at most one code, of one bit. -/
def Huffman.valid (h : Huffman) : Bool :=
  codesLeft h.counts == 0 || h.symbols.isEmpty || (h.symbols.length == 1 && h.counts.headD 0 == 1)

/-- The next symbol; an unused code, or the end of the source, is a fault. -/
def nextSymbol (symbols : List Nat) : List Nat → Nat → Nat → Nat → Bits → Except Bits (Nat × Bits)
  | [], _, _, _, l => .error l
  | _ :: _, _, _, _, [] => .error []
  | k :: ks, code, first, index, b :: l =>
    let c := code + b.toNat
    if c < first + k then .ok (symbols.getD (index + (c - first)) 0, l)
    else nextSymbol symbols ks (2 * c) (2 * (first + k)) (index + k) l

def Huffman.next (h : Huffman) (l : Bits) : Except Bits (Nat × Bits) := nextSymbol h.symbols h.counts 0 0 0 l

/-- Least value and extra bits of the lengths of symbols 257 to 285. -/
def lengthRow : List (Nat × Nat) :=
  [(3, 0), (4, 0), (5, 0), (6, 0), (7, 0), (8, 0), (9, 0), (10, 0), (11, 1), (13, 1), (15, 1), (17, 1), (19, 2), (23, 2), (27, 2)] ++
  [(31, 2), (35, 3), (43, 3), (51, 3), (59, 3), (67, 4), (83, 4), (99, 4), (115, 4), (131, 5), (163, 5), (195, 5), (227, 5), (258, 0)]

/-- Least value and extra bits of the distances of symbols 0 to 29. -/
def distanceRow : List (Nat × Nat) :=
  [(1, 0), (2, 0), (3, 0), (4, 0), (5, 1), (7, 1), (9, 2), (13, 2), (17, 3), (25, 3), (33, 4), (49, 4), (65, 5), (97, 5), (129, 6)] ++
  [(193, 6), (257, 7), (385, 7), (513, 8), (769, 8), (1025, 9), (1537, 9), (2049, 10), (3073, 10), (4097, 11), (6145, 11)] ++
  [(8193, 12), (12289, 12), (16385, 13), (24577, 13)]

/-- A value from its row and its extra bits; a symbol with no row is unused. -/
def rowValue (rows : List (Nat × Nat)) (i : Nat) (l : Bits) : Except Bits (Nat × Bits) :=
  match rows[i]? with
  | none => .error l
  | some (base, extra) =>
    match takeBits extra l with
    | .error r => .error r
    | .ok (v, r) => .ok (base + v, r)

/-! ## Blocks -/

/-- How the reading of a block or of a stream stops: at its end, at a fault, or where an output byte has no room. -/
inductive InflateStop
  | ended | fault | limit
  deriving DecidableEq, Repr

/-- Where reading stands: the output, last byte first, the bytes it still may produce, and the bits left. -/
structure Inflated where
  stop : InflateStop
  out : List Byte
  room : Nat
  bits : Bits
  deriving DecidableEq, Repr

/-- `n` bytes copied from `d` bytes back, as far as there is room. -/
def copyMatch (d : Nat) : Nat → List Byte → Nat → List Byte × Nat
  | 0, out, room => (out, room)
  | _ + 1, out, 0 => (out, 0)
  | n + 1, out, room + 1 => copyMatch d n (out.getD (d - 1) 0 :: out) room

/-- The symbols of a block up to its end-of-block code. -/
def inflateSymbols (lit dist : Huffman) : Nat → List Byte → Nat → Bits → Inflated
  | 0, out, room, l => { stop := .fault, out := out, room := room, bits := l }
  | fuel + 1, out, room, l =>
    match lit.next l with
    | .error r => { stop := .fault, out := out, room := room, bits := r }
    | .ok (s, r) =>
      if s = 256 then { stop := .ended, out := out, room := room, bits := r }
      else if s < 256 then
        match room with
        | 0 => { stop := .limit, out := out, room := 0, bits := r }
        | k + 1 => inflateSymbols lit dist fuel (BitVec.ofNat 8 s :: out) k r
      else
        match rowValue lengthRow (s - 257) r with
        | .error r => { stop := .fault, out := out, room := room, bits := r }
        | .ok (n, r) =>
          match dist.next r with
          | .error r => { stop := .fault, out := out, room := room, bits := r }
          | .ok (t, r) =>
            match rowValue distanceRow t r with
            | .error r => { stop := .fault, out := out, room := room, bits := r }
            | .ok (d, r) =>
              if out.length < d then { stop := .fault, out := out, room := room, bits := r }
              else
                let (o, k) := copyMatch d n out room
                if room < n then { stop := .limit, out := o, room := k, bits := r }
                else inflateSymbols lit dist fuel o k r

/-- The bytes of a stored block. -/
def inflateStored : Nat → List Byte → Nat → Bits → Inflated
  | 0, out, room, l => { stop := .ended, out := out, room := room, bits := l }
  | n + 1, out, room, l =>
    match takeBits 8 l with
    | .error r => { stop := .fault, out := out, room := room, bits := r }
    | .ok (v, r) =>
      match room with
      | 0 => { stop := .limit, out := out, room := 0, bits := r }
      | k + 1 => inflateStored n (BitVec.ofNat 8 v :: out) k r

/-- The fixed codes. -/
def fixedLit : Huffman :=
  huffman (List.replicate 144 8 ++ List.replicate 112 9 ++ List.replicate 24 7 ++ List.replicate 8 8)
def fixedDist : Huffman := huffman (List.replicate 32 5)

/-- The order in which the lengths of the code length code stand. -/
def lengthOrder : List Nat := [16, 17, 18, 0, 8, 7, 9, 6, 10, 5, 11, 4, 12, 3, 13, 2, 14, 1, 15]

/-- `n` lengths of 3 bits. -/
def takeLengths : Nat → Bits → Except Bits (List Nat × Bits)
  | 0, l => .ok ([], l)
  | n + 1, l =>
    match takeBits 3 l with
    | .error r => .error r
    | .ok (v, r) =>
      match takeLengths n r with
      | .error r => .error r
      | .ok (vs, r) => .ok (v :: vs, r)

/-- The code lengths of a dynamic block, up to `want`; `got` is what has been read, last first. -/
def codeLengths (h : Huffman) (want : Nat) : Nat → List Nat → Bits → Except Bits (List Nat × Bits)
  | 0, got, l => if got.length = want then .ok (got.reverse, l) else .error l
  | fuel + 1, got, l =>
    if got.length = want then .ok (got.reverse, l)
    else if want < got.length then .error l
    else
      match h.next l with
      | .error r => .error r
      | .ok (s, r) =>
        if s < 16 then codeLengths h want fuel (s :: got) r
        else
          match takeBits (if s = 16 then 2 else if s = 17 then 3 else 7) r with
          | .error r => .error r
          | .ok (v, r) =>
            if s = 16 then
              match got with
              | [] => .error r
              | g :: _ => codeLengths h want fuel (List.replicate (3 + v) g ++ got) r
            else codeLengths h want fuel (List.replicate ((if s = 17 then 3 else 11) + v) 0 ++ got) r

/-- The two codes of a dynamic block. -/
def dynamicCodes (l : Bits) : Except Bits ((Huffman × Huffman) × Bits) :=
  match takeBits 14 l with
  | .error r => .error r
  | .ok (v, r) =>
    let hlit := v % 32 + 257
    let hdist := v / 32 % 32 + 1
    if 286 < hlit then .error r
    else
      match takeLengths (v / 1024 + 4) r with
      | .error r => .error r
      | .ok (cl, r) =>
        let h := huffman ((List.range 19).map (fun k => cl.getD (lengthOrder.findIdx (· == k)) 0))
        if ¬ h.valid then .error r
        else
          match codeLengths h (hlit + hdist) (hlit + hdist) [] r with
          | .error r => .error r
          | .ok (lens, r) =>
            let lit := huffman (lens.take hlit)
            let dist := huffman (lens.drop hlit)
            if lit.valid ∧ dist.valid then .ok ((lit, dist), r) else .error r

/-- One block after its first bit, with its type. -/
def inflateBlock (typ : Nat) (out : List Byte) (room : Nat) (l : Bits) : Inflated :=
  let fault (r : Bits) : Inflated := { stop := .fault, out := out, room := room, bits := r }
  if typ = 0 then
    match takeBits 32 (l.drop (l.length % 8)) with
    | .error r => fault r
    | .ok (v, r) => if v % 65536 + v / 65536 = 65535 then inflateStored (v % 65536) out room r else fault r
  else if typ = 1 then inflateSymbols fixedLit fixedDist (l.length + 1) out room l
  else if typ = 2 then
    match dynamicCodes l with
    | .error r => fault r
    | .ok ((lit, dist), r) => inflateSymbols lit dist (r.length + 1) out room r
  else fault l

/-- Every block of a stream up to the one with BFINAL set: where reading stops, and the type and output bytes of each whole block. -/
def inflateBlocks : Nat → List Byte → Nat → Bits → Inflated × List (Nat × Nat)
  | 0, out, room, l => ({ stop := .fault, out := out, room := room, bits := l }, [])
  | fuel + 1, out, room, l =>
    match takeBits 3 l with
    | .error r => ({ stop := .fault, out := out, room := room, bits := r }, [])
    | .ok (v, r) =>
      let b := inflateBlock (v / 2) out room r
      if b.stop ≠ .ended then (b, [])
      else
        let row := (v / 2, room - b.room)
        if v % 2 = 1 then (b, [row])
        else
          let (e, rows) := inflateBlocks fuel b.out b.room b.bits
          (e, row :: rows)

/-- What a stream gives, of at most `limit` bytes: how it stops, its output, the stream bytes read by then, and its blocks. Padding bits
that are not zero are a fault (R461). -/
structure Stream1951 where
  stop : InflateStop
  out : List Byte
  read : Nat
  blocks : List (Nat × Nat)
  deriving DecidableEq, Repr

def inflate (stream : List Byte) (limit : Nat) : Stream1951 :=
  let bits := streamBits stream
  let (e, rows) := inflateBlocks (bits.length + 1) [] limit bits
  let bad := e.stop == .ended && (e.bits.take (e.bits.length % 8)).any id
  { stop := if bad then .fault else e.stop, out := e.out.reverse, read := stream.length - e.bits.length / 8, blocks := rows }

/-! ## The Reducer's streams (R460) -/

/-- The most input bytes one block covers. -/
def blockMost : Nat := 65535

/-- An input written as stored blocks. -/
def storedBlocks : Nat → List Byte → List Byte
  | 0, _ => []
  | fuel + 1, l =>
    let part := l.take blockMost
    let rest := l.drop blockMost
    let block := leBytes 2 part.length ++ leBytes 2 (65535 - part.length) ++ part
    if rest.isEmpty then 1 :: block else 0 :: block ++ storedBlocks fuel rest

/-- Whether a stream is one that R460 allows for an input: stored and dynamic blocks of at most 65,535 bytes that give the input back,
within the bound. -/
def reducerMayWrite (stream input : List Byte) : Bool :=
  let e := inflate stream input.length
  e.stop == .ended && e.out == input && e.read == stream.length &&
  e.blocks.all (fun b => (b.1 == 0 || b.1 == 2) && decide (b.2 ≤ blockMost)) &&
  decide (stream.length ≤ input.length + 5 * max 1 ((input.length + blockMost - 1) / blockMost))

/-- The DEFLATE stream the Reducer writes for its input: which matches it takes and where its blocks end are not given (log entry 110). -/
def deflate (input : List Byte) : List Byte :=
  if input.isEmpty then [0x03, 0x00]
  else
    let c := Config.deflate input
    if reducerMayWrite c input then c else storedBlocks (input.length / blockMost + 1) input

end Sys2Proof.Machine
end

