-- ==== Sys2Proof/Machine/Engines.lean ====
section
/-! DEFINITION. The Reducer and the Enlarger: frames, output chains, the assignment of jobs and their start (R457 to
R469). What a job's end commits is in Machine/JobEnd.lean. -/

namespace Sys2Proof.Machine

/-! ## The Reducer frame (R458, R459) -/

/-- A header that keeps Table 17.1. -/
def frameHeaderOk (f : List Byte) : Bool :=
  decide (24 ≤ f.length) && u32 f 0 == 0x575A5244 && u8 f 4 == 1 && u8 f 5 == 1 && u16 f 6 == 0 &&
  u32 f 12 == crcFinal (f.take 12)

def frameOriginal (f : List Byte) : Nat := u32 f 8

/-- The DEFLATE stream of a frame, and its trailer fields. -/
def frameStream (f : List Byte) : List Byte := slice f 16 (f.length - 24)
def frameCheckValue (f : List Byte) : Nat := u32 f (f.length - 8)
def frameCompressed (f : List Byte) : Nat := u32 f (f.length - 4)

/-- How an Enlarger job ends (R461, R465). -/
inductive EnlargeEnd
  | confirmed | checkFailed | outOfSpace
  deriving DecidableEq, Repr

/-- What the Enlarger makes of a frame: the end of the job, its output and the source bytes it has read. -/
structure Enlarged where
  ended : EnlargeEnd
  out : List Byte
  read : Nat
  deriving DecidableEq, Repr

/-- The Enlarger over a frame into `room` bytes, where it has a limit: output past ORIGINAL_LENGTH is a fault before it is one byte too
many for the chain (R461, R465). -/
def enlarge (f : List Byte) (room : Option Nat) : Enlarged :=
  if ¬ frameHeaderOk f then { ended := .checkFailed, out := [], read := min 16 f.length }
  else
    let orig := frameOriginal f
    let e := inflate (frameStream f) (min orig (room.getD orig))
    match e.stop with
    | .limit => { ended := if (room.getD orig) < orig then .outOfSpace else .checkFailed, out := e.out, read := 16 + e.read }
    | .fault => { ended := .checkFailed, out := e.out, read := 16 + e.read }
    | .ended =>
      if e.out.length = orig ∧ e.read = frameCompressed f ∧ e.read = (frameStream f).length ∧
          crcFinal e.out = frameCheckValue f then { ended := .confirmed, out := e.out, read := f.length }
      else { ended := .checkFailed, out := e.out, read := f.length }

/-- The frame the Reducer builds from its input (R458, R460). -/
def reduce (input : List Byte) : List Byte :=
  let head := beBytes 4 0x575A5244 ++ [1, 1, 0, 0] ++ beBytes 4 input.length
  let stream := deflate input
  head ++ beBytes 4 (crcFinal head) ++ stream ++ beBytes 4 (crcFinal input) ++ beBytes 4 stream.length

/-! ## Output chains (R462 to R465) -/

/-- The buffers of a chain from descriptor address `a`; `fuel` counts the descriptors still allowed. -/
def chainBuffers (s : State) (base : Nat) : Nat → Nat → List (Nat × Nat)
  | 0, _ => []
  | fuel + 1, a =>
    if ¬ s.inWindow base a 16 then []
    else
      let d := memRead s.store.dram a 16
      let addr := fieldAt d 0 8
      let w2 := u32 d 8
      let w3 := u32 d 12
      let isEnd := w3 % 2 == 1
      let jump := w3 / 2 % 2 == 1
      let len := w2 % 2 ^ 25
      let rsvd := w2 / 2 ^ 25 != 0 || w3 / 4 % 4 != 0 || w3 / 256 != 0
      if isEnd && jump || rsvd then []
      else if jump then
        if len = 0 ∧ addr % 16 = 0 then chainBuffers s base fuel addr else []
      else if len = 0 ∨ 16777216 < len ∨ ¬ s.inWindow base addr len then []
      else if isEnd then [(addr, len)]
      else (addr, len) :: chainBuffers s base fuel (a + 16)

/-- The descriptors read at most (R463). -/
def chainLimit : Nat := 65536

def chainRoom (l : List (Nat × Nat)) : Nat := (l.map (·.2)).sum

/-- Output written through a chain, buffer by buffer (R464). -/
def chainWrite (m : List Host.Cell) : List (Nat × Nat) → List Byte → List Host.Cell
  | [], _ => m
  | (a, n) :: r, l => chainWrite (memWrite m a (l.take n)) r (l.drop n)

/-- STATE written in the first descriptor (R466). -/
def chainState (m : List Host.Cell) (a v : Nat) : List Host.Cell :=
  memSet m (a + 15) (BitVec.ofNat 8 ((memByte m (a + 15)).toNat % 16 + 16 * v))

/-! ## Jobs (R468) -/

def State.engine (s : State) (r : Nat) : Engine := tabGet s.store.engines r {}
def State.setEngine (s : State) (r : Nat) (e : Engine) : State :=
  { s with store := { s.store with engines := tabSet s.store.engines r e {} } }

/-- Whether a job is the Reducer's. -/
def isReducer (u : JobUse) : Bool :=
  match u with
  | .contextOut _ | .imageReduce | .traceDump => true
  | _ => false

def engineHalf (e : Engine) (red : Bool) : Half := if red then e.reducer else e.enlarger
def setHalf (e : Engine) (red : Bool) (h : Half) : Engine := if red then { e with reducer := h } else { e with enlarger := h }

/-- The source bytes of the jobs assigned to a half and not ended. -/
def halfBytes (h : Half) : Nat :=
  (h.running.toList ++ h.queue).foldl (fun n j => n + sourceLength j.source) 0

/-- The engine with the fewest bytes, the lowest region on a tie (R468). -/
def State.leastEngine (s : State) (red : Bool) : Nat :=
  let load := fun r => halfBytes (engineHalf (s.engine r) red)
  [1, 2, 3].foldl (fun b r => if load r < load b then r else b) 0

/-- The power domain of a region's engine (Table 19.1). -/
def engineDomain (r : Nat) : Nat := 52 + r

/-- A job queued on the engine of region `r`, whose domain wakes for it (R468). -/
def State.queueJobAt (s : State) (r : Nat) (j : Job) : State :=
  let red := isReducer j.use
  let e := s.engine r
  let h := engineHalf e red
  let s1 := s.setEngine r (setHalf e red { h with queue := h.queue ++ [{ j with order := s.store.nextOrder }] })
  let s2 := { s1 with store := { s1.store with nextOrder := s1.store.nextOrder + 1 } }
  match (s2.powerDomain (engineDomain r)).mode with
  | .run => s2
  | .sleep => (s2.wakeDomain (48 + r)).wakeDomain (engineDomain r)
  | .deepSleep => (s2.startWakeDomain (48 + r)).startWakeDomain (engineDomain r)

/-- A job that belongs to no channel, queued where R468 puts it. -/
def State.queueJob (s : State) (j : Job) : State := s.queueJobAt (s.leastEngine (isReducer j.use)) j

/-- The next job of a queue: migration, then prompt pieces, then others, each in order of acceptance (R468). -/
def nextJob (q : List Job) : Option Job :=
  match q.find? (fun j => j.cls == 0) with
  | some j => some j
  | none =>
    match q.find? (fun j => j.cls == 1) with
    | some j => some j
    | none => q.head?

/-- Whether a domain's logic runs. -/
def State.domainRuns (s : State) (p : Nat) : Bool := (s.powerDomain p).mode == .run

/-- JOB_START: an idle half of a running engine takes its next job, which marks its chain UNCONFIRMED (R466, R468). -/
def jobStartStep (r : Nat) (red : Bool) (s : State) : State :=
  let e := s.engine r
  let h := engineHalf e red
  if h.running.isSome ∨ ¬ s.domainRuns (engineDomain r) ∨ (s.region r).underReset then s
  else
    match nextJob h.queue with
    | none => s
    | some j =>
      let s1 := s.setEngine r (setHalf e red { running := some j, queue := h.queue.erase j })
      match j.chain with
      | none => s1
      | some a => { s1 with store := { s1.store with dram := chainState s1.store.dram a 1 } }

/-- A job taken off its half. -/
def State.dropRunning (s : State) (r : Nat) (red : Bool) : State :=
  let e := s.engine r
  s.setEngine r (setHalf e red { engineHalf e red with running := none })

def execJobStart (r : Nat) (reducer : Bool) (s : State) : Host.Outcome State Fault Refusal :=
  .next (jobStartStep r reducer s)

end Sys2Proof.Machine
end

