-- ==== Sys2Proof/Machine/Partitions.lean ====
section
/-! DEFINITION. The coefficient store of an echo canceller: its partitions, their block-floating format and how it is renormalised
(R249, R252, R253, R258, R264). -/

namespace Sys2Proof.Machine

def echoTail (t : Tab (List Byte)) : Nat := settingNat t .echo 0 3 (ms 260) / ms 1

/-- NP (R249). -/
def partitions (t : Tab (List Byte)) (wide : Bool) : Nat := echoTail t / (if wide then 5 else 10)

def countEcho (e : Echo) (c : EchoCount) (n : Nat) : Echo := { e with counts := countAdd e.counts c.ctorIdx n }

/-- Partition `i` of the filter. -/
def Echo.part (e : Echo) (i : Nat) : Partition := (e.parts[i]?).getD {}

/-- Every partition of the filter changed by `f`, which gets its number. -/
def mapParts (v : Channel) (f : Nat → Partition → Partition) (e : Echo) : Echo :=
  { e with parts := (List.range (partitions v.applied v.wide)).map (fun i => f i (e.part i)) }

/-- Whether every coefficient of a partition is 0. -/
def Partition.zero (p : Partition) : Bool := p.coefs.all (· == 0)

def magnitudes (l : List Int) : Nat := (l.map Int.natAbs).foldl max 0

/-- COEF_EXP raised until no mantissa exceeds 0x7000; at +8 they saturate, which is told (R253). -/
def raiseExp : Nat → Partition → Partition × Bool
  | 0, p => (p, false)
  | fuel + 1, p =>
    if magnitudes p.coefs ≤ 0x7000 then (p, false)
    else if 8 ≤ p.exp then ({ p with coefs := p.coefs.map sat16 }, true)
    else raiseExp fuel { p with exp := p.exp + 1, coefs := p.coefs.map (rne · 1) }

/-- COEF_EXP lowered while every mantissa lies below 0x2000 (R253). -/
def lowerExp : Nat → Partition → Partition
  | 0, p => p
  | fuel + 1, p =>
    if 0x2000 ≤ magnitudes p.coefs ∨ p.exp ≤ -32 then p
    else lowerExp fuel { p with exp := p.exp - 1, coefs := p.coefs.map (2 * ·) }

/-- A partition renormalised after an update, and whether it had to saturate (R253). -/
def renormalise (p : Partition) : Partition × Bool :=
  let r := raiseExp 41 p
  (lowerExp 41 r.1, r.2)

/-- Every partition updated by `f` and renormalised, each saturation counted. -/
def updateParts (v : Channel) (f : Nat → Partition → Partition) (e : Echo) : Echo :=
  let np := partitions v.applied v.wide
  let l := (List.range np).map (fun i => renormalise (f i (e.part i)))
  countEcho { e with parts := l.map (·.1) } .coefSat (l.filter (·.2)).length

/-- COEF_EXP lowered by 1: the coefficients halved, in their mantissas where the exponent is at its least (R258). -/
def halvePart (p : Partition) : Partition :=
  if p.exp ≤ -32 then { p with coefs := p.coefs.map (rne · 1) } else { p with exp := p.exp - 1 }

/-- Every coefficient scaled by the ratio of two gain factors (R264). -/
def scaleParts (v : Channel) (old new : Int) (e : Echo) : Echo :=
  if old = new then e else updateParts v (fun _ p => { p with coefs := p.coefs.map (fun m => m * new / old) }) e

/-- ENERGY of Table 9.2: the squared magnitudes at exponent 0, in units of 2^-30, saturating. -/
def partEnergy (p : Partition) : Nat :=
  let n := energy p.coefs
  min 0xFFFFFFFF (if 0 ≤ p.exp then n * 4 ^ p.exp.toNat else n / 4 ^ (-p.exp).toNat)

/-- The header of a partition (Table 9.2), little-endian. -/
def partHeader (p : Partition) : List Byte :=
  let byte := fun (x : Int) => (BitVec.ofInt 8 x).toNat
  leBytes 1 (byte p.exp) ++ leBytes 1 (byte p.refExp) ++ leBytes 2 p.peakTap ++ leBytes 4 (partEnergy p)

/-- 81 complex mantissas, re then im, little-endian (R252). -/
def binBytes (l : List Int) : List Byte :=
  ((List.range 162).map (fun j => leBytes 2 (BitVec.ofInt 16 ((l[j]?).getD 0)).toNat)).flatten

/-- A byte of the coefficient store of 26 partitions from number `first`: their headers, then their mantissas (R252). -/
def coefByte (e : Echo) (first o : Nat) : Byte :=
  if o < 208 then ((partHeader (e.part (first + o / 8)))[o % 8]?).getD 0
  else ((binBytes (e.part (first + (o - 208) / 324)).coefs)[(o - 208) % 324]?).getD 0

/-- A byte of the reference spectra of 26 ring slots from number `first` (R252). -/
def spectrumByte (e : Echo) (first o : Nat) : Byte :=
  ((binBytes ((e.spectra[first + o / 324]?).getD []))[o % 324]?).getD 0

/-- The context slot of channel `c` in DRAM (R54): 64 KiB from CTX_BASE, which is 0. -/
def contextSlot (c : Nat) : Nat := c * 0x10000

/-- Byte `o` of a channel's context slot (Table 2.7): the echo coefficients and spectra, with their wideband extension, stand as R252
says; the other parts are laid out by the firmware, which is free (log entry 2). -/
def contextByte (v : Channel) (o : Nat) : Byte :=
  let e := v.media.echo
  if 0x6E00 ≤ o ∧ o < 0x8FB8 then coefByte e 0 (o - 0x6E00)
  else if 0x8FB8 ≤ o ∧ o < 0xB0A0 then spectrumByte e 0 (o - 0x8FB8)
  else if 0xBAA0 ≤ o ∧ o < 0xDC58 then coefByte e 26 (o - 0xBAA0)
  else if 0xDC58 ≤ o ∧ o < 0xFD40 then spectrumByte e 26 (o - 0xDC58)
  else if 0xFD40 ≤ o then 0
  else ((Config.contextImage v)[o]?).getD 0

/-- Free spectrum of 81 bins of a block: those at the ends are real (R249). -/
def freeSpectrum (draw item bits : Nat) : List Int :=
  (List.range 162).map (fun j => if j = 1 ∨ j = 161 then 0 else signedOf bits (Config.freeAt draw (item + j)))

end Sys2Proof.Machine
end

