-- ==== Sys2Proof/Machine/MediaCmd.lean ====
section
/-! DEFINITION. The channel settings of echo, playout, codecs, resampling, tones, gains, prompts and hooks, and their
queries (R196, R197, R198 to R216, R243, R244, R265, R266, R277, R279, R292, R295, R348, R447, R448). -/

namespace Sys2Proof.Machine

/-! ## Defaults, as encoded values -/

def flagV (b : Bool) : List Byte := beBytes 1 (boolNat b)
def enumV (n : Nat) : List Byte := beBytes 1 n
def uintV (n : Nat) : List Byte := beBytes 4 n
def shortV (n : Nat) : List Byte := beBytes 2 n
def levelV (i : Int) : List Byte := beInt 2 i
def durV (n : Nat) : List Byte := beBytes 8 n

/-- Table 9.7, RESET apart. -/
def echoDefaults : List (Nat × List Byte) :=
  [(1, flagV true), (2, enumV 0), (3, durV (ms 260)), (4, flagV true), (5, shortV 512), (6, shortV 256), (7, shortV 512),
   (8, levelV (-60)), (9, levelV 80), (10, durV (ms 30)), (11, levelV (-450)), (12, enumV 1), (13, levelV 60),
   (14, durV (ms 50)), (15, enumV 2), (16, levelV (-400)), (17, enumV 1), (18, enumV 1)]

/-- Table 6.2, RESTART apart. -/
def playoutDefaults : List (Nat × List Byte) :=
  [(1, enumV 0), (2, durV (ms 20)), (3, durV (ms 200)), (4, durV (ms 40)), (5, uintV 500), (6, shortV 990),
   (7, durV (ms 10)), (8, enumV 0)]

/-- The Leg and T.38 rows of Table 7.7 that have a default. -/
def codecDefaults : List (Nat × List Byte) :=
  [(2, durV (ms 20)), (4, durV (ms 1000)), (18, enumV 1), (19, durV (ms 50)), (20, flagV false), (21, enumV 1),
   (22, uintV 0), (23, uintV 14400), (24, enumV 0), (25, uintV 3), (26, uintV 1), (27, uintV 300), (28, durV (ms 100))]

/-- Table 10.10 rows of GAIN_SET. -/
def gainDefaults : List (Nat × List Byte) :=
  [(1, levelV 0), (2, levelV 0), (3, uintV noneValue), (4, uintV noneValue), (5, uintV noneValue), (6, uintV noneValue)]

/-! ## ECHO_SET, ECHO_QUERY, ECHO_COEF_READ -/

def echoSetBody : Body := fun x s =>
  let c := x.id
  let v := s.channel c
  let l := settingsOf .echo 0 (x.params.filter (fun q => q.typ != 19))
  let new := chargeOf v.wide (mergeSettings v.accepted l) v.legA v.legB
  match s.admitChange v new with
  | some st => .refuse st []
  | none =>
    let s1 := s.acceptSettings c l
    .done stOk [] (if paramFlag x.params 19 false then s1.postCommand c .echoReset else s1)

/-- PEAK_DELAY (R266): the largest of the taps that the partitions' PEAK_TAP fields name. -/
def peakDelay (v : Channel) : Nat :=
  let e := v.media.echo
  let best := (List.range (partitions v.applied v.wide)).foldl (fun (b : Nat × Nat) i =>
    let p := e.part i
    if b.1 < p.peakSize then (p.peakSize, 80 * i + p.peakTap) else b) (0, 0)
  best.2 + (if (v.runLeg e.leg).kind = .tdm then e.align else 0)

def echoTlvs (v : Channel) : List Tlv :=
  let e := v.media.echo
  settingTlvs v.accepted .echo 0 echoDefaults ++
  [rep 0x400 1 e.state.ctorIdx, rep 0x401 4 e.align] ++
  (List.range 8).map (fun i => repInt (0x402 + i) 2 ((e.estimates[i]?).getD 0)) ++
  rep 0x40A 4 (peakDelay v) :: counterTlvs 0x800 12 e.counts

/-- What ECHO_QUERY returns in IDLE: state OFF and zero values. -/
def echoIdleTlvs : List Tlv :=
  (echoDefaults.map (fun d => ({ typ := d.1, val := zeroBytes d.2.length } : Tlv))) ++
  [rep 0x400 1 0, rep 0x401 4 0] ++ (List.range 8).map (fun i => repInt (0x402 + i) 2 0) ++
  rep 0x40A 4 0 :: counterTlvs 0x800 12 []

def echoQueryBody : Body := fun x s =>
  let v := s.channel x.id
  if v.state = .idle then .done stOk echoIdleTlvs s
  else
    .done stOk (echoTlvs v) (if x.clear then
      s.setChannel x.id { v with media := { v.media with echo := { v.media.echo with counts := [] } } } else s)

/-- A partition as ECHO_COEF_READ gives it: its header (Table 9.2), then its 162 mantissas, little-endian (R252). -/
def partitionBytes (e : Echo) (i : Nat) : List Byte :=
  let p := e.part i
  partHeader p ++ binBytes p.coefs

def echoCoefReadBody : Body := fun x s =>
  let v := s.channel x.id
  let np := partitions v.accepted v.wide
  let f := paramNat x.params 0x40 0
  let n := paramNat x.params 0x41 1
  if v.state = .idle then .refuse stWrongState []
  else if np ≤ f then refuseParam x stOutOfRange 0x40
  else if np < f + n then refuseParam x stOutOfRange 0x41
  else .done stOk (((List.range n).map (fun i =>
    [instanceTlv 8 (f + i), { typ := 0x400, val := partitionBytes v.media.echo (f + i) }])).flatten) s

/-! ## PLAYOUT_SET, PLAYOUT_QUERY -/

def playoutSetBody : Body := fun x s =>
  let c := x.id
  let v := s.channel c
  let l := settingsOf .playout 0 (x.params.filter (fun q => q.typ != 9))
  let t := mergeSettings v.accepted l
  let mn := settingNat t .playout 0 2 (ms 20)
  let mx := settingNat t .playout 0 3 (ms 200)
  let ini := settingNat t .playout 0 4 (ms 40)
  if mx < mn then refuseParam x stOutOfRange (blamed x [2, 3])
  else if ini < mn ∨ mx < ini then
    refuseParam x stOutOfRange (if paramHas x.params 4 then 4 else if ini < mn then 2 else 3)
  else
    let s1 := s.acceptSettings c l
    .done stOk [] (if paramFlag x.params 9 false then s1.postCommand c .windowRestart else s1)

/-- Samples in a millisecond at the channel rate. -/
def perMs (v : Channel) : Nat := v.rate

/-- How many provisional samples carry a mark. -/
def provMarks (p : Play) (m : Mark) : Nat := (p.audio.filter (fun a => a.2 == m)).length

/-- The provisional part of each flagged playout counter (R193), in row order: what stands in [F, H) and is to pass to the fixed part. -/
def playProv (v : Channel) (p : Play) : List (Nat × Nat) :=
  let fs := p.frames
  let sc := fun g => ((p.scaled.filter (fun x => x.2.2 == g)).map (fun x => x.2.1)).sum / perMs v
  [(PlayCount.framesPlayed.ctorIdx, (fs.filter (fun f => f.mark == .decoded)).length),
   (PlayCount.concealMs.ctorIdx, provMarks p .concealed / p.rate),
   (PlayCount.lostFrames.ctorIdx, (fs.filter (fun f => f.mark == .concealed)).length),
   (PlayCount.lateRecovered.ctorIdx, (fs.filter (fun f => f.late == 1)).length),
   (PlayCount.latePartial.ctorIdx, (fs.filter (fun f => f.late == 2)).length),
   (PlayCount.growMs.ctorIdx, sc true), (PlayCount.shrinkMs.ctorIdx, sc false)]

/-- The fixed part of a playout counter. -/
def playFixed (v : Channel) (p : Play) (i : Nat) : Nat :=
  if i = PlayCount.concealMs.ctorIdx then p.fixedConcealed / perMs v
  else if i = PlayCount.growMs.ctorIdx then p.fixedGrow / perMs v
  else if i = PlayCount.shrinkMs.ctorIdx then p.fixedShrink / perMs v
  else tabGet p.counts i 0

/-- A flagged counter as a query reads it (R193). -/
def flaggedTlv (typ fixed prov : Nat) (fixedOnly : Bool) : Tlv :=
  { typ := typ, val := if fixedOnly then counterValue false fixed else counterValue (prov != 0) (fixed + prov) }

def playTlvs (v : Channel) (m : LegMedia) (fixedOnly : Bool) : List Tlv :=
  let p := m.play
  let pr := playProv v p
  (List.range 20).map (fun i =>
    flaggedTlv (0x800 + i) (playFixed v p i) (((pr.find? (fun q => q.1 == i)).map (·.2)).getD 0) fixedOnly)

/-- The fixed parts cleared (R17, R193). -/
def clearPlay (p : Play) : Play :=
  { p with counts := [], fixedConcealed := 0, fixedGrow := 0, fixedShrink := 0 }

/-- The RTP legs of a channel. -/
def rtpLegs (v : Channel) : List Nat := [0, 1].filter (fun i => (v.leg i).kind == .rtp)

/-- What PLAYOUT_QUERY reports (R197). -/
def playoutTlvs (v : Channel) (fixedOnly : Bool) : List Tlv :=
  settingTlvs v.accepted .playout 0 playoutDefaults ++ ((rtpLegs v).map (fun i =>
    let m := v.legMedia i
    [instanceTlv 1 i, rep 0x400 4 (m.play.depth / 1000000).toNat, rep 0x401 4 (m.play.target / 1000000),
     repInt 0x402 4 m.play.drift, rep 0x403 4 (m.play.frames.filter (fun f => f.negative)).length] ++
    playTlvs v m fixedOnly)).flatten

/-- The playout counters of a channel's RTP legs cleared. -/
def playoutCleared (v : Channel) : Channel :=
  (rtpLegs v).foldl (fun v i => v.setLegMedia i { v.legMedia i with play := clearPlay (v.legMedia i).play }) v

def playoutQueryBody : Body := fun x s =>
  let v := s.channel x.id
  .done stOk (playoutTlvs v x.fixedOnly) (if x.clear then s.setChannel x.id (playoutCleared v) else s)

/-! ## CODEC_SET (R198 to R200, R203, R215, R448) -/

def isAmr (e : List Byte) : Bool := entryCodec e == 5 || entryCodec e == 6
def isOpus (e : List Byte) : Bool := entryCodec e == 7
def isEvents (e : List Byte) : Bool := entryCodec e == 9
def isCn (e : List Byte) : Bool := entryCodec e == 8

/-- The FLAGS bits that apply to an entry's codec. -/
def flagMask (e : List Byte) : Nat :=
  (if isAudio e then 1 else 0) + (if entryCodec e = 2 then 2 else 0) + (if isAmr e then 12 else 0) +
  (if isOpus e then 48 else 0)

/-- Bytes of an entry that must be 0 and are not: the offset of the first (R448). -/
def entryExtra (e : List Byte) : Option Nat :=
  let z := fun (o n : Nat) (applies : Bool) => (applies || fieldAt e o n == 0, o)
  firstBad [(Nat.land (entryFlags e) (255 - flagMask e) == 0, 2), z 3 1 (entryCodec e == 2),
    (if isAmr e then decide (u16 e 4 < 512) else u16 e 4 == 0, 4), z 6 1 (isAmr e), z 7 1 (isAmr e),
    z 8 1 (isOpus e), z 9 1 (isOpus e), z 10 1 (isOpus e), z 11 1 false, z 12 4 (isOpus e || isEvents e)]

/-- Values of an entry out of range: the offset of the first (Table 7.7, R203). -/
def entryRange (e : List Byte) : Option Nat :=
  let modes := if entryCodec e = 5 then 8 else 9
  firstBad [(decide (entryPt e < 128) || isT38 e, 0), (decide (entryCodec e ≤ 10), 1), (decide (entryG726Rate e ≤ 3), 3),
    (!isAmr e || (entryModeSet e != 0 && decide (entryModeSet e < 2 ^ modes)), 4),
    (!isAmr e || (entryModeSet e).testBit (entryMode e), 6),
    (!isAmr e || entryCmrSend e == 15 || decide (entryCmrSend e < modes), 7),
    (decide (fieldAt e 8 1 ≤ 1), 8), (decide (entryComplexity e ≤ 10), 9), (decide (entryLossPct e ≤ 50), 10),
    (if isOpus e then decide (6000 ≤ entryClock e ∧ entryClock e ≤ 64000)
     else if isEvents e then [8000, 16000, 48000].contains (entryClock e) else true, 12)]

/-- Whether an entry's payload type is one its codec's row gives (Table 7.1). -/
def entryPtOk (e : List Byte) : Bool :=
  let c := entryCodec e
  let pt := entryPt e
  let dyn := decide (96 ≤ pt ∧ pt ≤ 127)
  if c = 0 then pt == 0 else if c = 1 then pt == 8 else if c = 3 then pt == 9 else if c = 4 then pt == 18
  else if c = 8 then pt == 13 || dyn else if c = 10 then true else dyn

/-- No value twice. -/
def noTwice : List Nat → Bool
  | [] => true
  | a :: r => !(r.contains a) && noTwice r

/-- A map that R198 accepts. -/
def mapOk (m : List (List Byte)) : Bool :=
  decide (1 ≤ m.length ∧ m.length ≤ 8) && m.all entryPtOk && noTwice ((m.filter (fun e => !isT38 e)).map entryPt) &&
  decide ((m.filter isEvents).length ≤ 1 ∧ (m.filter isCn).length ≤ 1 ∧ (m.filter isT38).length ≤ 1)

/-- The first entry that repeats what an entry before it has, among those of which only one may be. -/
def firstAgain (f : List Byte → Option Nat) (m : List (List Byte)) : Option Nat :=
  (m.zipIdx.find? (fun p => match f p.1 with
    | some v => ((m.take p.2).filterMap f).contains v
    | none => false)).map (·.2)

/-- The entry that R198 faults in a map, by its cases after the first in their order: the second of a payload type, one of a payload
type its codec does not have, the second of a kind of which a map has one (log entry 76). -/
def mapFault (m : List (List Byte)) : Nat :=
  (firstAgain (fun e => if isT38 e then none else some (entryPt e)) m).getD
    ((m.findIdx? (fun e => !entryPtOk e)).getD
      ((firstAgain (fun e => if isEvents e || isCn e || isT38 e then some (entryCodec e) else none) m).getD 0))

/-- Whether TX_PT names an audio entry or the T.38 entry. -/
def txNames (m : List (List Byte)) (pt : Nat) : Bool :=
  if pt = 128 then m.any isT38 else m.any (fun e => isAudio e && entryPt e == pt)

/-- TX_PT of a map where a command gives none (R198). -/
def txKept (m : List (List Byte)) (old : Nat) : Nat :=
  if txNames m old then old
  else match m.find? isAudio with
    | some e => entryPt e
    | none => 128

/-- The RTP clock of a codec in Hz (Table 7.1). -/
def codecClock (c : Nat) : Nat := if c = 6 then 16000 else if c = 7 then 48000 else 8000

/-- The entry TX_PT names; PCMU's codec number stands for T.38's PTIME row. -/
def txEntry (m : List (List Byte)) (pt : Nat) : Option (List Byte) :=
  if pt = 128 then none else m.find? (fun e => isAudio e && entryPt e == pt)

/-- Whether an entry may stand on a channel of this rate (R200). -/
def entryRateOk (wide : Bool) (e : List Byte) : Bool :=
  let c := entryCodec e
  if wide then c != 10 else c != 3 && c != 6 && !(c == 7 && entryWideband e)

/-- The packet durations of a codec in ms (Table 7.1). -/
def codecPtimes (c : Nat) : List Nat :=
  if c ≤ 4 then [10, 20, 30, 40, 60] else if c = 5 ∨ c = 6 then [20, 40, 60] else [10, 20, 40, 60]

/-- The offset in the parameters of byte `o` of the `n`th ENTRY. -/
def entryOffset (l : List Param) (n o : Nat) : Nat :=
  ((((l.filter (fun q => q.typ == 0x41))[n]?).map (·.offset + 4)).getD 0) + o

/-- The first entry that a check faults, with the offset in it. -/
def firstEntry (f : List Byte → Option Nat) (m : List (List Byte)) : Option (Nat × Nat) :=
  (m.zipIdx.filterMap (fun p => (f p.1).map (fun o => (p.2, o)))).head?

def refuseEntry (x : Ctx) (st : Nat) (p : Nat × Nat) : Answer :=
  .refuse st (errorTlvs 0x41 (entryOffset x.params p.1 p.2))

/-- What a CODEC_SET comes to: the settings it leaves, or its refusal. -/
def codecOutcome (x : Ctx) (s : State) : (List (Nat × List Byte)) ⊕ Answer :=
  let v := s.channel x.id
  let leg := paramNat x.params 0x40 0
  let given := paramAll x.params 0x41
  match firstEntry entryExtra given with
  | some p => .inr (refuseEntry x stBadTlv p)
  | none =>
    match firstEntry entryRange given with
    | some p => .inr (refuseEntry x stOutOfRange p)
    | none =>
      let m := if given = [] then legMap v.accepted leg else given
      let old := legTxPt v.accepted leg
      let pt := (paramNat? x.params 1).getD (if given = [] then old else txKept m old)
      let legSettings := settingsOf .codec leg x.params
      let t := mergeSettings v.accepted
        (legSettings ++ [(setKey .codec leg 0x41, m.flatten), (setKey .codec leg 1, uintV pt)])
      let fax := settingNat t .codec leg 21 1
      let t38 := m.any isT38
      let missing := if t38 then [29, 30, 31].find? (fun k => (tabFind? t (setKey .codec leg k)).isNone) else none
      match missing with
      | some k => .inr (refuseMissing x k)
      | none =>
        if 8 < m.length then .inr (.refuse stBadPayloadMap (errorTlvs 0x41 (entryOffset x.params 8 0 - 4)))
        else if ¬ mapOk m then .inr (refuseEntry x stBadPayloadMap (mapFault m, 0))
        else if ¬ txNames m pt then .inr (refuseParam x stBadPayloadMap (blamed x [1, 0x41]))
        else if (fax = 2 ∧ ¬ t38) ∨ (fax = 3 ∧ ¬ m.any isG711) then .inr (refuseParam x stBadPayloadMap (blamed x [21, 0x41]))
        else if ¬ m.all (entryRateOk v.wide) then
          .inr (refuseEntry x stRateMismatch ((m.findIdx? (fun e => !entryRateOk v.wide e)).getD 0, 0))
        else
          let tx := txEntry m pt
          let clock := match tx with | some e => codecClock (entryCodec e) | none => 8000
          if m.any (fun e => isEvents e && entryClock e != clock) then
            .inr (if given = [] then refuseParam x stRateMismatch 1
                  else refuseEntry x stRateMismatch ((m.findIdx? isEvents).getD 0, 0))
          else
            let codec := match tx with | some e => entryCodec e | none => 0
            if ¬ (codecPtimes codec).contains (legPtime t leg) then .inr (refuseParam x stOutOfRange (blamed x [2, 1, 0x41]))
            else
              let tpl := settingNat t .codec leg 29 0
              let ok : Bool := match tabFind? s.flows.templates tpl with | some q => q.kind == 2 | none => false
              if t38 ∧ paramHas x.params 29 ∧ ¬ ok then .inr (refuseParam x stOutOfRange 29)
              else .inl (legSettings ++ (if given = [] then [] else [(setKey .codec leg 0x41, m.flatten)]) ++
                (if paramHas x.params 1 ∨ pt ≠ old then [(setKey .codec leg 1, uintV pt)] else []))

def codecSetBody : Body := fun x s =>
  let c := x.id
  let v := s.channel c
  let leg := paramNat x.params 0x40 0
  if (v.leg leg).kind ≠ .rtp then .refuse stWrongState []
  else
    match codecOutcome x s with
    | .inr a => a
    | .inl l =>
      let t := mergeSettings v.accepted l
      match s.admitChange v (chargeOf v.wide t v.legA v.legB) with
      | some st => .refuse st []
      | none =>
        let units := s.legUnits t v.rate leg (v.leg leg)
        if ¬ s.unitsFit v.block (v.reservedAt leg) units then .refuse stResamplerFull []
        else .done stOk [] ((s.setChannel c (v.reserve leg units)).acceptSettings c l)

/-- The codec counters of a leg: FEC_MS is flagged (R216). -/
def codecTlvs (v : Channel) (m : LegMedia) (fixedOnly : Bool) : List Tlv :=
  (List.range 15).map (fun i =>
    if i = CodecCount.fecMs.ctorIdx then
      flaggedTlv (0x800 + i) (m.play.fixedFec / perMs v) (provMarks m.play .fec / m.play.rate) fixedOnly
    else flaggedTlv (0x800 + i) (tabGet m.tx.counts i 0) 0 fixedOnly)

/-- What CODEC_QUERY reports of one leg (R216). -/
def codecLegTlvs (v : Channel) (fixedOnly : Bool) (i : Nat) : List Tlv :=
  instanceTlv 1 i :: (legMap v.accepted i).map (fun e => ({ typ := 0x41, val := e } : Tlv)) ++
  rep 1 4 (legTxPt v.accepted i) :: settingTlvs v.accepted .codec i codecDefaults ++
  ([29, 30, 31].filterMap (fun k => (tabFind? v.accepted (setKey .codec i k)).map (fun b => ({ typ := k, val := b } : Tlv)))) ++
  codecTlvs v (v.legMedia i) fixedOnly

/-- The codec counters of some legs cleared. -/
def codecCleared (v : Channel) (legs : List Nat) : Channel :=
  legs.foldl (fun v i =>
    let m := v.legMedia i
    v.setLegMedia i { m with tx := { m.tx with counts := [] }, play := { m.play with fixedFec := 0 } }) v

/-- The legs a CODEC_QUERY names: the RTP legs where it names none. -/
def queriedLegs (v : Channel) (l : List Param) : List Nat := match paramNat? l 0x40 with | some i => [i] | none => rtpLegs v

def codecQueryBody : Body := fun x s =>
  let v := s.channel x.id
  let legs := queriedLegs v x.params
  if legs.any (fun i => (v.leg i).kind != .rtp) then .refuse stWrongState []
  else .done stOk ((legs.map (codecLegTlvs v x.fixedOnly)).flatten) (if x.clear then s.setChannel x.id (codecCleared v legs) else s)

/-! ## RESAMPLE_SET, RESAMPLE_RESET, RESAMPLE_QUERY (R243, R244) -/

/-- The stream keys a STREAM value names. -/
def namedKeys (n : Nat) : List Nat := if n < 2 then [n, n + 8] else [n]

/-- The leg a stream key belongs to. -/
def keyLeg (k : Nat) : Nat := if k < 2 then 0 else if k = 8 ∨ k = 9 then 1 else k % 2

/-- The units a player at `rate` kHz reserves on a channel under settings `t` (R220). -/
def playerUnits (t : Tab (List Byte)) (v : Channel) (leg rate : Nat) : Nat :=
  if rate = v.rate then 0 else pairsUnits t [{ key := genKey leg, fin := rate, fout := v.rate }]

/-- The units that the prompts of a leg reserve. -/
def promptUnits (t : Tab (List Byte)) (v : Channel) (leg : Nat) (rates : List Nat) : Nat :=
  (rates.map (playerUnits t v leg)).foldl max 0

/-- The units every leg, generator and prompt would reserve under settings `t`; those that have ended reserve none. -/
def State.reservedWith (s : State) (v : Channel) (t : Tab (List Byte)) : Channel :=
  [0, 1].foldl (fun w i =>
    let m := v.legMedia i
    let a := w.reserve i (s.legUnits t v.rate i (v.leg i))
    let b := if v.reservedAt (2 + i) = 0 then a else a.reserve (2 + i) (playerUnits t v i m.toneRate)
    if v.reservedAt (4 + i) = 0 then b else b.reserve (4 + i) (promptUnits t v i m.playRates)) v

def resampleSetBody : Body := fun x s =>
  let c := x.id
  let v := s.channel c
  let n := paramNat x.params 1 0
  let l := settingsOf .resample n (x.params.filter (fun q => q.typ != 1))
  let t := mergeSettings v.accepted l
  let live := (namedKeys n).filter (fun k => (v.stream k).present)
  if live.any (fun k => !(chainPermitted t n (v.stream k).chain.fin (v.stream k).chain.fout)) then
    refuseParam x stBadChain ((x.params.find? (fun q => [2, 3, 4, 10].contains q.typ)).map (·.typ) |>.getD 1)
  else
    let w := s.reservedWith v t
    if ¬ s.unitsFit v.block v.reservedUnits w.reservedUnits then .refuse stResamplerFull []
    else .done stOk [] ((s.setChannel c w).acceptSettings c l)

def resampleResetBody : Body := fun x s =>
  let v := s.channel x.id
  match paramNat? x.params 1 with
  | some n =>
    if (namedKeys n).any (fun k => (v.stream k).present) then
      .done stOk [] (s.postCommand x.id (.resampleReset (some n)))
    else .done stNoChange [] s
  | none => .done stOk [] (s.postCommand x.id (.resampleReset none))

/-- The stored settings of a stream (Table 8.10). -/
def streamSettings (v : Channel) (n fin fout : Nat) : List Tlv :=
  let t := v.accepted
  [rep 2 4 (settingOf t n 2 0), rep 3 1 (settingOf t n 3 14),
   rep 4 1 (storedProto t n fin fout (chainStages fin fout (settingOf t n 2 0)))] ++
  (List.range 5).map (fun i => rep (5 + i) 4 (settingOf t n (5 + i) 0)) ++
  [rep 10 1 (settingOf t n 10 0), rep 11 4 (settingOf t n 11 64), rep 12 1 (settingOf t n 12 0)]

/-- NONE, SETTLING, FADING. -/
def dissolveState (st : Stream) : Nat :=
  match st.dissolve with
  | none => 0
  | some d => if d.count < settleCount st.chain then 1 else 2

/-- The units reserved for one stream: twice those of its own most costly chain, while its leg has a reservation; a GEN stream has those
of its leg's generator and prompts (R219, R220). -/
def State.keyReserved (s : State) (v : Channel) (k : Nat) : Nat :=
  if k = 6 ∨ k = 7 then v.reservedAt (k - 4) + v.reservedAt (k - 2)
  else if v.reservedAt (keyLeg k) = 0 then 0
  else pairsUnits v.accepted ((s.legPairs v.accepted v.rate (keyLeg k) (v.leg (keyLeg k))).filter (fun p => p.key == k))

def streamTlvs (s : State) (v : Channel) (k : Nat) : List Tlv :=
  let st := v.stream k
  let c := st.chain
  let u := if st.present then chainUnits c (crossing k) + (match st.dissolve with
    | some d => chainUnits d.old (crossing k) | none => 0) else 0
  instanceTlv 2 (k % 8) :: streamSettings v (k % 8) c.fin c.fout ++
  [rep 0x400 1 (boolNat st.present), rep 0x401 4 (c.fin * 1000), rep 0x402 4 (c.fout * 1000), rep 0x403 4 c.n,
   rep 0x404 4 (chainRatio c), rep 0x405 4 (chainRatio c), repInt 0x406 8 (s.drift v k), repInt 0x407 8 st.trim,
   repInt 0x408 8 st.fill, repInt 0x409 8 (st.target.getD 0), rep 0x40A 4 (chainDelay c), rep 0x40B 4 (settleCount c),
   rep 0x40C 4 u, rep 0x40D 4 (s.keyReserved v k), rep 0x40E 1 (dissolveState st), rep 0x40F 1 (boolNat st.held)] ++
  counterTlvs 0x800 13 st.counts

/-- The stream keys that a STREAM value reports: those present, else the one that does not exist. -/
def reportedKeys (v : Channel) (n : Nat) : List Nat :=
  let l := (namedKeys n).filter (fun k => (v.stream k).present)
  if l = [] then [n] else l

/-- The stream keys that a RESAMPLE_QUERY reports: every STREAM value's where it names none (R244). -/
def queriedKeys (v : Channel) (l : List Param) : List Nat :=
  match paramNat? l 1 with | some n => reportedKeys v n | none => (List.range 8).flatMap (reportedKeys v)

/-- The counters of some streams cleared. -/
def streamsCleared (v : Channel) (keys : List Nat) : Channel := keys.foldl (fun v k => v.setStream k { v.stream k with counts := [] }) v

def resampleQueryBody : Body := fun x s =>
  let v := s.channel x.id
  let keys := queriedKeys v x.params
  .done stOk ((keys.map (streamTlvs s v)).flatten) (if x.clear then s.setChannel x.id (streamsCleared v keys) else s)

/-! ## Tones and gains (R277, R279, R295) -/

def toneDetectSetBody : Body := fun x s =>
  let c := x.id
  let v := s.channel c
  let leg := paramNat x.params 0x40 0
  let given := paramAll x.params 1
  let ids := (given.filter (fun b => b != [])).map beNat
  let cur := if given = [] then detectorIds v.accepted v.wide leg else ids
  let base := (paramNat? x.params 2).getD (eventToneBase v.accepted v.wide leg)
  if given.contains [] ∧ given.length ≠ 1 then .refuse stBadTlv (errorTlvs 1 (paramStart x.params 1))
  else if ids.any (fun i => !(s.holdsKind i .detector)) then refuseParam x stTableNotFound 1
  else if paramHas x.params 2 ∧ ¬ ((List.range 21).all (fun i => s.holdsKind (base + i) .generator)) then
    refuseParam x stTableNotFound 2
  else if ids.any (fun i => (s.tableKind i).map (·.2) != some (v.rate * 1000)) then refuseParam x stRateMismatch 1
  else if given ≠ [] ∧ 4 < cur.length + (detectorIds v.accepted v.wide (1 - leg)).length then
    .refuse stTooManyDetectors []
  else
    let l := (settingsOf .tone leg (x.params.filter (fun q => q.typ != 1))) ++
      (if given = [] then [] else [(setKey .tone leg 1, (ids.map uintV).flatten)])
    .done stOk [] (s.acceptSettings c l)

def tonePlayBody : Body := fun x s =>
  let c := x.id
  let v := s.channel c
  let leg := paramNat x.params 0x40 0
  let id := paramNat x.params 0x41 0
  match s.tableKind id with
  | some (.generator, rate) =>
    let units := playerUnits v.accepted v leg (rate / 1000)
    if ¬ s.unitsFit v.block (v.reservedAt (2 + leg)) units then .refuse stResamplerFull []
    else
      let w := (v.reserve (2 + leg) units)
      let w1 := w.setLegMedia leg { w.legMedia leg with toneWanted := true, toneRate := rate / 1000 }
      .done stOk [] ((s.setChannel c w1).postCommand c
        (.tone leg id (paramNat x.params 0x42 0) ((paramInt? x.params 0x43).getD 0)))
  | _ => refuseParam x stTableNotFound 0x41

def toneStopBody : Body := fun x s =>
  let c := x.id
  let v := s.channel c
  let leg := paramNat x.params 0x40 0
  if ¬ (v.legMedia leg).toneWanted then .done stNoChange [] s
  else
    let w := v.setLegMedia leg { v.legMedia leg with toneWanted := false }
    .done stOk [] ((s.setChannel c w).postCommand c (.stopTone leg))

def gainSetBody : Body := fun x s =>
  let c := x.id
  let leg := paramNat x.params 0x40 0
  let bad := fun (t : Nat) (k : TableKind) =>
    match paramNat? x.params t with
    | some i => i != noneValue && !(s.holdsKind i k)
    | none => false
  match [(3, TableKind.gainCurve), (4, .gainCurve), (5, .agc), (6, .agc)].find? (fun p => bad p.1 p.2) with
  | some p => refuseParam x stTableNotFound p.1
  | none => .done stOk [] (s.acceptSettings c (settingsOf .gain leg x.params))

/-! ## Prompt plays (R292) -/

def promptPlayBody : Body := fun x s =>
  let c := x.id
  let v := s.channel c
  let leg := paramNat x.params 0x40 0
  let ids := (paramAll x.params 0x41).map beNat
  let queue := paramFlag x.params 0x46 false
  let m := v.legMedia leg
  if ids.any (fun i => (tabFind? s.store.prompts i).isNone) then refuseParam x stPromptNotFound 0x41
  else if queue ∧ 5 ≤ m.playsWanted then .refuse stPlayQueueFull []
  else
    let mine := ids.map (fun i => match tabFind? s.store.prompts i with | some p => p.rate / 1000 | none => v.rate)
    let rates := if queue then m.playRates ++ mine else mine
    let units1 := promptUnits v.accepted v leg rates
    if ¬ s.unitsFit v.block (v.reservedAt (4 + leg)) units1 then .refuse stResamplerFull []
    else
      let w := v.reserve (4 + leg) units1
      let w1 := w.setLegMedia leg { m with playsWanted := if queue then m.playsWanted + 1 else 1, playRates := rates }
      .done stOk [] ((s.setChannel c w1).postCommand c
        (.play leg ids (paramNat x.params 0x42 1) (paramNat x.params 0x43 0) ((paramInt? x.params 0x44).getD 0)
          (paramFlag x.params 0x45 true) queue))

def promptStopBody : Body := fun x s =>
  let c := x.id
  let v := s.channel c
  let leg := paramNat x.params 0x40 0
  let m := v.legMedia leg
  if m.playsWanted = 0 then .done stNoChange [] s
  else .done stOk [] ((s.setChannel c (v.setLegMedia leg { m with playsWanted := 0 })).postCommand c (.stopPlay leg))

/-! ## USER_HOOK_SET (R348) -/

/-- NENTRY of the loaded kernel; 0 while none is loaded. -/
def State.kernelEntries (s : State) : Nat := if s.store.kernel = [] then 0 else u8 s.store.kernel 6

/-- Whether a channel has a hook set. -/
def hooked (v : Channel) : Bool :=
  settingNat v.accepted .hook 0 0x40 noneValue != noneValue || settingNat v.accepted .hook 0 0x41 noneValue != noneValue

def userHookSetBody : Body := fun x s =>
  let c := x.id
  let v := s.channel c
  let l := x.params.map (fun q => (setKey .hook 0 q.typ, q.val))
  let bad := [0x40, 0x41].find? (fun t => match paramNat? x.params t with
    | some i => i != noneValue && decide (s.kernelEntries ≤ i)
    | none => false)
  match bad with
  | some t => refuseParam x stOutOfRange t
  | none =>
    match s.admitChange v (chargeOf v.wide (mergeSettings v.accepted l) v.legA v.legB) with
    | some st => .refuse st []
    | none => .done stOk [] (s.acceptSettings c l)

/-! ## The meanings -/

def execEchoSet (p : Packet) (s : State) : Host.Outcome State Fault Refusal := .next (fylosRun 0x0401 echoSetBody p s)
def execEchoQuery (p : Packet) (s : State) : Host.Outcome State Fault Refusal := .next (fylosRun 0x0402 echoQueryBody p s)
def execEchoCoefRead (p : Packet) (s : State) : Host.Outcome State Fault Refusal :=
  .next (fylosRun 0x0403 echoCoefReadBody p s)
def execPlayoutSet (p : Packet) (s : State) : Host.Outcome State Fault Refusal :=
  .next (fylosRun 0x0501 playoutSetBody p s)
def execPlayoutQuery (p : Packet) (s : State) : Host.Outcome State Fault Refusal :=
  .next (fylosRun 0x0502 playoutQueryBody p s)
def execCodecSet (p : Packet) (s : State) : Host.Outcome State Fault Refusal := .next (fylosRun 0x0601 codecSetBody p s)
def execCodecQuery (p : Packet) (s : State) : Host.Outcome State Fault Refusal :=
  .next (fylosRun 0x0602 codecQueryBody p s)
def execResampleSet (p : Packet) (s : State) : Host.Outcome State Fault Refusal :=
  .next (fylosRun 0x0603 resampleSetBody p s)
def execResampleReset (p : Packet) (s : State) : Host.Outcome State Fault Refusal :=
  .next (fylosRun 0x0604 resampleResetBody p s)
def execResampleQuery (p : Packet) (s : State) : Host.Outcome State Fault Refusal :=
  .next (fylosRun 0x0605 resampleQueryBody p s)
def execToneDetectSet (p : Packet) (s : State) : Host.Outcome State Fault Refusal :=
  .next (fylosRun 0x0701 toneDetectSetBody p s)
def execTonePlay (p : Packet) (s : State) : Host.Outcome State Fault Refusal := .next (fylosRun 0x0702 tonePlayBody p s)
def execToneStop (p : Packet) (s : State) : Host.Outcome State Fault Refusal := .next (fylosRun 0x0703 toneStopBody p s)
def execGainSet (p : Packet) (s : State) : Host.Outcome State Fault Refusal := .next (fylosRun 0x0704 gainSetBody p s)
def execPromptPlay (p : Packet) (s : State) : Host.Outcome State Fault Refusal :=
  .next (fylosRun 0x0722 promptPlayBody p s)
def execPromptStop (p : Packet) (s : State) : Host.Outcome State Fault Refusal :=
  .next (fylosRun 0x0723 promptStopBody p s)
def execUserHookSet (p : Packet) (s : State) : Host.Outcome State Fault Refusal :=
  .next (fylosRun 0x0C21 userHookSetBody p s)

end Sys2Proof.Machine
end

