-- ==== Sys2Proof/Machine/StoreCmd.lean ====
section
/-! DEFINITION. The commands of the stores and engines: tables, prompts, the user kernel, images, the trace and the
coefficient ROM (R228, R285 to R291, R347, R447, R452, R453, R460, R461, R567 to R569). -/

namespace Sys2Proof.Machine

/-! ## Sources and chains (R569) -/

/-- The source a command names, in the window as it stands (R569); SRC_ADDR has type `t`, SRC_LEN the next. -/
def sourceOf (x : Ctx) (t : Nat) : JobSource := .dram (paramNat x.params t 0) (paramNat x.params (t + 1) 0)

def State.inSight (s : State) (a n : Nat) : Bool := s.inWindow s.store.bar2Base a n

/-- A job on its way to an engine. -/
def newJob (s : State) (x : Ctx) (u : JobUse) (src : JobSource) (chain : Option Nat) : Job :=
  { ref := some x.ref, use := u, cls := 2, order := 0, source := src, chain := chain, base := s.store.bar2Base }

/-- Every job waiting or running. -/
def State.allJobs (s : State) : List Job :=
  ([0, 1, 2, 3].map (fun r =>
    let e := s.engine r
    e.reducer.running.toList ++ e.reducer.queue ++ e.enlarger.running.toList ++ e.enlarger.queue)).flatten

/-- IMAGE_ENLARGE and IMAGE_REDUCE: a job from the host area to a chain in it. -/
def chainJobBody (u : JobUse) : Body := fun x s =>
  let a := paramNat x.params 0x41 0
  let n := paramNat x.params 0x42 0
  let c := paramNat x.params 0x43 0
  if ¬ s.inSight a n then refuseParam x stOutOfRange 0x41
  else if c % 16 ≠ 0 ∨ ¬ s.inSight c 16 then refuseParam x stOutOfRange 0x43
  else .accepted (s.queueJob (newJob s x u (sourceOf x 0x41) (some c)))

def imageEnlargeBody : Body := chainJobBody .imageEnlarge
def imageReduceBody : Body := chainJobBody .imageReduce

/-! ## Tables -/

/-- The waiting loads at most, beside the one that runs (R285). -/
def loadLimit : Nat := 16

/-- The frame of a source is whole enough to tell its original length. -/
def originalOver (f : List Byte) (limit : Nat) : Bool := frameHeaderOk f && decide (limit < frameOriginal f)

/-- The load at the head of the line handed to an engine. -/
def State.runLoad (s : State) : State :=
  match s.store.loads with
  | [] => s
  | l :: _ => s.queueJob { ref := some l.ref, use := .table l.id, cls := 2, order := 0, source := l.source, chain := none,
                           base := s.store.bar2Base }

/-- The source of a TABLE_LOAD, or what refuses it. -/
def loadSource (x : Ctx) (s : State) : JobSource ⊕ Answer :=
  let chunks := paramAll x.params 0x43
  if chunks ≠ [] then
    match x.params.find? (fun q => q.typ == 0x41 || q.typ == 0x42) with
    | some _ => .inr (refuseMissing x 0x41)
    | none => .inl (.bytes chunks.flatten)
  else if ¬ paramHas x.params 0x41 then .inr (refuseMissing x 0x41)
  else if ¬ paramHas x.params 0x42 then .inr (refuseMissing x 0x42)
  else if ¬ s.inSight (paramNat x.params 0x41 0) (paramNat x.params 0x42 0) then .inr (refuseParam x stOutOfRange 0x41)
  else .inl (sourceOf x 0x41)

def tableLoadBody : Body := fun x s =>
  let id := paramNat x.params 0x40 0
  match loadSource x s with
  | .inr a => a
  | .inl src =>
    if id < 0x100 then .refuse stTableProtected []
    else if originalOver (s.sourceBytes src) 65536 then .refuse stTableTooLarge []
    else if loadLimit < s.store.loads.length then .refuse stTableBusy []
    else
      let s1 := { s with store := { s.store with loads := s.store.loads ++ [{ ref := x.ref, id := id, source := src }] } }
      .accepted (if s.store.loads = [] then s1.runLoad else s1)

def tableDeleteBody : Body := fun x s =>
  let id := paramNat x.params 0x40 0
  if (s.tableImage id).isNone then refuseParam x stTableNotFound 0x40
  else if id < 0x100 then .refuse stTableProtected []
  else if s.tableUses id ≠ 0 then .refuse stTableInUse []
  else .done stOk [] { s with store := { s.store with tables := tabDrop s.store.tables id } }

/-- The IDs of every table held. -/
def State.tableIds (s : State) : List Nat := (List.range 0x400).filter (fun i => (s.tableImage i).isSome)

/-- One table's values (R288): ID, KIND, REVISION, NAME and its use count. -/
def State.tableTlvs (s : State) (id : Nat) : List Tlv :=
  match s.tableImage id with
  | none => []
  | some img => [rep 0x400 4 id, rep 0x401 1 (u8 img 6), rep 0x402 2 (u16 img 10), { typ := 0x403, val := slice img 20 12 },
                 rep 0x404 4 (s.tableUses id)]

def tableQueryBody : Body := fun x s =>
  match paramNat? x.params 0x40 with
  | none => .done stOk ((s.tableIds.map s.tableTlvs).flatten) s
  | some id =>
    if (s.tableImage id).isNone then refuseParam x stTableNotFound 0x40 else .done stOk (s.tableTlvs id) s

/-- The largest piece of an image in one TLV. -/
def imageChunk : Nat := 1024

/-- Bytes cut into TLVs of type `t`. -/
def imageTlvs (t : Nat) : Nat → List Byte → List Tlv
  | 0, _ => []
  | fuel + 1, l => if l = [] then [] else { typ := t, val := l.take imageChunk } :: imageTlvs t fuel (l.drop imageChunk)

def tableReadBody : Body := fun x s =>
  match s.tableImage (paramNat x.params 0x40 0) with
  | none => refuseParam x stTableNotFound 0x40
  | some img => .done stOk (imageTlvs 0x400 65 img) s

/-! ## Prompts -/

/-- Whether a leg's plays name a prompt. -/
def legPlays (m : LegMedia) (id : Nat) : Nat :=
  ((m.prompt.toList ++ m.queue).filter (fun p => p.prompts.contains id)).length

/-- Plays that name a prompt (R291). -/
def State.playing (s : State) (id : Nat) : Nat :=
  (s.channels.map (fun e => legPlays e.2.media.a id + legPlays e.2.media.b id)).sum

/-- Store bytes that prompt loads under way will take. -/
def State.promptsComing (s : State) : Nat :=
  (s.allJobs.map (fun j => match j.use with | .prompt _ => sourceLength j.source | _ => 0)).sum

/-- Bytes of the prompt stored under an ID. -/
def State.promptSize (s : State) (id : Nat) : Nat :=
  match tabFind? s.store.prompts id with | some p => p.image.length | none => 0

def promptLoadBody : Body := fun x s =>
  let id := paramNat x.params 0x40 0
  let a := paramNat x.params 0x41 0
  let n := paramNat x.params 0x42 0
  if ¬ s.inSight a n then refuseParam x stOutOfRange 0x41
  else
    let img := memRead s.store.dram a n
    if ¬ promptHeaderOk img ∨ ¬ promptPiecesOk img then refuseParam x stBadPrompt 0x41
    else if s.playing id ≠ 0 then .refuse stPromptInUse []
    else if s.store.storeSize < s.promptBytes + s.promptsComing + n - s.promptSize id then .refuse stPromptStoreFull []
    else .accepted (s.queueJob (newJob s x (.prompt id) (.dram a n) none))

/-- The cache without the pieces of one prompt. -/
def uncache (l : List CachedPiece) (id : Nat) : List CachedPiece := l.filter (fun p => p.prompt != id)

def promptDeleteBody : Body := fun x s =>
  let id := paramNat x.params 0x40 0
  if (tabFind? s.store.prompts id).isNone then refuseParam x stPromptNotFound 0x40
  else if s.playing id ≠ 0 then .refuse stPromptInUse []
  else .done stOk [] { s with store := { s.store with prompts := tabDrop s.store.prompts id,
                                                      cache := uncache s.store.cache id,
                                                      badPieces := s.store.badPieces.filter (fun p => p.1 != id) } }

/-- Bytes in the prompt cache. -/
def cacheBytes (l : List CachedPiece) : Nat := (l.map (·.bytes)).sum

/-- One prompt's values (Table 16.6). -/
def State.promptTlvs (s : State) (id : Nat) (p : Prompt) : List Tlv :=
  [rep 0x40 4 id, rep 0x400 4 p.rate, rep 0x401 1 p.encoding, rep 0x402 4 p.samples, rep 0x403 4 (s.playing id)]

def promptQueryBody : Body := fun x s =>
  let tail := [rep 0x404 8 s.promptBytes, rep 0x405 8 (cacheBytes s.store.cache)] ++
    counterTlvs 0x800 3 s.store.promptCounts
  let t := if x.clear then { s with store := { s.store with promptCounts := [] } } else s
  match paramNat? x.params 0x40 with
  | none => .done stOk ((s.store.prompts.map (fun e => s.promptTlvs e.1 e.2)).flatten ++ tail) t
  | some id =>
    match tabFind? s.store.prompts id with
    | none => refuseParam x stPromptNotFound 0x40
    | some p => .done stOk (s.promptTlvs id p ++ tail) t

/-! ## The layout of DRAM (R567, R568) -/

def mib : Nat := 1048576

/-- The machine with other sizes of its variable areas: bytes that leave the host area are wiped. -/
def State.resized (s : State) (store cache trace : Nat) : State :=
  let s1 := { s with store := { s.store with storeSize := store, cacheSize := cache, traceSize := trace } }
  { s1 with store := { s1.store with
      dram := s1.store.dram.filter (fun e => decide (e.1 < s1.hostEnd)),
      cache := if store = s.store.storeSize ∧ cache = s.store.cacheSize ∧ trace = s.store.traceSize then s1.store.cache
               else [] } }

/-- Whether the source or chain of a job reaches past an address. -/
def jobReaches (s : State) (e : Nat) (j : Job) : Bool :=
  (match j.source with | .dram a n => decide (e < a + n) | .bytes _ => false) ||
  (match j.chain with
   | none => false
   | some c => decide (e < c + 16) || (chainBuffers s j.base chainLimit c).any (fun b => decide (e < b.1 + b.2)))

/-- What refuses other sizes, if anything (R568). -/
def State.resizeRefusal (s : State) (store cache trace : Nat) : Option Nat :=
  let taken := store + cache + trace
  if s.usableBytes < hostStart + 128 * mib + taken then some stOutOfRange
  else
    let e := s.usableBytes - taken
    if e < s.hostEnd ∧ s.allJobs.any (jobReaches s e) then some stWrongState else none

def promptStoreConfigBody : Body := fun x s =>
  let store := paramNat x.params 0x40 s.store.storeSize
  let cache := paramNat x.params 0x41 s.store.cacheSize
  if 1073741824 < store ∨ store % mib ≠ 0 then refuseParam x stOutOfRange 0x40
  else if cache < 4 * mib ∨ 256 * mib < cache then refuseParam x stOutOfRange 0x41
  else
    match s.resizeRefusal store cache s.store.traceSize with
    | some st =>
      if st = stOutOfRange then refuseParam x st (if paramHas x.params 0x40 then 0x40 else 0x41) else .refuse st []
    | none =>
      if s.store.prompts ≠ [] then .refuse stWrongState [] else .done stOk [] (s.resized store cache s.store.traceSize)

def traceConfigBody : Body := fun x s =>
  let size := match paramNat? x.params 0x42 with | some n => n * mib | none => s.store.traceSize
  match s.resizeRefusal s.store.storeSize s.store.cacheSize size with
  | some st => if st = stOutOfRange then refuseParam x st 0x42 else .refuse st []
  | none =>
    let s1 := s.resized s.store.storeSize s.store.cacheSize size
    let on := paramFlag x.params 0x40 s.store.traceOn
    let ran := on || (s.store.traceRan && size == s.store.traceSize)
    .done stOk [] { s1 with store := { s1.store with traceOn := on, traceRan := ran,
                                                     traceMask := paramNat x.params 0x41 s.store.traceMask } }

/-- What the trace area holds: the spec gives its content no form, so the bytes are free once anything was traced. -/
def State.traceBytes (s : State) : List Byte :=
  if s.store.traceRan then freeBytes s.draws 1 (Config.freeAt s.draws 0 % (s.store.traceSize + 1)) else []

def traceDumpBody : Body := fun x s =>
  if ¬ paramHas x.params 0x43 then refuseMissing x 0x43
  else
    let c := paramNat x.params 0x43 0
    if c % 16 ≠ 0 ∨ ¬ s.inSight c 16 then refuseParam x stOutOfRange 0x43
    else .accepted (s.drawn.queueJob (newJob s x .traceDump (.bytes s.traceBytes) (some c)))

/-! ## The user kernel (R347, R452) -/

/-- How many channels have a hook set. -/
def State.hookedChannels (s : State) : Nat := (s.channels.filter (fun e => hooked e.2)).length

def userKernelLoadBody : Body := fun x s =>
  let a := paramNat x.params 0x41 0
  let n := paramNat x.params 0x42 0
  if ¬ s.inSight a n then refuseParam x stOutOfRange 0x41
  else if originalOver (memRead s.store.dram a n) 16448 then refuseParam x stUserKernelBad 0x41
  else if s.hookedChannels ≠ 0 then .refuse stUserKernelInUse []
  else .accepted (s.queueJob (newJob s x .kernel (.dram a n) none))

def userKernelQueryBody : Body := fun _ s =>
  .done stOk [rep 0x400 1 s.kernelEntries, rep 0x401 2 (if s.store.kernel = [] then 0 else u16 s.store.kernel 8),
    rep 0x402 4 s.hookedChannels] s

/-! ## The coefficient ROM (R228) -/

/-- The words of a ROM entry: H0 to H23, then P0 to P7. -/
def romWord (e k : Nat) : Int := if e < 24 then halfBandWord e k else protoWord (e - 24) k
def romWords (e : Nat) : Nat := if e < 24 then stageTaps e else 1024

def rsRomReadBody : Body := fun x s =>
  if ¬ paramHas x.params 0x40 then refuseMissing x 0x40
  else
    let e := paramNat x.params 0x40 0
    let first := paramNat x.params 0x41 0
    let count := paramNat x.params 0x42 (romWords e - first)
    if romWords e ≤ first then refuseParam x stOutOfRange 0x41
    else if romWords e < first + count then refuseParam x stOutOfRange 0x42
    else
      let words := ((List.range count).map (fun k => beInt 4 (romWord e (first + k)))).flatten
      .done stOk (imageTlvs 0x400 65 words) s

/-! ## FW_LOAD (R573) -/

def fwLoadBody : Body := fun x s =>
  let slot := paramNat x.params 0x40 0
  let a := paramNat x.params 0x41 0
  let n := paramNat x.params 0x42 0
  if ¬ s.inSight a n then refuseParam x stOutOfRange 0x41
  else if s.slotRuns slot then .refuse stWrongState []
  else .accepted (s.queueJob (newJob s x (.firmware slot) (.dram a n) none))

/-! ## The meanings -/

def execTableLoad (p : Packet) (s : State) : Host.Outcome State Fault Refusal := .next (fylosRun 0x0710 tableLoadBody p s)
def execTableDelete (p : Packet) (s : State) : Host.Outcome State Fault Refusal :=
  .next (fylosRun 0x0711 tableDeleteBody p s)
def execTableQuery (p : Packet) (s : State) : Host.Outcome State Fault Refusal := .next (fylosRun 0x0712 tableQueryBody p s)
def execTableRead (p : Packet) (s : State) : Host.Outcome State Fault Refusal := .next (fylosRun 0x0713 tableReadBody p s)
def execPromptLoad (p : Packet) (s : State) : Host.Outcome State Fault Refusal := .next (fylosRun 0x0720 promptLoadBody p s)
def execPromptDelete (p : Packet) (s : State) : Host.Outcome State Fault Refusal :=
  .next (fylosRun 0x0721 promptDeleteBody p s)
def execPromptQuery (p : Packet) (s : State) : Host.Outcome State Fault Refusal :=
  .next (fylosRun 0x0724 promptQueryBody p s)
def execPromptStoreConfig (p : Packet) (s : State) : Host.Outcome State Fault Refusal :=
  .next (fylosRun 0x0725 promptStoreConfigBody p s)
def execFwLoad (p : Packet) (s : State) : Host.Outcome State Fault Refusal := .next (fylosRun 0x0C01 fwLoadBody p s)
def execImageEnlarge (p : Packet) (s : State) : Host.Outcome State Fault Refusal :=
  .next (fylosRun 0x0C05 imageEnlargeBody p s)
def execImageReduce (p : Packet) (s : State) : Host.Outcome State Fault Refusal :=
  .next (fylosRun 0x0C06 imageReduceBody p s)
def execUserKernelLoad (p : Packet) (s : State) : Host.Outcome State Fault Refusal :=
  .next (fylosRun 0x0C20 userKernelLoadBody p s)
def execUserKernelQuery (p : Packet) (s : State) : Host.Outcome State Fault Refusal :=
  .next (fylosRun 0x0C22 userKernelQueryBody p s)
def execTraceConfig (p : Packet) (s : State) : Host.Outcome State Fault Refusal :=
  .next (fylosRun 0x0E02 traceConfigBody p s)
def execTraceDump (p : Packet) (s : State) : Host.Outcome State Fault Refusal := .next (fylosRun 0x0E03 traceDumpBody p s)
def execRsRomRead (p : Packet) (s : State) : Host.Outcome State Fault Refusal := .next (fylosRun 0x0E10 rsRomReadBody p s)

end Sys2Proof.Machine
end

