-- ==== Sys2Proof/Machine/JobCommit.lean ====
section
/-! DEFINITION. What the end of an engine job does: chains for the host and the destinations of Table 17.3 (R285, R291,
R293, R347, R460, R461, R465 to R467, R573). -/

namespace Sys2Proof.Machine

/-! ## Chains for the host (R453, R464 to R466) -/

/-- BYTES_WRITTEN and INPUT_CONSUMED (R453). -/
def chainReport (written read : Nat) : List Tlv := [rep 0x400 8 written, rep 0x401 8 read]

/-- The completion of a job's command, if it has one. -/
def State.completeJob (s : State) (j : Job) (st : Nat) (l : List Tlv) : State :=
  match j.ref with
  | some r => s.complete r st l
  | none => s

/-- Output through a chain, STATE, and the completion with the status that matches it (R464 to R466). -/
def State.endChain (s : State) (j : Job) (c : Nat) (out : List Byte) (read st status : Nat) : State :=
  let bufs := chainBuffers s j.base chainLimit c
  let m := chainState (chainWrite s.store.dram bufs out) c st
  ({ s with store := { s.store with dram := m } }).completeJob j status (chainReport out.length read)

/-- The log entry of an uncorrectable DRAM error under a job, if it met one (Table 20.1). -/
def State.logJobError (s : State) (err : JobError) : State :=
  if err = .none then s else s.drawn.logError 0x24 4 8 0 0xFFFF 0 4 s.freeValue

/-- A chain job that meets an uncorrectable error (R466): what it has written by then is free. -/
def State.faultChain (s : State) (j : Job) (c : Nat) (out : List Byte) (status st : Nat) : State :=
  let room := chainRoom (chainBuffers s j.base chainLimit c)
  let k := Config.freeAt s.draws 0 % (min room out.length + 1)
  s.drawn.endChain j c (out.take k) (Config.freeAt s.draws 1 % (sourceLength j.source + 1)) st status

/-- An IMAGE_ENLARGE job's end. -/
def State.endEnlarge (s : State) (j : Job) (c : Nat) (err : JobError) : State :=
  let f := s.sourceBytes j.source
  let e := enlarge f (some (chainRoom (chainBuffers s j.base chainLimit c)))
  match err with
  | .none =>
    match e.ended with
    | .confirmed => s.endChain j c e.out e.read 2 stConfirmed
    | .checkFailed => s.endChain j c e.out e.read 3 stCheckFailed
    | .outOfSpace => s.endChain j c e.out e.read 4 stOutOfSpace
  | .source => s.faultChain j c e.out stCheckFailed 3
  | .descriptor => s.faultChain j c e.out stInternalFault 6

/-- An IMAGE_REDUCE or TRACE_DUMP job's end. -/
def State.endReduce (s : State) (j : Job) (c : Nat) (err : JobError) : State :=
  let input := s.sourceBytes j.source
  let f := reduce input
  let room := chainRoom (chainBuffers s j.base chainLimit c)
  match err with
  | .none =>
    if room < f.length then s.endChain j c (f.take room) (min input.length (Config.deflateRead input room)) 4 stOutOfSpace
    else s.endChain j c f input.length 5 stOk
  | .source | .descriptor => s.faultChain j c f stInternalFault 6

/-! ## Tables (R285, R287) -/

/-- The load at the head of the line ends, and the next one runs. -/
def State.loadDone (s : State) (st : Nat) (l : List Tlv) : State :=
  match s.store.loads with
  | [] => s
  | x :: r => (({ s with store := { s.store with loads := r } }).complete x.ref st l).runLoad

/-- Whether a play still uses a table's retired version (R287). -/
def State.retiredInUse (s : State) (id : Nat) : Bool :=
  match tabFind? s.store.retired id with
  | none => false
  | some img => s.channels.any (fun e =>
      [e.2.media.a, e.2.media.b].any (fun m => match m.generator with
        | some g => g.table == id && g.image == img
        | none => false))

/-- Whether a new table fits the store (R269, R285). -/
def State.tableFits (s : State) (id : Nat) (img : List Byte) : Bool :=
  tabHas s.store.tables id ||
  decide (s.tableCount < 1024 ∧ s.tableBytes + img.length ≤ 16 * mib)

/-- The end of a table image's job (R285). -/
def State.endTable (s : State) (j : Job) (id : Nat) (err : JobError) : State :=
  let e := enlarge (s.sourceBytes j.source) none
  if err ≠ .none ∨ e.ended ≠ .confirmed then s.loadDone stCheckFailed []
  else
    match imageFault e.out id with
    | some o => s.loadDone stBadTable (errorTlvs 0 o)
    | none =>
      if s.retiredInUse id then s.loadDone stTableBusy []
      else if ¬ s.tableFits id e.out then s.loadDone stTableStoreFull []
      else
        match j.ref with
        | some r => { s with store := { s.store with commits := s.store.commits ++ [{ ref := r, id := id, image := e.out }] } }
        | none => s

/-- A table committed at a tick origin (R286): a GENERATOR table's old version stays while a play uses it. -/
def State.commitTable (s : State) (c : TableCommit) : State :=
  let used := s.channels.any (fun e =>
    [e.2.media.a, e.2.media.b].any (fun m => match m.generator with | some g => g.table == c.id | none => false))
  let old := if used then tabFind? s.store.tables c.id else none
  let ret := match old with | some img => tabPut s.store.retired c.id img | none => tabDrop s.store.retired c.id
  ({ s with store := { s.store with tables := tabPut s.store.tables c.id c.image, retired := ret } }).loadDone stOk []

/-- Every table that waits for the tick origin, committed. -/
def State.commitTables (s : State) : State :=
  let l := s.store.commits
  l.foldl State.commitTable { s with store := { s.store with commits := [] } }

/-! ## The user kernel (R347) -/

/-- Table 12.13. -/
def kernelOk (l : List Byte) : Bool :=
  let n := u8 l 6
  let w := u16 l 8
  u32 l 0 == 0x575A554B && u16 l 4 == 1 && decide (1 ≤ n ∧ n ≤ 16) && u8 l 7 == 0 && decide (1 ≤ w ∧ w ≤ 2048) &&
  allZero (slice l 10 6) && allZero (slice l 0x30 16) && l.length == 64 + 8 * w &&
  (List.range 16).all (fun i => if i < n then decide (u16 l (0x10 + 2 * i) < w) else u16 l (0x10 + 2 * i) == 0)

/-- The first word of the user partition. -/
def userBase : Nat := 0x1800

/-- A kernel written into one cell's partition. -/
def fillKernel (img : List Byte) (m : Tab (BitVec 64)) : Tab (BitVec 64) :=
  (List.range (u16 img 8)).foldl (fun m i =>
    tabSet m (userBase + i) (BitVec.ofNat 64 (leNat (slice img (64 + 8 * i) 8))) 0) m

def State.fillKernels (s : State) (img : List Byte) : State :=
  (List.range 128).foldl (fun s n => s.modCell n (fun c => { c with imem := fillKernel img c.imem })) s

def State.endKernel (s : State) (j : Job) (err : JobError) : State :=
  let e := enlarge (s.sourceBytes j.source) none
  if err ≠ .none ∨ e.ended ≠ .confirmed then s.completeJob j stCheckFailed []
  else if ¬ kernelOk e.out then s.completeJob j stUserKernelBad []
  else if s.hookedChannels ≠ 0 then s.completeJob j stUserKernelInUse []
  else (({ s with store := { s.store with kernel := e.out } }).fillKernels e.out).completeJob j stOk []

/-! ## Prompts (R291 to R294) -/

/-- Whether every piece of a prompt image is CONFIRMED. -/
def piecesConfirmed (img : List Byte) : Bool :=
  promptHeaderOk img && promptPiecesOk img &&
  (List.range (u32 img 16)).all (fun i => (enlarge (pieceFrame img i) none).ended == .confirmed)

def State.endPrompt (s : State) (j : Job) (id : Nat) (err : JobError) : State :=
  let img := s.sourceBytes j.source
  if err ≠ .none ∨ ¬ piecesConfirmed img then s.completeJob j stCheckFailed []
  else
    let p : Prompt := { encoding := u8 img 6, rate := u32 img 8, samples := u32 img 12, pieceSamples := u32 img 20,
                        image := img }
    ({ s with store := { s.store with prompts := tabPut s.store.prompts id p, cache := uncache s.store.cache id,
                                      badPieces := s.store.badPieces.filter (fun x => x.1 != id) } }).completeJob
      j stOk []

/-- Pieces of a prompt. -/
def Prompt.pieces (p : Prompt) : Nat := (p.samples + p.pieceSamples - 1) / p.pieceSamples

/-- The piece a play is in: its prompt and index. -/
def State.currentPiece (s : State) (p : Prompting) : Option (Nat × Nat) :=
  match p.prompts[p.index]? with
  | none => none
  | some id =>
    match tabFind? s.store.prompts id with
    | none => none
    | some q => some (id, p.position / q.pieceSamples)

/-- The piece after the one a play is in. -/
def State.nextPiece (s : State) (p : Prompting) : Option (Nat × Nat) :=
  match s.currentPiece p with
  | none => none
  | some (id, k) =>
    match tabFind? s.store.prompts id with
    | none => none
    | some q =>
      if k + 1 < q.pieces then some (id, k + 1)
      else if p.index + 1 < p.prompts.length then (p.prompts[p.index + 1]?).map (fun i => (i, 0))
      else if p.repeats = 0 ∨ p.done + 1 < p.repeats then (p.prompts[0]?).map (fun i => (i, 0))
      else none

/-- Pieces that a play is in or enters next (R293). -/
def State.pieceWanted (s : State) (x : Nat × Nat) : Bool :=
  s.channels.any (fun e => [e.2.media.a, e.2.media.b].any (fun m => match m.prompt with
    | some p => s.currentPiece p == some x || s.nextPiece p == some x
    | none => false))

/-- The pieces left when the least recently used that no play needs have made room for `n` bytes (R293). -/
def evict (wanted : Nat × Nat → Bool) (limit n : Nat) : Nat → List CachedPiece → List CachedPiece
  | 0, l => l
  | fuel + 1, l =>
    if cacheBytes l + n ≤ limit then l
    else
      match l.find? (fun p => !(wanted (p.prompt, p.index))) with
      | none => l
      | some p => evict wanted limit n fuel (l.erase p)

/-- Whether a piece is cached. -/
def State.cached (s : State) (x : Nat × Nat) : Bool := s.store.cache.any (fun p => (p.prompt, p.index) == x)

/-- A cached piece becomes the most recently used. -/
def State.touchPiece (s : State) (x : Nat × Nat) : State :=
  let l := s.store.cache
  let l1 := l.filter (fun p => (p.prompt, p.index) != x) ++ l.filter (fun p => (p.prompt, p.index) == x)
  { s with store := { s.store with cache := l1 } }

def State.countPrompt (s : State) (c : PromptCount) : State :=
  { s with store := { s.store with promptCounts := bump s.store.promptCounts c.ctorIdx } }

/-- A piece requested of the Enlarger of a channel's region (R293, R468): a hit or a miss of the cache. -/
def State.requestPiece (s : State) (c : Nat) (x : Nat × Nat) : State :=
  if s.cached x then (s.touchPiece x).countPrompt .hits
  else
    match tabFind? s.store.prompts x.1 with
    | none => s
    | some p =>
      let s1 := s.countPrompt .misses
      if s.allJobs.any (fun j => j.use == .piece x.1 x.2) then s1
      else s1.queueJobAt (blockRegion (s.channel c).block)
        { ref := none, use := .piece x.1 x.2, cls := 1, order := 0, source := .bytes (pieceFrame p.image x.2),
          chain := none, base := 0 }

/-- The pieces a play asks for as it starts, or enters a piece: this one where it starts, and the next (R293). -/
def State.requestPieces (s : State) (c leg : Nat) (start : Bool) : State :=
  match ((s.channel c).legMedia leg).prompt with
  | none => s
  | some p =>
    let s1 := match s.currentPiece p with
      | some x => if start then s.requestPiece c x else s
      | none => s
    match s1.nextPiece p with
    | some x => s1.requestPiece c x
    | none => s1

/-- The current play of a leg ended, and the next queued one begun (R293, R294). -/
def State.endPlay (s : State) (c leg reason : Nat) : State :=
  let m := (s.channel c).legMedia leg
  match m.prompt with
  | none => s
  | some p =>
    let s1 := s.promptNotice c leg p reason
    (s1.modChannel c (fun v =>
      let m := v.legMedia leg
      v.setLegMedia leg { m with prompt := m.queue.head?, queue := m.queue.tail, playsWanted := m.playsWanted - 1 })).requestPieces
      c leg true

/-- Every play that needs a piece ended FAULT (R293). -/
def State.faultPlays (s : State) (x : Nat × Nat) : State :=
  s.channels.foldl (fun t e =>
    [0, 1].foldl (fun t leg =>
      match (e.2.legMedia leg).prompt with
      | some p => if s.currentPiece p == some x || s.nextPiece p == some x then t.endPlay e.1 leg 2 else t
      | none => t) t) s

/-- The end of a piece's job (R293, Table 17.3). -/
def State.endPiece (s : State) (j : Job) (x : Nat × Nat) (err : JobError) : State :=
  let f := s.sourceBytes j.source
  let e := enlarge f none
  if s.store.badPieces.contains x then s.faultPlays x
  else if err ≠ .none then
    { s with store := { s.store with badPieces := s.store.badPieces ++ [x] } }.faultPlays x
  else if e.ended ≠ .confirmed ∨ originalOver f 96000 then s.faultPlays x
  else
    let l := evict s.pieceWanted s.store.cacheSize e.out.length s.store.cache.length s.store.cache
    if cacheBytes l + e.out.length ≤ s.store.cacheSize then
      { s with store := { s.store with cache := l ++ [{ prompt := x.1, index := x.2, bytes := e.out.length }] } }
    else { s with store := { s.store with cache := l } }

/-! ## Firmware images (R572, R573) -/

/-- The section of a type in an image's original data; nothing where there is none. -/
def sectionOf (l : List Byte) (typ : Nat) : List Byte :=
  let entry := fun (i k : Nat) => u32 l (4 + 12 * i + 4 * k)
  match (List.range (u32 l 0)).find? (fun i => entry i 0 == typ) with
  | some i => slice l (entry i 1) (entry i 2)
  | none => []

/-- An entry of a staging list (Table 14.5): where in the context slot its bytes lie, how many, where in the thread page they go, and
on which side; whether DONE writes them back. -/
structure StageEntry where
  src : Nat
  len : Nat
  dst : Nat
  yside : Bool
  commit : Bool
  deriving DecidableEq, Repr

def stageEntryOf (w : Nat) : StageEntry :=
  { src := w % 65536, len := 16 * (w / 2 ^ 16 % 4096), dst := 16 * (w / 2 ^ 28 % 4096), yside := w.testBit 40, commit := w.testBit 41 }

/-- The entries of a template's words, up to the one with LAST set. -/
def listEntries : List Nat → Option (List StageEntry)
  | [] => none
  | w :: r => if w.testBit 63 then some [stageEntryOf w] else (listEntries r).map (stageEntryOf w :: ·)

/-- Whether two extents of one side lie apart. -/
def extentsApart (a b : StageEntry) : Bool := a.yside != b.yside || decide (a.dst + a.len ≤ b.dst ∨ b.dst + b.len ≤ a.dst)

/-- The rules of R386 on one entry: an X extent leaves the header of Table 12.9 free, and both sides the user areas. -/
def stageEntryOk (e : StageEntry) : Bool :=
  e.src % 16 == 0 && decide (16 ≤ e.len ∧ e.len ≤ 2048 * 16 ∧ e.dst + e.len ≤ 0x8000) && (e.yside || decide (0x20 ≤ e.dst))

/-- Template `i` of a section: 16 words. -/
def templateWords (l : List Byte) (i : Nat) : List Nat := (List.range 16).map (fun k => fieldAt (slice l (128 * i + 8 * k) 8) 0 8)

/-- Whether a template keeps the rules of R386; one that is all zero is not used. -/
def templateOk (w : List Nat) : Bool :=
  w.all (· == 0) || (match listEntries w with
    | none => false
    | some l => l.all stageEntryOk && decide (l.Pairwise (fun a b => extentsApart a b = true)))

/-- The section of the 64 staging list templates. -/
def templatesOk (l : List Byte) : Bool := decide (l.length ≤ 8192) && (List.range 64).all (fun i => templateOk (templateWords l i))

/-- The section directory (R572), and the templates that load with the image (R386). -/
def directoryOk (l : List Byte) : Bool :=
  let n := u32 l 0
  let entry := fun (i k : Nat) => u32 l (4 + 12 * i + 4 * k)
  let types := (List.range n).map (fun i => entry i 0)
  decide (1 ≤ n ∧ n ≤ 32 ∧ 4 + 12 * n ≤ l.length) && types.all (fun t => decide (1 ≤ t ∧ t ≤ 6)) && types.Nodup &&
  [1, 2, 3, 4, 5].all types.contains &&
  (List.range n).all (fun i => decide (entry i 1 + entry i 2 ≤ l.length) &&
    (entry i 0 != 2 || decide (entry i 2 ≤ 48 * 1024)) && (entry i 0 != 3 || decide (entry i 2 ≤ 32 * 1024))) &&
  templatesOk (sectionOf l 4)

/-- The bit of STEPPINGS that belongs to this part: A1. -/
def steppingBit : Nat := 1

/-- The first check of R573 that an image of at most `limit` bytes fails, as BOOT_STATUS.ERROR numbers it; 0 for none. -/
def firmwareError (life : Life) (img : List Byte) (limit : Nat) : Nat :=
  let n := u32 img 0x10
  let payload := slice img 512 n
  let e := enlarge payload none
  if ¬ (u32 img 0 = 0x575A4657 ∧ u16 img 4 = 1 ∧ u16 img 6 = 0 ∧ (u8 img 0xF).testBit steppingBit ∧ 24 ≤ n ∧ n ≤ 16776704 ∧
      allZero (slice img 0x14 12) ∧ allZero (slice img 0xB1 15) ∧ allZero (slice img 0x120 224) ∧ 512 ≤ img.length) then 2
  else if limit < 512 + n ∨ img.length < 512 + n then 8
  else if ¬ life.keyBlank ∧ Config.sha384 (slice img 0x50 97) ≠ life.keyHash then 3
  else if ¬ Config.ecdsaVerifies (slice img 0x50 97) (slice img 0xC0 96) (Config.sha384 (img.take 0xC0)) then 4
  else if Config.sha384 payload ≠ slice img 0x20 48 then 5
  else if originalOver payload (32 * mib) ∨ e.ended ≠ .confirmed then 6
  else if ¬ directoryOk e.out then 7
  else 0

/-- The original data of the firmware image that a block runs. -/
def State.blockImage (s : State) (b : Nat) : List Byte := (tabGet s.life.slots (s.block b).firmware {}).data

/-- Block memory from which the staging list templates are read: their place in it (Table 14.6). -/
def templateBase : Nat := 0x1E4000

/-- The staging list templates of a block's image loaded into its block memory, little-endian (R386, R495). -/
def State.loadTemplates (s : State) (b : Nat) : State :=
  let l := sectionOf (s.blockImage b) 4
  let bytes := ((List.range ((l.length + 7) / 8)).map (fun i => leBytes 8 (fieldAt (slice l (8 * i) 8) 0 8))).flatten
  s.modBlock b (fun k => { k with memory := memWrite (memWipe k.memory templateBase 8192) templateBase bytes })

/-- A slot that holds an image. -/
def slotOf (img : List Byte) : FwSlot :=
  { held := true, version := u32 img 8, format := u8 img 0xC, fylosMin := u8 img 0xD, fylosMax := u8 img 0xE,
    data := (enlarge (slice img 512 (u32 img 0x10)) none).out }

def State.endFirmware (s : State) (j : Job) (slot : Nat) (err : JobError) : State :=
  let img := s.sourceBytes j.source
  let e := firmwareError s.life img (16 * mib)
  if err ≠ .none then s.completeJob j stCheckFailed []
  else if e = 6 then s.completeJob j stCheckFailed []
  else if e ≠ 0 then s.completeJob j stImageAuthFailed []
  else
    let l := { s.life with slots := tabSet s.life.slots slot (slotOf img) {}, failedSlots := s.life.failedSlots.filter (· ≠ slot) }
    { s with life := l }.completeJob j stOk []

end Sys2Proof.Machine
end

