-- ==== Sys2Proof/Machine/Payloads.lean ====
section
/-! DEFINITION. What the payloads of an RTP leg hold: the RTP header, the frames of each codec's format (R175, R199, R201 to R204,
R207), UDPTL datagrams (R214), and the tables of tone generators (R278, R280). -/

namespace Sys2Proof.Machine

/-- The item of a run's draw that one purpose of one leg takes. -/
def runItem (leg purpose i : Nat) : Nat := (leg * 64 + purpose) * 65536 + i

/-! ## RTP -/

/-- What an RTP header says (RFC 3550 as R164 and R174 use it). -/
structure RtpHead where
  marker : Bool
  pt : Nat
  seq : Nat
  ts : Nat
  ssrc : Nat
  payload : List Byte
  deriving DecidableEq, Repr

/-- The RTP header of a packet, past CSRCs, an extension and padding. -/
def rtpParse (b : List Byte) : Option RtpHead :=
  let b0 := u8 b 0
  let o := 12 + 4 * (b0 % 16)
  let o1 := if b0.testBit 4 then o + 4 + 4 * u16 b (o + 2) else o
  let pad := if b0.testBit 5 then u8 b (b.length - 1) else 0
  if b.length < 12 ∨ b0 / 64 ≠ 2 ∨ b.length < o1 + pad then none
  else some { marker := (u8 b 1).testBit 7, pt := u8 b 1 % 128, seq := u16 b 2, ts := u32 b 4, ssrc := u32 b 8,
              payload := slice b o1 (b.length - o1 - pad) }

/-! ## Codecs (Tables 7.1 and 7.2) -/

/-- The concealment of each codec (Table 7.2). -/
inductive Concealment
  | g711AppendixI | g711AppendixIReencoded | g722AppendixIII | g729Erasure | ts26091 | ts26191 | opusPlc | redundantIfps
  deriving DecidableEq, Repr

/-- The concealment R182 uses for a codec. -/
def concealmentOf (codec : Nat) : Option Concealment :=
  if codec ≤ 1 then some .g711AppendixI else if codec = 2 then some .g711AppendixIReencoded
  else if codec = 3 then some .g722AppendixIII else if codec = 4 then some .g729Erasure else if codec = 5 then some .ts26091
  else if codec = 6 then some .ts26191 else if codec = 7 then some .opusPlc else if codec = 10 then some .redundantIfps else none

/-- The bytes of one negative of a codec; a CN or event frame, and T.38, have none. -/
def negativeBytes (codec : Nat) : Nat :=
  if codec ≤ 1 then 64 else if codec = 2 then 96 else if codec = 3 then 160 else if codec = 4 then 448 else if codec = 5 then 592
  else if codec = 6 then 1408 else if codec = 7 then 1984 else 0

/-- The algorithmic look-ahead of a codec, in units of 0.0001 ms. -/
def lookAhead (codec : Nat) : Nat :=
  if codec ≤ 2 then 0 else if codec = 3 then 14375 else if codec = 4 ∨ codec = 5 then 50000 else if codec = 6 then 59375
  else if codec = 7 then 65000 else 0

/-- The bytes of the negative a frame holds (R183). -/
def FrameRec.negativeSize (f : FrameRec) : Nat := if f.negative then negativeBytes f.codec else 0

/-- The frame length of a codec in ms, at a packet duration (R207). -/
def frameMs (codec ptime : Nat) : Nat := if codec = 5 ∨ codec = 6 then 20 else if codec = 7 then min ptime 20 else 10

/-! ## AMR and AMR-WB (RFC 4867) -/

/-- Bit `k` of a byte string, most significant first. -/
def bitAt (l : List Byte) (k : Nat) : Bool := (u8 l (k / 8)).testBit (7 - k % 8)

/-- `n` bits of a byte string from bit `k`, as a number. -/
def bitsFrom (l : List Byte) (k n : Nat) : Nat := (List.range n).foldl (fun a i => 2 * a + boolNat (bitAt l (k + i))) 0

/-- The low `n` bits of a number, most significant first. -/
def bitsOf (n v : Nat) : List Bool := (List.range n).map (fun i => v.testBit (n - 1 - i))

/-- Bits packed into bytes, most significant first, the last padded with zeros. -/
def packBits : Nat → List Bool → List Byte
  | 0, _ => []
  | fuel + 1, l =>
    if l = [] then []
    else BitVec.ofNat 8 ((List.range 8).foldl (fun a i => 2 * a + boolNat ((l[i]?).getD false)) 0) :: packBits fuel (l.drop 8)

def octetAligned (e : List Byte) : Bool := (entryFlags e).testBit 2

/-- The frame types an AMR payload's table of contents lists. -/
def amrTypes (l : List Byte) (octet : Bool) : Nat → Nat → List Nat
  | 0, _ => []
  | fuel + 1, i =>
    let o := if octet then 8 + 8 * i else 4 + 6 * i
    if 8 * l.length < o + 6 then []
    else bitsFrom l (o + 1) 4 :: (if bitAt l o then amrTypes l octet fuel (i + 1) else [])

/-- The frame types of a payload under its map entry. -/
def typesOf (e l : List Byte) : List Nat := amrTypes l (octetAligned e) 64 0

/-- A silence descriptor's frame type: 8 to 11 of AMR, 9 of AMR-WB. -/
def sidType (codec t : Nat) : Bool := if codec = 5 then decide (8 ≤ t ∧ t ≤ 11) else t == 9

/-- The bits of an AMR or AMR-WB frame of a type. -/
def amrBits (codec t : Nat) : Nat :=
  ((if codec = 5 then [95, 103, 118, 134, 148, 159, 204, 244, 39] else [132, 177, 253, 285, 317, 365, 397, 461, 477, 40])[t]?).getD 0

/-- An AMR payload: the mode request, the table of contents and the frames (RFC 4867). -/
def amrPayload (codec cmr : Nat) (octet : Bool) (frames : List (Nat × List Byte)) : List Byte :=
  let toc := (frames.zipIdx).map (fun p => (decide (p.2 + 1 < frames.length), p.1.1))
  let bits := fun (f : Nat × List Byte) => (List.range (amrBits codec f.1)).map (bitAt f.2)
  if octet then
    BitVec.ofNat 8 (cmr * 16) :: toc.map (fun t => BitVec.ofNat 8 (boolNat t.1 * 128 + t.2 * 8 + 4)) ++
    (frames.map (fun f => packBits 64 (bits f))).flatten
  else
    packBits 400 (bitsOf 4 cmr ++ (toc.map (fun t => t.1 :: bitsOf 4 t.2 ++ [true])).flatten ++ (frames.map bits).flatten)

/-! ## Opus (RFC 6716) -/

/-- Eighths of a millisecond of one frame of an Opus packet, from its TOC byte. -/
def opusFrameUnits (l : List Byte) : Nat :=
  let cfg := u8 l 0 / 8
  if cfg < 12 then ([80, 160, 320, 480][cfg % 4]?).getD 0
  else if cfg < 16 then (if cfg % 2 = 0 then 80 else 160)
  else ([20, 40, 80, 160][cfg % 4]?).getD 0

/-- The frames of an Opus packet. -/
def opusFrames (l : List Byte) : Nat :=
  let c := u8 l 0 % 4
  if c = 0 then 1 else if c = 3 then u8 l 1 % 64 else 2

/-- Eighths of a millisecond of an Opus packet, from its TOC bytes. -/
def opusUnits (l : List Byte) : Nat := opusFrameUnits l * opusFrames l

/-- A frame length as an Opus packet codes it. -/
def opusLength (n : Nat) : List Byte :=
  if n < 252 then [BitVec.ofNat 8 n] else [BitVec.ofNat 8 (252 + n % 4), BitVec.ofNat 8 ((n - (252 + n % 4)) / 4)]

/-- The bytes a coded frame length takes at offset `o`. -/
def opusLengthSize (l : List Byte) (o : Nat) : Nat := if u8 l o < 252 then 1 else 2

/-- The bytes of padding length from offset `o`. -/
def opusPadding (l : List Byte) : Nat → Nat → Nat
  | 0, _ => 0
  | fuel + 1, o => if u8 l o = 255 then 1 + opusPadding l fuel (o + 1) else 1

/-- The offset past `n` coded frame lengths. -/
def opusPast (l : List Byte) : Nat → Nat → Nat
  | 0, o => o
  | n + 1, o => opusPast l n (o + opusLengthSize l o)

/-- Where the first frame of an Opus packet lies. -/
def opusFirst (l : List Byte) : Nat :=
  let c := u8 l 0 % 4
  if c < 2 then 1
  else if c = 2 then 1 + opusLengthSize l 1
  else
    let o := if (u8 l 1).testBit 6 then 2 + opusPadding l l.length 2 else 2
    if (u8 l 1).testBit 7 then opusPast l (opusFrames l - 1) o else o

/-- Whether an Opus packet carries in-band FEC data: the LBRR flag of its first frame's SILK layer, which follows one voice
activity flag for each 20 ms. -/
def opusFec (l : List Byte) : Bool :=
  let o := opusFirst l
  let n := max 1 (opusFrameUnits l / 160)
  decide (u8 l 0 / 8 < 16 ∧ o < l.length) && (u8 l o).testBit (7 - n)

/-- The TOC configurations of the frames the encoder makes: SILK or CELT, narrowband or wideband, 10 or 20 ms. -/
def opusConfig (wide celt : Bool) (ms : Nat) : Nat :=
  let k := if ms = 10 then 0 else 1
  if celt then (if wide then 22 + k else 18 + k) else (if wide then 8 + k else k)

/-- An Opus packet of one, two or three frames of one configuration. -/
def opusPayload (config : Nat) (frames : List (List Byte)) : List Byte :=
  let sizes := frames.map List.length
  let same := sizes.all (fun n => n == sizes.headD 0)
  let toc := fun (c : Nat) => BitVec.ofNat 8 (config * 8 + c)
  if frames.length ≤ 1 then toc 0 :: frames.flatten
  else if frames.length = 2 ∧ same then toc 1 :: frames.flatten
  else if frames.length = 2 then toc 2 :: opusLength (sizes.headD 0) ++ frames.flatten
  else
    toc 3 :: BitVec.ofNat 8 (boolNat (!same) * 128 + frames.length) ::
    ((if same then [] else (sizes.take (frames.length - 1)).flatMap opusLength) ++ frames.flatten)

/-! ## What a payload holds (R175, R202) -/

/-- Whether a payload ends in a silence descriptor, whose comfort noise covers the span up to the next frame. -/
def endsSid (e l : List Byte) : Bool :=
  let c := entryCodec e
  if c = 8 then true
  else if c = 4 then l.length % 10 != 0
  else if c = 5 ∨ c = 6 then
    match ((typesOf e l).filter (fun t => decide (t < 12))).getLast? with
    | some t => sidType c t
    | none => true
  else c == 7 && decide (l.length ≤ 2)

/-- The frames of an AMR payload before the descriptor it ends in. -/
def amrSpeech (e l : List Byte) : Nat :=
  let ts := typesOf e l
  if endsSid e l then
    ((ts.reverse.dropWhile (fun t => decide (12 ≤ t))).drop 1).length
  else ts.length

/-- The duration of a payload under its map entry, in eighths of a millisecond; 0 of a descriptor alone (R175). -/
def payloadUnits (e l : List Byte) : Nat :=
  let c := entryCodec e
  if c ≤ 1 ∨ c = 3 then l.length
  else if c = 2 then l.length * 8 / (entryG726Rate e + 2)
  else if c = 4 then l.length / 10 * 80
  else if c = 5 ∨ c = 6 then 160 * amrSpeech e l
  else if c = 7 then opusUnits l
  else if c = 9 then u16 l 2 * 8000 / entryClock e
  else 0

/-- A payload of comfort noise or descriptors alone (R202). -/
def isSid (e l : List Byte) : Bool :=
  let c := entryCodec e
  c == 8 || (c == 4 && decide (l.length < 10)) || (isAmr e && (typesOf e l).all (fun t => sidType c t || decide (12 ≤ t))) ||
  (c == 7 && decide (l.length ≤ 2))

/-- The comfort noise frames of a payload. -/
def sidFrames (e l : List Byte) : Nat :=
  let c := entryCodec e
  if isAmr e then ((typesOf e l).filter (sidType c)).length
  else boolNat (isAudio e && endsSid e l || c == 8)

/-- The mode request of an AMR payload, if it makes one (R203). -/
def modeRequest (e l : List Byte) : Option Nat :=
  let cmr := bitsFrom l 0 4
  if isAmr e ∧ l ≠ [] ∧ cmr < (if entryCodec e = 5 then 8 else 9) then some cmr else none

/-- The mode of MODE_SET used for a mode: itself, or else the highest below it. -/
def modeUsed (e : List Byte) (mode : Nat) : Option Nat :=
  ((List.range 9).filter (fun i => (entryModeSet e).testBit i && decide (i ≤ mode))).getLast?

/-! ## UDPTL (R214) -/

/-- A length of an ASN.1 open type, below 16,384. -/
def openLength (n : Nat) : List Byte := if n < 128 then beBytes 1 n else beBytes 2 (0x8000 + n)

/-- The length at offset `o` and where what it counts lies. -/
def openAt (l : List Byte) (o : Nat) : Nat × Nat := if u8 l o < 128 then (u8 l o, o + 1) else (u16 l o % 16384, o + 2)

/-- The redundant IFPs a UDPTL datagram carries. -/
def udptlRedundant (l : List Byte) : Nat :=
  let p := openAt l 2
  let o := p.2 + p.1
  if l.length ≤ o + 1 ∨ (u8 l o).testBit 7 then 0 else (openAt l (o + 1)).1

/-- A UDPTL datagram: the primary IFP and the redundant ones, the latest first. -/
def udptlDatagram (seq : Nat) (primary : List Byte) (redundant : List (List Byte)) : List Byte :=
  let one := fun (b : List Byte) => openLength b.length ++ b
  beBytes 2 seq ++ one primary ++ beBytes 1 0 ++ openLength redundant.length ++ redundant.flatMap one

/-- The most redundant IFPs of a list that a datagram of at most `most` bytes takes. -/
def redundancyFit (most seq : Nat) (primary : List Byte) (l : List (List Byte)) : List (List Byte) :=
  (((List.range (l.length + 1)).filter (fun n => decide ((udptlDatagram seq primary (l.take n)).length ≤ most))).getLast?).elim []
    (fun n => l.take n)

/-! ## Map entries and telephone events (R200, R208, R210) -/

/-- The map entry of a payload type on a leg (R208); CN, events and audio, not T.38. -/
def entryOf (v : Channel) (leg pt : Nat) : Option (List Byte) :=
  (legMap v.applied leg).find? (fun e => !(isT38 e) && entryPt e == pt)

/-- Whether a leg sends event `n` (R200, R210). -/
def sendsEvents (v : Channel) (leg n : Nat) : Bool :=
  let t := v.applied
  let clock := match (legMap t leg).find? (fun e => isAudio e && entryPt e == txPt v leg) with
    | some e => codecClock (entryCodec e)
    | none => 8000
  (v.runLeg leg).kind == .rtp && txPt v leg != 128 && settingNat t .codec leg 18 1 != 0 &&
  (legMap t leg).any (fun e => isEvents e && entryClock e == clock) &&
  (decide (n ≤ 16) || (decide (32 ≤ n ∧ n ≤ 36) && settingNat t .codec leg 20 0 == 1))

/-! ## Generators (R278, R279, R287) -/

/-- The rate of a generator's table in kHz. -/
def generatorRate (g : Generator) : Nat := u32 g.image 0x10 / 1000

/-- Samples of a generator's segment at `rate` kHz; 0 where it plays until stopped. -/
def segmentLen (g : Generator) (rate : Nat) : Nat := u16 g.image (0x30 + 32 * g.segment + 16) * rate

/-- A generator `n` samples on, if it still runs. -/
def generatorRun (rate : Nat) : Nat → Generator → Nat → Option Generator
  | 0, g, _ => some g
  | fuel + 1, g, n =>
    let len := segmentLen g rate
    if len = 0 ∨ g.played + n < len then some { g with played := g.played + n }
    else
      let rest := g.played + n - len
      if g.segment + 1 < u8 g.image 0x20 then generatorRun rate fuel { g with segment := g.segment + 1, played := 0 } rest
      else
        let loops := u16 g.image 0x22
        if loops = 0 ∨ g.loops < loops then
          generatorRun rate fuel { g with segment := u8 g.image 0x21, played := 0, loops := g.loops + 1 } rest
        else none

/-- The samples of the next `n` at which a segment of a generator starts (R235, R278). -/
def segmentStarts (g : Generator) (n : Nat) : List Nat :=
  let rate := generatorRate g
  let at_ := fun (i : Nat) => generatorRun rate (i + 2) g i
  (List.range n).filter (fun i => match at_ i with | some x => x.played == 0 | none => false)

/-- Whether a segment sounds. -/
def generatorSounds (g : Generator) : Bool :=
  [0, 1, 2, 3].any (fun k => u16 g.image (0x30 + 32 * g.segment + 4 * k) != 0)

/-- The GENERATOR table, counted from EVENT_TONE_BASE, that renders an event; a flash has none (R280). -/
def eventTone (n : Nat) : Option Nat := if n < 16 then some n else if 32 ≤ n ∧ n ≤ 36 then some (n - 16) else none

end Sys2Proof.Machine
end

