-- ==== Sys2Proof/Machine/Playout.lean ====
section
/-! DEFINITION. The jitter buffer of an RTP leg: packets placed, timelines, adaptation (R174 to R181, R191, R195, R203, R208). -/

namespace Sys2Proof.Machine

/-! ## Settings of a run -/

/-- A playout duration in ns. -/
def playNs (v : Channel) (typ d : Nat) : Nat := settingNat v.applied .playout 0 typ (ms d)
def jbMin (v : Channel) : Nat := playNs v 2 20
def jbMax (v : Channel) : Nat := playNs v 3 200
def jbInit (v : Channel) : Nat := playNs v 4 40
def jbWindow (v : Channel) : Nat := settingNat v.applied .playout 0 5 500
/-- Samples of a duration in ns at the channel rate. -/
def nsLen (v : Channel) (n : Nat) : Nat := n * v.rate / 1000000
/-- D in samples at the channel rate. -/
def developLen (v : Channel) : Nat := nsLen v (playNs v 7 10)
def tickLen (v : Channel) : Nat := 10 * v.rate
/-- EVENT_EXTEND of a leg in samples. -/
def extendLen (v : Channel) (leg : Nat) : Nat := nsLen v (settingNat v.applied .tone leg 3 (ms 60))

def countPlay (p : Play) (c : PlayCount) (n : Nat) : Play := { p with counts := countAdd p.counts c.ctorIdx n }
def countTx (t : TxLeg) (c : CodecCount) (n : Nat) : TxLeg := { t with counts := countAdd t.counts c.ctorIdx n }

/-- H of a leg (R170). -/
def playHead (v : Channel) (p : Play) : Int := p.fix + (p.audio.length * v.rate / p.rate : Nat)

/-! ## Restarts and timelines (R176, R177, R191) -/

/-- The provisional audio, negatives and provisional counts of a leg discarded (R42, R191). -/
def dropProvisional (p : Play) : Play := { p with audio := [], frames := [], scaled := [], redo := none, cursor := p.fix }

/-- A develop window restart of a leg's playout. -/
def windowRestart (p : Play) : Play := countPlay (dropProvisional p) .restarts 1

/-- A jitter buffer emptied: the next packet placed starts a new timeline (R43, R177, R480). -/
def emptyBuffer (p : Play) : Play :=
  { p with packets := [], fresh := true, quiet := true, lastExt := none, events := p.events.filter (fun e => e.reported.isSome && !e.ended) }

/-- Where the frames still held end. -/
def heldEnd (p : Play) : Int := (p.packets.map (fun k => k.pos + (k.len : Int))).foldl max p.fix

/-- A new timeline that a packet starts (R177): extended number, RTP timestamp and clock. -/
def newTimeline (v : Channel) (p : Play) (ext ts : Int) (clock : Nat) : Play :=
  let p1 := windowRestart p
  let target := if p.started then p1.target else jbInit v
  let start := max (heldEnd p1) (p1.fix + (nsLen v target : Int))
  { p1 with started := true, fresh := false, candidate := none, adopted := false, baseTs := ts, basePos := start, baseExt := ext,
            baseSid := false, lineStart := start, clock := clock, target := target, transits := [], jitters := [], shifts := [],
            placedSince := 0, quiet := true }

/-- The number with these low 16 bits, inferred from `near` as R156 infers it: at half the range it lies ahead where `near` is in the
lower half. -/
def extendSeq (near : Int) (seq : Nat) : Int :=
  let d : Int := ((seq : Int) - near) % 65536
  near + (if d < 32768 ∨ d = 32768 ∧ near % 65536 < 32768 then d else d - 65536)

/-- The timestamp nearest the timeline's base with these low 32 bits. -/
def extendTs (near : Int) (ts : Nat) : Int :=
  let d : Int := ((ts : Int) - near) % 2 ^ 32
  near + (if d < 2 ^ 31 then d else d - 2 ^ 32)

/-- A position of the timeline as it is now, taken back past the moves of time-scaling that came after it (R180). -/
def unshift : List (Int × Int) → Int → Int
  | [], y => y
  | (h, n) :: r, y => if y - n ≤ h then unshift r (y - n) else y

/-- The position a timestamp has on the timeline (R175). -/
def tsPosition (v : Channel) (p : Play) (ts : Int) : Int :=
  unshift p.shifts.reverse (p.basePos + (ts - p.baseTs) * (v.rate * 1000 : Nat) / p.clock)

/-- How far a timestamp lies from where its extended number puts it, by the latest packet and the frames' length: past a silence
descriptor the number puts it nowhere yet (R176, R177). -/
def implied (v : Channel) (p : Play) (bt be ts ext : Int) (open_ : Bool) : Nat :=
  let d := (ts - bt) * (v.rate * 1000 : Nat) / p.clock - (ext - be) * p.frameLen
  if open_ ∧ be < ext ∧ 0 ≤ d then 0 else d.natAbs

/-! ## Placing packets (R174, R175, R208) -/

/-- The store of the context slot (R174). -/
def storeSlots : Nat := 64
def storeBytes : Nat := 11264

/-- Whether an extended number has been placed already. -/
def seenBefore (p : Play) (ext : Int) : Bool :=
  p.packets.any (fun k => !k.old && k.ext == ext) || p.placed.any (fun e => e == ext && decide (p.high - 1024 ≤ e))

/-- The event a packet updates: its own start timestamp, or for a further segment of a long event the end of what is reported so far
(RFC 4733). -/
def eventFor (p : Play) (pos : Int) (marker : Bool) (l : List Byte) : Option RxEvent :=
  p.events.find? (fun e => e.event == u8 l 0 &&
    (e.pos == pos || (!marker && !e.ended && decide (e.pos < pos ∧ pos ≤ e.pos + (e.duration : Int)))))

/-- A telephone event packet taken into the leg's events (R195): a longer duration or an end bit replaces an extension. -/
def placeEvent (p : Play) (pos : Int) (len : Nat) (marker : Bool) (l : List Byte) : Play :=
  let done := (u8 l 1).testBit 7
  match eventFor p pos marker l with
  | some e =>
    if e.ended then p
    else
      let dur := (pos - e.pos).toNat + len
      let e1 : RxEvent := { e with duration := max e.duration dur, ended := done, extended := 0 }
      { p with events := p.events.map (fun x => if x = e then e1 else x),
               redo := if e.extended = 0 then p.redo else some (e.pos + (e.duration : Int)) }
  | none =>
    { p with events := p.events ++ [{ pos := pos, event := u8 l 0, volume := u8 l 1 % 64, duration := len, ended := done,
                                      reported := none, extended := 0 }] }

/-- The transit of a packet and its jitter, and what they do to the adaptation (R178, R179). -/
def takeTransit (v : Channel) (p : Play) (k : RxPacket) (ts : Int) : Play :=
  let tr : Int := k.stamp - ts * 1000000000 / p.clock
  let clear := match p.epoch with | some e => e != k.epoch | none => false
  let p1 := if clear then { p with transits := [], jitters := [], placedSince := 0 } else p
  let trs := (tr :: p1.transits).take (jbWindow v)
  { p1 with epoch := some k.epoch, transits := trs, jitters := ((tr - (trs.min?).getD tr) :: p1.jitters).take (jbWindow v),
            placedSince := p1.placedSince + 1 }

/-- A mode request in an AMR payload followed (R203). -/
def followRequest (e l : List Byte) (t : TxLeg) : TxLeg :=
  if (entryFlags e).testBit 3 then
    match (modeRequest e l).bind (modeUsed e) with
    | some i => countTx { t with mode := some i } .cmrFollowed 1
    | none => t
  else t

/-- The discards of R174 and R187 for a packet of extended number `ext`, position and length, else none. -/
def placeDiscard (v : Channel) (p : Play) (ext pos : Int) (len bytes : Nat) (event updates : Bool) : Option PlayCount :=
  let h := playHead v p
  if seenBefore p ext then some .duplicate
  else if pos + (len : Int) ≤ p.fix ∧ len ≠ 0 ∧ ¬ updates then some .lateDiscard
  else if h + (nsLen v (jbMax v) : Int) < pos then some .earlyDiscard
  else if storeSlots ≤ p.packets.length ∨ storeBytes < (p.packets.map (fun k => k.payload.length)).sum + bytes then
    some .storeFull
  else if pos < h ∧ ¬ event ∧ ¬ p.frames.any (fun f => f.pos == pos && f.concealed && f.negative) then some .lateDiscard
  else none

/-- Where a packet stands among the discontinuities of R176: the timeline it goes on, a new one by its SSRC, by another RTP clock
(R208) or by a timestamp jump, or the old timing of a jump. -/
inductive Line
  | goesOn | first | clock | jump | oldTiming
  deriving DecidableEq, Repr

def lineOf (v : Channel) (p : Play) (e : List Byte) (r : RtpHead) : Line :=
  let ext := extendSeq p.high r.seq
  let ts := extendTs p.baseTs r.ts
  let far := nsLen v (jbMax v)
  let old : Bool := match p.oldTiming with
    | some (bt, be) => decide (implied v p bt be ts ext false ≤ far)
    | none => false
  if ¬ p.started ∨ p.fresh ∨ p.adopted then .first
  else if isAudio e ∧ codecClock (entryCodec e) ≠ p.clock then .clock
  else if ¬ r.marker ∧ far < implied v p p.baseTs p.baseExt ts ext p.baseSid then (if old then .oldTiming else .jump)
  else .goesOn

/-- The playout that a packet of the current SSRC finds, its timeline begun where it starts one (R176, R177, R208), with the packet's
extended number and timestamp. -/
def lineFor (v : Channel) (p : Play) (e : List Byte) (r : RtpHead) : Play × Int × Int :=
  let ext := extendSeq p.high r.seq
  let ts := extendTs p.baseTs r.ts
  let clock := if isAudio e then codecClock (entryCodec e) else p.clock
  match lineOf v p e r with
  | .first =>
    let held := if p.adopted then p.packets.map (fun k => { k with old := true }) else p.packets
    ({ newTimeline v { p with ssrc := r.ssrc, placed := [], packets := held } r.seq r.ts clock with high := r.seq }, r.seq, r.ts)
  | .clock => (newTimeline v { p with oldTiming := none } ext ts clock, ext, ts)
  | .jump => (countPlay (newTimeline v { p with oldTiming := some (p.baseTs, p.baseExt) } ext ts clock) .tsJump 1, ext, ts)
  | .goesOn | .oldTiming => (p, ext, ts)

/-- A packet that passed the discards, held (R174). -/
def holdPacket (v : Channel) (p : Play) (e : List Byte) (r : RtpHead) (k : RxPacket) (ext ts pos : Int) (len : Nat) : Play :=
  let p2 := takeTransit v { p with
    high := max p.high ext, placed := (ext :: p.placed).filter (fun x => decide (max p.high ext - 1024 ≤ x)),
    frameLen := if isAudio e ∧ len ≠ 0 then len else p.frameLen } k ts
  let p3 := if p.high ≤ ext then
      { p2 with baseTs := ts, basePos := p.basePos + (ts - p.baseTs) * (v.rate * 1000 : Nat) / p.clock, baseExt := ext,
                baseSid := endsSid e r.payload }
    else p2
  let q := { p3 with packets := p3.packets ++
    [{ ext := ext, pt := r.pt, pos := pos, len := len, event := isEvents e, payload := r.payload }] }
  if isEvents e then placeEvent q pos len r.marker r.payload else q

/-- One RTP packet placed in the buffer of a leg, or discarded and counted. -/
def placePacket (v : Channel) (leg : Nat) (k : RxPacket) (m : LegMedia) : LegMedia :=
  let p := m.play
  let tell := fun (c : PlayCount) (q : Play) => ({ m with play := countPlay q c 1 } : LegMedia)
  match rtpParse k.bytes with
  | none => m
  | some r =>
    match entryOf v leg r.pt with
    | none => { m with tx := countTx m.tx .ptUnknown 1 }
    | some e =>
      let known := p.started && !p.fresh && r.ssrc != p.ssrc
      if known ∧ p.stale = some r.ssrc then tell .ssrcStale { p with candidate := none }
      else if known then
        let n := match p.candidate with | some (x, n) => if x = r.ssrc then n + 1 else 1 | none => 1
        tell .ssrcPending { p with candidate := some (r.ssrc, n) }
      else
        let p0 := { p with candidate := none }
        let line := lineOf v p0 e r
        if line = .oldTiming then tell .tsJump p0
        else
          let a := lineFor v p0 e r
          let len := payloadUnits e r.payload * v.rate / 8
          let pos := tsPosition v a.1 a.2.2
          let tx := followRequest e r.payload (if line = .clock then countTx m.tx .switchRx 1 else m.tx)
          let updates := isEvents e && (match eventFor a.1 pos r.marker r.payload with | some x => !x.ended | none => false)
          match placeDiscard v a.1 a.2.1 pos len r.payload.length (isEvents e) updates with
          | some c => { m with play := countPlay a.1 c 1, tx := tx }
          | none =>
            { m with tx := countTx tx .cnRx (sidFrames e r.payload), play := holdPacket v a.1 e r k a.2.1 a.2.2 pos len }

/-! ## Adaptation (R178 to R181) -/

/-- The least transit. -/
def leastTransit (p : Play) : Int := (p.transits.min?).getD 0

/-- q of R178: the least edge in ms whose cumulative share reaches the target. -/
def jitterEdge (p : Play) (pct : Nat) : Nat :=
  let bins := p.jitters.map (fun j => (j / 1000000).toNat)
  let n := bins.length
  ((List.range 1001).find? (fun e => decide (pct * n ≤ 1000 * (bins.filter (fun b => decide (b < e))).length))).getD 1000

/-- The target depth in ns (R178, R179). -/
def targetDepth (v : Channel) (p : Play) : Nat :=
  if settingNat v.applied .playout 0 1 0 = 1 then jbInit v
  else if p.placedSince < 16 then p.target
  else clampNat ((jitterEdge p (settingNat v.applied .playout 0 6 990) + 10) * 1000000) (jbMin v) (jbMax v)

/-- The current depth in ns at a run whose tick origin is `origin` ns of the time counter (R178). -/
def currentDepth (v : Channel) (p : Play) (origin : Int) : Int :=
  if p.transits = [] then p.target
  else
    let h := playHead v p
    let tsh := p.baseTs * 1000000000 / p.clock + (h - p.basePos) * 1000000 / v.rate
    origin + (playNs v 7 10 : Int) - (tsh + leastTransit p)

/-- DRIFT_PPB of a run: the trend in the least transit over the window, for which the spec gives no formula (R181; log entry 18). -/
def driftOf (draw leg : Nat) (p : Play) : Int :=
  if p.transits.length < 2 then 0 else signedOf 32 (Config.freeAt draw (runItem leg 13 0))

/-- Received audio beyond `h` moved by `n` samples: what lies across `h`, or begins there, gets longer or shorter (R180). -/
def shiftTimeline (h n : Int) (p : Play) : Play :=
  let longer := fun (l : Nat) => ((l : Int) + n).toNat
  { p with basePos := p.basePos + n, shifts := (p.shifts ++ [(h, n)]).drop (p.shifts.length - 15),
           cursor := if h < p.cursor then p.cursor + n else p.cursor,
           packets := p.packets.map (fun k => if h < k.pos then { k with pos := max h (k.pos + n) }
             else if k.pos = h ∧ k.len ≠ 0 then { k with len := longer k.len } else k),
           frames := p.frames.map (fun f =>
             if f.pos < h ∧ h < f.pos + (f.len : Int) then { f with len := longer f.len, org := f.org + n } else f),
           events := p.events.map (fun e => if h < e.pos then { e with pos := e.pos + n } else e),
           lineStart := if h < p.lineStart then p.lineStart + n else p.lineStart }

/-- Where the first received frame of sound beyond `h` begins. -/
def firstSound (v : Channel) (leg : Nat) (p : Play) (h : Int) : Option Int :=
  ((p.packets.filter (fun k => decide (h < k.pos) &&
    !((entryOf v leg k.pt).elim false (fun e => isSid e k.payload)))).map (·.pos)).min?

/-- Time-scaling of one run (R180): `silent` says that its span holds silence, comfort noise or DTX frames alone. -/
def scaleTime (v : Channel) (leg : Nat) (silent : Bool) (p : Play) : Play :=
  let h := playHead v p
  let depth := p.depth
  let target : Int := p.target
  let low : Int := jbMin v
  let high : Int := jbMax v
  if depth + 2000000 < target ∧ depth < high then
    let want := min (target - depth) (high - depth)
    let n : Int := if silent then want * v.rate / 1000000 else min (2 * v.rate : Nat) (want * v.rate / 1000000)
    if n = 0 then p else
    let q := shiftTimeline h n p
    { q with depth := depth + n * 1000000 / v.rate, scaled := q.scaled ++ [(h, n.toNat, true)] }
  else if target + 5000000 < depth ∧ low < depth then
    let want := min (depth - target) (depth - low) * v.rate / 1000000
    let most := match firstSound v leg p h with | some x => min want (x - h) | none => want
    let n : Int := if silent then most / p.frameLen * p.frameLen else min (v.rate : Nat) want
    if n = 0 then p else
    let q := shiftTimeline h (-n) p
    { q with depth := depth - n * 1000000 / v.rate, scaled := q.scaled ++ [(h, n.toNat, false)] }
  else p

end Sys2Proof.Machine
end

