-- ==== Sys2Proof/Machine/PlayoutRun.lean ====
section
/-! DEFINITION. Playout of an RTP leg within a tick run: the frames that become due, concealment, late packets and the fix point
(R170 to R173, R182 to R187, R193 to R195, R202, R204, R280). What a codec decodes or conceals, and comfort noise, is free; the
samples of G.711 are those of its law. -/

namespace Sys2Proof.Machine

/-- What a run brings to a leg's playout: its channel and leg, its draw, whether it is DRAINING, the A-law and mu-law tables, the
generators from EVENT_TONE_BASE on, and whether the other leg sends an event as an event (R211). -/
structure PlayEnv where
  v : Channel
  leg : Nat
  draw : Nat
  draining : Bool
  laws : List (List Byte)
  tones : List (List Byte)
  passed : Nat → Bool

/-! ## Frames that become due (R173, R175, R182 to R184, R194, R195, R204) -/

/-- Whether an event's tones are rendered as its audio (R211, R280). -/
def PlayEnv.renders (v : PlayEnv) (n : Nat) : Bool := (eventTone n).isSome && !v.passed n

/-- Where an event's audio ends: what is reported, and the extension it may take, or has taken if it has ended (R280). -/
def eventEnd (limit : Nat) (e : RxEvent) : Int := e.pos + (e.duration + (if e.ended then e.extended else limit) : Nat)

/-- The event whose audio covers a position. -/
def eventAt (env : PlayEnv) (p : Play) (rendered : Bool) (x : Int) : Option RxEvent :=
  p.events.find? (fun e => env.renders e.event == rendered && decide (e.pos ≤ x ∧ x < eventEnd (extendLen env.v env.leg) e))

/-- A frame that becomes due, with its negative: at most two are held, and the oldest is released for a third (R183,
R184). -/
def addFrame (d : Nat) (p : Play) (f : FrameRec) : Play :=
  if ¬ f.concealed ∨ d = 0 then { p with frames := p.frames ++ [f] }
  else
    let held := p.frames.filter (fun g => g.negative)
    let p1 := if held.length < 2 then p
      else
        match held.head? with
        | some g => countPlay { p with frames := p.frames.map (fun x => if x = g then { x with negative := false } else x) }
            .negativeReleasedEarly 1
        | none => p
    { p1 with frames := p1.frames ++ [{ f with negative := true }] }

/-- The entry of the codec in use on a leg (R208). -/
def PlayEnv.codecInUse (env : PlayEnv) (p : Play) : Nat :=
  ((p.pt.bind (entryOf env.v env.leg)).filter isAudio).elim 0 entryCodec

/-- Whether the packet after a missing frame carries it as in-band FEC (R204). -/
def hasFec (env : PlayEnv) (k : HeldPacket) : Bool :=
  match entryOf env.v env.leg k.pt with
  | some e => isOpus e && (entryFlags e).testBit 5 && opusFec k.payload
  | none => false

/-- The numbers between two that have not been placed (R175). -/
def missingBetween (p : Play) (a b : Int) : Nat :=
  (b - a - 1).toNat - (p.placed.filter (fun e => decide (a < e ∧ e < b))).length

/-- The first number after one that has not been placed. -/
def nextMissing (p : Play) : Nat → Int → Int
  | 0, a => a + 1
  | fuel + 1, a => if p.placed.contains (a + 1) then nextMissing p fuel (a + 1) else a + 1

/-- The audio packet that covers a position: a silence descriptor covers the span up to the next frame. -/
def packetAt (p : Play) (x : Int) : Option HeldPacket :=
  p.packets.find? (fun k => !k.event && decide (k.pos ≤ x) &&
    (decide (x < k.pos + (k.len : Int)) || (k.len == 0 && (match p.lastExt with | some e => decide (e < k.ext) | none => true))))

/-- The first audio packet beyond a position. -/
def nextPacket (p : Play) (x : Int) : Option HeldPacket :=
  let l := p.packets.filter (fun k => !k.event && decide (x < k.pos))
  l.find? (fun k => l.all (fun j => decide (k.pos ≤ j.pos)))

/-- Whether the frame before a position was concealed: the first decoded after it still holds what was synthesised. -/
def afterLoss (p : Play) (x : Int) : Bool := p.frames.any (fun f => f.concealed && f.pos + (f.len : Int) == x)

/-- The frame of an audio packet, due at `x`. -/
def packetFrame (env : PlayEnv) (p : Play) (k : HeldPacket) (x stopAt : Int) : FrameRec :=
  let e := (entryOf env.v env.leg k.pt).getD []
  { pos := x, len := (stopAt - x).toNat, mark := if isSid e k.payload then .quiet else .decoded, codec := entryCodec e,
    payload := if isG711 e ∧ ¬ afterLoss p x then k.payload else [], org := k.pos }

/-- What fills a gap at `x` before audio packet `k`: how far, as what, and the number it stands for. Missing frames follow the speech
before them, or precede `k` where silence was before them; the rest is silence (R175, R177, R182). -/
def gapBefore (env : PlayEnv) (p : Play) (k : HeldPacket) (x stop : Int) : Int × Mark × Option Int :=
  if x < p.lineStart ∧ p.lineStart ≤ k.pos then (min stop k.pos, .quiet, none)
  else
    match p.lastExt with
    | none => (min stop k.pos, .quiet, none)
    | some a =>
      let m := missingBetween p a k.ext
      let begin_ := if p.quiet then k.pos - ((m * p.frameLen : Nat) : Int) else x
      if m = 0 then (min stop k.pos, .quiet, none)
      else if x < begin_ then (min stop begin_, .quiet, none)
      else (min k.pos (x + p.frameLen), if m = 1 ∧ hasFec env k then .fec else .concealed, some (nextMissing p 1024 a))

/-- Frames made due until the cursor reaches `stop`. -/
def dueFrames (env : PlayEnv) (stop : Int) : Nat → Play → Play
  | 0, p => p
  | fuel + 1, p =>
    if stop ≤ p.cursor then p
    else
      let x := p.cursor
      let d := developLen env.v
      let put := fun (q : Play) (f : FrameRec) => { addFrame d q f with cursor := max (x + 1) (f.pos + (f.len : Int)) }
      match eventAt env p true x, packetAt p x, eventAt env p false x with
      | some e, _, _ =>
        let stopAt := min stop (eventEnd (extendLen env.v env.leg) e)
        dueFrames env stop fuel { put p { pos := x, len := (stopAt - x).toNat, mark := .event, codec := 9,
                                          payload := [BitVec.ofNat 8 e.event], org := e.pos } with quiet := true }
      | none, some k, _ =>
        let stopAt := if k.len = 0 then min stop (((nextPacket p x).map (·.pos)).getD stop) else k.pos + (k.len : Int)
        let sid := (entryOf env.v env.leg k.pt).elim false (fun e => endsSid e k.payload)
        let ext := match p.lastExt with | some a => if k.old then k.ext else max a k.ext | none => k.ext
        dueFrames env stop fuel { put p (packetFrame env p k x stopAt) with quiet := sid, pt := some k.pt, lastExt := some ext }
      | none, none, some e =>
        let far := min stop (eventEnd (extendLen env.v env.leg) e)
        let stopAt := match nextPacket p x with | some k => min far k.pos | none => far
        dueFrames env stop fuel { put p { pos := x, len := (stopAt - x).toNat, mark := .event, codec := 9 } with quiet := true }
      | none, none, none =>
        match nextPacket p x with
        | some k =>
          let g := gapBefore env p k x stop
          let f : FrameRec := { pos := x, len := (g.1 - x).toNat, mark := g.2.1, codec := env.codecInUse p }
          dueFrames env stop fuel { put p f with lastExt := match g.2.2 with | some a => some a | none => p.lastExt }
        | none =>
          if env.draining then p
          else
            let f : FrameRec := { pos := x, len := if p.quiet then (stop - x).toNat else p.frameLen,
                                  mark := if p.quiet then .quiet else .concealed, codec := env.codecInUse p }
            dueFrames env stop fuel { put p f with
              lastExt := if p.quiet then p.lastExt else p.lastExt.map (nextMissing p 1024) }

/-- How far each event still without its end has been extended (R280). -/
def extendEvents (env : PlayEnv) (h : Int) (p : Play) : Play :=
  { p with events := p.events.map (fun e =>
      if e.ended then e else { e with extended := min (extendLen env.v env.leg) (h - (e.pos + (e.duration : Int))).toNat }) }

/-! ## Step 3: audio for the next span (R170, R194, R280) -/

/-- The frame at a position. -/
def frameAt (p : Play) (x : Int) : Option FrameRec := p.frames.find? (fun f => decide (f.pos ≤ x ∧ x < f.pos + (f.len : Int)))

/-- What the audio at a position is. -/
def markAt (p : Play) (x : Int) : Mark := (frameAt p x).elim .quiet (·.mark)

/-- Whether the tones of an event sound `n` samples of the channel rate after its start. -/
def toneSounds (env : PlayEnv) (event n : Nat) : Bool :=
  match (eventTone event).bind (fun i => env.tones[i]?) with
  | some img =>
    let g : Generator := { table := 0, image := img, replace := false, level := 0 }
    let rate := generatorRate g
    let k := n * rate / env.v.rate
    (generatorRun rate (k + 2) g k).elim false generatorSounds
  | none => false

/-- The sample of a leg's audio at a position, at `rate` kHz: those of G.711 follow from the codes, of which time-scaling (`scaled`)
chooses freely; an event sounds where its tones do, and is silence where they are not rendered; any other is free. -/
def sampleAt (env : PlayEnv) (item : Nat) (scaled : Bool) (rate : Nat) (p : Play) (x : Int) : Int :=
  let free := freeSample env.draw item
  match frameAt p x with
  | none => if p.started then free else 0
  | some f =>
    match f.mark with
    | .event =>
      if f.payload = [] then 0
      else if toneSounds env (u8 f.payload 0) (x - f.org).toNat then free else 0
    | .decoded =>
      let i := (x - f.org) * rate / env.v.rate
      if scaled ∨ f.codec > 1 ∨ rate ≠ 8 ∨ i < 0 ∨ (f.payload.length : Int) ≤ i then free
      else compandExpand ((env.laws[1 - f.codec]?).getD []) (u8 f.payload i.toNat)
    | .concealed | .fec | .quiet => free

/-- The provisional audio of a leg at another rate: free samples with the same marks. -/
def rerate (env : PlayEnv) (rate : Nat) (p : Play) : Play :=
  if p.rate = rate then p
  else
    let n := p.audio.length * rate / p.rate
    { p with rate := rate, audio := (List.range n).map (fun i =>
        (freeSample env.draw (runItem env.leg 15 i), ((p.audio[i * p.rate / rate]?).map (·.2)).getD .quiet)) }

/-- Whether a leg's buffer holds nothing beyond `h` (R194). -/
def bufferEmpty (env : PlayEnv) (p : Play) (h : Int) : Bool :=
  p.packets.all (fun k => decide (k.pos + (k.len : Int) ≤ h)) &&
  p.events.all (fun e => decide (eventEnd (extendLen env.v env.leg) e ≤ h))

/-- Where step 3 of a run ends. -/
def spanEnd (env : PlayEnv) (p : Play) : Int := p.fix + (tickLen env.v + developLen env.v : Nat)

/-- The frames of the span due: from H, or from where those already due end. -/
def dueSpan (env : PlayEnv) (p : Play) : Play :=
  if p.started then dueFrames env (spanEnd env p) 4096 { p with cursor := max p.cursor (playHead env.v p) } else p

/-- Step 3: [H, F + 10 ms + D) is produced; in DRAINING only what the buffer reaches to. -/
def produce (env : PlayEnv) (scaled : Bool) (p : Play) : Play :=
  let h := playHead env.v p
  if spanEnd env p ≤ h ∨ env.draining ∧ (¬ p.started ∨ bufferEmpty env p h) then p
  else
    let q := dueSpan env p
    let stop := if env.draining then min (spanEnd env p) (max h q.cursor) else spanEnd env p
    let q1 := match (q.pt.bind (entryOf env.v env.leg)).filter isAudio with | some e => rerate env (entryRate e) q | none => q
    let n := ((stop - playHead env.v q1) * q1.rate / env.v.rate).toNat
    let one := fun (i : Nat) =>
      let x := h + (i * env.v.rate / q1.rate : Nat)
      (sampleAt env (runItem env.leg 1 i) scaled q1.rate q1 x, markAt q1 x)
    extendEvents env stop { q1 with audio := q1.audio ++ (List.range n).map one }

/-! ## Step 4: late packets (R185, R186, R195) -/

/-- Frames whose packet has come while they held a negative. -/
def lateFrames (p : Play) : List FrameRec :=
  p.frames.filter (fun f => f.concealed && f.negative && p.packets.any (fun k => !k.event && k.pos == f.pos))

/-- A late frame decoded from its packet: its negative is released. -/
def recover (env : PlayEnv) (p : Play) (f : FrameRec) : FrameRec :=
  match p.packets.find? (fun k => !k.event && k.pos == f.pos) with
  | some k => { packetFrame env p k f.pos (f.pos + (f.len : Int)) with late := if f.pos < p.fix then 2 else 1 }
  | none => f

/-- The audio of [start, H) made again from the frames, a dissolve leading over from what it replaces. -/
def remake (env : PlayEnv) (start : Int) (p : Play) : Play :=
  let skip := ((start - p.fix) * p.rate / env.v.rate).toNat
  let old := p.audio.drop skip
  let pos := fun (i : Nat) => start + (i * env.v.rate / p.rate : Nat)
  let fresh := (List.range old.length).map (fun i => sampleAt env (runItem env.leg 2 i) (p.scaled != []) p.rate p (pos i))
  let mixed := dissolveList (2 * p.rate) 0 (old.map (·.1)) fresh
  { p with audio := p.audio.take skip ++ mixed.zip ((List.range old.length).map (fun i => markAt p (pos i))) }

/-- One regeneration, from the negative of the earliest late frame. -/
def regenerate (env : PlayEnv) (p : Play) : Play :=
  let late := lateFrames p
  match (late.map (·.pos)).min? with
  | none => p
  | some first =>
    remake env (max first p.fix) { p with frames := p.frames.map (fun f => if late.contains f then recover env p f else f) }

/-- An event's audio made again from where a late update changed it, if that is still provisional (R195). -/
def redoEvents (env : PlayEnv) (p : Play) : Play :=
  let h := playHead env.v p
  match p.redo with
  | none => p
  | some a =>
    let q := { p with redo := none }
    if h ≤ a then q
    else
      let start := max a p.fix
      let kept := p.frames.filterMap (fun f =>
        if f.mark ≠ .event ∨ f.pos + (f.len : Int) ≤ start then some f
        else if f.pos < start then some { f with len := (start - f.pos).toNat } else none)
      let again := dueFrames env h 4096 { q with frames := kept.filter (fun f => decide (f.pos < start)), cursor := start }
      extendEvents env h (remake env start { again with cursor := max p.cursor again.cursor })

/-! ## Step 5: fixing (R170, R171, R193, R195) -/

/-- The flagged counters of a frame whose last sample is fixed. -/
def settleFrame (p : Play) (f : FrameRec) : Play :=
  let p1 := match f.mark with
    | .decoded => countPlay p .framesPlayed 1
    | .concealed => countPlay p .lostFrames 1
    | .fec | .quiet | .event => p
  if f.late = 1 then countPlay p1 .lateRecovered 1 else if f.late = 2 then countPlay p1 .latePartial 1 else p1

/-- Whether a received event is over: ended, reported and fixed to its end. -/
def eventOver (fix : Int) (e : RxEvent) : Bool :=
  e.ended && e.reported.isSome && decide (e.pos + (e.duration + e.extended : Nat) ≤ fix)

/-- 10 ms fixed: the playout after it, and the fixed samples at its rate. -/
def fixAudio (v : Channel) (p : Play) : Play × List (Int × Mark) :=
  let n := 10 * p.rate
  let out := p.audio.take n
  let f1 := p.fix + (tickLen v : Nat)
  let done := p.frames.filter (fun f => decide (f.pos + (f.len : Int) ≤ f1))
  let marked := fun (k : Mark) => (out.filter (fun a => a.2 == k)).length * v.rate / p.rate
  let sc := fun g => ((p.scaled.filter (fun x => x.2.2 == g && decide (x.1 < f1))).map (fun x => x.2.1)).sum
  let q := done.foldl settleFrame p
  ({ q with fix := f1, audio := p.audio.drop n, events := p.events.filter (fun e => !(eventOver p.fix e)),
            frames := p.frames.filter (fun f => decide (f1 < f.pos + (f.len : Int))),
            packets := p.packets.filter (fun k => decide (f1 < k.pos + (k.len : Int)) || (k.len == 0 && decide (f1 ≤ k.pos))),
            scaled := p.scaled.filter (fun x => decide (f1 ≤ x.1)), cursor := max p.cursor f1,
            fixedConcealed := p.fixedConcealed + marked .concealed, fixedFec := p.fixedFec + marked .fec,
            fixedGrow := p.fixedGrow + sc true, fixedShrink := p.fixedShrink + sc false },
   out ++ List.replicate (n - out.length) (0, .quiet))

/-- Whether the span that a run is to produce holds silence, comfort noise or DTX frames alone (R180). -/
def silentSpan (env : PlayEnv) (p : Play) : Bool :=
  let h := playHead env.v p
  let q := dueSpan env p
  (q.frames.filter (fun f => decide (f.pos < spanEnd env p ∧ h < f.pos + (f.len : Int)))).all (fun f => f.mark == .quiet)

/-- Steps 2 to 4 of a run for one RTP leg: its packets in list order, the target, the depth, the scaling, the audio. -/
def playLeg (env : PlayEnv) (origin : Int) (l : List RxPacket) (m : LegMedia) : LegMedia :=
  let m1 := l.foldl (fun m k => placePacket env.v env.leg k m) m
  let p : Play := { m1.play with target := targetDepth env.v m1.play, drift := driftOf env.draw env.leg m1.play }
  let p1 : Play := { p with depth := currentDepth env.v p origin }
  let p2 := if p1.transits = [] then p1 else scaleTime env.v env.leg (silentSpan env p1) p1
  let p3 := if 300000 < p2.drift.natAbs then countPlay p2 .driftExcess 1 else p2
  { m1 with play := regenerate env (redoEvents env (produce env (p2.scaled.length != p1.scaled.length) p3)) }

end Sys2Proof.Machine
end

