-- ==== Sys2Proof/Machine/Detect.lean ====
section
/-! DEFINITION. Tone detectors, generators, prompts and gains within a tick run (R189, R190, R271 to R282, R287, R292,
R293). -/

namespace Sys2Proof.Machine

/-- A notice record closed by a channel's run, which Damium takes later (R343). -/
def State.runNotice (s : State) (c : Nat) (g : Group) (v4 : Bool) (opcode : Nat) (l : List (List Byte)) : State :=
  s.modBlock (s.channel c).block (fun k => { k with notices := k.notices ++
    [{ group := g.ctorIdx, v4 := v4, opcode := opcode, target := targetOf s.stack.number 4 c, tlvs := fields l }] })

/-! ## A detector's frame (R271 to R275) -/

def detBins (img : List Byte) : Nat := u8 img 0x20
def detFeats (img : List Byte) : Nat := u8 img 0x21
def detScale (img : List Byte) : Nat := u8 img 0x23
def binAt (k : Nat) : Nat := 0x30 + 8 * k
def featAt (img : List Byte) (i : Nat) : Nat := 0x30 + 8 * detBins img + 8 * i
def transAt (img : List Byte) (i : Nat) : Nat := 0x30 + 8 * detBins img + 8 * detFeats img + 20 * i

/-- One resonator over samples (R271). -/
def resonate (cre cim : Int) (scale : Nat) : Int × Int → List Int → Int × Int
  | y, [] => y
  | y, x :: r =>
    let re := cre * y.1 - cim * y.2 + x * 2 ^ (15 - scale)
    let im := cre * y.2 + cim * y.1
    resonate cre cim scale (sat16 (rne re 15), sat16 (rne im 15)) r

def coefOf (img : List Byte) (k : Nat) : Int × Int := (s16 img (binAt k), s16 img (binAt k + 2))

/-- L_k (R272). -/
def binLevel (img : List Byte) (k : Nat) (y : Int × Int) : Int :=
  let e := (y.1 * y.1 + y.2 * y.2).toNat
  if e = 0 then -1000 else floorLog100 e 1 + s16 img (binAt k + 4)

/-- L_tot (R272). -/
def totalLevel (img : List Byte) (xs : List Int) : Int :=
  if energy xs = 0 then -1000 else floorLog100 (energy xs) xs.length + s16 img 0x26

/-- The product of two complex numbers. -/
def cmul (a b : Int × Int) : Int × Int := (a.1 * b.1 - a.2 * b.2, a.1 * b.2 + a.2 * b.1)
def conj (a : Int × Int) : Int × Int := (a.1, -a.2)
def cpow (a : Int × Int) : Nat → Int × Int
  | 0 => (1, 0)
  | n + 1 => cmul a (cpow a n)

/-- cos of `t` tenths of a degree in units of 2^-60, by its series. -/
def cosTenth (t : Int) : Int :=
  let one : Int := 2 ^ 60
  -- pi / 1800 in units of 2^-60
  let x := t * 2012227627243645
  let x2 := x * x / one
  let step := fun (a : Int × Int) (k : Nat) =>
    let u := -(a.1 * x2 / one) / ((2 * k + 1) * (2 * k + 2) : Nat)
    (u, a.2 + u)
  ((List.range 20).foldl step (one, one)).2

/-- REVERSAL of a bin (Table 10.4): the angle between the change of phase and N times the coefficient's lies within T of a
half turn; free where a resonator holds nothing. -/
def reversal (free : Bool) (n : Nat) (c y old : Int × Int) (t : Int) : Bool :=
  let z := cmul (cmul y (conj old)) (conj (cpow c n))
  if z = (0, 0) then free
  else if t < 0 then false
  else if 1800 ≤ t then true
  else
    -- the real part over the length is at most -cos t
    let q := cosTenth t
    let len := z.1 * z.1 + z.2 * z.2
    let one : Int := 2 ^ 120
    if z.1 ≤ 0 then decide (q ≤ 0 ∨ len * (q * q) ≤ z.1 * z.1 * one)
    else decide (q ≤ 0 ∧ z.1 * z.1 * one ≤ len * (q * q))

/-- One feature at a frame's end (Table 10.4). -/
def featureTrue (img : List Byte) (free : Bool) (xs : List Int) (ys old : List (Int × Int)) (i : Nat) : Bool :=
  let o := featAt img i
  let a := u8 img (o + 1)
  let b := u8 img (o + 2)
  let c := u8 img (o + 3)
  let t := s16 img (o + 4)
  let y := fun (k : Nat) => (ys[k]?).getD (0, 0)
  let lv := fun (k : Nat) => binLevel img k (y k)
  let op := u8 img o
  if op = 1 then decide (t ≤ lv a)
  else if op = 2 then decide (lv a < t)
  else if op = 3 then decide (t ≤ lv a - lv b)
  else if op = 4 then decide (lv a - lv b < t)
  else if op = 5 then (List.range (c + 1 - b)).all (fun k => k + b == a || decide (lv (k + b) + t ≤ lv a))
  else if op = 6 then
    let sum := ((List.range (b + 1 - a)).map (fun k => tenPower (lv (k + a)))).sum
    if sum = 0 then false else decide (t ≤ floorLog100 sum (10 ^ 12) - totalLevel img xs)
  else if op = 7 then decide (t ≤ totalLevel img xs)
  else if op = 8 then decide (totalLevel img xs < t)
  else if op = 9 then reversal free xs.length (coefOf img a) (y a) ((old[a]?).getD (0, 0)) t
  else false

/-- What a detector reports at a frame's end (R275). -/
inductive DetEvent
  | declared (typ value : Nat) (onset decision : Int)
  | ended (typ value : Nat) (onset last : Int)
  deriving DecidableEq, Repr

/-- The features as a mask. -/
def featureMask (img : List Byte) (free : Bool) (xs : List Int) (ys old : List (Int × Int)) : Nat :=
  (List.range (detFeats img)).foldl (fun m i => m + boolNat (featureTrue img free xs ys old i) * 2 ^ i) 0

/-- The first transition that qualifies (R274); none with DECLARE where a sample is flagged settling (R242). -/
def findTransition (d : Detector) (timer mask : Nat) (flagged : Bool) : Option Nat :=
  let img := d.image
  (List.range (u16 img 0x24)).find? (fun i =>
    let o := transAt img i
    let act := u8 img (o + 2)
    let set := u32 img (o + 10)
    let clr := u32 img (o + 14)
    u8 img o == d.state && Nat.land mask set == set && Nat.land mask clr == 0 &&
    decide (u16 img (o + 6) ≤ timer ∧ timer ≤ u16 img (o + 8)) && (!(act.testBit 3) || u8 img (o + 4) == d.value) &&
    !(flagged && act.testBit 1))

/-- One frame of a detector: its first position, its samples, whether one is flagged settling. -/
def detFrame (free : Bool) (pos : Int) (xs : List (Int × Bool)) (d : Detector) : Detector × List DetEvent :=
  let img := d.image
  let v := xs.map (·.1)
  let y0 := fun (k : Nat) => (d.bins[k]?).getD (0, 0)
  let ys := (List.range (detBins img)).map (fun k => let c := coefOf img k; resonate c.1 c.2 (detScale img) (y0 k) v)
  let timer := min 65535 (d.timer + 1)
  let mask := featureMask img free v ys d.old
  let d1 := { d with bins := ys, old := ys, timer := timer }
  match findTransition d timer mask (xs.any (·.2)) with
  | none => (d1, [])
  | some i =>
    let o := transAt img i
    let act := u8 img (o + 2)
    let last := pos + (xs.length : Int) - 1
    let d2 := { d1 with state := u8 img (o + 1), timer := if act.testBit 4 then timer else 0 }
    let d3 := if act.testBit 0 then { d2 with typ := u8 img (o + 3), value := u8 img (o + 4), onset := pos } else d2
    let stop := fun (x : Detector) => match x.declared with
      | some (_, on) => ({ x with declared := none }, [DetEvent.ended x.evTyp x.evValue on last])
      | none => (x, [])
    let a := if act.testBit 1 then
        let r := stop d3
        ({ r.1 with declared := some (0, d3.onset), evTyp := d3.typ, evValue := d3.value },
         r.2 ++ [DetEvent.declared d3.typ d3.value d3.onset last])
      else (d3, [])
    if act.testBit 2 then let r := stop a.1; (r.1, a.2 ++ r.2) else a

/-- Frames of `n` samples from position `pos`. -/
def detFrames (free : Bool) (n : Nat) : Nat → Int → List (Int × Bool) → Detector → Detector × List DetEvent
  | 0, _, _, d => (d, [])
  | fuel + 1, pos, xs, d =>
    if n = 0 ∨ xs.length < n then (d, [])
    else
      let a := detFrame free pos (xs.take n) d
      let b := detFrames free n fuel (pos + n) (xs.drop n) a.1
      (b.1, a.2 ++ b.2)

/-! ## Event reports (R189, R190, R195) -/

/-- A TONE_EVENT record (Table 16.10): STATE 0 PROVISIONAL, 1 CONFIRMED, 2 WITHDRAWN, 3 UPDATED, 4 ENDED; END_REASON
0 NONE, 1 NORMAL, 2 TIMEOUT, 3 TABLE_CHANGED. -/
def State.toneEvent (s : State) (c leg id state typ value : Nat) (onset decision : Int) (dur reason source : Nat)
    (volume : Int) : State :=
  s.runNotice c .tone false 0x0F02
    [beBytes 1 leg, beBytes 4 id, beBytes 1 state, beBytes 1 typ, beBytes 1 value, beInt 8 onset, beInt 8 decision,
     beBytes 4 dur, beBytes 1 reason, beBytes 4 source, beInt 2 volume]

/-- EVENT_REPORT is ALL. -/
def reportAll (v : Channel) : Bool := settingNat v.applied .playout 0 8 0 == 0

def State.modLeg (s : State) (c leg : Nat) (f : LegMedia → LegMedia) : State :=
  s.modChannel c (fun v => v.setLegMedia leg (f (v.legMedia leg)))

def State.countLeg (s : State) (c leg : Nat) (k : PlayCount) : State :=
  if ((s.channel c).runLeg leg).kind = .rtp then s.modLeg c leg (fun m => { m with play := countPlay m.play k 1 }) else s

/-- Samples within 5 ms (R190). -/
def near5 (v : Channel) (a b : Int) : Bool := decide ((a - b).natAbs ≤ 5 * v.rate)

/-- A fixed-pass event: matched with an unsettled provisional one, or reported under a new EVENT_ID. -/
def State.fixedEvent (s : State) (c leg table typ value : Nat) (onset decision volume : Int) : State × Nat :=
  let v := s.channel c
  let m := v.legMedia leg
  match m.prov.find? (fun q => q.typ == typ && q.value == value && near5 v q.onset onset) with
  | some q =>
    (s.modLeg c leg (fun m => { m with fixedEvents := m.fixedEvents ++
      [{ id := q.id, typ := typ, value := value, onset := onset, matched := true }] }), q.id)
  | none =>
    let id := m.nextEvent
    let s1 := s.modLeg c leg (fun m => { m with nextEvent := id + 1, fixedEvents := m.fixedEvents ++
      [{ id := id, typ := typ, value := value, onset := onset, matched := false }] })
    ((s1.toneEvent c leg id 1 typ value onset decision 0 0 table volume).countLeg c leg .eventsConfirmed, id)

/-- A provisional declaration: reported once (R189). -/
def State.provEvent (s : State) (c leg table typ value : Nat) (onset decision volume : Int) : State :=
  let v := s.channel c
  let m := v.legMedia leg
  let seen := m.prov.any (fun q => q.typ == typ && q.value == value && near5 v q.onset onset) ||
    m.fixedEvents.any (fun q => q.typ == typ && q.value == value && near5 v q.onset onset)
  if seen then s
  else
    let s1 := s.modLeg c leg (fun m => { m with nextEvent := m.nextEvent + 1, prov := m.prov ++
      [{ id := m.nextEvent, table := table, typ := typ, value := value, onset := onset, decision := decision }] })
    if reportAll v then
      (s1.toneEvent c leg m.nextEvent 0 typ value onset decision 0 0 table volume).countLeg c leg .eventsProvisional
    else s1

/-- A provisional event withdrawn. -/
def State.withdraw (s : State) (c leg : Nat) (q : ProvEvent) : State :=
  if reportAll (s.channel c) then
    (s.toneEvent c leg q.id 2 q.typ q.value q.onset q.decision 0 0 q.table 0).countLeg c leg .eventsWithdrawn
  else s

/-- Every unsettled provisional event of a leg withdrawn (R191, R287). -/
def State.withdrawAll (s : State) (c leg : Nat) : State :=
  let l := ((s.channel c).legMedia leg).prov
  (l.foldl (fun s q => s.withdraw c leg q) s).modLeg c leg (fun m => { m with prov := [] })

/-- The provisional events whose decision sample is now fixed, settled (R190). -/
def State.settleEvents (s : State) (c leg : Nat) : State :=
  let v := s.channel c
  let m := v.legMedia leg
  let due := m.prov.filter (fun q => decide (q.decision < m.play.fix))
  let s1 := due.foldl (fun s q =>
    match m.fixedEvents.find? (fun f => f.typ == q.typ && f.value == q.value && near5 v f.onset q.onset) with
    | some f => (s.toneEvent c leg q.id 1 q.typ q.value f.onset q.decision 0 0 q.table 0).countLeg c leg .eventsConfirmed
    | none => s.withdraw c leg q) s
  s1.modLeg c leg (fun m => { m with prov := m.prov.filter (fun q => decide (m.play.fix ≤ q.decision)),
                                     fixedEvents := m.fixedEvents.drop (m.fixedEvents.length - 16) })

/-! ## What a fixed decision sets off (R210, R212, R262) -/

/-- The RFC 4733 number of an event, if R210 may send it. -/
def sendable (typ value : Nat) : Option Nat :=
  if typ = 1 ∧ value ≤ 16 then some value else if typ = 6 ∧ 32 ≤ value ∧ value ≤ 36 then some value else none

/-- Where a position of a leg's audio lies in the channel's: each of its blocks begins where the run's does (R210). -/
def channelPos (v : Channel) (leg : Nat) (x : Int) : Int :=
  if (v.runLeg leg).kind = .rtp then x - ((v.legMedia leg).play.fix - (tickLen v : Nat)) + v.position else x

/-- The volume field of a level in dBm0 (RFC 4733). -/
def volumeField (level : Int) : Nat := (clampInt (-level) 0 63).toNat

/-- An event begun toward a leg, its onset and decision sample as positions of the channel (R210, R211). -/
def State.sendEvent (s : State) (c leg n : Nat) (onset decision : Int) (volume : Nat) : State :=
  if sendsEvents (s.channel c) leg n then
    let e : TxEvent := { event := n, onset := onset, decision := decision, volume := volume }
    s.modLeg c leg (fun m => { m with tx := countTx { m.tx with events := m.tx.events ++ [e] } .eventsTx 1 })
  else s

/-- The events of a leg that end, at a position of the channel. -/
def State.stopEvent (s : State) (c leg n : Nat) (stop : Int) : State :=
  s.modLeg c leg (fun m => { m with tx := { m.tx with events := m.tx.events.map (fun e =>
    if e.event = n ∧ e.endAt = none then { e with endAt := some stop } else e) } })

/-- A fax decision for an RTP leg (R212, R213): TRIGGER 0 V21, 1 UDPTL. -/
def State.faxDecision (s : State) (c leg trigger : Nat) : State :=
  let v := s.channel c
  let m := v.legMedia leg
  let mode := settingNat v.applied .codec leg 21 1
  if (v.runLeg leg).kind ≠ .rtp ∨ mode = 0 ∨ m.tx.fax ∨ txPt v leg = 128 then s
  else
    let s1 := s.modLeg c leg (fun m => { m with tx := countTx m.tx .faxDecisions 1 })
    let tell := fun (s : State) (a : Nat) => s.runNotice c .media false 0x0F03 [beBytes 1 leg, beBytes 1 trigger, beBytes 1 a]
    let g711 := (legMap v.applied leg).find? isG711
    if mode = 1 then tell s1 0
    else
      let pt := if mode = 2 then 128 else match g711 with | some e => entryPt e | none => txPt v leg
      tell (s1.modLeg c leg (fun m => { m with tx := countTx { m.tx with fax := true, waitSwitch := some pt } .faxSwitches 1 }))
        (mode - 1)

/-- A fixed declaration on the audio of leg `leg`. -/
def State.actOnTone (s : State) (c leg typ value : Nat) (onset decision volume : Int) : State :=
  let at_ := channelPos (s.channel c) leg
  let s1 := match sendable typ value with
    | some n => s.sendEvent c (1 - leg) n (at_ onset) (at_ decision) (volumeField volume)
    | none => s
  let s2 := if typ = 6 ∧ 32 ≤ value ∧ value ≤ 35 then
      s1.modChannel c (fun v =>
        let d := v.media.echo.decided == some true || value == 33 || value == 35
        { v with media := { v.media with echo := { v.media.echo with decided := some d } } })
    else s1
  if typ = 7 then (s2.faxDecision c 0 0).faxDecision c 1 0 else s2

/-- One report of the fixed pass. -/
def State.takeFixed (s : State) (c leg table vol : Nat) (e : DetEvent) : State × Option Nat :=
  match e with
  | .declared typ value onset decision =>
    let r := s.fixedEvent c leg table typ value onset decision (signedOf 16 vol)
    (r.1.actOnTone c leg typ value onset decision (signedOf 16 vol), some r.2)
  | .ended typ value onset last =>
    let v := s.channel c
    let id := ((v.legMedia leg).fixedEvents.reverse.find? (fun f => f.typ == typ && f.value == value && f.onset == onset)).elim 0
      (·.id)
    let s1 := s.toneEvent c leg id 4 typ value onset last ((last + 1 - onset) / v.rate).toNat 1 table 0
    (match sendable typ value with | some n => s1.stopEvent c (1 - leg) n (channelPos v leg (last + 1)) | none => s1, none)

/-- A detector as a leg starts it (R277): in state 0 with nothing in its registers. -/
def freshDetector (s : State) (id : Nat) : Detector := { table := id, image := (s.tableImage id).getD [] }

/-- The detectors a leg runs, on the versions the run adopted at its step 1 (R286, R287): a replaced table restarts its
detector, withdraws provisional events and ends a declared one. -/
def State.adoptDetectors (s : State) (c leg : Nat) : State :=
  let v := s.channel c
  let m := v.legMedia leg
  let ids := detectorIds v.applied v.wide leg
  let stale := m.detectors.filter (fun d => ids.contains d.table && (s.tableImage d.table).getD [] != d.image)
  let s1 := if stale = [] then s else s.withdrawAll c leg
  let s2 := stale.foldl (fun s d => match d.declared with
    | some (_, on) =>
      let id := (m.fixedEvents.reverse.find? (fun f => f.typ == d.evTyp && f.value == d.evValue && f.onset == on)).elim 0 (·.id)
      let s2 := s.toneEvent c leg id 4 d.evTyp d.evValue on on 0 3 d.table 0
      (match sendable d.evTyp d.evValue with | some n => s2.stopEvent c (1 - leg) n v.position | none => s2)
    | none => s) s1
  s2.modLeg c leg (fun m => { m with detectors := ids.map (fun i =>
    match m.detectors.find? (fun d => d.table == i && d.image == (s.tableImage i).getD []) with
    | some d => d
    | none => freshDetector s i) })

/-- Step 7 on one leg: the fixed pass over the block from position `pos`, then the provisional pass over [F, H). -/
def State.detectLeg (s : State) (c leg draw : Nat) (pos : Int) (block : List (Int × Bool)) : State :=
  let v := s.channel c
  let m := v.legMedia leg
  let n := 5 * v.rate
  let free := freeBool draw (runItem leg 16 0)
  let vol := Config.freeAt draw (runItem leg 16 1)
  let ran := m.detectors.map (fun d => let r := detFrames free n 4 pos block d; (d.table, r.1, r.2))
  let s1 := s.modLeg c leg (fun m => { m with detectors := ran.map (fun r => r.2.1) })
  let s2 := ran.foldl (fun s r => r.2.2.foldl (fun s e => (s.takeFixed c leg r.1 vol e).1) s) s1
  if (v.runLeg leg).kind ≠ .rtp then s2
  else
    let p := ((s2.channel c).legMedia leg).play
    -- at another rate what the array would make of the provisional audio is free
    let ahead := if p.rate = v.rate then p.audio.map (fun a => (a.1, false))
      else (List.range (p.audio.length * v.rate / p.rate)).map (fun i => (freeSample draw (runItem leg 3 i), false))
    let s3 := ran.foldl (fun s r =>
      ((detFrames free n 16 p.fix ahead r.2.1).2).foldl (fun s e => match e with
        | .declared typ value onset decision => s.provEvent c leg r.1 typ value onset decision (signedOf 16 vol)
        | .ended _ _ _ _ => s) s) s2
    s3.settleEvents c leg

/-! ## Received telephone events at the fix point (R195, R211) -/

/-- The reports of a leg's received events whose start is now fixed. -/
def State.reportRxEvents (s : State) (c leg : Nat) (old : List RxEvent) : State :=
  let v := s.channel c
  let m := v.legMedia leg
  let fix := m.play.fix
  let typ := fun (e : RxEvent) => if e.event ≤ 16 then 1 else 6
  let durMs := fun (e : RxEvent) => e.duration / v.rate
  let at_ := channelPos v leg
  let stop := fun (s : State) (e : RxEvent) => s.stopEvent c (1 - leg) e.event (at_ (e.pos + (e.duration : Int)))
  m.play.events.foldl (fun s e =>
    let before := old.find? (fun o => o.pos == e.pos && o.event == e.event)
    match e.reported with
    | none =>
      if e.pos < fix then
        let id := ((s.channel c).legMedia leg).nextEvent
        let tell := fun (z : RxEvent) => if z.pos = e.pos ∧ z.event = e.event then { z with reported := some id } else z
        let s1 := s.modLeg c leg (fun m =>
          { m with nextEvent := id + 1, play := { m.play with events := m.play.events.map tell } })
        let s2 := (s1.toneEvent c leg id 1 (typ e) e.event e.pos e.pos (durMs e) 0 noneValue (-(e.volume : Int))).countLeg
          c leg .eventsConfirmed
        let s3 := s2.sendEvent c (1 - leg) e.event (at_ e.pos) (at_ e.pos) e.volume
        if e.ended then stop (s3.toneEvent c leg id 4 (typ e) e.event e.pos e.pos (durMs e) 1 noneValue (-(e.volume : Int))) e
        else s3
      else s
    | some id =>
      match before with
      | none => s
      | some o =>
        if e.ended ∧ ¬ o.ended then
          stop (s.toneEvent c leg id 4 (typ e) e.event e.pos e.pos (durMs e) 1 noneValue (-(e.volume : Int))) e
        else if e.duration ≠ o.duration then
          s.toneEvent c leg id 3 (typ e) e.event e.pos e.pos (durMs e) 0 noneValue (-(e.volume : Int))
        else s) s

/-! ## Generators (R278, R279) -/

/-- One run of a leg's generator: its samples at its own rate, which are free where it sounds. -/
def playGenerator (draw leg : Nat) (g : Generator) : Option Generator × List Int :=
  let rate := generatorRate g
  let n := 10 * rate
  let out := if generatorSounds g then (List.range n).map (fun i => freeSample draw (runItem leg 8 i)) else List.replicate n 0
  (generatorRun rate (n + 2) g n, out)

/-! ## Prompts (R292 to R294) -/

/-- The samples of one piece. -/
def pieceSamplesOf (s : State) (p : Prompt) (i : Nat) : List Int :=
  let raw := (enlarge (pieceFrame p.image i) none).out
  if p.encoding = 0 then (List.range (raw.length / 2)).map (fun k => s16 raw (2 * k))
  else
    let img := (s.tableImage (p.encoding - 1)).getD []
    raw.map (fun b => compandExpand img b.toNat)

/-- The linear factor of a gain in units of 0.0005 dB: 0 dB is unity, any other is free (R281). -/
def linearFactor (gain : Int) : Int := if gain = 0 then 16777216 else Config.gainFactor gain

/-- Samples at a play's LEVEL, in 0.1 dB (R292). -/
def atGain (level : Int) (l : List Int) : List Int := l.map (fun x => sat16 (rne (x * linearFactor (level * 200)) 24))

/-- A play after its present prompt ends: the next of its list, the next repetition, or none. -/
def nextPrompt (p : Prompting) : Option Prompting :=
  if p.index + 1 < p.prompts.length then some { p with index := p.index + 1, position := 0 }
  else if p.repeats = 0 ∨ p.done + 1 < p.repeats then some { p with index := 0, position := 0, done := p.done + 1 }
  else none

/-- A play's end within a run (R294). -/
def State.promptEnds (s : State) (c leg : Nat) (p : Prompting) (reason : Nat) : State :=
  let s1 := if p.notify then
      s.runNotice c .media false 0x0F05 [beBytes 1 leg, beBytes 4 ((p.prompts[p.index]?).getD 0), beBytes 1 reason]
    else s
  (s1.modLeg c leg (fun m => { m with prompt := m.queue.head?, queue := m.queue.tail, playsWanted := m.playsWanted - 1 })).requestPieces
    c leg true

/-- The rate in kHz of the prompt a leg plays, if it plays one that is held. -/
def State.promptRate (s : State) (c leg : Nat) : Option Nat :=
  match ((s.channel c).legMedia leg).prompt with
  | none => none
  | some p => ((p.prompts[p.index]?).bind (fun i => tabFind? s.store.prompts i)).map (fun q => q.rate / 1000)

/-- 10 ms of a leg's play: its samples at the prompt's rate, short where a prompt ends. -/
def State.playPrompt (s : State) (c leg : Nat) : State × List Int :=
  match ((s.channel c).legMedia leg).prompt with
  | none => (s, [])
  | some p =>
    match (p.prompts[p.index]?).bind (fun i => (tabFind? s.store.prompts i).map (fun q => (i, q))) with
    | none => (s.promptEnds c leg p 4, [])
    | some (id, q) =>
      let n := q.rate / 100
      let i := p.position / q.pieceSamples
      if ¬ s.cached (id, i) then ((s.requestPiece c (id, i)).countPrompt .underrun, List.replicate n 0)
      else
        let out := ((pieceSamplesOf s q i).drop (p.position % q.pieceSamples)).take n
        let pos := p.position + n
        let s1 := s.touchPiece (id, i)
        let l := atGain p.level out
        if q.samples ≤ pos then
          match nextPrompt p with
          | some p1 => ((s1.modLeg c leg (fun m => { m with prompt := some p1 })).requestPieces c leg false, l)
          | none => (s1.promptEnds c leg p 0, l)
        else
          let s2 := s1.modLeg c leg (fun m => { m with prompt := some { p with position := pos } })
          (if pos % q.pieceSamples = 0 then s2.requestPieces c leg false else s2, l)

/-! ## Gains (R281, R282). Gains in dB are in units of 0.0005 dB, levels in 0.1 dBm0. -/

/-- The gain a GAIN_CURVE image gives a level: interpolated linearly in dB, constant beyond the end points. -/
def curveGain (img : List Byte) (level : Int) : Int :=
  let point := fun (i : Nat) => (s16 img (0x30 + 4 * i), s16 img (0x32 + 4 * i))
  let n := u8 img 0x20
  let below := ((List.range n).filter (fun i => decide ((point i).1 ≤ level))).length
  if below = 0 then (point 0).2 * 200
  else if below = n then (point (n - 1)).2 * 200
  else
    let a := point (below - 1)
    let b := point below
    a.2 * 200 + (b.2 - a.2) * 200 * (level - a.1) / (b.1 - a.1)

/-- The level of a stage after a frame: it follows the frame's with ATTACK_MS while rising and RELEASE_MS while falling; the shape of
the smoothing is free between the two levels. -/
def smoothLevel (img : List Byte) (old : Option Int) (level : Int) : Int :=
  match old with
  | none => level
  | some o =>
    let tau := if o < level then u16 img 0x22 else u16 img 0x24
    clampInt (Config.smoothed tau o level) (min o level) (max o level)

/-- The AGC gain after a frame under an AGC image; `level` is the frame's after the fixed gain and the curve, in units of 0.0005 dB.
The rates, in 0.1 dB/s, are as many of those units in 5 ms (R282). -/
def agcStep (img : List Byte) (gain level : Int) : Int :=
  if level < s16 img 0x2A * 200 then gain
  else
    clampInt (clampInt (s16 img 0x20 * 200 - level) (gain - u16 img 0x28) (gain + u16 img 0x26))
      (s16 img 0x24 * 200) (s16 img 0x22 * 200)

/-- One 5 ms frame through a stage with a fixed gain, a curve and an AGC, each where it is set: the factor is interpolated linearly
from the last frame's to its own (R281). -/
def gainFrame (fixed : Int) (curve agc : Option (List Byte)) (g : GainStage) (xs : List Int) : GainStage × List Int :=
  let level := levelOf xs
  let sm := match curve with | some img => smoothLevel img g.level level | none => g.level.getD level
  let cg := match curve with | some img => curveGain img sm | none => 0
  let ag := match agc with | some img => agcStep img g.agc (level * 200 + fixed * 200 + cg) | none => g.agc
  let factor := linearFactor (fixed * 200 + cg + (if agc.isSome then ag else 0))
  let n : Int := xs.length
  let out := (xs.zipIdx).map (fun p => sat16 (rne (p.1 * (g.factor + (factor - g.factor) * ((p.2 : Int) + 1) / n)) 24))
  ({ level := if curve.isSome then some sm else g.level, agc := ag, factor := factor }, out)

/-- A block through a stage, frame by frame. -/
def gainFrames (fixed : Int) (curve agc : Option (List Byte)) (len : Nat) : Nat → GainStage → List Int → GainStage × List Int
  | 0, g, l => (g, l)
  | fuel + 1, g, l =>
    if l = [] then (g, [])
    else
      let a := gainFrame fixed curve agc g (l.take len)
      let b := gainFrames fixed curve agc len fuel a.1 (l.drop len)
      (b.1, a.2 ++ b.2)

/-- A leg's RX or TX gain stage over a block (R281). -/
def State.gainStage (s : State) (c leg : Nat) (tx : Bool) (l : List (Int × Bool)) : State × List (Int × Bool) :=
  let v := s.channel c
  let m := v.legMedia leg
  let o := boolNat tx
  let table := fun (typ : Nat) =>
    let i := settingNat v.applied .gain leg typ noneValue
    if i = noneValue then none else s.tableImage i
  let r := gainFrames (settingInt v.applied .gain leg (1 + o) 0) (table (3 + o)) (table (5 + o)) (5 * v.rate) 4
    (if tx then m.gainTx else m.gainRx) (l.map (·.1))
  (s.modLeg c leg (fun m => if tx then { m with gainTx := r.1 } else { m with gainRx := r.1 }), r.2.zip (l.map (·.2)))

/-- Sums narrowed with sat16 (R279). -/
def addBlocks : List (Int × Bool) → List Int → List (Int × Bool)
  | [], _ => []
  | a, [] => a
  | a :: r, b :: t => (sat16 (a.1 + b), a.2) :: addBlocks r t

end Sys2Proof.Machine
end

