-- ==== Sys2Proof/Machine/EchoRun.lean ====
section
/-! DEFINITION. The echo canceller within a tick run (R245 to R264): the filter's partitions, levels, adaptation control, the
nonlinear processor and its states. What a transform of nonzero data makes is free (log entry 106). -/

namespace Sys2Proof.Machine

/-! ## Settings -/

def echoNat (v : Channel) (typ d : Nat) : Nat := settingNat v.applied .echo 0 typ d
def echoInt (v : Channel) (typ : Nat) (d : Int) : Int := settingInt v.applied .echo 0 typ d
def echoEnabled (v : Channel) : Bool := echoNat v 1 1 == 1
def echoAdapts (v : Channel) : Bool := echoNat v 4 1 == 1
def farActive (v : Channel) : Int := echoInt v 11 (-450)

/-- Blocks of 80 samples in a tick (R249). -/
def echoBlocks (v : Channel) : Nat := if v.wide then 2 else 1
def blockMs (v : Channel) : Nat := 10 / echoBlocks v

/-- The cancelled leg (R245). -/
def cancelledLeg (v : Channel) : Nat :=
  let n := echoNat v 2 0
  if n = 1 then 0 else if n = 2 then 1
  else if v.runA.kind = .tdm ∧ v.runB.kind ≠ .tdm then 0 else 1

/-- Whether the canceller has a leg to work on (Table 9.4). -/
def echoWorks (v : Channel) : Bool :=
  let l := v.runLeg (cancelledLeg v)
  echoEnabled v && l.bound && l.kind != .none

/-- The estimates of Table 9.8, in its order. -/
def estimate (e : Echo) (i : Nat) : Int := (e.estimates[i]?).getD 0

/-- The reset of a canceller (R259); A is that of the leg it works on (R246). -/
def resetEcho (v : Channel) (e : Echo) : Echo :=
  let l := cancelledLeg v
  countEcho { state := if echoWorks v then .reset else .off, before := .reset, leg := l,
              align := if l = e.leg then e.align else alignmentOf v l,
              blocks := e.blocks, nlpDisabled := e.nlpDisabled, decided := e.decided, counts := e.counts } .resets 1

/-- ECHO_EVENT (R267): KIND 0 DIVERGENCE, 1 STORE_ERROR, 2 STATE_CHANGE. -/
def State.echoNotice (s : State) (c kind : Nat) : State :=
  let v := s.channel c
  let mode := echoNat v 18 1
  if mode = 2 ∨ (mode = 1 ∧ kind ≠ 2) then
    s.runNotice c .media false 0x0F04 [beBytes 1 kind, beBytes 1 v.media.echo.state.ctorIdx, beInt 2 (estimate v.media.echo 5)]
  else s

/-! ## One block -/

/-- The delayed reference a block sees: 80 samples whose newest lies `off` behind the newest held. -/
def delayedRef (e : Echo) (off : Nat) : List (Int × Bool) :=
  let l := (e.delay.drop off).take 80
  (l ++ List.replicate (80 - l.length) (0, false)).reverse

/-- The Geigel test (R256). -/
def geigelMet (v : Channel) (e : Echo) (d : List Int) : Bool :=
  let back := partitions v.applied v.wide + 1
  let ref := (e.peaks.take back).foldl max 0
  let db := (echoInt v 8 (-60) / 10).natAbs
  decide (ref ^ 20 ≤ (peak d) ^ 20 * 10 ^ db)

/-- The energy test (R256): only in CONVERGED. -/
def energyMet (v : Channel) (e : Echo) (d r : List Int) : Bool :=
  e.state == .converged && decide (levelOf d - estimate e 5 + echoInt v 9 80 < levelOf r)

/-- Double-talk after a block (R256, R257). -/
def doubleTalkStep (v : Channel) (e : Echo) (d r : List Int) : Echo :=
  let g := geigelMet v e d
  let n := energyMet v e d r
  let hang := echoNat v 10 (ms 30) / ms 1
  let e1 := if g ∨ n then { e with doubleTalk := true, hang := hang } else { e with hang := e.hang - blockMs v }
  { e1 with energyMs := if n ∧ ¬ g then e.energyMs + blockMs v else 0 }

/-- What a block adapts on, the state apart (R255). -/
def adaptHolds (v : Channel) (e : Echo) (ref : List Int) (spoiled : Bool) : Bool :=
  echoAdapts v && decide (farActive v < levelOf ref) && !e.doubleTalk && !spoiled

/-! ## The filter (R250) -/

/-- Whether the reference spectrum of the block `i` blocks ago is 0: of its own samples and of those before them. -/
def silentRef (e : Echo) (i : Nat) : Bool := (e.peaks[i]?).getD 0 == 0 && (e.peaks[i + 1]?).getD 0 == 0

/-- The modelled echo of a block: 0 where every product of coefficient and reference is, else free samples (R250). -/
def modelledEcho (v : Channel) (draw k : Nat) (e : Echo) : List Int :=
  if (List.range (partitions v.applied v.wide)).all (fun i => (e.part i).zero || silentRef e i) then List.replicate 80 0
  else (List.range 80).map (fun i => freeSample draw (runItem 0 4 (80 * k + i)))

/-- A reference block taken into the ring and the bin powers (R250). -/
def takeSpectrum (v : Channel) (draw k : Nat) (e : Echo) : Echo :=
  let np := partitions v.applied v.wide
  let slot := (e.blocks - 1) % np
  let zero := silentRef e 0
  let x := if zero then List.replicate 162 0 else freeSpectrum draw (runItem k 25 0) 16
  let ex := if zero then 0 else signedOf 6 (Config.freeAt draw (runItem k 26 0))
  let powers := if zero ∧ e.powers.all (· == 0) then e.powers
    else (List.range 81).map (fun b => Config.freeAt draw (runItem k 26 (b + 1)) % 4294967296)
  let e1 := mapParts v (fun i p => if i = slot then { p with refExp := ex } else p) e
  { e1 with spectra := (List.range np).map (fun i => if i = slot then x else (e.spectra[i]?).getD []), powers := powers }

/-- The filter adapted on a block (R250): a partition whose reference is 0, or any where the residual is, keeps its coefficients; the
one constrained keeps only zeros; the others become free. Its largest tap is found with the constraint. -/
def adaptFilter (v : Channel) (draw k : Nat) (r : List Int) (e : Echo) : Echo :=
  let c := (e.blocks - 1) % partitions v.applied v.wide
  let still := r.all (· == 0)
  updateParts v (fun i p =>
    let kept := still || silentRef e i
    if kept ∧ (i ≠ c ∨ p.zero) then p
    else
      let item := runItem (2 + i) (27 + k) 0
      let q := { p with coefs := freeSpectrum draw item 32 }
      if i ≠ c then q
      else { q with peakTap := Config.freeAt draw (item + 162) % 80, peakSize := Config.freeAt draw (item + 163) }) e

/-- One of the estimates of Table 9.8 changed. -/
def setEstimate (i : Nat) (x : Int) (e : Echo) : Echo :=
  { e with estimates := (List.range 8).map (fun j => if j = i then x else estimate e j) }

/-- A running estimate after a block of level `x` (R251). -/
def runEstimate (v : Channel) (i : Nat) (x : Int) (e : Echo) : Echo :=
  setEstimate i (Config.runningLevel (blockMs v) (estimate e i) x) e

/-- Adaptation of a block: the filter, ERL and ERLE (Table 9.8), and the counts of consecutive blocks (R258, Table 9.4). -/
def adaptStep (v : Channel) (draw k : Nat) (d y r : List Int) (e : Echo) : Echo :=
  let lvl := Config.runningLevel (blockMs v) e.echoLevel (levelOf y)
  let e0 := adaptFilter v draw k r { e with echoLevel := lvl }
  let e1 := countEcho (setEstimate 5 (estimate e 1 - estimate e 2) (setEstimate 4 (estimate e 0 - lvl) e0)) .adaptBlocks 1
  let good := decide (120 ≤ estimate e1 5)
  { e1 with convergeRun := if good ∧ e.state = .converging then e.convergeRun + 1 else 0,
            divergeRun := if levelOf d + 10 < levelOf r then e.divergeRun + 1 else 0 }

/-- The states that adapt (Table 9.4). -/
def adapting (s : EchoState) : Bool := s == .converging || s == .converged

/-- The nonlinear processor's conditions (R260). -/
def nlpHolds (v : Channel) (e : Echo) (ref r : List Int) : Bool :=
  echoNat v 12 1 != 0 && !e.nlpDisabled && decide (farActive v < levelOf ref) && !e.doubleTalk &&
  decide (levelOf r ≤ levelOf ref - estimate e 4 - estimate e 5 + echoInt v 13 60)

/-- What the engaged processor puts out: comfort noise, zeros where CNG_MODE is OFF, free samples of SUPPRESS. -/
def nlpOutput (v : Channel) (draw k : Nat) : List Int :=
  if echoNat v 12 1 = 1 ∧ echoNat v 15 2 = 0 then List.replicate 80 0
  else (List.range 80).map (fun i => freeSample draw (runItem 0 5 (80 * k + i)))

/-- Between two versions of a block, dissolved where the choice changed (R254). -/
def dissolveChange (v : Channel) (changed : Bool) (old new : List Int) : List Int :=
  if changed then dissolveList (2 * v.rate) 0 old new else new

/-- Both levels below -36 dBm0 for a block (R263). -/
def quietStep (v : Channel) (e : Echo) (d ref : List Int) : Echo :=
  { e with quietMs := if levelOf d < -360 ∧ levelOf ref < -360 then e.quietMs + blockMs v else 0 }

/-- The noise estimate after a block without reference or double-talk (R261): what the smoothed minima make of it is free. -/
def noiseStep (v : Channel) (draw k : Nat) (x : List Int) (e : Echo) : Echo :=
  if levelOf x < farActive v ∧ ¬ e.doubleTalk then
    setEstimate 6 (signedOf 16 (Config.freeAt draw (runItem k 6 0)))
      { e with noise := (List.range 81).map (fun b => Config.freeAt draw (runItem k 6 (b + 1)) % 65536) }
  else e

/-- CNG_LEVEL where a block is replaced by comfort noise: the near-end noise, held between -70 dBm0 and CNG_MAX (R261). -/
def noiseLevel (v : Channel) (e : Echo) : Echo :=
  if echoNat v 12 1 = 1 ∧ echoNat v 15 2 ≠ 0 then setEstimate 7 (clampInt (estimate e 6) (-700) (echoInt v 16 (-400))) e else e

/-- Block `k` of a run through the canceller (R250, R254 to R261): the canceller and the output. -/
def echoBlock (v : Channel) (draw k : Nat) (faded : Bool) (near ref : List (Int × Bool)) (e : Echo) : Echo × List Int :=
  let d := near.map (·.1)
  let x := ref.map (·.1)
  let seen := { e with peaks := (peak x :: e.peaks).take 54, blocks := e.blocks + 1 }
  let e0 := quietStep v (runEstimate v 1 (levelOf d) (runEstimate v 0 (levelOf x) seen)) d x
  match e0.state with
  | .off => ({ e with blocks := e.blocks + 1 }, d)
  | .toneDisabled => (runEstimate v 3 (levelOf d) e0, d)
  | .reset | .converging | .converged | .frozen =>
    let ez := takeSpectrum v draw k e0
    let y := modelledEcho v draw k ez
    let r := (d.zip y).map (fun p => sat16 (p.1 - p.2))
    let e1 := noiseStep v draw k x (doubleTalkStep v (runEstimate v 2 (levelOf r) ez) d r)
    let flagged := near.any (·.2) || ref.any (·.2) || faded
    let holds := adaptHolds v e1 x flagged
    let skip := flagged && adaptHolds v e1 x false
    let e2 := if e1.state = .reset ∧ holds then { e1 with state := .converging } else e1
    let e3 := if adapting e2.state ∧ holds then adaptStep v draw k d y r e2
      else e2
    let e4 := countEcho (countEcho e3 .dtBlocks (boolNat e3.doubleTalk)) .settleSkipped (boolNat skip)
    let bypass := decide (levelOf d < levelOf r)
    let e5 := countEcho { e4 with bypass := bypass } .bypassBlocks (boolNat bypass)
    let lin := dissolveChange v (bypass != e.bypass) (if e.bypass then d else r) (if bypass then d else r)
    let met := nlpHolds v e5 x r
    let on := met || e5.nlp
    let e6 := { e5 with nlp := on, nlpHang := if met then echoNat v 14 (ms 50) / ms 1 else e5.nlpHang - blockMs v }
    let cn := nlpOutput v draw k
    let out := if on then dissolveChange v (!e.nlp) lin cn else dissolveChange v e.nlp cn lin
    let e7 := runEstimate v 3 (levelOf out) (if on then noiseLevel v e6 else e6)
    (countEcho { e7 with lastOut := out } .nlpBlocks (boolNat on), out)

/-- The blocks of a tick in order. -/
def echoRunBlocks (v : Channel) (draw : Nat) (faded : Bool) : Nat → Nat → List (Int × Bool) → Echo → Echo × List Int
  | 0, _, _, e => (e, [])
  | fuel + 1, k, near, e =>
    let off := (echoBlocks v - 1 - k) * 80 + e.align
    let a := echoBlock v draw k faded (near.take 80) (delayedRef e off) e
    let b := echoRunBlocks v draw faded fuel (k + 1) (near.drop 80) a.1
    (b.1, a.2 ++ b.2)

/-! ## The canceller in a run -/

/-- States brought in line with the settings before a block (Table 9.4). -/
def echoSettle (v : Channel) (e : Echo) : Echo :=
  if ¬ echoWorks v then { e with state := .off }
  else if e.state = .off then resetEcho v e
  else if ¬ echoAdapts v ∧ (e.state = .reset ∨ adapting e.state) then { e with before := e.state, state := .frozen }
  else if echoAdapts v ∧ e.state = .frozen then { e with state := e.before }
  else e

/-- A decision of step 7 of the last run (R262). -/
def toneDisable (v : Channel) (e : Echo) : Echo :=
  match e.decided with
  | none => e
  | some rev =>
    let mode := echoNat v 17 1
    let e1 := { e with decided := none }
    if mode = 0 ∨ e.state = .off ∨ e.state = .toneDisabled then e1
    else if mode = 2 ∨ rev then countEcho { e1 with before := e.state, state := .toneDisabled, quietMs := 0 } .toneDisables 1
    else if e.nlpDisabled then e1
    else countEcho { e1 with nlpDisabled := true, quietMs := 0, nlp := false } .nlpDisables 1

/-- The reference of a run taken into the delay line (R245, R246). -/
def pushReference (ref : List (Int × Bool)) (e : Echo) : Echo := { e with delay := (ref.reverse ++ e.delay).take 640 }

/-- Whether a dissolve of a TDM stream of the leg is fading (R247). -/
def fading (v : Channel) (leg : Nat) : Bool :=
  (v.runLeg leg).kind == .tdm && [tdmInKey leg, tdmOutKey leg].any (fun k => match (v.stream k).dissolve with
    | some d => decide (settleCount (v.stream k).chain ≤ d.count)
    | none => false)

/-- Step 6: the near-end block of the cancelled leg against the reference sent toward it. -/
def State.cancelEcho (s : State) (c draw : Nat) (ref near : List (Int × Bool)) : State × List (Int × Bool) :=
  let v := s.channel c
  let e0 := pushReference ref (echoSettle v (toneDisable v v.media.echo))
  let a := echoRunBlocks v draw (fading v (cancelledLeg v)) (echoBlocks v) 0 near e0
  let s1 := s.setChannel c { v with media := { v.media with echo := a.1 } }
  let s2 := if a.1.state = v.media.echo.state then s1 else s1.echoNotice c 2
  (s2, a.2.zip (near.map (·.2)))

end Sys2Proof.Machine
end

