-- ==== Sys2Proof/Machine/Encode.lean ====
section
/-! DEFINITION. Step 8 of a tick run: the encoder of an RTP leg, telephone events sent, T.38, and the blocks of STACK legs
(R34, R202, R203, R207, R209 to R214, R543). G.711 is encoded by its law; what any other encoder puts into a frame is free, and its
packets are what Table 7.1's formats make of their frames. -/

namespace Sys2Proof.Machine

/-! ## Descriptors (R31 step 8, R164) -/

/-- A packet handed to the packet engine of the channel's region. -/
def State.handPacket (s : State) (c : Nat) (d : Descriptor) : State :=
  s.modRegion (blockRegion (s.channel c).block) (fun r => { r with
    descriptors := r.descriptors ++ [{ d with record := (s.channel c).runLeg d.leg }] })

/-- The map entry TX_PT names in the applied settings, T.38 apart. -/
def txEntryOf (v : Channel) (leg : Nat) : Option (List Byte) :=
  (legMap v.applied leg).find? (fun e => isAudio e && entryPt e == txPt v leg)

/-- The RTP clock of an entry in use; 8,000 where the leg sends T.38. -/
def clockOf (e : List Byte) : Nat := if e = [] then 8000 else codecClock (entryCodec e)

/-- The ticks of a leg's RTP clock in `n` ms. -/
def TxLeg.ticks (t : TxLeg) (n : Nat) : Nat := clockOf t.entry * n / 1000

def State.modTx (s : State) (c leg : Nat) (f : TxLeg → TxLeg) : State := s.modLeg c leg (fun m => { m with tx := f m.tx })

/-- A leg's encoder begun: the first sequence number and timestamp are free. -/
def startTx (v : Channel) (leg draw tick : Nat) (t : TxLeg) : TxLeg :=
  if t.started then t
  else { t with started := true, pt := legTxPt v.applied leg, entry := (txEntryOf v leg).getD [], tsTick := tick,
                seq := Config.freeAt draw (runItem leg 17 0) % 65536, ts := Config.freeAt draw (runItem leg 17 1) % 2 ^ 32,
                marker := true, newCodec := true }

/-- One RTP packet of a leg: its payload type, timestamp and payload; the sequence number advances. -/
def State.sendRtp (s : State) (c leg pt : Nat) (marker : Bool) (ts : Nat) (payload : List Byte) : State :=
  let t := ((s.channel c).legMedia leg).tx
  (s.handPacket c { channel := c, leg := leg, udptl := false, marker := marker, pt := pt, seq := t.seq, ts := ts % 2 ^ 32,
                    payload := payload }).modTx c leg (fun t => { t with seq := (t.seq + 1) % 65536 })

/-- The payload that frames make in their codec's format (Table 7.1, R203, R207): AMR with the mode request CMR_SEND, Opus under the
configuration its frames were coded in. -/
def packFrames (e : List Byte) (frames : List (Nat × List Byte)) : List Byte :=
  if isAmr e then amrPayload (entryCodec e) (entryCmrSend e) (octetAligned e) frames
  else if isOpus e then opusPayload (frames.headD (0, [])).1 (frames.map (·.2))
  else frames.flatMap (·.2)

/-- The packet begun is closed and sent with the frames it holds; a frame not whole is lost (R209). -/
def State.closePartial (s : State) (c leg : Nat) : State :=
  let t := ((s.channel c).legMedia leg).tx
  if t.frames = [] then s.modTx c leg (fun t => { t with pendMs := 0 })
  else
    (s.sendRtp c leg t.pt t.marker t.partialTs (packFrames t.entry t.frames)).modTx c leg (fun t =>
      { t with frames := [], pendMs := 0, marker := false, newCodec := false })

/-- The timestamp brought to the block of a run's tick: it counts every tick of the media clock, those without a run too, before which
a packet begun is closed (R34). -/
def State.syncTx (s : State) (c leg : Nat) : State :=
  let t := ((s.channel c).legMedia leg).tx
  let d := s.runTick c - t.tsTick
  (if 1 < d then s.closePartial c leg else s).modTx c leg (fun t =>
    { t with ts := (t.ts + t.ticks (10 * d)) % 2 ^ 32, tsTick := t.tsTick + d })

/-- A change of TX_PT (R209, R213): the new codec's first packet has the marker bit, and its timestamp follows what the last packet
covered. -/
def State.switchTx (s : State) (c leg pt : Nat) : State :=
  let e := ((legMap (s.channel c).applied leg).find? (fun e => isAudio e && entryPt e == pt)).getD []
  let t := ((s.channel c).legMedia leg).tx
  if t.pt = pt ∧ entryCodec t.entry = entryCodec e then s.modTx c leg (fun t => { t with entry := e })
  else
    let s1 := s.syncTx c leg
    let u := ((s1.channel c).legMedia leg).tx
    let begun := u.frames ≠ [] ∨ u.pendMs ≠ 0
    let held := u.ticks (u.frames.length * frameMs (entryCodec u.entry) (legPtime (s.channel c).applied leg))
    (s1.closePartial c leg).modTx c leg (fun t =>
      countTx { t with pt := pt, entry := e, marker := true, newCodec := true, silent := false, mode := none,
                       ts := if begun then (u.partialTs + held) % 2 ^ 32 else t.ts } .switchTx 1)

/-! ## Encoding (R201 to R204, R207) -/

/-- The mode an AMR encoder uses: the one followed while MODE_SET has it, else MODE (R203). -/
def amrMode (e : List Byte) (t : TxLeg) : Nat :=
  match t.mode with
  | some i => if (entryModeSet e).testBit i then i else entryMode e
  | none => entryMode e

/-- The bytes of an Opus frame of `n` ms: fixed by BITRATE where CBR is set, else free. -/
def opusBytes (e : List Byte) (draw leg n : Nat) : Nat :=
  if (entryFlags e).testBit 4 then entryClock e * n / 8000 else 1 + Config.freeAt draw (runItem leg 17 2) % 1275

/-- One frame of a codec's encoder, with its frame type: an AMR mode, an Opus configuration (R203, R204, R207). -/
def encodeFrame (laws : List (List Byte)) (e : List Byte) (t : TxLeg) (draw leg ptime : Nat) (xs : List Int) : Nat × List Byte :=
  let c := entryCodec e
  let free := fun (n : Nat) => freeBytes draw (runItem leg 12 0) n
  if c ≤ 1 then (0, xs.map (fun x => BitVec.ofNat 8 (compandEncode ((laws[1 - c]?).getD []) x)))
  else if c = 2 then (0, free (10 * (entryG726Rate e + 2)))
  else if c = 3 then (0, free 80)
  else if c = 4 then (0, free 10)
  else if isAmr e then (amrMode e t, free ((amrBits c (amrMode e t) + 7) / 8))
  else
    let n := frameMs c ptime
    (opusConfig (entryWideband e) (freeBool draw (runItem leg 17 3)) n, free (opusBytes e draw leg n))

/-- Whether a codec's silence goes as CN packets of the map (R202). -/
def usesCn (e : List Byte) : Bool := decide (entryCodec e ≤ 3)

/-- The payload of a silence descriptor: a CN packet's level and shape, two bytes of G.729, an AMR SID frame, an Opus frame with no
data (R202). -/
def sidPayload (e : List Byte) (draw leg ptime : Nat) : List Byte :=
  let c := entryCodec e
  let free := fun (n : Nat) => freeBytes draw (runItem leg 11 16) n
  if c = 4 then free 2
  else if isAmr e then amrPayload c (entryCmrSend e) (octetAligned e) [(if c = 5 then 8 else 9, free 5)]
  else if c = 7 then opusPayload (opusConfig (entryWideband e) (freeBool draw (runItem leg 17 3)) (frameMs c ptime)) [[]]
  else free (1 + Config.freeAt draw (runItem leg 11 2) % 16)

/-- A silence descriptor, if one is due in this run: at the start of a silence, when the noise level has moved, and once SID_MAX has
passed (R202). -/
def State.sendSid (s : State) (c leg draw : Nat) (e : List Byte) (start : Bool) : State :=
  let v := s.channel c
  let t := (v.legMedia leg).tx
  let due := start || freeBool draw (runItem leg 11 1) || decide (settingNat v.applied .codec leg 4 (ms 1000) ≤ ms (t.sinceSid + 10))
  let cn := (legMap v.applied leg).find? isCn
  match (if usesCn e then cn.map entryPt else some (entryPt e)) with
  | some pt =>
    if due then
      (s.sendRtp c leg pt t.newCodec t.ts (sidPayload e draw leg (legPtime v.applied leg))).modTx c leg (fun t =>
        countTx { t with sinceSid := 0, newCodec := false } .sidTx 1)
    else s.modTx c leg (fun t => { t with sinceSid := t.sinceSid + 10 })
  | none => s

/-- Whether a run's block is sent as silence: VAD is set, and it finds silence or an event has muted all of it (R202, R210). -/
def vadSilent (v : Channel) (leg draw : Nat) (e : List Byte) (muted : Bool) : Bool :=
  entryVad e && !(v.legMedia leg).tx.vadOff && (muted || freeBool draw (runItem leg 11 0))

/-- The 10 ms of a run encoded, `xs` at the codec's rate: speech goes into the packet begun, silence as descriptors. -/
def State.encodeAudio (s : State) (c leg draw : Nat) (e : List Byte) (muted : Bool) (xs : List Int) : State :=
  let v := s.channel c
  let t := (v.legMedia leg).tx
  let ptime := legPtime v.applied leg
  if vadSilent v leg draw e muted then
    ((s.closePartial c leg).modTx c leg (fun t => { t with silent := true })).sendSid c leg draw e (!t.silent)
  else
    let whole := decide (frameMs (entryCodec e) ptime ≤ t.pendMs + 10)
    let laws := [(s.tableImage 0).getD [], (s.tableImage 1).getD []]
    let frames := if whole then t.frames ++ [encodeFrame laws e t draw leg ptime xs] else t.frames
    let s1 := s.modTx c leg (fun t => { t with
      silent := false, marker := t.marker || t.silent, sinceSid := 0, frames := frames, entry := e,
      pendMs := if whole then 0 else t.pendMs + 10, partialTs := if t.frames = [] ∧ t.pendMs = 0 then t.ts else t.partialTs })
    if ptime ≤ frames.length * frameMs (entryCodec e) ptime then s1.closePartial c leg else s1

/-! ## Telephone events (R210) -/

/-- The payload of an event packet (RFC 4733): event, end bit, volume, duration. -/
def eventPayload (e : TxEvent) (final : Bool) (dur : Nat) : List Byte :=
  beBytes 1 e.event ++ beBytes 1 (boolNat final * 128 + e.volume % 64) ++ beBytes 2 (min 65535 dur)

/-- EVENT_INTERVAL of a leg in ms. -/
def eventInterval (v : Channel) (leg : Nat) : Nat := settingNat v.applied .codec leg 19 (ms 50) / ms 1

/-- Clock ticks of `n` samples of the channel rate. -/
def TxLeg.sampleTicks (t : TxLeg) (v : Channel) (n : Int) : Int := n * clockOf t.entry / (v.rate * 1000 : Nat)

/-- One event being sent, in one run (R210): its timestamp is its onset, or where its present segment begins, and its duration
reaches to its end or the end of the block. A duration that fills its field closes the segment (RFC 4733). -/
def State.runEvent (s : State) (c leg : Nat) (e : TxEvent) : State :=
  let v := s.channel c
  let t := (v.legMedia leg).tx
  let put := fun (s : State) (x : TxEvent) => s.modTx c leg (fun t =>
    { t with events := (t.events.map (fun y => if y = e then x else y)).filter (fun y => decide (y.ends < 3)) })
  match (legMap v.applied leg).find? isEvents with
  | none => s
  | some en =>
    if e.sent ≠ 0 ∧ e.sinceMs + 10 < eventInterval v leg then put s { e with sinceMs := e.sinceMs + 10 }
    else
      let here : Int := v.position
      let now := min (here + tickLen v) (e.endAt.getD (here + tickLen v))
      let dur := (t.sampleTicks v (now - e.onset)).toNat - e.segTicks
      let full := decide (65535 < dur)
      let final := e.endAt.isSome && !full
      let ts := ((t.ts : Int) + t.sampleTicks v (e.onset - here) + e.segTicks) % 2 ^ 32
      put (s.sendRtp c leg (entryPt en) (e.sent == 0) ts.toNat (eventPayload e final dur))
        { e with sent := e.sent + 1, sinceMs := 0, ends := if final then e.ends + 1 else 0,
                 segTicks := if full then e.segTicks + 65535 else e.segTicks }

/-- The events of a leg in one run; those it sends no more, for its clock or its DTMF_MODE, end (R200). -/
def State.runEvents (s : State) (c leg : Nat) : State :=
  let v := s.channel c
  let s1 := s.modTx c leg (fun t => { t with events := t.events.filter (fun e => sendsEvents v leg e.event) })
  (((s1.channel c).legMedia leg).tx.events).foldl (fun s e => s.runEvent c leg e) s1

/-- Whether an event silences a position of the channel: from its decision sample to its end, under DTMF_MODE EVENTS (R210). -/
def eventMutes (v : Channel) (leg : Nat) (x : Int) : Bool :=
  settingNat v.applied .codec leg 18 1 == 1 && (v.legMedia leg).tx.events.any (fun e =>
    sendsEvents v leg e.event && decide (e.decision ≤ x) && (match e.endAt with | some z => decide (x < z) | none => true))

/-- A block with what its events silence. -/
def muteBlock (v : Channel) (leg : Nat) (b : List (Int × Bool)) : List (Int × Bool) :=
  (b.zipIdx).map (fun p => (if eventMutes v leg ((v.position : Int) + p.2) then 0 else p.1.1, p.1.2))

/-- Whether events silence all of a block. -/
def allMuted (v : Channel) (leg : Nat) : Bool :=
  (List.range (tickLen v)).all (fun i => eventMutes v leg ((v.position : Int) + i))

/-! ## T.38 (R214) -/

/-- UDPTL packets taken by a run: a datagram newer than the last brings its IFP, and those missing before it as far as it carries them;
the rest are lost. `age` is how long ago one was accepted, in ns. -/
def takeUdptl (now : Nat) (age : RxPacket → Nat) (l : List RxPacket) (t : TxLeg) : TxLeg :=
  l.foldl (fun t k =>
    let seq := u16 k.bytes 0
    let gap := match t.ifpSeen with | some x => (seq + 65536 - x - 1) % 65536 | none => 0
    if t.ifpSeen.isSome ∧ 32768 ≤ gap then t
    else
      let saved := min gap (udptlRedundant k.bytes)
      let t1 := countTx (countTx (countTx t .t38IfpRx 1) .t38LostIfp (gap - saved)) .t38RedundancyUsed saved
      { t1 with ifpSeen := some seq, ifpStart := some (t1.ifpStart.getD (now - age k)),
                ifpQueue := (t1.ifpQueue ++ [k.bytes]).drop (t1.ifpQueue.length - 63) }) t

/-- The modulated audio of a T.38 leg: silence until T38_DELAY after the first IFP, free samples then. -/
def t38Audio (v : Channel) (leg draw now : Nat) : List (Int × Bool) :=
  let t := (v.legMedia leg).tx
  let delay := settingNat v.applied .codec leg 28 (ms 100)
  let on := match t.ifpStart with | some a => decide (a + delay ≤ now) | none => false
  (List.range (tickLen v)).map (fun i => (if on then freeSample draw (runItem leg 19 i) else 0, false))

/-- The UDPTL datagram of a run, where it produces an IFP. The IFP is free, as is whether it is of V.21 or of a high-speed modulation;
the redundant ones are those sent last, REDUNDANCY_LS or REDUNDANCY_HS of them as far as MAX_DATAGRAM leaves room. -/
def State.sendT38 (s : State) (c leg draw : Nat) : State :=
  let v := s.channel c
  if ¬ freeBool draw (runItem leg 20 0) then s
  else
    let t := (v.legMedia leg).tx
    let most := settingNat v.applied .codec leg 27 300
    let count := if freeBool draw (runItem leg 20 2) then settingNat v.applied .codec leg 25 3 else settingNat v.applied .codec leg 26 1
    let ifp := freeBytes draw (runItem leg 20 16) (1 + Config.freeAt draw (runItem leg 20 1) % (most - 8))
    let payload := udptlDatagram t.udptlSeq ifp (redundancyFit most t.udptlSeq ifp (t.ifpSent.take count))
    (s.handPacket c { channel := c, leg := leg, udptl := true, marker := false, pt := 0, seq := t.udptlSeq, ts := 0,
                      payload := payload }).modTx c leg (fun t =>
      countTx { t with udptlSeq := (t.udptlSeq + 1) % 65536, ifpSent := (ifp :: t.ifpSent).take 7 } .t38IfpTx 1)

/-! ## STACK legs (R543) -/

/-- Whether a leg's pair is joined in a run (R40, R543): whether a far leg on another member names this one back and runs is free,
since the spec gives no message that tells it (log entry 25). -/
def State.stackJoined (s : State) (c leg draw : Nat) (l : Leg) : Bool :=
  if l.peerDevice = s.stack.number then
    let p := s.channel l.peerChannel
    let o := p.runLeg l.peerLeg
    o.kind == .stack && o.peerDevice == s.stack.number && o.peerChannel == c && o.peerLeg == leg &&
    (p.state == .active || p.state == .draining || (p.state == .migrating && p.runState == .active))
  else s.stack.members.contains l.peerDevice && s.canReach l.peerDevice && freeBool draw (runItem leg 22 0)

/-- A block that reaches a STACK leg: at most 3 are kept. -/
def takeStackBlock (tick : Nat) (b : List (Int × Bool)) (m : LegMedia) : LegMedia :=
  let q := m.stackIn ++ [(tick, b)]
  let m1 := { m with stackRate := b.length / 10 }
  if 3 < q.length then { m1 with stackIn := q.tail, stackCounts := bump m.stackCounts 0 } else { m1 with stackIn := q }

/-- The block a STACK leg takes in a run. -/
def State.stackBlock (s : State) (c leg draw : Nat) : State × List (Int × Bool) :=
  let v := s.channel c
  let m := v.legMedia leg
  let zero := List.replicate (10 * s.peerRate v leg) ((0 : Int), false)
  if ¬ s.stackJoined c leg draw (v.runLeg leg) then
    (s.modLeg c leg (fun m => { m with stackStarted := false, stackCounts := bump m.stackCounts 2 }), zero)
  else if ¬ m.stackStarted ∧ m.stackIn.length < 2 then (s, zero)
  else
    match m.stackIn with
    | [] => (s.modLeg c leg (fun m => { m with stackStarted := true, stackCounts := bump m.stackCounts 1 }), zero)
    | (_, b) :: r => (s.modLeg c leg (fun m => { m with stackStarted := true, stackIn := r }), b)

/-- A block of fixed audio sent to the peer of a STACK leg. -/
def State.sendStack (s : State) (c leg draw tick : Nat) (b : List (Int × Bool)) : State :=
  let l := (s.channel c).runLeg leg
  if ¬ s.stackJoined c leg draw l then s
  else if l.peerDevice = s.stack.number then s.modLeg l.peerChannel l.peerLeg (takeStackBlock tick b)
  else
    let k : LegBlock := { device := l.peerDevice, channel := l.peerChannel, leg := l.peerLeg, tick := tick, samples := b }
    { s with stack := { s.stack with legBlocks := s.stack.legBlocks ++ [k] } }

end Sys2Proof.Machine
end

