-- ==== Sys2Proof/Machine/TickRun.lean ====
section
/-! DEFINITION. One tick run of a channel thread, R31 in its order (R29 to R33, R38, R42 to R44, R480, R519). -/

namespace Sys2Proof.Machine

/-- The tick number of the media clock (R375). -/
def State.tick (s : State) : Nat := s.clocks.mediaNs / 10000000

/-- The time counter in ns. -/
def State.timeNs (s : State) : Nat := s.time.seconds * 1000000000 + s.time.ns

/-- The time-counter instant of the present tick origin (R178). -/
def State.originNs (s : State) : Int := (s.timeNs : Int) - (s.clocks.mediaNs % 10000000 : Nat)

def rtpRunLegs (v : Channel) : List Nat := [0, 1].filter (fun i => (v.runLeg i).kind == .rtp)

/-! ## Step 1: command events (R38) -/

def State.modEcho (s : State) (c : Nat) (f : Channel → Echo → Echo) : State :=
  s.modChannel c (fun v => { v with media := { v.media with echo := f v v.media.echo } })

/-- A develop window restart of one leg, with the events it withdraws (R191). -/
def State.restartWindow (s : State) (c leg : Nat) : State :=
  (s.withdrawAll c leg).modLeg c leg (fun m => { m with play := windowRestart m.play })

def State.restartWindows (s : State) (c : Nat) : State := (rtpRunLegs (s.channel c)).foldl (fun s i => s.restartWindow c i) s

/-- The jitter buffers of a channel emptied. -/
def State.emptyBuffers (s : State) (c : Nat) : State :=
  (rtpRunLegs (s.channel c)).foldl (fun s i => s.modLeg c i (fun m => { m with play := emptyBuffer m.play })) s

/-- Entry to HOLD: the jitter buffers are emptied and the provisional audio discarded; the window restarts on return (R42, R191). -/
def State.enterHold (s : State) (c : Nat) : State :=
  (rtpRunLegs (s.channel c)).foldl (fun s i => s.modLeg c i (fun m => { m with play := emptyBuffer (dropProvisional m.play) })) s

/-- A stream in being restarted with a synchronising reset, and the alignment with it (R240, R247). -/
def State.resetKey (s : State) (c k : Nat) : State :=
  s.modChannel c (fun v =>
    let t := v.stream k
    if t.present then
      let w := v.setStream k (resetStream v k t.chain.fin t.chain.fout t)
      if crossing k then realignEcho w else w
    else v)

/-- Setting types of a group that an event carries. -/
def eventTypes (g : SetGroup) (unit : Nat) (l : List (Nat × List Byte)) : List Nat :=
  (l.filter (fun e => e.1 / 65536 == g.ctorIdx * 8 + unit)).map (fun e => e.1 % 65536)

/-- What changed settings do beyond being stored (R191, R209, R237, R259, R264). -/
def State.settingsTake (s : State) (c : Nat) (l : List (Nat × List Byte)) : State :=
  let old := s.channel c
  let s1 := s.modChannel c (fun v => { v with applied := mergeSettings v.applied l })
  let v := s1.channel c
  let s2 := if developLen v ≠ developLen old then s1.restartWindows c else s1
  let s3 := [0, 1].foldl (fun s i =>
    let t := eventTypes .codec i l
    if t.contains 1 ∨ t.contains 0x41 then
      let pt := legTxPt (s.channel c).applied i
      let s1 := if ((s.channel c).legMedia i).tx.started then s.switchTx c i pt else s
      if t.contains 1 ∧ pt ≠ 128 then s1.modTx c i (fun t => { t with fax := false, vadOff := false }) else s1
    else s) s2
  let s4 := (List.range 8).foldl (fun s n =>
    if eventTypes .resample n l = [] then s
    else (namedKeys n).foldl (fun s k => s.modChannel c (fun v =>
      if chainChanged old.applied v k (v.stream k) then v.setStream k (followSettings v k (v.stream k)) else v)) s) s3
  let w := s4.channel c
  if echoNat w 2 0 ≠ echoNat old 2 0 ∨ echoTail w.applied ≠ echoTail old.applied then
    s4.modEcho c (fun v x => if x.state = .off then x else resetEcho v x)
  else s4

/-- The slot map changes that a TDM leg's binding asks of the next frame (R309, R310). -/
def State.mapLeg (s : State) (c leg : Nat) (old new : Leg) : State :=
  let s1 := ((legSlots old).filter (fun k => !((legSlots new).contains k))).foldl (fun s k =>
    let t := s.tdmSlot k
    s.setTdmSlot k { t with bound := if t.bound = some (c, leg) then none else t.bound, change := .release }) s
  (legSlots new).foldl (fun s k =>
    let t := s.tdmSlot k
    if t.mapped = some (c, leg) then s else s.setTdmSlot k { t with change := .bind c leg }) s1

/-- Whether a TDM leg's binding names another highway or slot: a hop, which a change of LAW alone is not (R310). -/
def hopped (old new : Leg) : Bool := decide (old.highway ≠ new.highway ∨ old.slot ≠ new.slot)

/-- A leg's binding applied (R310, R443). -/
def State.bindTake (s : State) (c leg : Nat) (l : Leg) (fresh : Bool) : State :=
  let v := s.channel c
  let old := v.runLeg leg
  let s0 := if fresh then s.withdrawAll c leg else s
  let s1 := (s0.mapLeg c leg old l).modChannel c (fun v =>
    let w := v.setRunLeg leg l
    if fresh then
      let m := w.legMedia leg
      let m1 : LegMedia := { prompt := m.prompt, queue := m.queue, generator := m.generator, toneWanted := m.toneWanted,
                             playsWanted := m.playsWanted, nextEvent := m.nextEvent, play := { fix := v.position } }
      { w.setLegMedia leg m1 with applied := if l.kind = .rtp then dropSettings w.applied .codec leg else w.applied }
    else if hopped old l ∧ old.kind = .tdm ∧ l.kind = .tdm ∧ s.slotRate old = s.slotRate l then
      w.setStream (tdmInKey leg) (hopStream w (tdmInKey leg) (w.stream (tdmInKey leg)))
    else w)
  if (cancelledLeg (s1.channel c) = leg ∨ cancelledLeg v = leg) ∧ (fresh ∨ hopped old l) then
    s1.modEcho c (fun v x => if x.state = .off then x else resetEcho v x)
  else s1

/-- What a leg's ended plays and tones had reserved, released (R220): none is wanted, none plays. -/
def releasePlayers (v : Channel) : Channel :=
  [0, 1].foldl (fun v i =>
    let m := v.legMedia i
    let a := if m.toneWanted ∨ m.generator.isSome then v else v.reserve (2 + i) 0
    if m.playsWanted ≠ 0 ∨ m.prompt.isSome ∨ m.queue ≠ [] then a
    else (a.reserve (4 + i) 0).setLegMedia i { m with playRates := [] }) v

/-- Every play of a leg ended by the run, with a reason: 1 STOPPED by PROMPT_STOP or a new play, 3 CLOSED by CH_DRAIN (R294). -/
def State.endRunPlays (s : State) (c leg reason : Nat) : State :=
  let m := (s.channel c).legMedia leg
  let s1 := (m.prompt.toList ++ m.queue).foldl (fun s p =>
    if p.notify then
      s.runNotice c .media false 0x0F05 [beBytes 1 leg, beBytes 4 ((p.prompts[p.index]?).getD 0), beBytes 1 reason]
    else s) s
  s1.modLeg c leg (fun m => { m with prompt := none, queue := [], playsWanted := if reason = 3 then 0 else m.playsWanted })

/-- Every play of a leg ended STOPPED, by command. -/
def State.stopTake (s : State) (c leg : Nat) : State := s.endRunPlays c leg 1

/-- A play begun, or queued behind the current one (R292). -/
def State.playTake (s : State) (c leg : Nat) (p : Prompting) (queue : Bool) : State :=
  let m := (s.channel c).legMedia leg
  if queue ∧ m.prompt.isSome then s.modLeg c leg (fun m => { m with queue := m.queue ++ [p] })
  else ((s.stopTake c leg).modLeg c leg (fun m => { m with prompt := some p })).requestPieces c leg true

def State.setRun (s : State) (c : Nat) (st : ChState) : State := s.modChannel c (fun v => { v with runState := st })

/-- One command event (R38). -/
def State.takeEvent (s : State) (c : Nat) (e : ChEvent) : State :=
  match e with
  | .activate => s.setRun c .active
  | .hold => (s.enterHold c).setRun c .hold
  | .resume =>
    let s1 := ((s.restartWindows c).emptyBuffers c).setRun c .active
    streamKeys.foldl (fun s k => s.resetKey c k) s1
  | .drain =>
    let s1 := ((s.endRunPlays c 0 3).endRunPlays c 1 3).setRun c .draining
    if (s.channel c).runState = .hold then streamKeys.foldl (fun s k => s.resetKey c k) s1 else s1
  | .settings l => s.settingsTake c l
  | .bind leg l fresh => s.bindTake c leg l fresh
  | .echoReset => s.modEcho c (fun v x => if echoWorks v then resetEcho v x else x)
  | .play leg ids rp mode level notify queue =>
    s.playTake c leg { prompts := ids, repeats := rp, replace := mode == 1, level := level, notify := notify } queue
  | .stopPlay leg => s.stopTake c leg
  | .tone leg table mode offset =>
    let g : Generator := { table := table, image := (s.tableImage table).getD [], replace := mode == 1, level := offset }
    s.modLeg c leg (fun m => { m with generator := some g })
  | .stopTone leg => s.modLeg c leg (fun m => { m with generator := none })
  | .resampleReset none => streamKeys.foldl (fun s k => s.resetKey c k) s
  | .resampleReset (some n) => (namedKeys n).foldl (fun s k => s.resetKey c k) s
  | .gainChanged _ => s
  | .windowRestart => s.restartWindows c
  | .complete _ _ => s

/-- Whether a CODEC_SET accepted for a leg and not applied yet names TX_PT. -/
def State.namesTxPt (s : State) (c leg : Nat) : Bool :=
  let v := s.channel c
  let k := s.block v.block
  let waits := (match v.slot with
    | some t => (s.thread v.block t).pending ++ ((k.fifo ++ k.commandHold).filter (fun (e : Nat × PendEntry) => e.1 == t)).map Prod.snd
    | none => [])
  waits.any (fun e => match e with
    | .command (.settings l) => (eventTypes .codec leg l).contains 1
    | _ => false)

/-- The automatic switch decided in the last run, after the run's command events: TX_PT holds what it switched to, and the leg is in fax
mode. A later CODEC_SET that names TX_PT stands (R212, R213). -/
def State.takeSwitch (s : State) (c leg : Nat) : State :=
  let v := s.channel c
  match (v.legMedia leg).tx.waitSwitch with
  | none => s
  | some pt =>
    let s0 := s.modTx c leg (fun t => { t with waitSwitch := none })
    if ¬ txNames (legMap v.applied leg) pt then s0
    else
      let l := [(setKey .codec leg 1, uintV pt)]
      let s1 := s0.modChannel c (fun v => { v with
        applied := mergeSettings v.applied l,
        accepted := if s.namesTxPt c leg then v.accepted else mergeSettings v.accepted l })
      let off := settingNat v.applied .codec leg 21 1 == 3
      (if (v.legMedia leg).tx.started then s1.switchTx c leg pt else s1).modTx c leg (fun t => { t with vadOff := off, fax := true })

/-- The first run on a rebuilt context (R519 step 4). -/
def State.rebuiltRun (s : State) (c : Nat) : State :=
  if ¬ (s.channel c).media.restart then s
  else
    let s1 := (s.restartWindows c).emptyBuffers c
    let s2 := [0, 1].foldl (fun s i => s.modLeg c i (fun m =>
      { m with tx := { m.tx with marker := true, frames := [], pendMs := 0 }, detectors := [] })) s1
    let s3 := s2.modEcho c (fun v x => countEcho (resetEcho v x) .storeError 1)
    (s3.modChannel c (fun v => { v with media := { v.media with restart := false } })).echoNotice c 1

/-- The rate of what a leg plays through its GEN stream (Table 8.1). -/
def State.genRate (s : State) (c leg : Nat) : Option Nat :=
  match s.promptRate c leg with
  | some r => some r
  | none => (((s.channel c).legMedia leg).generator).map generatorRate

/-- The streams brought to what the run needs. -/
def State.fitStreams (s : State) (c : Nat) : State :=
  let v := s.channel c
  let gen := fun (i : Nat) => s.genRate c i
  let w := s.wantStreams v v.runState gen
  let fresh := streamKeys.any (fun k => crossing k && (w.stream k).present && !((v.stream k).present))
  s.setChannel c (if fresh then realignEcho w else w)

/-- Step 1 of a run. -/
def State.runStep1 (s : State) (c : Nat) (l : List ChEvent) : State :=
  let s1 := l.foldl (fun s e => s.takeEvent c e) s
  let s2 := ((s1.takeSwitch c 0).takeSwitch c 1).rebuiltRun c
  let v := s2.channel c
  let s3 := if v.runState = .opened then s2 else (s2.adoptDetectors c 0).adoptDetectors c 1
  s3.fitStreams c

/-! ## Packets -/

/-- A packet freed unread: counted against its flow (R42). -/
def State.dropPacket (s : State) (k : RxPacket) : State :=
  { s with flows := flowCount s.flows k.flow .stateDiscard 1 }

/-! ## Steps 2 to 5: what a leg receives -/

/-- A block at the channel rate: the outputs of the leg's stream, or the samples themselves, 10 ms of them. -/
def State.toRate (s : State) (c k rate : Nat) (b : List (Int × Bool)) : State × List (Int × Bool) :=
  let v := s.channel c
  let n := tickLen v
  if rate = v.rate then (s, b ++ List.replicate (n - b.length) (0, false))
  else
    let r := handOver s v k (s.runTick c) (b.map (·.1))
    (s.setChannel c r.1, List.replicate (n - r.2.length) (0, true) ++ r.2)

/-- What a run brings to the playout of one of its legs. -/
def State.playEnv (s : State) (c leg draw : Nat) : PlayEnv :=
  let v := s.channel c
  let image := fun (i : Nat) => (s.tableImage i).getD []
  { v := v, leg := leg, draw := draw, draining := v.runState == .draining, laws := [image 0, image 1],
    tones := (List.range 21).map (fun i => image (eventToneBase v.applied v.wide leg + i)),
    passed := sendsEvents v (1 - leg) }

/-- The outputs of a TDM_IN stream for a run; a run that restarts in its tick receives the same again (R221). -/
def State.takeNear (s : State) (c leg : Nat) : State × List (Int × Bool) :=
  let v := s.channel c
  let n := tickLen v
  let k := tdmInKey leg
  let st := v.stream k
  if st.taken = some (s.runTick c) then (s, st.last)
  else
    let r := streamTake (s.drift v k) (dissolveLen v k) (settlePass v k) n st
    let out := r.1 ++ List.replicate (n - r.1.length) (0, false)
    (s.setChannel c (v.setStream k { r.2 with taken := some (s.runTick c), last := out }), out)

/-- The fixed audio a leg brings in this run, at the channel rate; packets taken in list order. -/
def State.inbound (s : State) (c leg draw : Nat) (l : List RxPacket) : State × List (Int × Bool) :=
  let v := s.channel c
  let n := tickLen v
  let mine := l.filter (fun k => k.leg == leg)
  match (v.runLeg leg).kind with
  | .none => (s, List.replicate n (0, false))
  | .tdm => s.takeNear c leg
  | .stack =>
    let rate := s.peerRate v leg
    let r := s.stackBlock c leg draw
    r.1.toRate c (rxKey leg) rate r.2
  | .rtp =>
    let udptl := mine.filter (fun k => k.kind == .udptl)
    let rtp := mine.filter (fun k => k.kind == .rtp)
    let s0 := if udptl = [] then s else s.faxDecision c leg 1
    if txPt v leg = 128 then
      let age := fun (k : RxPacket) => if k.epoch = s.time.epoch then s.timeNs - k.stamp else 0
      let s1 := s0.modTx c leg (fun t => countTx (takeUdptl s.clocks.mediaNs age udptl t) .modeDiscard rtp.length)
      (s1, t38Audio (s1.channel c) leg draw s.clocks.mediaNs)
    else
      let old := (v.legMedia leg).play.events
      let before := (v.legMedia leg).play.counts
      let env := s.playEnv c leg draw
      let s1 := s0.modLeg c leg (fun m => playLeg env s.originNs rtp m)
      let p := ((s1.channel c).legMedia leg).play
      -- a new timeline restarted the window and withdrew what was unsettled
      let s2 := if tabGet p.counts PlayCount.restarts.ctorIdx 0 ≠ tabGet before PlayCount.restarts.ctorIdx 0 then
          s1.withdrawAll c leg else s1
      let f := fixAudio v p
      let s3 := (s2.modLeg c leg (fun m => { m with play := f.1 })).reportRxEvents c leg old
      s3.toRate c (rxKey leg) p.rate (f.2.map (fun a => (a.1, false)))

/-! ## Audio toward a leg (R279) -/

/-- A user hook over a block: what the kernel's words make of it is free (R348, R349). -/
def hookBlock (v : Channel) (far : Bool) (draw : Nat) (b : List (Int × Bool)) : List (Int × Bool) :=
  if settingNat v.applied .hook 0 (if far then 0x41 else 0x40) noneValue = noneValue then b
  else (b.zipIdx).map (fun (p : (Int × Bool) × Nat) => (freeSample draw (runItem (boolNat far) 21 p.2), p.1.2))

/-- What a leg's play and generator put out in this run, at the channel rate: each through the GEN stream where its rate differs, as
their sum where both have that rate; the spec gives one stream, and does not say what a generator of a third rate makes, which is free
(log entry 102). -/
def State.legSounds (s : State) (c leg draw : Nat) : State × List Int × List Int :=
  let v := s.channel c
  let n := tickLen v
  let flat := fun (l : List Int) => l.map (fun (x : Int) => (x, false))
  let prompt := s.promptRate c leg
  let a := s.playPrompt c leg
  let g := ((a.1.channel c).legMedia leg).generator
  let q := g.map (playGenerator draw leg)
  let edges := match g with
    | some g => (segmentStarts g (10 * generatorRate g)).map (fun i => i * v.rate / generatorRate g)
    | none => []
  let s1 := a.1.modLeg c leg (fun m => match q with
    | some q => { m with generator := q.1, toneWanted := m.toneWanted && q.1.isSome, toneEdges := edges }
    | none => { m with toneEdges := [] })
  let tone := (q.map (·.2)).getD []
  let toneRate := (g.map generatorRate).getD v.rate
  match prompt with
  | none =>
    if g.isNone then (s1, [], [])
    else let z := s1.toRate c (genKey leg) toneRate (flat tone); (z.1, [], z.2.map (·.1))
  | some r =>
    let out := a.2 ++ List.replicate (10 * r - a.2.length) 0
    if toneRate = v.rate then
      let z := s1.toRate c (genKey leg) r (flat out)
      (z.1, z.2.map (·.1), tone)
    else if toneRate = r then
      let z := s1.toRate c (genKey leg) r (addBlocks (flat out) tone)
      (z.1, z.2.map (·.1), [])
    else
      let z := s1.toRate c (genKey leg) r (flat out)
      (z.1, z.2.map (·.1), (List.range n).map (fun i => freeSample draw (runItem leg 23 i)))

/-- Whether a play or generator replaces the other leg's audio. -/
def replaced (m : LegMedia) : Bool :=
  (match m.prompt with | some p => p.replace | none => false) ||
  (match m.generator with | some g => g.replace | none => false)

/-- The audio sent toward a leg, before and after its TX gain stage. -/
def State.outbound (s : State) (c leg draw : Nat) (other : List (Int × Bool)) :
    State × List (Int × Bool) × List (Int × Bool) :=
  let v := s.channel c
  let base := if replaced (v.legMedia leg) then other.map (fun _ => ((0 : Int), false)) else other
  let r := s.legSounds c leg draw
  let sum := addBlocks (addBlocks base r.2.1) r.2.2
  let g := r.1.gainStage c leg true sum
  (g.1, sum, g.2)

/-- The audio of an RTP leg encoded and its events sent (R31 step 8). -/
def State.handRtp (s : State) (c leg draw : Nat) (b : List (Int × Bool)) : State :=
  let s1 := (s.modLeg c leg (fun m => { m with tx := startTx (s.channel c) leg draw (s.runTick c) m.tx })).syncTx c leg
  if ((s1.channel c).legMedia leg).tx.pt = 128 then s1.sendT38 c leg draw
  else
    let s2 := s1.runEvents c leg
    let w := s2.channel c
    match txEntryOf w leg with
    | none => s2
    | some e =>
      let muted := muteBlock w leg b
      if entryRate e = w.rate then s2.encodeAudio c leg draw e (allMuted w leg) (muted.map (·.1))
      else
        let r := handOver s2 w (txKey leg) (s.runTick c) (muted.map (·.1))
        let n := 10 * entryRate e
        (s2.setChannel c r.1).encodeAudio c leg draw e (allMuted w leg)
          (List.replicate (n - r.2.length) 0 ++ r.2.map (·.1))

/-- The audio of a leg handed on (step 8). -/
def State.handOut (s : State) (c leg draw : Nat) (b : List (Int × Bool)) : State :=
  let s0 := s.modLeg c leg (fun m => { m with out := b.map (·.1) })
  let v := s0.channel c
  match (v.runLeg leg).kind with
  | .none => s0
  | .tdm =>
    let k := tdmOutKey leg
    let w := v.setStream k (markSegments (v.legMedia leg).toneEdges (v.stream k))
    s0.setChannel c (handOver s0 w k (s.runTick c) (b.map (·.1))).1
  | .stack => s0.sendStack c leg draw (s.runTick c) b
  | .rtp => s0.handRtp c leg draw b

/-! ## The run -/

/-- Steps 2 to 8 of a run in ACTIVE or DRAINING. -/
def State.mediaRun (s : State) (c draw : Nat) (l : List RxPacket) : State :=
  let v := s.channel c
  let k := cancelledLeg v
  let f := 1 - k
  let pos := fun (i : Nat) => if (v.runLeg i).kind = .rtp then ((v.legMedia i).play.fix) else (v.position : Int)
  let a := s.inbound c f draw l
  let ga := a.1.gainStage c f false a.2
  let far := hookBlock v true draw ga.2
  let t := ga.1.outbound c k draw far
  -- the reference of a TDM leg is taken before its TX gain stage, that of any other after it (R245, R279)
  let ref := if (v.runLeg k).kind = .tdm then t.2.1 else t.2.2
  -- a change of the gain after the reference point scales the coefficients (R264)
  let w := if (v.runLeg k).kind = .tdm then
      t.1.modEcho c (fun u x => scaleParts u (v.legMedia k).gainTx.factor (u.legMedia k).gainTx.factor x)
    else t.1
  let b := w.inbound c k draw l
  let e := b.1.cancelEcho c draw ref b.2
  let near := hookBlock v false draw e.2
  let s1 := (e.1.detectLeg c f draw (pos f) a.2).detectLeg c k draw (pos k) near
  let gn := s1.gainStage c k false near
  let u := gn.1.outbound c f draw gn.2
  let s2 := (u.1.handOut c k draw t.2.2).handOut c f draw u.2.2
  s2.modChannel c (fun v => { v with position := v.position + tickLen v })

/-- One silence descriptor per RTP leg, in the first run of Frost (R480 item 3). -/
def State.frostSid (s : State) (c draw : Nat) : State :=
  (rtpRunLegs (s.channel c)).foldl (fun s i =>
    let v := s.channel c
    match txEntryOf v i with
    | some e => ((s.modTx c i (startTx v i draw (s.runTick c))).syncTx c i).sendSid c i draw e true
    | none => s) s

/-- A run while media is suspended (R480). -/
def State.frostRun (s : State) (c draw : Nat) (l : List RxPacket) : State :=
  let s1 := { s with clocks := { s.clocks with counts := countAdd s.clocks.counts ClockCount.frostDiscard.ctorIdx l.length } }
  let v := s1.channel c
  if v.media.frosted then s1
  else
    let s2 := if mediaRuns v.runState then s1.frostSid c draw else s1
    ((s2.emptyBuffers c).restartWindows c).modChannel c (fun v => { v with media := { v.media with frosted := true } })

/-- The first run after Frost: empty buffers, restarted windows, streams with a synchronising reset, the alignment
recomputed (R307, R482). -/
def State.thaw (s : State) (c : Nat) : State :=
  if ¬ (s.channel c).media.thawing then s
  else
    let s1 := streamKeys.foldl (fun s k => s.resetKey c k) ((s.emptyBuffers c).restartWindows c)
    s1.modChannel c (fun v => realignEcho { v with media := { v.media with thawing := false } })

/-- Whether a DRAINING channel is done (R44, R194). -/
def drained (v : Channel) : Bool :=
  (rtpRunLegs v).all (fun i => let p := (v.legMedia i).play; p.audio.isEmpty && p.packets.isEmpty) ||
  decide (53 ≤ v.drainTicks)

/-- The end of a run: a drained channel passes to IDLE (R44, R47). -/
def State.endRun (s : State) (c : Nat) : State :=
  let v := s.channel c
  if v.runState ≠ .draining then s
  else if drained v then s.toIdle c 1
  else s.modChannel c (fun v => { v with drainTicks := v.drainTicks + 1 })

/-- The entries of a run as packets and as command events. -/
def entryPackets (l : List PendEntry) : List RxPacket :=
  l.filterMap (fun e => match e with | .packet k => some k | .command _ => none | .signal _ _ => none)
def entryEvents (l : List PendEntry) : List ChEvent :=
  l.filterMap (fun e => match e with | .command e => some e | .packet _ => none | .signal _ _ => none)

/-- The completions a run owes, once it has committed (R38). -/
def owedBy (l : List ChEvent) : List (CmdRef × Nat) :=
  l.filterMap (fun e => match e with | .complete r st => some (r, st) | _ => none)
def State.payOwed (s : State) (l : List (CmdRef × Nat)) : State := l.foldl (fun s e => s.complete e.1 e.2 []) s

/-- The processing of one run of channel `c` over the entries it took. -/
def State.channelRun (s : State) (c : Nat) (l : List PendEntry) : State :=
  let draw := s.draws
  let s1 := s.drawn.runStep1 c (entryEvents l)
  let v := s1.channel c
  let packets := entryPackets l
  let s2 :=
    if s1.clocks.frost ∧ v.runState ≠ .hold ∧ v.runState ≠ .opened then s1.frostRun c draw packets
    else
      match v.runState with
      | .active | .draining => (s1.thaw c).mediaRun c draw packets
      | .hold | .opened | .migrating | .idle | .faulted =>
        let s2 := packets.foldl State.dropPacket s1
        s2.modChannel c (fun v => [0, 1].foldl (fun v i => v.setStream (tdmInKey i) { v.stream (tdmInKey i) with out := [] }) v)
  (s2.modChannel c releasePlayers).endRun c

/-- What a channel's context holds, as an earlier copy has it (R33): streams live in block memory and stay (R222). -/
def contextOf (old v : Channel) : Channel :=
  { v with runState := old.runState, runA := old.runA, runB := old.runB, applied := old.applied,
           drainTicks := old.drainTicks, position := old.position,
           media := { old.media with streams := v.media.streams, reserved := v.media.reserved } }

/-- A run's outputs taken back: its receivers had the same records of this slot and tick already (R221, R343). What it reports
of tones is reported again (R192). -/
def dropOutputs (old s : State) : State :=
  let noticesOf := fun (e : Nat × Block) =>
    let had := (old.block e.1).notices
    (e.1, { e.2 with notices := had ++ (e.2.notices.drop had.length).filter (fun n => n.group == Group.tone.ctorIdx) })
  let descriptorsOf := fun (e : Nat × Region) => (e.1, { e.2 with descriptors := (old.region e.1).descriptors })
  { s with blocks := s.blocks.map noticesOf, regions := s.regions.map descriptorsOf,
           stack := { s.stack with legBlocks := old.stack.legBlocks } }

/-- The runs of a channel that have ended with COMMIT and whose copies are not in DRAM yet (R388). -/
def State.bufferedRuns (s : State) (c : Nat) : List OpenRun := (tabGet s.openRuns c []).filter (·.ended)

/-- The run of a channel that has begun and not ended. -/
def State.liveRun (s : State) (c : Nat) : Option OpenRun := (tabGet s.openRuns c []).find? (fun r => !r.ended)

/-- The state a run of a channel starts from: the context it is to work on, which is for a restarted run the one it found when
it first began (R33). -/
def State.runBase (s : State) (c : Nat) : State :=
  match s.liveRun c with
  | some r => s.modChannel c (contextOf r.channel)
  | none => s

/-- A run from its context; a run that restarts in its tick hands over nothing twice (R221, R343). -/
def State.runFrom (s : State) (c : Nat) (l : List PendEntry) : State :=
  let s0 := s.runBase c
  let s1 := s0.channelRun c l
  match s.liveRun c with
  | some r => if r.tick = s.runTick c then dropOutputs s0 s1 else s1
  | none => s1

/-- A run of a thread that RUNS on its cell: its commit is to come (R33, R388). -/
def State.cellRun (s : State) (c : Nat) (l : List PendEntry) : State :=
  let s2 := s.runFrom c l
  if (s2.channel c).state = .idle then s2.payOwed (owedBy (entryEvents l))
  else
    let r : OpenRun := { channel := (s.runBase c).channel c, tick := s.runTick c, entries := l }
    { s2 with openRuns := tabPut s2.openRuns c (s.bufferedRuns c ++ [r]) }

/-- Whether a channel runs in a tick: none after the cut tick of a move to another device, and none before the tick at which
the move ends (R545), nor while its context slot is being cleared (R48). -/
def Channel.runsIn (v : Channel) (tick : Nat) : Bool :=
  decide (v.resumeAt ≤ tick) && !v.openWaits &&
  (match v.move with
   | some m => !m.inbound && (match m.cut with | some k => decide (tick ≤ k) | none => true)
   | none => true)

/-- What a context that leaves the device holds: the restarts of the last 10 s by their age, since the powered time of another
device is its own (Table 2.4). -/
def movedImage (now : Nat) (v : Channel) : Channel := { v with restarts := (trailing now v.restarts).map (fun t => now - t) }

/-- The context of a moving channel on its way, once its run of the cut tick has committed (R545 step 3). -/
def State.contextLeaves (s : State) (c tick : Nat) : State :=
  let v := s.channel c
  match v.move with
  | none => s
  | some m =>
    if m.inbound ∨ m.sent ∨ tick < m.cut.getD (tick + 1) ∨ tabHas s.openRuns c then s
    else
      (s.modChannel c (fun v => { v with move := some { m with sent := true } })).queueJobAt (blockRegion v.block)
        { ref := none, use := .contextOut c, cls := 0, order := 0, source := .bytes (Config.contextImage (movedImage s.time.powered v)), chain := none,
          base := 0 }

/-- A thread as a run taken as a whole leaves it; a run that restarts keeps its TICK (R393). -/
def wholeThread (tick : Nat) (k : Thread) : Thread :=
  { k with state := .waiting, pending := [], tickPend := false, eventPend := false,
           tick := if k.restart then k.tick else tick, runs := k.runs + 1, restart := false, first := false }

/-- A run taken as a whole, from its release to its commit. -/
def State.wholeRun (s : State) (c b t : Nat) (l : List PendEntry) : State :=
  let s1 := (s.modThread b t (wholeThread s.tick)).runFrom c l
  let s2 := { s1 with openRuns := tabSet s1.openRuns c (s1.bufferedRuns c) [] }
  ((((s2.modChannel c (fun v => if v.state = .idle then v else { v with format := s.commitFormat b })).payOwed
    (owedBy (entryEvents l))).bumpBlock b .runs).contextLeaves c s.tick)

/-- The blocks of fixed audio that runs handed over, sent to their legs on other members (R543). -/
def State.sendLegBlocks (s : State) : State :=
  s.stack.legBlocks.foldl (fun s b =>
    s.sendMessage b.device 0x02
      ([beBytes 2 b.channel, beBytes 1 b.leg, beBytes 8 b.tick] ++
       b.samples.map (fun x => beInt 2 x.1 ++ [BitVec.ofNat 8 (boolNat x.2)])))
    { s with stack := { s.stack with legBlocks := [] } }

/-- TICK_RUN of channel `c`: the thread that RUNS on its cell works on what it took at its dispatch; a thread that is
WAITING or READY is taken through a run as a whole (R29, R31). -/
def tickRunStep (c : Nat) (s : State) : State :=
  let v := s.channel c
  match v.slot with
  | none => s
  | some t =>
    let k := s.thread v.block t
    if v.state = .faulted ∨ v.state = .idle ∨ ¬ v.runsIn s.tick then s
    else
      match k.state with
      | .running => (s.cellRun c k.taken).sendLegBlocks
      | .waiting | .ready => (s.wholeRun c v.block t k.pending).sendLegBlocks
      | .free | .staging | .staged | .suspended => s

def execTickRun (channel : Nat) (s : State) : Host.Outcome State Fault Refusal := .next (tickRunStep channel s)

end Sys2Proof.Machine
end

