-- ==== Sys2Proof/Machine/MediaRows.lean ====
section
/-! DEFINITION. The media events of a channel that stand in rows of their own: SSRC adoption, the canceller's timers and
declarations, event time-outs, and what ends or measures in a resampler stream (R176, R221, R233, R237, R240, R247,
R256 to R263, R280). Each is the environment's word that the instant has come: the machine changes only where its own
counts say the same. -/

namespace Sys2Proof.Machine

/-! ## Playout -/

/-- SSRC_ADOPTION: three consecutive packets carried the new SSRC; the next packet of it starts a new timeline, and those of the old one
are stale (R176). -/
def adoptSsrc (p : Play) : Play :=
  match p.candidate with
  | some (x, n) => if n < 3 then p else { p with ssrc := x, stale := some p.ssrc, candidate := none, adopted := true }
  | none => p

/-- EVENT_EXTEND_TIMEOUT: the leg's first event that has run EVENT_EXTEND past its last duration ends TIMEOUT (R280). -/
def extendTimeout (c leg : Nat) (s : State) : State :=
  let v := s.channel c
  let limit := extendLen v leg
  match (v.legMedia leg).play.events.find? (fun e => !e.ended && decide (limit ≤ e.extended)) with
  | none => s
  | some e =>
    let close := fun (z : RxEvent) => if z = e then { z with ended := true } else z
    let s1 := s.modLeg c leg (fun m => { m with play := { m.play with events := m.play.events.map close } })
    match e.reported with
    | none => s1
    | some id =>
      (s1.toneEvent c leg id 4 (if e.event ≤ 16 then 1 else 6) e.event e.pos e.pos (e.duration / v.rate) 2 noneValue
        (-(e.volume : Int))).stopEvent c (1 - leg) e.event (channelPos v leg (e.pos + (e.duration + e.extended : Nat)))

/-! ## Echo canceller -/

/-- DT_HANG_END: DT_HANG has passed since the last block that met a test (R256). -/
def endDoubleTalk (e : Echo) : Echo := if e.hang = 0 then { e with doubleTalk := false } else e

/-- NLP_HANG_END: NLP_HANG has passed since the last block that met the conditions (R260). -/
def endNlp (e : Echo) : Echo := if e.nlpHang = 0 then { e with nlp := false } else e

/-- A canceller changed by an event of its own, and the notices of it (R267): `declared` is a DIVERGENCE declaration. -/
def State.echoEvent (s : State) (c : Nat) (declared : Bool) (e : Echo) : State :=
  let old := (s.channel c).media.echo
  let s1 := s.modChannel c (fun v => { v with media := { v.media with echo := e } })
  let s2 := if declared then s1.echoNotice c 0 else s1
  if e.state = old.state then s2 else s2.echoNotice c 2

/-- PATH_CHANGE: the energy test alone has held double-talk for 500 ms (R257). -/
def pathChangeStep (c : Nat) (s : State) : State :=
  let e := (s.channel c).media.echo
  if e.energyMs < 500 then s
  else s.echoEvent c false
    (countEcho { e with doubleTalk := false, hang := 0, energyMs := 0, convergeRun := 0, state := .converging } .pathChange 1)

/-- DIVERGENCE: four consecutive adapting blocks with a residual above the near-end (R258). -/
def divergenceStep (c : Nat) (s : State) : State :=
  let e := (s.channel c).media.echo
  if e.divergeRun < 4 ∨ ¬ adapting e.state then s
  else s.echoEvent c true
    (countEcho { mapParts (s.channel c) (fun _ p => halvePart p) e with divergeRun := 0, convergeRun := 0, state := .converging } .divergence 1)

/-- The adapting blocks over which ERLE must hold (Table 9.4). -/
def convergeBlocks (wide : Bool) : Nat := if wide then 40 else 20

/-- CONVERGED (Table 9.4). -/
def convergedStep (c : Nat) (s : State) : State :=
  let v := s.channel c
  let e := v.media.echo
  if e.state ≠ .converging ∨ e.convergeRun < convergeBlocks v.wide then s
  else s.echoEvent c false { e with state := .converged, convergeRun := 0 }

/-- TONE_DISABLE_END: 250 ms of quiet end a disable (R263). -/
def toneDisableEndStep (c : Nat) (s : State) : State :=
  let e := (s.channel c).media.echo
  if e.quietMs < 250 then s
  else
    let e1 := { e with nlpDisabled := false }
    s.echoEvent c false (if e.state = .toneDisabled then { e1 with state := e.before } else e1)

/-! ## The context slot (R48) -/

/-- CONTEXT_CLEARED: the slot is zeroed, and a CH_OPEN that waited for it is applied: its thread can be released. -/
def contextClearedStep (c : Nat) (s : State) : State :=
  let v := s.channel c
  let s1 := s.modChannel c (fun v => { v with clearing := false, openWaits := false })
  match v.openWaits, v.slot with
  | true, some t => s1.modThread v.block t (fun k => { k with wakeTick := true })
  | _, _ => s1

/-! ## Streams -/

/-- RS_IN_RECORD: one input block handed to stream `k`, tagged with its tick (R221). -/
def rsInStep (c k tick : Nat) (ins : List (BitVec 16)) (s : State) : State :=
  let v := s.channel c
  if s.arrayRuns v.block ∧ mediaRuns v.runState then s.setChannel c (handOver s v k tick (ins.map BitVec.toInt)).1 else s

/-- A after a TDM stream of the cancelled leg has changed (R247). -/
def realignFor (k : Nat) (v : Channel) : Channel :=
  if crossing k ∧ keyLeg k = v.media.echo.leg then realignEcho v else v

/-- SETTLE_END: the flagged outputs have been emitted, and dr applies from here on (R240). -/
def settleEndStep (c k : Nat) (s : State) : State :=
  s.modChannel c (fun v =>
    let st := v.stream k
    if st.settle = 0 then v.setStream k { st with settling := false } else v)

/-- A realignment moves the reference alignment of the cancelled leg the other way (R247 item 2). -/
def moveAlignment (k : Nat) (move : Int) (v : Channel) : Channel :=
  let e := v.media.echo
  if keyLeg k = e.leg then
    { v with media := { v.media with echo := { e with align := (clampInt ((e.align : Int) - move) 0 256).toNat } } }
  else v

/-- The move of a realignment that a stream has just begun. -/
def begunMove (old new : Stream) : Int :=
  match new.dissolve with
  | some d => if d.count = 0 ∧ new.dissolve ≠ old.dissolve then d.move else 0
  | none => 0

/-- DISSOLVE_END: the cross-fade is over, and a held request starts (R237, R239); A is computed afresh for a TDM stream (R247). -/
def dissolveEndStep (c k : Nat) (s : State) : State :=
  s.modChannel c (fun v =>
    let st := v.stream k
    match st.dissolve with
    | none => v
    | some d =>
      if d.count < settleCount st.chain + dissolveLen v k then v
      else
        let new := endDissolve st (dissolveLen v k) (streamChain v k st.inRate st.chain.fout)
        moveAlignment k (begunMove st new) (realignFor k (v.setStream k new)))

/-- FILL_MEASUREMENT of a clock-crossing stream (R233). -/
def fillMeasureStep (c k : Nat) (s : State) : State :=
  s.modChannel c (fun v =>
    let st := v.stream k
    if ¬ crossing k ∨ ¬ st.present then v
    else
      let m := measureFill s.tick st
      match m.2 with
      | none => v.setStream k m.1
      | some e =>
        let new := requestDissolve m.1 (streamChain v k st.inRate st.chain.fout) (marginOf k) false e
        moveAlignment k (begunMove st new) (v.setStream k new))

/-! ## Rows -/

def execSsrcAdoption (channel leg : Nat) (s : State) : Host.Outcome State Fault Refusal :=
  .next (s.modLeg channel leg (fun m => { m with play := adoptSsrc m.play }))
def execDtHangEnd (channel : Nat) (s : State) : Host.Outcome State Fault Refusal :=
  .next (s.modEcho channel (fun _ e => endDoubleTalk e))
def execNlpHangEnd (channel : Nat) (s : State) : Host.Outcome State Fault Refusal :=
  .next (s.modEcho channel (fun _ e => endNlp e))
def execPathChange (channel : Nat) (s : State) : Host.Outcome State Fault Refusal := .next (pathChangeStep channel s)
def execDivergence (channel : Nat) (s : State) : Host.Outcome State Fault Refusal := .next (divergenceStep channel s)
def execConverged (channel : Nat) (s : State) : Host.Outcome State Fault Refusal := .next (convergedStep channel s)
def execToneDisableEnd (channel : Nat) (s : State) : Host.Outcome State Fault Refusal :=
  .next (toneDisableEndStep channel s)
def execEventExtendTimeout (channel leg : Nat) (s : State) : Host.Outcome State Fault Refusal :=
  .next (extendTimeout channel leg s)
def execContextCleared (channel : Nat) (s : State) : Host.Outcome State Fault Refusal :=
  .next (contextClearedStep channel s)
def execRsInRecord (channel key tick : Nat) (samples : List (BitVec 16)) (s : State) : Host.Outcome State Fault Refusal :=
  .next (rsInStep channel key tick samples s)
def execDissolveEnd (channel key : Nat) (s : State) : Host.Outcome State Fault Refusal :=
  .next (dissolveEndStep channel key s)
def execSettleEnd (channel key : Nat) (s : State) : Host.Outcome State Fault Refusal :=
  .next (settleEndStep channel key s)
def execFillMeasurement (channel key : Nat) (s : State) : Host.Outcome State Fault Refusal :=
  .next (fillMeasureStep channel key s)

end Sys2Proof.Machine
end

