-- ==== Sys2Proof/Machine/CellFault.lean ====
section
/-! DEFINITION. What cell traps, user traps, channel restarts and block isolation do (R24, R47, R346, R351, R393, R394,
R407, R521, R522, R606). -/

namespace Sys2Proof.Machine

/-! ## Channels that fault or restart (Table 2.4) -/

/-- The commands whose completion waits among event entries. -/
def owedRefs (l : List PendEntry) : List CmdRef :=
  l.filterMap (fun e => match e with | .command (.complete r _) => some r | _ => none)

/-- The entries of one slot. -/
def entriesOf (slot : Nat) (l : List (Nat × PendEntry)) : List PendEntry := (l.filter (fun e => e.1 == slot)).map (·.2)
def entriesNot (slot : Nat) (l : List (Nat × PendEntry)) : List (Nat × PendEntry) := l.filter (fun e => e.1 != slot)

/-- Every event on its way to a slot or in its lists. -/
def slotEntries (k : Block) (slot : Nat) : List PendEntry :=
  let t := blockThread k slot
  t.taken ++ t.pending ++ entriesOf slot k.fifo ++ entriesOf slot k.commandHold

/-- A suspend record given back. -/
def freeRecord (k : Block) (r : Option Nat) : Block :=
  match r with
  | some n => { k with records := k.records.erase n }
  | none => k

/-- A slot whose channel has faulted: WAITING, never released, with no event left (R373). -/
def faultSlot (slot : Nat) (k : Block) : Block :=
  let t := blockThread k slot
  let k1 := freeRecord k t.suspendRec
  let k2 := { k1 with fifo := entriesNot slot k1.fifo, commandHold := entriesNot slot k1.commandHold }
  if t.state = .free then k2
  else blockSetThread k2 slot { t with state := .waiting, pending := [], taken := [], tickPend := false, tdmPend := false,
                                       eventPend := false, suspendRec := none, restart := false }

/-- A channel to FAULTED (R47): `cause` as CHANNEL_STATE numbers it. Commands accepted and not applied complete with
CHANNEL_FAULTED (R407), a move's among them. -/
def State.faultChannel (s : State) (c cause : Nat) : State :=
  let v := s.channel c
  if v.state = .idle ∨ v.state = .faulted then s
  else
    let slot := v.slot.getD 0
    let entries := if v.slot.isSome then slotEntries (s.block v.block) slot else []
    let refs := owedRefs entries ++ (v.move.toList.filterMap (·.ref)) ++ v.wakeRef.toList
    let s1 := if v.slot.isSome then s.modBlock v.block (faultSlot slot) else s
    let s2 := match v.move with
      | some m => s1.abortMove m c stChannelFaulted
      | none => s1
    let s3 := refs.foldl (fun s r => s.complete r stChannelFaulted []) s2
    ({ s3 with openRuns := tabDrop s3.openRuns c }.modChannel c (fun v =>
      dropTdmStreams { v with state := .faulted, runState := .faulted, move := none, wakeRef := none })).channelNotice
      c v.state .faulted cause 0

/-- A fault that restarts a channel: counted toward the limit of Table 2.4, whose third within 10 s faults the channel
instead and is logged as RESTART_LIMIT (R606). `ready` puts its thread back with RESTART set. -/
def State.restartChannel (s : State) (c cause memory address : Nat) (ready : Thread → Thread) : State :=
  let v := s.channel c
  let live := trailing s.time.powered v.restarts
  if 2 ≤ live.length then (s.logError 0x50 4 3 0 c cause memory address).faultChannel c 7
  else
    let s1 := s.modChannel c (fun v => { v with restarts := live ++ [s.time.powered] })
    let s2 := match v.slot with
      | some t => s1.modThread v.block t ready
      | none => s1
    s2.channelNotice c v.state v.state 4 0

/-! ## Cell traps (R346, R393, R394) -/

/-- The code of a trap cause (Table 12.12). -/
def trapCode (c : TrapCause) : Nat := c.ctorIdx + 1

/-- Nothing of a bank's words in flight reaches a register (R346). -/
def discardFlight (b : Bank) : Bank := { b with flight := [] }

/-- A cell halted by a trap: words in flight and records left open are discarded (R343, R346). -/
def haltCell (cause : TrapCause) (code : Nat) (now : Nat) (c : Cell) : Cell :=
  let mem := decide (trapCode cause ≤ 3)
  let day := 86400000000000
  let again := mem && c.memTraps.any (fun t => decide (now < t + day))
  { c with trap := some { cause := cause, code := code, since := now }, bank0 := discardFlight c.bank0, bank1 := discardFlight c.bank1,
           stores := [], delay := none, rep := 0, mpyShadow := false, open_ := [], running := none, shadow := none,
           retired := c.retired || again, memTraps := if mem then c.memTraps ++ [now] else c.memTraps }

/-- The threads of a block bound to one local cell, by slot. -/
def boundTo (k : Block) (i : Nat) : List (Nat × Thread) := k.threads.filter (fun e => e.2.state != .free && e.2.cell == i)

/-- Whether a run of this thread is interrupted by its cell's trap (R393 step 2). -/
def interrupted (t : Thread) : Bool := t.state == .running || t.state == .suspended

/-- A thread whose run restarts from the committed context: the events its run took come again (R33). -/
def readyAgain (t : Thread) : Thread :=
  { t with state := .ready, restart := true, suspendRec := none, pending := t.taken ++ t.pending, taken := [] }

/-- A thread that had not begun its run goes back to READY (R393 step 3). -/
def unstage (t : Thread) : Thread :=
  if t.state = .staging ∨ t.state = .staged then { t with state := .ready, restart := false } else t

/-- One thread of a failed cell under takeover. -/
def State.takeOverThread (s : State) (b : Nat) (cause memory address : Nat) (e : Nat × Thread) : State :=
  if interrupted e.2 then
    let s1 := s.modBlock b (fun k => freeRecord k e.2.suspendRec)
    if e.1 < 1024 then s1.restartChannel e.2.channel cause memory address readyAgain
    else s1.modThread b e.1 readyAgain
  else s.modThread b e.1 unstage

/-- The channel an entry names: the one affected, else none or several. -/
def oneOrMany (l : List Nat) : Nat :=
  match l with
  | [c] => c
  | _ => 0xFFFF

/-- The log entry of a cell trap, with its action and the channels it touches. -/
def State.logTrap (s : State) (n : Nat) (cause : TrapCause) (code memory address action : Nat) (l : List Nat) : State :=
  s.logError (trapCode cause) 1 action n (oneOrMany l) code memory address

/-- A thread of a failed cell moved to the reserve cell (R393 step 1). -/
def rebound (i r : Nat) (e : Nat × Thread) : Nat × Thread :=
  if e.2.state ≠ .free ∧ e.2.cell = i then (e.1, { e.2 with cell := r }) else e

/-- A system thread of a cell lost without a reserve: to the active cell with the least load (R394). -/
def State.moveSystem (s : State) (b i : Nat) (e : Nat × Thread) : State :=
  let dest := if s.activeCells b = [] then i else s.bindCell b
  let s1 := s.modBlock b (fun k => if interrupted e.2 then freeRecord k e.2.suspendRec else k)
  s1.modThread b e.1 (fun t =>
    let u := if interrupted t then readyAgain t else unstage t
    { u with cell := dest })

/-- R394: the channels of the failed cell fault, and its system threads move. -/
def State.loseCell (s : State) (b i : Nat) : State :=
  let bound := boundTo (s.block b) i
  let s1 := (bound.filter (fun e => decide (e.1 < 1024 ∧ (s.channel e.2.channel).block = b))).foldl
    (fun s e => s.faultChannel e.2.channel 5) s
  (bound.filter (fun e => decide (1024 ≤ e.1))).foldl (fun s e => s.moveSystem b i e) s1

/-- R393: the reserve cell `r` takes over the threads of cell `i`. -/
def State.takeOver (s : State) (b i r : Nat) (cause : TrapCause) (code memory address : Nat) : State :=
  let bound := boundTo (s.block b) i
  let hit := (bound.filter (fun e => decide (e.1 < 1024) && interrupted e.2)).map (·.2.channel)
  let s1 := s.modBlock b (fun k => { k with reserve := none, threads := k.threads.map (rebound i r) })
  let s2 := (s1.bumpBlock b .takeovers).logTrap (8 * b + i) cause code memory address 1 hit
  bound.foldl (fun s e => s.takeOverThread b (trapCode cause) memory address e) s2

/-- A commit copy lost in the commit buffer: every run since the last committed one is given up, and its entries come again
(R33, R388). -/
def State.loseCommit (s : State) (b t c : Nat) : State :=
  match tabGet s.openRuns c [] with
  | [] => s
  | r :: l =>
    let s1 := { s.modChannel c (contextOf r.channel) with openRuns := tabDrop s.openRuns c }
    (s1.modBlock b (fun k => { k with commits := k.commits.filter (fun x => x.slot != t) })).modThread b t
      (fun k => { k with taken := ((r :: l).filter (·.ended)).flatMap (·.entries) ++ k.taken })

/-- The copies that wait for room in the commit buffer, of which `room` bytes are free: each in its turn (R388). -/
def waitingCopies : Nat → List CommitCopy → List CommitCopy
  | _, [] => []
  | room, k :: r => if k.bytes.length ≤ room then waitingCopies (room - k.bytes.length) r else k :: r

/-- The copies of cell `n` that are not yet in its block's buffer of 192 KiB. -/
def State.copiesLeft (s : State) (n : Nat) : List CommitCopy :=
  (waitingCopies (192 * 1024) (s.block (cellBlock n)).commits).filter (fun k => k.cell == n)

/-- The copies of a cell that its trap cuts short: discarded, and what those runs took waits again (R33, R388). -/
def State.cutCopies (s : State) (n : Nat) : State :=
  let b := cellBlock n
  (s.copiesLeft n).foldl (fun s k =>
    if 1024 ≤ k.slot then s.modBlock b (fun q => { q with commits := q.commits.filter (· ≠ k) })
    else
      let s1 := s.loseCommit b k.slot (s.thread b k.slot).channel
      s1.modThread b k.slot (fun t => if interrupted t then t else { t with pending := t.taken ++ t.pending, taken := [] })) s

/-- What a block does about a trap of its local cell `i` (R393, R394); the cell itself is halted already. -/
def State.blockTrap (s : State) (b i : Nat) (cause : TrapCause) (code memory address : Nat) : State :=
  let k := s.block b
  let bound := boundTo k i
  let chans := (bound.filter (fun e => decide (e.1 < 1024))).map (·.2.channel)
  if k.reserve = some i ∧ bound = [] then
    (s.modBlock b (fun k => { k with reserve := none })).logTrap (8 * b + i) cause code memory address 3 []
  else
    match k.reserve with
    | some r =>
      if k.spareOne ∧ r ≠ i ∧ cellInService (s.cell (8 * b + r)) then s.takeOver b i r cause code memory address
      else (s.logTrap (8 * b + i) cause code memory address 3 chans).loseCell b i
    | none => (s.logTrap (8 * b + i) cause code memory address 3 chans).loseCell b i

/-- A cell trap in kernel mode (R346). -/
def State.cellTrap (s : State) (n : Nat) (cause : TrapCause) (code memory address : Nat) : State :=
  ((s.cutCopies n).modCell n (haltCell cause code s.time.powered)).blockTrap (cellBlock n) (cellLocal n) cause code memory address

/-- Both hooks of a channel set to NONE (R351). -/
def clearHooks (v : Channel) : Channel :=
  let none4 := beBytes 4 noneValue
  let f := fun (t : Tab (List Byte)) => tabPut (tabPut t (setKey .hook 0 0x40) none4) (setKey .hook 0 0x41) none4
  { v with accepted := f v.accepted, applied := f v.applied }

/-- The active bank of a cell. -/
def Cell.active (c : Cell) : Bank := if c.bank then c.bank1 else c.bank0
def Cell.setActive (c : Cell) (b : Bank) : Cell := if c.bank then { c with bank1 := b } else { c with bank0 := b }

/-- The channel of the thread a cell runs, if it is a channel thread. -/
def State.runningChannel (s : State) (n : Nat) : Option Nat :=
  match (s.cell n).running with
  | some t => if t < 1024 then some (s.thread (cellBlock n) t).channel else none
  | none => none

/-- A user-mode trap of cause 0x05 to 0x0B: firmware goes on at word 0x0008, and the hooks go (R351, R369). -/
def State.userTrap (s : State) (n : Nat) (cause : TrapCause) : State :=
  let c := s.cell n
  let b := discardFlight c.active
  let s1 := s.setCell n
    ({ c with userStatus := BitVec.ofNat 8 (trapCode cause), stores := [], delay := none, rep := 0,
              mpyShadow := false }.setActive { b with user := false, pc := 8 })
  match s1.runningChannel n with
  | none => s1
  | some ch =>
    (s1.modChannel ch clearHooks).notify4 .media 0x0F06 4 ch [beBytes 1 c.userHook, beBytes 1 (trapCode cause)]

/-- A trap in the mode of the active bank: memory errors and the watchdog halt the cell in either mode (R351). -/
def State.trap (s : State) (n : Nat) (cause : TrapCause) (code memory address : Nat) : State :=
  if (s.cell n).active.user ∧ 5 ≤ trapCode cause then s.userTrap n cause
  else s.cellTrap n cause code memory address

/-! ## Isolation (R522) -/

/-- The channels placed in a block. -/
def State.channelsOf (s : State) (b : Nat) : List Nat :=
  (s.channels.filter (fun e => e.2.block == b && e.2.state != .idle && e.2.slot.isSome)).map (·.1)

/-- One channel of an isolated block: FAULTED, its slot and charge released. -/
def State.loseChannel (s : State) (c : Nat) : State :=
  let v := s.channel c
  (s.faultChannel c 6).freeSlotOf v.block v.slot |>.modChannel c (fun v => { v with slot := none })

/-- What isolation does to a block besides its channels. -/
def isolated (k : Block) : Block :=
  { k with isolated := true, threads := [], fifo := [], commandHold := [], packetHold := [], records := [] }

/-- A cell halted by the isolation of its block. -/
def stopCell (c : Cell) : Cell :=
  { c with bank0 := discardFlight c.bank0, bank1 := discardFlight c.bank1, stores := [], delay := none, rep := 0,
           mpyShadow := false, open_ := [], running := none, shadow := none }

/-- The block counters of Table 5.8: 0 HOLD_DISCARD, 1 HOLD_PEAK_BYTES. -/
def State.countHold (s : State) (b i n : Nat) : State :=
  let t := s.flows.blockCounts
  { s with flows := { s.flows with blockCounts := tabSet t b (countAdd (tabGet t b []) i n) [] } }

/-- The channels that wait for a move within the device into a block. -/
def State.movesInto (s : State) (b : Nat) : List Nat :=
  (s.channels.filter (fun e => e.2.state == .migrating && (match e.2.move with
    | some m => !m.inbound && m.device == s.stack.number && m.block == b
    | none => false))).map (·.1)

/-- A block isolated: `log` writes the entry and its notice once the channels have faulted. A move into the block fails as it refuses
placement from now on (Table 2.4, R522; log entry 78). -/
def State.isolate (s : State) (b : Nat) (log : State → State) : State :=
  if (s.block b).isolated then s
  else
    let s1 := s.countHold b 0 (s.block b).packetHold.length
    let s2 := (s1.channelsOf b).foldl (fun s c => s.loseChannel c) s1
    let s3 := s2.modBlock b isolated
    let s4 := (s3.movesInto b).foldl (fun s c => s.failMove c stBlockUnavailable) s3
    log ((List.range 8).foldl (fun s i => s.modCell (8 * b + i) stopCell) s4)

/-- BLOCK_ISOLATION of block `b` by an error at `address` of its memory, or by the handshake timeout (R522). -/
def isolationStep (b : Nat) (handshake : Bool) (address : Nat) (s : State) : State :=
  s.isolate b (fun s => s.logError 0x21 2 4 b 0xFFFF 0 (if handshake then 6 else 3) (if handshake then 0 else address))

/-- The four blocks of a region isolated by an error in its control state. -/
def State.isolateRegion (s : State) (r address : Nat) : State :=
  let s1 := [0, 1, 2, 3].foldl (fun s i => s.isolate (4 * r + i) (fun s => s)) s
  s1.logError 0x25 3 4 r 0xFFFF 0 5 address

/-! ## Return of a cell (R324, R521) -/

/-- The firmware partition of an instruction memory filled from an image's section (R314, R572). -/
def fillCode (code : List Byte) (m : Tab (BitVec 64)) : Tab (BitVec 64) :=
  (List.range (code.length / 8)).foldl (fun m i => tabSet m i (BitVec.ofNat 64 (leNat (slice code (8 * i) 8))) 0) m

/-- The instruction memory of a cell of block `b` as a refill leaves it: the firmware and the user kernel (R324, R347). -/
def State.refilled (s : State) (b : Nat) : Tab (BitVec 64) :=
  fillCode (sectionOf (s.blockImage b) 2) (if s.store.kernel = [] then [] else fillKernel s.store.kernel [])

/-- A data memory with the common page filled (R315). -/
def fillCommon (page : List Byte) (m : List Host.Cell) : List Host.Cell := memWrite (memWipe m 0x18000 0x8000) 0x18000 page

/-- A cell reset and refilled: banks zero and memories wiped; SR of the active bank 0 reads its reset value. The times of its memory
traps are the record of R521 and stay. -/
def State.resetCell (s : State) (n : Nat) : State :=
  let b := cellBlock n
  let page := fillCommon (sectionOf (s.blockImage b) 3) []
  s.setCell n { imem := s.refilled b, xmem := page, ymem := page, memTraps := (s.cell n).memTraps }

/-- A cell filled at the START of an image: its firmware partition and common page (R574). -/
def State.startCell (s : State) (n : Nat) : State :=
  let d := s.blockImage (cellBlock n)
  let page := fillCommon (sectionOf d 3)
  s.modCell n (fun c => { c with imem := fillCode (sectionOf d 2) (c.imem.filter (fun e => decide (0x1800 ≤ e.1))), xmem := page c.xmem, ymem := page c.ymem })

/-- A cell that comes back becomes the reserve, unless its block has one in service (R394); under spare policy NONE the
role ends at the next tick origin. -/
def State.returnCell (s : State) (n : Nat) : State :=
  let b := cellBlock n
  let k := s.block b
  let has := match k.reserve with | some r => r != cellLocal n && cellInService (s.cell (8 * b + r)) | none => false
  let s1 := s.resetCell n
  if has then s1
  else s1.modBlock b (fun k => { k with reserve := some (cellLocal n), role := cellLocal n,
                                        sparePending := if k.spareOne then k.sparePending else some (k.sparePending.getD false) })

/-- CELL_RETURN: 10 ms after its trap a cell that is not retired is reset and returns (R521). -/
def cellReturnStep (n : Nat) (s : State) : State :=
  let c := s.cell n
  let due : Bool := match c.trap with | some t => decide (t.since + 10000000 ≤ s.time.powered) | none => false
  if ¬ due ∨ c.retired ∨ c.underReset ∨ 128 ≤ n then s else s.returnCell n

def execBlockIsolation (block : Nat) (handshake : Bool) (address : Nat) (s : State) : Host.Outcome State Fault Refusal :=
  .next (isolationStep block handshake address s)
def execCellReturn (cell : Nat) (s : State) : Host.Outcome State Fault Refusal := .next (cellReturnStep cell s)

end Sys2Proof.Machine
end

