-- ==== Sys2Proof/Machine/Blocks.lean ====
section
/-! DEFINITION. The block dispatcher: releases, ranking, staging, swaps, displacement, suspend records, DONE, commits,
deadlines, the event FIFO and rebinding (R337 to R343, R371 to R395). -/

namespace Sys2Proof.Machine

/-! ## Time (R374, R375) -/

/-- Phases of 125 µs since the media origin. -/
def State.absPhase (s : State) : Nat := s.clocks.mediaNs / 125000

/-! ## Ranking (R379) -/

/-- Whether thread `a` of slot `i` ranks above thread `b` of slot `j`. -/
def ranksAbove (i : Nat) (a : Thread) (j : Nat) (b : Thread) : Bool :=
  decide (b.priority < a.priority) ||
  (a.priority == b.priority && (decide (a.deadline < b.deadline) || (a.deadline == b.deadline && decide (i < j))))

/-- Released work a thread has not begun, or a run it goes on with. -/
def released (t : Thread) : Bool := t.tickPend || t.tdmPend || t.eventPend || t.restart || t.state == .suspended

/-- A thread that the next phase boundary releases, as it will rank then (R387): staging may begin a phase ahead. -/
def upcoming (next : Nat) (t : Thread) : Bool := t.state == .waiting && t.wakeTick && t.phase == next % 80 && !t.rebuild

/-- A thread as it ranks: one released at the next boundary with the deadline it will have. -/
def asRanked (next : Nat) (t : Thread) : Thread :=
  if t.state = .waiting then { t with deadline := 125000 * next + 1000 * t.budget } else t

/-- Whether a thread can be its cell's candidate. -/
def inHeap (t : Thread) : Bool :=
  !t.rebuild && (t.state == .ready || t.state == .staging || t.state == .staged || t.state == .suspended)

/-- The highest ranked of a list of slots. -/
def bestOf (next : Nat) : List (Nat × Thread) → Option (Nat × Thread)
  | [] => none
  | e :: r =>
    match bestOf next r with
    | none => some e
    | some f => if ranksAbove f.1 (asRanked next f.2) e.1 (asRanked next e.2) then some f else some e

/-- The candidate of local cell `i` (R379). `live` says whether a channel thread's channel may run. -/
def candidate (next : Nat) (live : Nat × Thread → Bool) (k : Block) (i : Nat) : Option (Nat × Thread) :=
  bestOf next (k.threads.filter (fun e => e.2.cell == i && live e && (inHeap e.2 || upcoming next e.2)))

/-- Whether a slot's thread may run: never that of a FAULTED channel (R373). -/
def State.mayRun (s : State) (e : Nat × Thread) : Bool := decide (1024 ≤ e.1) || (s.channel e.2.channel).state != .faulted

/-! ## Releases (R374, R376, R377, R389, R391) -/

/-- The state a channel is processed in: one in MIGRATING goes on as in the state from which its move began (Table 2.2). -/
def Channel.processedAs (v : Channel) : ChState :=
  match v.state, v.move with
  | .migrating, some m => m.from_
  | st, _ => st

/-- Whether the tick of absolute phase `p` releases a thread: that of a channel in OPEN only with a command pending (Table 2.2). -/
def State.tickReleases (s : State) (p : Nat) (e : Nat × Thread) : Bool :=
  if 1024 ≤ e.1 then true
  else
    let v := s.channel e.2.channel
    if ¬ v.runsIn (p / 80) then false
    else
    match v.processedAs with
    | .faulted => false
    | .opened => e.2.pending.any (fun p => match p with | .command _ => true | _ => false)
    | _ => true

/-- A tick release at absolute phase `p`. -/
def tickRelease (p : Nat) (t : Thread) : Thread :=
  let t1 := { t with tickPend := true, tick := p / 80, deadline := 125000 * p + 1000 * t.budget, missed := false,
                     skips := if t.tickPend then t.skips + 1 else t.skips }
  if t.state = .waiting then { t1 with state := .ready } else t1

/-- The slots a phase releases. -/
def State.releasedSlots (s : State) (b p : Nat) : List (Nat × Thread) :=
  (s.block b).threads.filter (fun e => e.2.state != .free && e.2.wakeTick && e.2.phase == p % 80 && s.tickReleases p e)

/-- One thread released by its phase, with the block's counts. -/
def State.releaseOne (s : State) (b p : Nat) (e : Nat × Thread) : State :=
  let s1 := (s.modThread b e.1 (tickRelease p)).bumpBlock b .releases
  if e.2.tickPend then s1.bumpBlock b .skips else s1

/-! ## Swaps (R337 to R340, R382 to R385) -/

/-- Whether a cell stands at a word boundary at which it may swap (R337). -/
def atBoundary (c : Cell) : Bool := c.rep == 0 && c.delay.isNone && !c.mpyShadow

/-- A bank with every write in flight in place: words in flight land in the bank that issued them (R338). -/
def drainBank (b : Bank) : Bank :=
  { b with regs := b.flight.foldl (fun t w => tabSet t w.reg w.value 0) b.regs, flight := [] }

/-- Stores in flight carried out. -/
def applyStores (c : Cell) (l : List PendStore) : Cell :=
  l.foldl (fun c p => if p.yside then { c with ymem := memWrite c.ymem p.addr p.bytes }
    else { c with xmem := memWrite c.xmem p.addr p.bytes }) c

/-- The cell at the end of a swap: banks and pages toggle, and the watchdog starts again (R337, R345). -/
def toggled (c : Cell) (incoming outgoing : Option Nat) : Cell :=
  let c1 := { applyStores c c.stores with stores := [] }
  { c1 with bank0 := drainBank c1.bank0, bank1 := drainBank c1.bank1, bank := !c1.bank, sinceSwap := 0, delay := none,
            running := incoming, shadow := outgoing }

/-- The physical address of a page (R314, R315). -/
def pageBase (bank : Bool) : Nat := if bank then 0xC000 else 0

/-- EVENT_COUNT and EVENT_LIST written at the swap (R29, R387): the list's place in block memory is free. -/
def stampEvents (draw n : Nat) (c : Cell) : Cell :=
  let base := pageBase c.bank
  let at_ := if n = 0 then 0 else 0x3C2000 + 16 * (Config.freeNat draw % 8192)
  { c with xmem := memWrite (memWrite c.xmem (base + 10) (leBytes 2 n)) (base + 12) (leBytes 4 at_) }

/-- A thread that begins its run takes its pending list (R29), and its level bits clear. -/
def beginRun (t : Thread) : Thread :=
  { t with state := .running, taken := t.pending, pending := [], tickPend := false, tdmPend := false, eventPend := false,
           suspendRec := none }

/-- Cell `n` passes to the thread in its shadow; `outgoing` is what its shadow then holds. -/
def State.swapIn (s : State) (n t : Nat) (outgoing : Option Nat) : State :=
  let b := cellBlock n
  let k := s.thread b t
  let s1 := s.modCell n (fun c => toggled c (some t) outgoing)
  if k.state = .suspended then
    -- a resume is not a new run (R385); its record is released
    (s1.modBlock b (fun q => freeRecord q k.suspendRec)).modThread b t (fun k => { k with state := .running, suspendRec := none })
  else
    ((s1.modCell n (stampEvents s.draws k.pending.length)).modThread b t beginRun).drawn

/-- Whether the thread in a cell's shadow can be swapped to now: STAGED or SUSPENDED in place, with work released. -/
def State.shadowReady (s : State) (n : Nat) : Option Nat :=
  match (s.cell n).shadow with
  | none => none
  | some t =>
    let k := s.thread (cellBlock n) t
    if (k.state = .staged ∨ k.state = .suspended) ∧ released k then some t else none

/-- A swap that is due carried out where the cell may swap: after a displacement decided at a phase boundary, which the
record reserved for the running thread stands for, or on an idle cell (R382, R383). -/
def State.swapIfDue (s : State) (n : Nat) : State :=
  let b := cellBlock n
  let c := s.cell n
  match s.shadowReady n with
  | none => s
  | some t =>
    match c.running with
    | none => s.swapIn n t none
    | some o =>
      if (s.thread b o).suspendRec.isSome ∧ atBoundary c then
        ((s.modThread b o (fun k => { k with state := .suspended })).bumpBlock b .preemptions).swapIn n t (some o)
      else s

/-- A suspend record that is free, of the 16 of a block (R384). -/
def freeRecordOf (k : Block) : Option Nat := (List.range 16).find? (fun i => !k.records.contains i)

/-- The displacement decision of one cell at a phase boundary (R383). -/
def State.decideCell (s : State) (b i : Nat) : State :=
  let n := 8 * b + i
  let c := s.cell n
  match c.running, c.shadow with
  | some o, some t =>
    let out := s.thread b o
    let k := s.thread b t
    if released k ∧ ranksAbove t k o out ∧ out.suspendRec.isNone ∧
       (k.state = .staged ∨ k.state = .staging ∨ k.state = .suspended) then
      match freeRecordOf (s.block b) with
      | none => s.bumpBlock b .preemptDeferred
      | some r =>
        let s1 := (s.modBlock b (fun q => { q with records := q.records ++ [r] })).modThread b o
          (fun k => { k with suspendRec := some r })
        let s2 := if k.state = .staging then s1.bumpBlock b .stageLate else s1
        s2.swapIfDue n
    else s
  | none, some _ => s.swapIfDue n
  | _, none => s

/-- Whether a block's dispatcher works: its fabric runs and it is neither isolated nor under reset. -/
def State.blockRuns (s : State) (b : Nat) : Bool := decide (b < 16) && s.arrayRuns b && s.clockRuns b && s.clockRuns (16 + b)

/-- PHASE_BOUNDARY of block `b`: the releases of the phase, then the displacement decisions (R374, R383). The boundary
of a phase is taken once. -/
def phaseBoundaryStep (b : Nat) (s : State) : State :=
  let p := s.absPhase
  if ¬ s.blockRuns b ∨ (s.block b).lastPhase = some p then s
  else
    let s0 := s.modBlock b (fun k => { k with lastPhase := some p })
    let s1 := (s0.releasedSlots b p).foldl (fun s e => s.releaseOne b p e) s0
    (List.range 8).foldl (fun s i => s.decideCell b i) s1

/-! ## Staging (R340, R341, R387) -/

/-- The thread page header (Table 12.9). BUDGET_END is the CYCLE value `late` cycles on. -/
def pageHeader (slot : Nat) (t : Thread) (budgetEnd : Nat) : List Byte :=
  leBytes 2 slot ++ leBytes 2 t.channel ++ leBytes 4 t.tick ++ leBytes 1 t.phase ++
  leBytes 1 (boolNat t.restart + 2 * boolNat t.first) ++ zeroBytes 6 ++ leBytes 8 budgetEnd ++ zeroBytes 8

/-- How many bits each register of a bank has, by register number. -/
def regBits (r : Nat) : Nat :=
  if r < 8 then 128 else if r < 24 then 32 else if r < 32 then 128 else if r < 56 then 24 else if r < 64 then 17
  else if r = 64 then 4 else if r = 65 then 16 else 1

/-- The bank image that a committed context holds is the firmware's: every register is free. -/
def freeBank (draw : Nat) : Bank :=
  { regs := (List.range 68).foldl (fun t r =>
      tabSet t r (BitVec.ofNat 128 (Config.freeAt draw r % 2 ^ regBits r)) 0) [],
    pc := BitVec.ofNat 13 (Config.freeAt draw 68) }

/-- What the staging list of a template names (R386), as the block's memory holds it. -/
def stageEntries (m : List Host.Cell) (i : Nat) : List StageEntry :=
  (listEntries ((List.range 16).map (fun k => leNat (memRead m (templateBase + 128 * i + 8 * k) 8)))).getD []

/-- The extents of one side of a thread page, offset and length, that a suspend record holds: those of the staging list, the header of
Table 12.9 on the X side, and the user area where USER was set (R384, R385). -/
def savedExtents (l : List StageEntry) (yside user : Bool) : List (Nat × Nat) :=
  (if yside then [] else [(0, 0x20)]) ++ (l.filter (fun e => e.yside == yside)).map (fun e => (e.dst, e.len)) ++
  (if user then [(0x8000, 0x4000)] else [])

/-- The extents of one page of a memory, by offset in the page. -/
def pageOf (m : List Host.Cell) (base : Nat) (l : List (Nat × Nat)) : List Host.Cell :=
  (m.filter (fun e => l.any (fun x => decide (base + x.1 ≤ e.1 ∧ e.1 < base + x.1 + x.2)))).map (fun e => (e.1 - base, e.2))

/-- A memory with the extents of a page put in place of what they held. -/
def putPage (m : List Host.Cell) (base : Nat) (l : List (Nat × Nat)) (p : List Host.Cell) : List Host.Cell :=
  p.foldl (fun m e => memSet m (base + e.1) e.2) (l.foldl (fun m x => memWipe m (base + x.1) x.2) m)

/-- The bank of the stage half of a cell, as staging writes it. -/
def shadowBank (c : Cell) (b : Bank) : Cell := if c.bank then { c with bank0 := b } else { c with bank1 := b }

/-- The stage half of a cell restored from a suspend record. -/
def restoreShadow (c : Cell) (l : List StageEntry) (r : SuspendRec) : Cell :=
  let base := pageBase (!c.bank)
  shadowBank { c with xmem := putPage c.xmem base (savedExtents l false r.bank.user) r.xpage,
                      ymem := putPage c.ymem base (savedExtents l true r.bank.user) r.ypage } r.bank

/-- The stage half of a cell filled for a new run: the extents of the staging list, whose bytes `src` gives by their offset in the
context, the header, and a bank (R387). The rest of the page keeps what it held. -/
def fillShadow (c : Cell) (l : List StageEntry) (src : Nat → Byte) (head : List Byte) (b : Bank) : Cell :=
  let base := pageBase (!c.bank)
  let put := fun (yside : Bool) (m : List Host.Cell) => (l.filter (fun e => e.yside == yside)).foldl (fun m e =>
    memWrite m (base + e.dst) ((List.range e.len).map (fun i => src (e.src + i)))) m
  shadowBank { c with xmem := memWrite (put false c.xmem) base head, ymem := put true c.ymem } b

/-- The VE cycles from now to a deadline (R387). -/
def State.cyclesTo (s : State) (deadline : Nat) : Int := ((deadline : Int) - s.clocks.mediaNs) * 3 / 2

/-- What staging puts into a cell for thread `t` of slot `i`: its suspend record, or the extents of its staging list, a page header and
a bank image; the context area of a system thread is free. -/
def State.stageInto (s : State) (b n i : Nat) (t : Thread) : State :=
  let l := stageEntries (s.block b).memory t.stageList
  match t.suspendRec.bind (tabFind? (s.block b).saves) with
  | some r => s.modCell n (fun c => restoreShadow c l r)
  | none =>
    let last := (((s.cell n).cycle.toNat : Int) + s.cyclesTo t.deadline).toNat
    let src := fun (o : Nat) => if i < 1024 then contextByte (s.channel t.channel) o
      else BitVec.ofNat 8 (Config.freeAt s.draws (runItem 1 0 o))
    (s.modCell n (fun c => { fillShadow c l src (pageHeader i t last) (freeBank s.draws) with budgetEnd := last })).drawn

/-- The DRAM address of an error that staging meets: somewhere in the thread's context slot (R54) or suspend record (Table 23.5). -/
def State.stageAddress (s : State) (b : Nat) (t : Thread) : Nat :=
  match t.suspendRec with
  | some r => 0x48000000 + (16 * b + r) * 0x19000 + s.freeValue % 0x19000
  | none => contextSlot t.channel + s.freeValue % 0x10000

/-- An uncorrectable DRAM error met by staging: in the context slot it restarts the channel on a rebuilt context (R519),
in a suspend record it restarts the run (Table 20.1). -/
def State.stageFault (s : State) (b i : Nat) (t : Thread) (a : Nat) : State :=
  if t.state = .suspended then
    let s1 := (s.drawn.logError 0x24 4 2 0 t.channel 0 4 a).modBlock b (fun k => freeRecord k t.suspendRec)
    if i < 1024 then s1.restartChannel t.channel 0x24 4 a readyAgain else s1.modThread b i readyAgain
  else if i < 1024 then
    -- a run that a cell fault already restarts: the two faults count as one restart (R520)
    let again := t.restart && !t.first
    let s0 := s.drawn.modChannel t.channel (fun v =>
      { v with slotBad := false, restarts := if again then v.restarts.dropLast else v.restarts })
    let v := s0.channel t.channel
    let third := decide (2 ≤ (trailing s.time.powered v.restarts).length)
    let s1 := if third then s0 else s0.logError 0x22 4 2 0 t.channel 0 4 a
    let s2 := s1.restartChannel t.channel 0x22 4 a (fun t => { readyAgain t with first := true, rebuild := true })
    -- a move in progress from this device fails (R519 step 1)
    match v.move with
    | none => s2
    | some m =>
      if third ∨ m.inbound ∨ m.device = s.stack.number then s2
      else (s2.abortMove m t.channel stInternalFault).failMove t.channel stInternalFault
  else s.modThread b i readyAgain

/-- A candidate staged in place of what the shadow held. -/
def State.stageNew (s : State) (b n i : Nat) (t : Thread) (ecc : Ecc) : State :=
  let s1 := match (s.cell n).shadow with
    | some o => s.modThread b o unstage
    | none => s
  let found : Ecc := if i < 1024 ∧ t.state ≠ .suspended ∧ (s.channel t.channel).slotBad then .uncorrectable else ecc
  match found with
  | .uncorrectable => (s1.modCell n (fun c => { c with shadow := none })).stageFault b i t (s1.stageAddress b t)
  | .clean | .corrected =>
    let s2 := if ecc = .corrected then s1.drawn.correctable 0x12 4 0 4 (s1.stageAddress b t) 4 0 else s1
    let s3 := (s2.stageInto b n i t).modCell n (fun c => { c with shadow := some i })
    s3.modThread b i (fun k => if k.state = .suspended then k else { k with state := .staging })

/-- STAGING_START of cell `n` (R379, R383, R387): the candidate is staged into the shadow; a thread staged there before
goes back to READY. A page whose copy waits for the commit buffer is not staged into (R388). `ecc` is what the staging DMA's reads
find. -/
def stagingStartStep (n : Nat) (ecc : Ecc) (s : State) : State :=
  let b := cellBlock n
  let c := s.cell n
  if ¬ s.blockRuns b ∨ ¬ cellInService c ∨ s.copiesLeft n ≠ [] then s
  else
    match candidate (s.absPhase + 1) s.mayRun (s.block b) (cellLocal n) with
    | none => s
    | some (i, t) =>
      if c.shadow = some i ∨ c.running = some i then s
      else
        let old := c.shadow.map (fun o => s.thread b o)
        match old with
        | some o => if o.state = .suspended then s else s.stageNew b n i t ecc
        | none => s.stageNew b n i t ecc
/-- STAGING_COMPLETE of cell `n`: a swap that waited for it takes place (R382). -/
def stagingCompleteStep (n : Nat) (s : State) : State :=
  let b := cellBlock n
  match (s.cell n).shadow with
  | none => s
  | some t =>
    let k := s.thread b t
    if k.state = .staging then (s.modThread b t (fun k => { k with state := .staged })).swapIfDue n
    else if k.state = .suspended then s.swapIfDue n
    else s

/-! ## Suspend records (R384) -/

/-- Whether slot `t` is what cell `n` would stage next (R379). -/
def State.staysNext (s : State) (n t : Nat) : Bool :=
  match candidate (s.absPhase + 1) s.mayRun (s.block (cellBlock n)) (cellLocal n) with
  | some e => e.1 == t
  | none => true

/-- SUSPEND_SAVE of cell `n`: the thread SUSPENDED in its shadow goes into its record, and the shadow is free; while it remains the
cell's next candidate it stays in place. -/
def suspendSaveStep (n : Nat) (s : State) : State :=
  let b := cellBlock n
  let c := s.cell n
  match c.shadow with
  | none => s
  | some t =>
    match (s.thread b t).state, (s.thread b t).suspendRec with
    | .suspended, some r =>
      if s.staysNext n t then s
      else
      let base := pageBase (!c.bank)
      let bank := drainBank (if c.bank then c.bank0 else c.bank1)
      let l := stageEntries (s.block b).memory (s.thread b t).stageList
      let save : SuspendRec := { bank := bank, xpage := pageOf c.xmem base (savedExtents l false bank.user),
                                 ypage := pageOf c.ymem base (savedExtents l true bank.user) }
      ((s.modBlock b (fun k => { k with saves := tabPut k.saves r save })).modCell n
        (fun c => { c with shadow := none })).bumpBlock b .suspendSaves
    | _, _ => s

/-! ## DONE and commits (R342, R377, R388) -/

/-- A thread at its DONE: the entries it took are freed, and work released meanwhile makes it READY again (R391). -/
def endedRun (t : Thread) : Thread :=
  { t with state := if t.tickPend ∨ t.tdmPend ∨ t.eventPend then .ready else .waiting, taken := [], runs := t.runs + 1,
           restart := false, first := false, suspendRec := none }

/-- A channel whose run ended without COMMIT: its previous committed context stays in force (R342). -/
def State.dropRun (s : State) (c : Nat) : State :=
  { s.runBase c with openRuns := tabSet s.openRuns c (s.bufferedRuns c) [] }

/-- A run that has ended with COMMIT: its copy is on its way to DRAM (R388). -/
def State.endLiveRun (s : State) (c : Nat) : State :=
  { s with openRuns := tabSet s.openRuns c ((tabGet s.openRuns c []).map (fun r => { r with ended := true })) [] }

/-- The COMMIT extents of the thread page of the active bank, in the order of the staging list (R388). -/
def commitBytes (c : Cell) (l : List StageEntry) : List Byte :=
  ((l.filter (·.commit)).map (fun e => memRead (if e.yside then c.ymem else c.xmem) (pageBase c.bank + e.dst) e.len)).flatten

/-- The end of the run on cell `n`, after the two delay words of DONE. -/
def State.threadDone (s : State) (n : Nat) (commit : Bool) : State :=
  let b := cellBlock n
  match (s.cell n).running with
  | none => s
  | some t =>
    let k := s.thread b t
    let s1 := s.modCell n (fun c => { c with running := none, userHook := 0 })
    let s2 := if k.state = .free then s1
      else
        let s2 := ((s1.modBlock b (fun q => freeRecord q k.suspendRec)).modThread b t endedRun).bumpBlock b .runs
        if commit then
          let copy : CommitCopy := { slot := t, tick := k.tick, cell := n, bytes := commitBytes (s.cell n) (stageEntries (s.block b).memory k.stageList) }
          (s2.modBlock b (fun q => { q with commits := q.commits ++ [copy] })).endLiveRun k.channel
        else if t < 1024 then s2.dropRun k.channel else s2
    let late : Bool := match (s2.cell n).shadow with
      | some u => (s2.thread b u).state == .staging
      | none => false
    (if late then s2.bumpBlock b .stageLate else s2).swapIfDue n

/-- COMMIT_COMPLETE of block `b`: its oldest buffered copy is in DRAM, and the run is committed; an uncorrectable error
in the buffer discards the copy and restarts the channel from its previous committed context (R388, R516). -/
def commitCompleteStep (b : Nat) (ecc : Ecc) (s : State) : State :=
  match (s.block b).commits with
  | [] => s
  | k :: r =>
    let s1 := s.modBlock b (fun q => { q with commits := r })
    let t := s1.thread b k.slot
    if 1024 ≤ k.slot ∨ t.state = .free then s1
    else
      match ecc with
      | .uncorrectable =>
        let s2 := (s1.drawn.logError 0x20 2 2 b t.channel 0 3 s1.freeValue).loseCommit b k.slot t.channel
        s2.restartChannel t.channel 0x20 3 s1.freeValue readyAgain
      | .clean | .corrected =>
        let s2 := if ecc = .corrected then s1.drawn.correctable 0x11 2 b 3 s1.freeValue 3 b else s1
        match tabGet s2.openRuns t.channel [] with
        | [] => s2
        | o :: l =>
          if ¬ o.ended then s2
          else
            ({ s2 with openRuns := tabSet s2.openRuns t.channel l [] }.modChannel t.channel
              (fun v => if v.state = ChState.idle then v else { v with format := s2.commitFormat b })).payOwed
                (owedBy (entryEvents o.entries))
            |>.contextLeaves t.channel k.tick

/-- DEADLINE_MISS of slot `t` of block `b`: its run has not issued DONE by its deadline; counted once (R390, R392). -/
def deadlineMissStep (b t : Nat) (s : State) : State :=
  let k := s.thread b t
  let open_ := k.state = .running ∨ k.state = .suspended ∨ released k
  if k.state = .free ∨ k.missed ∨ s.clocks.mediaNs < k.deadline ∨ ¬ open_ then s
  else if s.clocks.frost then (s.modThread b t (fun k => { k with missed := true })).bumpBlock b .frostMisses
  else (s.modThread b t (fun k => { k with missed := true, misses := k.misses + 1 })).bumpBlock b .misses

/-! ## Events (R377, R378) -/

/-- The entries in a block's pending pool. -/
def poolUsed (k : Block) : Nat := (k.threads.map (fun e => e.2.pending.length + e.2.taken.length)).sum

/-- A FIFO entry filled from Damium's line of commands, in acceptance order (R378). -/
def refillFifo (k : Block) : Block :=
  match k.commandHold with
  | [] => k
  | e :: r => if k.fifo.length < fifoSize then { k with fifo := k.fifo ++ [e], commandHold := r } else k

/-- An entry appended to its thread's list, and a thread that wakes on it READY (R377, R389). -/
def appendEntry (now : Nat) (e : PendEntry) (t : Thread) : Thread :=
  let wakes := match e with | .signal _ _ => t.wakeSignal | .command _ => t.wakeCommand | .packet _ => false
  let t1 := { t with pending := t.pending ++ [e] }
  if wakes then
    let t2 := { t1 with eventPend := true }
    if t.state = .waiting then { t2 with state := .ready, deadline := now + 1000 * t.budget, missed := false } else t2
  else t1

/-- EVENT_FIFO_ENTRY of block `b`: the head of its FIFO goes to the thread it names (R377, Table 14.4). -/
def fifoEntryStep (b : Nat) (s : State) : State :=
  let k := s.block b
  match k.fifo with
  | [] => s
  | (t, e) :: r =>
    if ¬ s.blockRuns b ∨ 8192 ≤ poolUsed k then s
    else
      let s1 := s.modBlock b (fun k => refillFifo { k with fifo := r })
      let q := s.thread b t
      match e with
      | .packet _ =>
        if q.state = .free ∨ 64 ≤ q.pending.length then s1.bumpBlock b .pendingDiscard
        else s1.modBlock b (fun k => let k1 := blockSetThread k t (appendEntry s.clocks.mediaNs e q)
                                     { k1 with peakPool := max k1.peakPool (poolUsed k1) })
      | .signal _ _ =>
        if q.state = .free ∨ 64 ≤ q.pending.length then s1.bumpBlock b .signalDiscard
        else
          let s2 := if q.state = .waiting ∧ q.wakeSignal then s1.bumpBlock b .releases else s1
          s2.modBlock b (fun k => let k1 := blockSetThread k t (appendEntry s.clocks.mediaNs e q)
                                  { k1 with peakPool := max k1.peakPool (poolUsed k1) })
      | .command _ =>
        if q.state = .free then s1
        else
          let s2 := if q.state = .waiting ∧ q.wakeCommand then s1.bumpBlock b .releases else s1
          s2.modBlock b (fun k => let k1 := blockSetThread k t (appendEntry s.clocks.mediaNs e q)
                                  { k1 with peakPool := max k1.peakPool (poolUsed k1) })

/-- SIGNAL_RECORD: a closed SIGNAL record of `sender` naming slot `t` enters the FIFO; while that is full the sending
cell stalls and the record stays with it (R378). A record taken already is discarded (R343). -/
def signalRecordStep (b sender seq t value : Nat) (s : State) : State :=
  let k := s.block b
  let key := (sender, (s.thread b sender).tick, 4, seq)
  if ¬ s.blockRuns b ∨ fifoSize ≤ k.fifo.length then s
  else if k.taken.contains key then s.bumpBlock b .signalDiscard
  else s.modBlock b (fun k => { k with fifo := k.fifo ++ [(t, .signal value sender)], taken := k.taken ++ [key],
                                       peakFifo := max k.peakFifo (k.fifo.length + 1) })

/-- NOTICE_RECORD: Damium takes the oldest closed notice record of a block's cells (R343, R426). -/
def noticeRecordStep (b : Nat) (s : State) : State :=
  match (s.block b).notices with
  | [] => s
  | n :: r =>
    let s1 := s.modBlock b (fun k => { k with notices := r })
    let groups := [Group.system, .channel, .tone, .media, .flow, .time, .port, .tdm, .clockPower, .fault, .stack]
    match groups[n.group]? with
    | some g => s1.notice g n.v4 n.opcode n.target n.tlvs
    | none => s1

/-- CONTEXT_REBUILT of channel `c`: the slot is written again, and the thread can be staged (R519 steps 2 to 4). -/
def contextRebuiltStep (c : Nat) (s : State) : State :=
  let v := s.channel c
  match v.slot with
  | none => s
  | some t =>
    if (s.thread v.block t).rebuild then
      let s1 := s.modThread v.block t (fun k => { k with rebuild := false, restart := true, first := true })
      { s1 with openRuns := tabDrop s1.openRuns c }.modChannel c (fun v =>
        { v with applied := v.accepted, runA := v.legA, runB := v.legB, counts := [],
                 media := { v.media with restart := true, frosted := false } })
    else s

/-- WATCHDOG of cell `n`: 3,000,000 cycles have passed since its last swap while a thread runs (R345). -/
def watchdogStep (n : Nat) (s : State) : State :=
  let c := s.cell n
  if ¬ s.blockRuns (cellBlock n) ∨ ¬ cellInService c ∨ c.running.isNone then s
  else
    let more := 3000000 - c.sinceSwap
    (s.modCell n (fun c => { c with cycle := c.cycle + BitVec.ofNat 64 more, sinceSwap := c.sinceSwap + more })).trap n
      .watchdog 0 6 c.active.pc.toNat

/-- USER_BUDGET of cell `n`: the run's user cycles exceed USER_KC × 1,000, at a word boundary outside a REP (R351). -/
def userBudgetStep (n : Nat) (s : State) : State :=
  let c := s.cell n
  let kc := match s.runningChannel n with
    | some ch => settingNat (s.channel ch).applied .hook 0 0x42 0
    | none => 0
  if ¬ s.blockRuns (cellBlock n) ∨ ¬ cellInService c ∨ c.running.isNone ∨ ¬ c.active.user ∨ c.rep ≠ 0 ∨
     c.active.userCycles ≤ 1000 * kc then s
  else s.userTrap n .userBudget

def execPhaseBoundary (block : Nat) (s : State) : Host.Outcome State Fault Refusal := .next (phaseBoundaryStep block s)
def execEventFifoEntry (block : Nat) (s : State) : Host.Outcome State Fault Refusal := .next (fifoEntryStep block s)
def execStagingStart (cell : Nat) (ecc : Ecc) (s : State) : Host.Outcome State Fault Refusal :=
  .next (stagingStartStep cell ecc s)
def execStagingComplete (cell : Nat) (s : State) : Host.Outcome State Fault Refusal := .next (stagingCompleteStep cell s)
def execSuspendSave (cell : Nat) (s : State) : Host.Outcome State Fault Refusal := .next (suspendSaveStep cell s)
def execCommitComplete (block : Nat) (ecc : Ecc) (s : State) : Host.Outcome State Fault Refusal :=
  .next (commitCompleteStep block ecc s)
def execDeadlineMiss (block slot : Nat) (s : State) : Host.Outcome State Fault Refusal :=
  .next (deadlineMissStep block slot s)
def execSignalRecord (block sender seq slot value : Nat) (s : State) : Host.Outcome State Fault Refusal :=
  .next (signalRecordStep block sender seq slot value s)
def execNoticeRecord (block : Nat) (s : State) : Host.Outcome State Fault Refusal := .next (noticeRecordStep block s)
def execContextRebuilt (channel : Nat) (s : State) : Host.Outcome State Fault Refusal :=
  .next (contextRebuiltStep channel s)
def execWatchdog (cell : Nat) (s : State) : Host.Outcome State Fault Refusal := .next (watchdogStep cell s)
def execUserBudget (cell : Nat) (s : State) : Host.Outcome State Fault Refusal := .next (userBudgetStep cell s)

end Sys2Proof.Machine
end

