-- ==== Sys2Proof/Machine/Clock.lean ====
section
/-! DEFINITION. The clock controller, Frost, gating, the clock outputs and power modes (R470 to R498, R504, R505). -/

namespace Sys2Proof.Machine

/-! ## References (R471, R472, R477, R482) -/

/-- ACQUIRE begun on the highest-ranked qualified listed source, if there is one (R482). -/
def State.acquire (s : State) : State :=
  match s.clocks.best with
  | some b => { s with clocks := { s.clocks with selected := some b } }.ctrl .acquire
  | none => s

/-- LOCKED reached: the floor code is stored, and an order accepted meanwhile is looked at (R472, R481). -/
def State.lockReached (s : State) : State :=
  let s1 := { s with clocks := { s.clocks with floorAt := s.time.powered, recheck := false } }.ctrl .locked
  if s.clocks.recheck then
    match s1.clocks.best with
    | some b => if s1.clocks.selected = some b then s1 else s1.beginSwitch b
    | none => s1
  else s1

/-- A clock event for the servo (R132). -/
def State.markClockEvent (s : State) : State := { s with time := { s.time with clockEvent := true } }

/-- Whether a source can be a candidate now (Table 18.1). -/
def State.candidateSource (s : State) (src : Nat) : Bool :=
  decide (src ≤ 2) || (decide (src ≤ 6) && (s.port (src - 3)).up)

/-- REFERENCE_TRIP: a missing edge or a loss of lock on a source (R471). -/
def referenceTripStep (src : Nat) (s : State) : State := if 7 ≤ src then s else s.tripSource src

/-- REFERENCE_QUALIFIED: a source's count reaches 4,096 cycles (R471, R473, R482). -/
def referenceQualifiedStep (src : Nat) (s : State) : State :=
  if ¬ s.candidateSource src ∨ s.clocks.qualified.contains src then s
  else
    let q := (List.range 7).filter (fun i => i == src || s.clocks.qualified.contains i)
    let s1 := { s with clocks := { s.clocks with qualified := q } }.countClock .qualifications 1
    match s.clocks.ctrl with
    | .start =>
      match s1.clocks.best with
      | some b => ({ s1 with clocks := { s1.clocks with selected := some b }, time := { s1.time with phase := 0 } }).lockReached
      | none => s1
    | .frost => (s1.clockNotice .qualified src).acquire
    | .locked | .hold | .coast | .acquire | .ramp => s1.clockNotice .qualified src

/-- REFERENCE_LOCK: lock to the new source of a switch (R477). -/
def referenceLockStep (s : State) : State :=
  if s.clocks.ctrl ≠ .hold then s
  else
    let src := s.clocks.selected.getD 0
    (((s.countClock .switches 1).clockNotice .switched src).markClockEvent).lockReached

/-! ## Frost (R478 to R483) -/

/-- COAST_END: the root has come down to the floor (R478, R482). -/
def coastEndStep (s : State) : State :=
  let k := s.clocks
  if k.ctrl ≠ .coast ∨ 10 * (s.time.powered - k.since) < (64 - k.level) * 15625 then s
  else (s.ctrl .frost).acquire

/-- ACQUIRE_LOCK: lock at the floor (R482). -/
def acquireLockStep (s : State) : State := if s.clocks.ctrl ≠ .acquire then s else s.ctrl .ramp

/-- SLIPS of the groups whose frames were lost (R307). -/
def State.countSlips (s : State) (g : Nat) : State :=
  let v := s.group g
  let held := s.tdm.slots.any (fun e => highwayGroup (e.1 / 128) == g && e.2.bound.isSome)
  if (v.master ∨ v.framing = .framed) ∧ held then s.setGroup g (bumpGroup v .slips) else s

/-- Media resumes: every channel's first run is still to come (R482). -/
def State.resumeMedia (s : State) : State :=
  let s1 := { s with channels := s.channels.map (fun (e : Nat × Channel) =>
    (e.1, { e.2 with media := { e.2.media with frosted := false, thawing := true } })) }
  (s1.countSlips 0).countSlips 1

/-- RAMP_END: the root is back at 3 GHz, and Frost ends (R482). -/
def rampEndStep (s : State) : State :=
  let k := s.clocks
  if k.ctrl ≠ .ramp ∨ s.time.powered - k.since < 100000 then s
  else
    let s1 := s.countClock .frostNs (s.time.powered - k.frostSince)
    let s2 := { s1 with clocks := { s1.clocks with frost := false }, time := { s1.time with phase := 0 } }
    ((s2.resumeMedia.clockNotice .frostExited (k.selected.getD 0)).markClockEvent).lockReached

/-! ## CLOCK_CONFIG and CLOCK_QUERY (R472, R492) -/

/-- The first parameter that repeats a value given before it. -/
def repeatedParam (l : List Param) : List (List Byte) → Option Param
  | seen =>
    match l with
    | [] => none
    | q :: r => if seen.contains q.val then some q else repeatedParam r (q.val :: seen)

def clockConfigBody : Body := fun x s =>
  let codes := x.params.map (fun q => beNat q.val)
  match repeatedParam x.params [] with
  | some q => .refuse stOutOfRange (errorTlvs q.typ (q.offset + 4))
  | none =>
    let k := s.clocks
    if ¬ k.frost ∧ ¬ codes.any (fun c => k.qualified.contains c) then .refuse stWrongState []
    else
      let s1 := { s with clocks := { k with order := codes } }
      match k.ctrl with
      | .start | .coast => .done stOk [] s1
      | .frost => .done stOk [] s1.acquire
      | .hold | .acquire | .ramp => .done stOk [] { s1 with clocks := { s1.clocks with recheck := true } }
      | .locked =>
        match s1.clocks.best with
        | some b => .done stOk [] (if k.selected = some b then s1 else s1.beginSwitch b)
        | none => .done stOk [] s1

/-- A set of small numbers as a mask. -/
def maskOf (l : List Nat) : Nat := l.foldl (fun a i => a ||| 2 ^ i) 0

/-- SELECTED (Table 18.6). -/
def Clocks.selectedCode (k : Clocks) : Nat := k.selected.getD 0xF

/-- What CLOCK_QUERY reports (R492). -/
def State.clockTlvs (s : State) : List Tlv :=
  let k := s.clocks
  [rep 0x400 1 k.selectedCode, rep 0x401 1 (maskOf k.qualified), rep 0x402 1 (boolNat k.frost),
   rep 0x403 1 k.ctrl.ctorIdx, rep 0x404 4 ((s.time.powered - k.floorAt) / 1000000)] ++ counterTlvs 0x800 15 k.counts

def clockQueryBody : Body := fun x s =>
  .done stOk s.clockTlvs (if x.clear then { s with clocks := { s.clocks with counts := [] } } else s)

/-! ## Power modes (R493 to R498) -/

/-- The clock domains of a power domain (Table 19.1). -/
def powerClocks (p : Nat) : List Nat := (List.range 100).filter (fun d => powerOf d == p)

/-- The power domains one depends on (R496). -/
def powerNeeds (p : Nat) : List Nat :=
  if p < 16 then [16 + p] else if p < 32 then [48 + (p - 16) / 4] else if p < 48 then [p - 16]
  else if 52 ≤ p ∧ p < 56 then [p - 4] else []

/-- The blocks whose logic a power domain holds. -/
def powerBlocks (p : Nat) : List Nat :=
  if p < 48 then [p % 16] else if p < 52 then (List.range 4).map (fun i => 4 * (p - 48) + i) else []

/-- Whether a block holds channel threads. -/
def State.holdsChannels (s : State) (b : Nat) : Bool :=
  (s.block b).threads.any (fun e => decide (e.1 < 1024 ∧ e.2.state ≠ .free))

/-- The mode a power domain has once every change accepted so far is made. -/
def State.plannedMode (s : State) (p : Nat) : PowerMode :=
  let asked := s.clocks.gates.filterMap (fun j => match j.use with
    | .power l m => if l.contains p then some m else none
    | .enables _ _ => none)
  match asked.getLast? with
  | some m => m
  | none =>
    match (s.powerDomain p).changing with
    | some c => c.1
    | none => (s.powerDomain p).mode

/-- The cells of block `b` as they come back from DEEP_SLEEP: idle, with what their memories held (R495). -/
def State.reviveCells (s : State) (b : Nat) : State :=
  (List.range 8).foldl (fun s i => s.modCell (8 * b + i) (fun c =>
    { xmem := c.xmem, ymem := c.ymem, imem := c.imem, trap := c.trap, retired := c.retired, underReset := c.underReset,
      memTraps := c.memTraps })) s

/-- A domain's logic set up again after DEEP_SLEEP (R495). -/
def State.revive (s : State) (p : Nat) : State :=
  if p < 16 then s.reviveCells p else if p < 32 then s.loadTemplates (p - 16) else s

/-- A block that was given a channel while it went to sleep wakes again (R496, R497). -/
def State.rewake (s : State) (p : Nat) (m : PowerMode) : State :=
  match (powerBlocks p).find? s.holdsChannels with
  | none => s
  | some b =>
    match m with
    | .run => s
    | .sleep => s.wakeBlock b
    | .deepSleep => s.startWake b

/-- A power domain put into a mode once its clocks have stopped or need not (R494). -/
def State.enterMode (s : State) (m : PowerMode) (r : Option CmdRef) (p : Nat) : State :=
  let s0 := s.endEntry p
  let d := s0.powerDomain p
  match m with
  | .run =>
    if d.mode = .run then s0.completeOpt r stOk
    else s0.setPower p { d with changing := some (.run, r), changeSince := s.time.powered }
  | .sleep =>
    let s1 := if d.mode = .deepSleep then s0.revive p else s0
    let s2 := s1.setPower p ({ d with mode := .sleep, changing := none }.count .sleepEntries)
    ((s2.powerNotice p .sleep (if r.isSome then 0 else 1)).completeOpt r stOk).rewake p .sleep
  | .deepSleep =>
    (s0.setPower p { d with mode := .deepSleep, changing := some (.deepSleep, r), changeSince := s.time.powered }).rewake p .deepSleep

/-! ## Gating (R484 to R487) -/

/-- The enables a mask spells. -/
def enablesOf (m : Nat) : ClockDomain := { runEn := m.testBit 0, sleepEn := m.testBit 1, deepEn := m.testBit 2 }

/-- Whether a clock domain runs once a job is done. -/
def State.runsAfter (s : State) (u : GateUse) (d : Nat) : Bool :=
  match u with
  | .enables e m => if d = e then ungated d || (enablesOf m).enable (s.powerDomain (powerOf d)).mode else s.clockRuns d
  | .power l m => if l.contains (powerOf d) then ungated d || (s.clockDomain d).enable m else s.clockRuns d

/-- The running clocks that a job stops (R485). -/
def State.jobStops (s : State) (j : GateJob) : List Nat := j.touches.filter (fun d => s.clockRuns d && !(s.runsAfter j.use d))

/-- A job carried out. -/
def State.finishGate (s : State) (j : GateJob) : State :=
  match j.use with
  | .enables d m =>
    ({ s with clocks := { s.clocks with domains := tabSet s.clocks.domains d (enablesOf m) {} } }).completeOpt j.ref stOk
  | .power l m => l.foldl (fun s p => s.enterMode m j.ref p) s

/-- The first job not begun that touches no domain of an earlier one (R486). -/
def readyJob : List Nat → List GateJob → Option GateJob
  | _, [] => none
  | busy, j :: r =>
    if ¬ j.begun ∧ ¬ j.touches.any busy.contains then some j else readyJob (busy ++ j.touches) r

/-- The first such job begun. -/
def beginJob (j : GateJob) (w : List Nat) : List GateJob → List GateJob
  | [] => []
  | k :: r => if k = j then { k with begun := true, waiting := w } :: r else k :: beginJob j w r

def State.setGates (s : State) (l : List GateJob) : State := { s with clocks := { s.clocks with gates := l } }

/-- Every job that can begin, begun; one that stops no clock is done at once (R485, R486). -/
def State.pumpGates : Nat → State → State
  | 0, s => s
  | fuel + 1, s =>
    match readyJob [] s.clocks.gates with
    | none => s
    | some j =>
      match s.jobStops j with
      | [] => State.pumpGates fuel ((s.setGates (s.clocks.gates.erase j)).finishGate j)
      | w => State.pumpGates fuel (s.setGates (beginJob j w s.clocks.gates))

def State.runGates (s : State) : State := s.pumpGates (s.clocks.gates.length + 1)

def State.addGate (s : State) (j : GateJob) : State := s.setGates (s.clocks.gates ++ [j])

def domainGateBody : Body := fun x s =>
  let d := paramNat x.params 0x40 0
  let m := paramNat x.params 0x41 0
  if ungated d then refuseParam x stOutOfRange 0x40
  else if d < 48 ∧ m.testBit 0 = false ∧ s.holdsChannels (d % 16) then .refuse stWrongState []
  else .accepted (s.addGate { ref := some x.ref, use := .enables d m, touches := [d] }) State.runGates

/-- The job that waits for a domain to quiesce. -/
def gateOf (s : State) (d : Nat) : Option GateJob := s.clocks.gates.find? (fun j => j.begun && j.waiting.contains d)

/-- GATE_QUIESCED: the ports of a domain have gone idle; when all of a job's have, its clocks stop (R485, R486). -/
def gateQuiescedStep (d : Nat) (s : State) : State :=
  match gateOf s d with
  | none => s
  | some j =>
    let w := j.waiting.erase d
    if w ≠ [] then s.setGates (beginJob j w s.clocks.gates)
    else
      let n := (s.jobStops j).length
      ((((s.setGates (s.clocks.gates.erase j)).countClock .gateOps n)).finishGate j).runGates

/-- What a job that ends GATE_BUSY counts (Table 19.7), and the new wait of an automatic entry (R498). -/
def State.powerBusy (s : State) (j : GateJob) : State :=
  match j.use with
  | .enables _ _ => s
  | .power l _ =>
    let s1 := l.foldl (fun s p => s.setPower p ((s.powerDomain p).count .powerBusy)) s
    if j.ref.isSome then s1
    else
      match l.head? with
      | some b => (s1.setPower b ((s1.powerDomain b).count .autoBusy)).modBlock b (fun k => { k with emptySince := s.time.powered })
      | none => s1

/-- GATE_TIMEOUT: the ports of a domain stay busy, and its job ends GATE_BUSY with every clock running (R485, R486). -/
def gateTimeoutStep (d : Nat) (s : State) : State :=
  match gateOf s d with
  | none => s
  | some j =>
    ((((s.setGates (s.clocks.gates.erase j)).countClock .gateBusy 1).powerBusy j).completeOpt j.ref stGateBusy).runGates

/-! ## POWER_SET and POWER_QUERY (R496, R505) -/

/-- Whether the highway and group settings keep TDM awake (R496). -/
def State.tdmInUse (s : State) : Bool :=
  (List.range 32).any (fun h => (s.highway h).mode != .disabled) || (s.group 0).master || (s.group 1).master

/-- What keeps a power domain in RUN (R496). -/
def State.mustRun (s : State) (p : Nat) : Bool :=
  if p < 48 then s.holdsChannels (p % 16)
  else if 56 ≤ p ∧ p < 60 then (s.port (p - 56)).mode != .disabled
  else if p = 60 then s.stack.links.testBit 0 || s.stack.links.testBit 1
  else if p = 61 then s.stack.links.testBit 2 || s.stack.links.testBit 3
  else if p = 62 then s.tdmInUse
  else false

/-- Whether a mode keeps the rule that no domain is shallower than one it depends on (R496). -/
def State.depthKept (s : State) (p : Nat) (m : PowerMode) : Bool :=
  (powerNeeds p).all (fun q => decide ((s.plannedMode q).ctorIdx ≤ m.ctorIdx)) &&
  (List.range 63).all (fun r => !((powerNeeds r).contains p) || decide (m.ctorIdx ≤ (s.plannedMode r).ctorIdx))

def powerModeOf (n : Nat) : PowerMode := if n = 0 then .run else if n = 1 then .sleep else .deepSleep

def powerSetBody : Body := fun x s =>
  let p := paramNat x.params 0x40 0
  if paramHas x.params 0x42 ∧ 16 ≤ p then .refuse stBadTlv (errorTlvs 0x42 (paramStart x.params 0x42))
  else
    let s1 := match paramNat? x.params 0x42 with
      | some v => s.setPower p { s.powerDomain p with auto := v != 0 }
      | none => s
    match paramNat? x.params 0x41 with
    | none => .completed stOk [] s1
    | some n =>
      let m := powerModeOf n
      if ¬ s.depthKept p m ∨ (m ≠ .run ∧ s.mustRun p) then .refuse stWrongState []
      else if s.plannedMode p = m ∧ (s.powerDomain p).mode = m ∧ (s.powerDomain p).changing = none then .completed stOk [] s1
      else .accepted (s1.addGate { ref := some x.ref, use := .power [p] m, touches := powerClocks p }) State.runGates

def powerTlvs (d : PowerDomain) : List Tlv :=
  [rep 0x400 1 d.mode.ctorIdx, rep 0x401 1 (boolNat d.auto)] ++ counterTlvs 0x800 6 d.counts

/-- What POWER_QUERY reports: every power domain (R505). -/
def State.allPowerTlvs (s : State) : List Tlv :=
  ((List.range 64).map (fun p => instanceTlv (Config.powerKind % 256) p :: powerTlvs (s.powerDomain p))).flatten

/-- The counters of every power domain cleared. -/
def State.clearPower (s : State) : State := (List.range 64).foldl (fun s p => s.setPower p { s.powerDomain p with counts := [] }) s

def powerQueryBody : Body := fun x s => .done stOk s.allPowerTlvs (if x.clear then s.clearPower else s)

/-! ## The events of power modes (R494, R495, R497, R498) -/

/-- CH_OPEN that waited for its block completes once the block's domains run (R51). -/
def State.payWakes (s : State) (b : Nat) : State :=
  if s.blockMode b ≠ .run then s
  else s.channels.foldl (fun s e =>
    match e.2.wakeRef with
    | some r => if e.2.block = b then (s.modChannel e.1 (fun v => { v with wakeRef := none })).complete r stOk [] else s
    | none => s) s

/-- POWER_WAKE_DONE: a domain returns to RUN, after those it depends on (R495, R497). -/
def powerWakeDoneStep (p : Nat) (s : State) : State :=
  let d := s.powerDomain p
  match d.changing with
  | some (.run, r) =>
    if ¬ (powerNeeds p).all (fun q => (s.powerDomain q).mode == .run) then s
    else
      let s1 := if d.mode = .deepSleep then s.revive p else s
      let c := countMax (bump d.counts PowerCount.wakes.ctorIdx) PowerCount.wakeNsMax.ctorIdx (s.time.powered - d.changeSince)
      let s2 := (s1.setPower p { d with mode := .run, changing := none, counts := c }).powerNotice p .run (if r.isSome then 0 else 2)
      (powerBlocks p).foldl State.payWakes (s2.completeOpt r stOk)
  | _ => s

/-- DEEP_SLEEP_ENTERED: isolation and power-off of a domain are complete (R494). -/
def deepSleepEnteredStep (p : Nat) (s : State) : State := s.endEntry p

/-- AUTO_DEEP_SLEEP: a block that has held no channel thread for 10 s enters DEEP_SLEEP with its three domains (R498). -/
def autoDeepSleepStep (b : Nat) (s : State) : State :=
  let l := [b, 16 + b, 32 + b]
  let touches := l.flatMap powerClocks
  if 16 ≤ b ∨ ¬ (s.powerDomain b).auto ∨ s.holdsChannels b ∨ s.time.powered < (s.block b).emptySince + 10000000000 ∨
     l.any (fun p => (s.powerDomain p).mode != .run || (s.powerDomain p).changing.isSome) ∨
     s.clocks.gates.any (fun j => j.touches.any touches.contains) then s
  else (s.addGate { ref := none, use := .power l .deepSleep, touches := touches }).runGates

/-! ## Clock outputs (R488 to R490) -/

/-- The divisor of a clock domain (Table 18.2). -/
def divisorOf (d : Nat) : Nat :=
  if d < 16 then 2 else if d < 48 then 3 else if d < 56 then 4 else if d < 64 then 3 else if d < 68 then 4 else if d < 76 then 8
  else if d < 80 then 6 else if d < 88 then 4 else if d = 88 then 6 else if d = 89 then 12 else if d = 90 then 6
  else if d < 94 then 4 else if d = 94 then 6 else if d = 95 then 12 else if d = 96 then 24 else if d = 97 then 12
  else if d = 99 then 24 else 0

/-- The CMOS outputs of Table 24.7. -/
inductive CmosOutput
  | tdm | clkout | tclkOut | jtagTdo | qspi
  deriving DecidableEq, Repr

/-- The slew step of a clock output at a frequency in Hz: 0 up to 40 MHz, 1 above (Table 24.7). -/
def clockSlew (num den : Nat) : Nat := if 40000000 * den < num then 1 else 0

/-- The slew step of an output at its present setting (R593). -/
def State.outputSlew (s : State) : CmosOutput → Nat
  | .tdm => 0
  | .clkout => s.clocks.clkoutSlew
  | .tclkOut => s.clocks.tclkSlew
  | .jtagTdo => 2
  | .qspi => 3

/-- CLKOUT_SET (R488): the slew step is selected again as the setting changes (R593). -/
def clkoutSetBody : Body := fun x s =>
  let k := s.clocks
  if paramNat? x.params 0x40 = some 98 then refuseParam x stOutOfRange 0x40
  else
    let d := match paramNat? x.params 0x40 with | some d => some d | none => k.clkoutDomain
    let n := paramNat x.params 0x42 k.clkoutDivide
    let on := paramFlag x.params 0x43 k.clkoutOn
    match d with
    | none =>
      if on then refuseMissing x 0x40 else .done stOk [] { s with clocks := { k with clkoutDivide := n } }
    | some d =>
      if divisorOf d * n < 24 then refuseParam x stOutOfRange (if paramHas x.params 0x42 then 0x42 else 0x40)
      else
        .done stOk [] { s with clocks := { k with clkoutDomain := some d, clkoutDivide := n, clkoutOn := on,
                                                  clkoutSlew := clockSlew 3000000000 (divisorOf d * n) } }

/-- A change of FREQUENCY, or an enable, starts the output afresh (R490). -/
def tclkOutSetBody : Body := fun x s =>
  let k := s.clocks
  let f := paramNat x.params 0x40 k.tclkFreq
  let on := paramFlag x.params 0x41 k.tclkOn
  let fresh := f ≠ k.tclkFreq ∨ (on ∧ ¬ k.tclkOn)
  let k1 := { k with tclkFreq := f, tclkOn := on, tclkSlew := clockSlew f 1 }
  .done stOk [] { s with clocks := if fresh then { k1 with tclkStarted := false, tclkPhase := 0, tclkError := 0, tclkAligns := false }
                                   else k1 }

/-! ## The meanings -/

def execClockConfig (p : Packet) (s : State) : Host.Outcome State Fault Refusal := .next (fylosRun 0x0D01 clockConfigBody p s)
def execClockQuery (p : Packet) (s : State) : Host.Outcome State Fault Refusal := .next (fylosRun 0x0D02 clockQueryBody p s)
def execDomainGate (p : Packet) (s : State) : Host.Outcome State Fault Refusal := .next (fylosRun 0x0D03 domainGateBody p s)
def execClkoutSet (p : Packet) (s : State) : Host.Outcome State Fault Refusal := .next (fylosRun 0x0D04 clkoutSetBody p s)
def execTclkOutSet (p : Packet) (s : State) : Host.Outcome State Fault Refusal := .next (fylosRun 0x0D05 tclkOutSetBody p s)
def execPowerSet (p : Packet) (s : State) : Host.Outcome State Fault Refusal := .next (fylosRun 0x0D06 powerSetBody p s)
def execPowerQuery (p : Packet) (s : State) : Host.Outcome State Fault Refusal := .next (fylosRun 0x0D07 powerQueryBody p s)
def execReferenceTrip (source : Nat) (s : State) : Host.Outcome State Fault Refusal := .next (referenceTripStep source s)
def execReferenceQualified (source : Nat) (s : State) : Host.Outcome State Fault Refusal :=
  .next (referenceQualifiedStep source s)
def execReferenceLock (s : State) : Host.Outcome State Fault Refusal := .next (referenceLockStep s)
def execCoastEnd (s : State) : Host.Outcome State Fault Refusal := .next (coastEndStep s)
def execAcquireLock (s : State) : Host.Outcome State Fault Refusal := .next (acquireLockStep s)
def execRampEnd (s : State) : Host.Outcome State Fault Refusal := .next (rampEndStep s)
def execGateQuiesced (domain : Nat) (s : State) : Host.Outcome State Fault Refusal := .next (gateQuiescedStep domain s)
def execGateTimeout (domain : Nat) (s : State) : Host.Outcome State Fault Refusal := .next (gateTimeoutStep domain s)
def execPowerWakeDone (domain : Nat) (s : State) : Host.Outcome State Fault Refusal := .next (powerWakeDoneStep domain s)
def execDeepSleepEntered (domain : Nat) (s : State) : Host.Outcome State Fault Refusal := .next (deepSleepEnteredStep domain s)
def execAutoDeepSleep (block : Nat) (s : State) : Host.Outcome State Fault Refusal := .next (autoDeepSleepStep block s)

end Sys2Proof.Machine
end

