-- ==== Sys2Proof/Machine/Ports.lean ====
section
/-! DEFINITION. The Ethernet ports: links, partitions, shutters, preemption, pauses and pairs, and the port commands (R60 to
R105, R604 to R607). Reception is in Machine/FrameRx.lean. -/

namespace Sys2Proof.Machine

/-! ## Pairs and where frames wait -/

/-- The port under which frames for port `i` wait at their sources: the lower member of its pair (R94, R96). -/
def State.egressKey (s : State) (i : Nat) : Nat := if (s.pair (i / 2)).joined then i / 2 * 2 else i

/-- The port that sends what waits for port `i`: the active member of its pair (R95, R97). -/
def State.senderOf (s : State) (i : Nat) : Option Nat :=
  let p := s.pair (i / 2)
  if p.joined then p.active else some i

/-- The MAC address of port `i`: as set, else the fused base plus the port number; a pair has its lower port's (R67,
R94). -/
def State.macOf (s : State) (i : Nat) : Nat :=
  let k := s.egressKey i
  match (s.port k).mac with | some m => m | none => (s.life.macBase + k) % 2 ^ 48

/-- A frame that waits at Damium for port `i` or its pair. -/
def State.queueFrame (s : State) (i : Nat) (f : EgFrame) : State :=
  s.modPort (s.egressKey i) (fun p => { p with waiting := p.waiting ++ [f] })

/-- A PAIR notice: CAUSE 0 FORMED, 1 FAILOVER, 2 REVERT, 3 DOWN, 4 UP, 5 DISSOLVED. -/
def State.pairNotice (s : State) (i : Nat) (active : Option Nat) (cause : Nat) : State :=
  s.notify .port 0x0F10 5 (2 * i) [beBytes 4 (active.getD noneValue), beBytes 1 cause]

/-- A LINK notice: STATE 0 DOWN, 1 UP; CAUSE 0 to 3 the conditions of R63, 4 DISABLED, 5 MODE_CHANGE. -/
def State.linkNotice (s : State) (i state cause : Nat) : State :=
  s.notify .port 0x0F0F 5 i [beBytes 1 state, beBytes 1 cause]

/-- Whether the MAC and PCS of port `i` have their clocks (R485): a frame for a stopped one stays at its source. -/
def State.macRuns (s : State) (i : Nat) : Bool := s.clockRuns (68 + i) && s.clockRuns (76 + i)

/-! ## Partitions (R64, R65) -/

/-- The bytes of a class that a port's buffer holds: those queued, and the frame committed, in flight or held. -/
def Port.held (p : Port) (media : Bool) : Nat :=
  (((if media then p.media else p.bulk).map (·.length)).sum) +
  (((p.committed ++ p.flight.toList ++ p.remainder.toList).filter (fun f => f.frame.media == media)).map
    (fun f => f.frame.length)).sum

/-- The partition of a class in bytes: 128 KiB and 384 KiB. -/
def partitionSize (media : Bool) : Nat := if media then 131072 else 393216

def Port.roomFor (p : Port) (f : EgFrame) : Bool := decide (p.held f.media + f.length ≤ partitionSize f.media)

/-- Media frames at the head of the queue that fit no open interval are discarded (R77, R124). -/
def State.dropTooLong (s : State) (i : Nat) : State :=
  let p := s.port i
  let gone := p.media.takeWhile (fun f => (p.asOf f).tooLong f)
  let s1 := s.setPort i ({ p with media := p.media.drop gone.length,
                                  counts := countAdd p.counts PortCount.mediaGateOversize.ctorIdx gone.length }).guardEnds
  gone.foldl (fun s f => s.discardEntry i f) s1

/-- A media frame become eligible cuts the bulk frame in flight (R85). -/
def State.cutForMedia (s : State) (i : Nat) : State :=
  let p := s.port i
  match p.media with
  | [] => s
  | f :: _ => if (p.asOf f).mediaFits f s.count10 then s.setPort i (p.requestCut s.now10) else s

/-- A frame put into its partition, under the settings now in force (R104). -/
def State.acceptFrame (s : State) (i : Nat) (f : EgFrame) : State :=
  let s1 := s.modPort i (fun p =>
    let g := { f with rules := some p.rules }
    if f.media then { p with media := p.media ++ [g] } else { p with bulk := p.bulk ++ [g] })
  if f.media then (s1.dropTooLong i).cutForMedia i else s1

/-- Where the frames that wait for a port are: a region's egress queue, Damium, or the datagrams of Fylos (R65). -/
def datagramLength (d : Datagram) : Nat :=
  max 64 ((if d.addr.length = 16 then 62 else 42) + 32 + tlvsSize d.part.tlvs + (if d.part.tagged then 16 else 0) + 4)

/-- The first datagram that port `i` may send. -/
def State.nextDatagram (s : State) (i : Nat) : Option (Datagram × List Datagram) :=
  let mine := fun (d : Datagram) => match d.egress with
    | some e => s.senderOf e == some i
    | none => s.lowestUp == some i
  match s.fylos.udpOut.find? mine with
  | some d => some (d, s.fylos.udpOut.erase d)
  | none => none

/-- The first frame of Damium's that its partition has room for, media before bulk. -/
def Port.nextWaiting (p i : Port) : Option EgFrame :=
  match (i.waiting.find? (·.media)), (i.waiting.find? (fun f => !f.media)) with
  | some f, some g => if p.roomFor f then some f else if p.roomFor g then some g else none
  | some f, none => if p.roomFor f then some f else none
  | none, some g => if p.roomFor g then some g else none
  | none, none => none

/-- A forwarded message does not leave by the port it came in by (R101): one that has come to wait for it is dropped. -/
def Port.withoutOwn (w : Port) (i : Nat) : Port := { w with waiting := w.waiting.filter (fun f => f.entered != some i) }

/-- Damium's frame whose turn it is enters the partition once it has room. -/
def State.acceptWaiting (s : State) (i : Nat) : State :=
  let k := s.egressKey i
  match (s.port i).nextWaiting (s.port k) with
  | none => s
  | some f => (s.modPort k (fun p => { p with waiting := p.waiting.erase f })).acceptFrame i f

/-- A PTP frame with its transmit descriptor waits for port `i` (R118): from PTP_SEND, or from Damium's PTP engine (R128). -/
def State.queuePtp (s : State) (i : Nat) (f : List Byte) (tsReq oneStep : Bool) (id : Nat) : State :=
  s.queueFrame i { media := true, length := f.length + 4, content := .ptp f, tsReq := tsReq, oneStep := oneStep, frameId := id }

/-- Whether a frame is a Sync message, the one type that may ask for ONE_STEP (R118). -/
def isSync (f : List Byte) : Bool := match ptpOffset f with | some o => ptpType f o == 0 | none => false

/-- EGRESS_PARTITION_ACCEPT of port `i` (R65): the frame at the head of a source enters the partition once it has room. -/
def egressPartitionAcceptStep (i : Nat) (src : EgSource) (s : State) : State :=
  if s.senderOf i ≠ some i ∨ ¬ s.macRuns i then s
  else
    let k := s.egressKey i
    let s0 := (s.modPort i (fun p => p.settle s.now10)).modPort k (fun w => w.withoutOwn i)
    match src with
    | .region r =>
      match tabGet (s0.region r).egress k [] with
      | [] => s0
      | f :: l =>
        if (s0.port i).roomFor f then
          (s0.modRegion r (fun g => { g with egress := tabSet g.egress k l [] })).acceptFrame i f
        else s0
    | .damium => s0.acceptWaiting i
    | .ptpEngine f tsReq oneStep id =>
      if s.time.hostOwner ∨ s0.frameLimit i < f.length + 4 ∨ (oneStep ∧ ¬ isSync f) then s0
      else (s0.queuePtp i f tsReq oneStep id).acceptWaiting i
    | .fylos =>
      match s0.nextDatagram i with
      | none => s0
      | some (d, l) =>
        let f : EgFrame := { media := false, length := datagramLength d, content := .fylos d }
        if (s0.port i).roomFor f then
          (({ s0 with fylos := { s0.fylos with udpOut := l } }.acceptFrame i f).fenceLeft d.part.fence)
        else s0

/-! ## FRAME_COMMIT and FRAME_SFD_TX (R76, R85, R607, R118 to R121) -/

/-- A frame committed behind those committed before it, with its egress time fixed where it needs one (R120, R607). -/
def State.commitFrame (s : State) (i : Nat) (variable_ : Nat) (f : EgFrame) (from_ : Nat) : State :=
  let p := s.port i
  let ahead := s.commitAhead
  let at_ := (s.counter48 : Int) + s.time.advance s.slews (ahead * oneNs / 100) + p.txCorrection variable_
  let fixed := if timeFixed f then
      fixedContent s.time.corr (stampAt at_ s.time.epoch.toNat) (poweredStamp (s.now10 + ahead) (p.txCorrection variable_)) f
    else none
  s.setPort i { p with committed := p.committed ++ [{ frame := f, from_ := from_, sfdAt := s.now10 + ahead, fixed := fixed }],
                       headWaits := if f.media then false else p.headWaits }

/-- The frame of port `i` that a commitment in this cycle would start, if any (R71, R76, R87, R92). -/
inductive Start
  | nothing | media (f : EgFrame) | cut | rest (f : InFlight) | bulk (f : EgFrame)
  deriving DecidableEq, Repr

/-- What may start at the instant that a commitment now places (R607): media as R76 has it, else a remainder or a bulk frame as
R71 and R87 have it. -/
def State.startOf (s : State) (p : Port) : Start :=
  let lead := s.commitAhead - preambleBytes * p.mode.byteTime
  let t := s.count10 + lead
  let free := decide (p.lineEnd + gapBytes * p.mode.byteTime ≤ s.now10 + lead)
  let ready := match p.media with
    | [] => false
    | f :: _ => (p.asOf f).mediaFits f t && !(timeFixed f && s.time.steps != [])
  let mayStart := fun (f : EgFrame) => !(p.asOf f).bulkPaused && !p.holdAt s.count10 t f
  match p.media, ready, free with
  | f :: _, true, true => .media f
  | _, true, false => .cut
  | _, _, true =>
    match p.remainder, p.bulk with
    | some r, _ => if mayStart r.frame then .rest r else .nothing
    | none, f :: _ => if mayStart f then .bulk f else .nothing
    | none, [] => .nothing
  | _, _, false => .nothing

/-- FRAME_COMMIT of port `i`. The variable part of its egress correction is measured by the PCS. -/
def frameCommitStep (i variable_ : Nat) (s : State) : State :=
  let s1 := (s.modPort i (fun p => p.settle s.now10)).dropTooLong i
  let p := s1.port i
  if ¬ p.up ∨ s1.senderOf i ≠ some i ∨ ¬ s1.macRuns i then s1
  else
    match s1.startOf p with
    | .nothing => s1
    | .cut => s1.setPort i (p.requestCut s.now10)
    | .media f => (s1.setPort i ({ p with media := p.media.drop 1 }).guardEnds).commitFrame i variable_ f 0
    | .rest r => (s1.setPort i { p with remainder := none }).commitFrame i variable_ r.frame r.from_
    | .bulk f => (s1.setPort i { p with bulk := p.bulk.drop 1 }).commitFrame i variable_ f 0

/-- FRAME_SFD_TX of port `i`: the first committed frame is in transmission, and its stamp is recorded (R113, R121). -/
def frameSfdTxStep (i variable_ : Nat) (s : State) : State :=
  let p := (s.port i).settle s.now10
  match p.committed, p.flight with
  | f :: l, none =>
    let at_ := (s.counter48 : Int) + p.txCorrection variable_
    let t := counterAt {} at_
    let q := { p with committed := l, flight := some { f with sfdAt := s.now10 } }
    let s1 := s.setPort i (if f.from_ ≠ 0 then bumpPortCount q .fragmentsTx else q)
    if f.frame.tsReq ∧ f.from_ = 0 then
      s1.record i { kind := .stamp, epoch := s.time.epoch.toNat, frameId := f.frame.frameId, seconds := t.seconds,
                    ns := t.ns, frac := t.frac32 }
    else s1
  | _, _ => s.setPort i p

/-! ## Shutters (R73, R79, R80, R82) -/

/-- The gate brought to the state it has now: an opening notes whether a head frame waits, a closing counts one that did
not start, and ends the hold of R87. -/
def State.gateStep (s : State) (i : Nat) : State :=
  let p := s.port i
  let open_ := decide (p.gateAt s.count10 ≠ .closed)
  let entry := match p.operative with | some c => if p.stepHold then 0 else c.entryAt (c.placeOf s.count10) | none => 0
  let q := { p with entry := entry }
  if open_ = p.gateOpen then s.setPort i q
  else if open_ then
    let started := p.committed.any (fun f => f.frame.media)
    ((s.setPort i { q with gateOpen := true, headWaits := p.media != [] && !started }).dropTooLong i).cutForMedia i
  else
    let q1 := { q with gateOpen := false, guard := false, headWaits := false }
    s.setPort i (if p.headWaits then bumpPortCount q1 .mediaOpeningMissed else q1)

/-- SHUTTER_INTERVAL of port `i`: an interval begins. -/
def shutterIntervalStep (i : Nat) (s : State) : State :=
  (s.modPort i (fun p => p.settle s.now10)).gateStep i

/-- Whether a pending schedule's first boundary has come (R80, R82). -/
def PendSchedule.due (k : PendSchedule) (t : Int) : Bool :=
  decide (k.notBefore ≤ k.schedule.lastBoundary t ∧ k.schedule.base10 ≤ k.schedule.lastBoundary t)

/-- SHUTTER_CYCLE_BOUNDARY of port `i`: a pending schedule whose boundary this is replaces the running one, and its command
completes; a boundary of the running schedule ends the hold of a step. -/
def shutterCycleBoundaryStep (i : Nat) (s : State) : State :=
  let p := (s.port i).settle s.now10
  let t := s.count10
  match p.pendingSchedule with
  | some k =>
    if k.due t then
      let s1 := (s.setPort i { p with schedule := some k.schedule, pendingSchedule := none, stepHold := false }).gateStep i
      s1.complete k.ref stOk []
    else (s.setPort i (match p.schedule with
      | some c => if p.holdFrom ≤ c.lastBoundary t then { p with stepHold := false } else p
      | none => p)).gateStep i
  | none => (s.setPort i (match p.schedule with
      | some c => if p.holdFrom ≤ c.lastBoundary t then { p with stepHold := false } else p
      | none => p)).gateStep i

/-- GUARD_BAND_START of port `i`: the gate is closed, opens within G, and media that is not paused is queued (R87, R93). -/
def guardBandStartStep (i : Nat) (s : State) : State :=
  let p := (s.port i).settle s.now10
  match p.media with
  | [] => s.setPort i p
  | f :: _ =>
    let q := p.asOf f
    if q.mediaPaused ∨ ¬ within (q.opensIn s.count10) (p.guardNs * 100) then s.setPort i p
    else s.setPort i { p.requestCut s.now10 with guard := true }

/-! ## Pauses (R90, R91) -/

/-- PAUSE_TIMER_EXPIRY of port `i`: the timer of a priority, or of PAUSE, has reached zero. -/
def pauseTimerExpiryStep (i : Nat) (prio : Option Nat) (s : State) : State :=
  match prio with
  | none => s.modPort i (fun p => if p.pauseTimer ≤ s.now10 then { p with pauseTimer := 0 } else p)
  | some k => s.modPort i (fun p =>
      if tabGet p.pfcTimers k 0 ≤ s.now10 then { p with pfcTimers := tabSet p.pfcTimers k 0 0 } else p)

/-! ## Preemption (R84) -/

/-- The verify exchange begun: preemption is inactive until it succeeds. -/
def Port.startVerify (p : Port) (powered : Nat) : Port :=
  { p.withoutCuts with preemptActive := false, verifyAttempts := 1, verifying := some powered }

/-- What PREEMPT asks for at link-up or when it is changed while the link is up. -/
def Port.applyPreempt (p : Port) (powered : Nat) : Port :=
  if p.preempt = 0 then
    { p.withoutCuts with preemptActive := false, verifying := none, verifyAttempts := 0, reassembly := none, fragmentDue := false }
  else if p.preempt = 2 then { p with preemptActive := true, verifying := none, verifyAttempts := 0 }
  else p.startVerify powered

def verifyResponseStep (i : Nat) (s : State) : State :=
  s.modPort i (fun p => if p.verifying.isSome then { p with preemptActive := true, verifying := none } else p)

/-- VERIFY_TIMEOUT of port `i`: 10 ms without a response. -/
def verifyTimeoutStep (i : Nat) (s : State) : State :=
  s.modPort i (fun p =>
    match p.verifying with
    | none => p
    | some t =>
      if s.time.powered < t + 10000000 then p
      else if p.verifyAttempts < 3 then { p with verifyAttempts := p.verifyAttempts + 1, verifying := some s.time.powered }
      else bumpPortCount { p with verifying := none } .verifyFailed)

/-! ## Links (R63, R604) and failover (R96 to R98) -/

/-- PCS_CONDITION_LOST: a condition fails. -/
def pcsConditionLostStep (i : Nat) (c : PcsCondition) (s : State) : State :=
  s.modPort i (fun p =>
    if p.mode = .disabled ∨ p.failed.any (fun e => e.1 == c) ∨ (c = .fecLock ∧ ¬ p.mode.fec) then p
    else { p with failed := p.failed ++ [(c, s.time.powered)] })

/-- The condition that LINK names for UP: the last regained, and among those of one cycle the first in order (R63). -/
def latestRegained (old : Option (PcsCondition × Nat)) (c : PcsCondition) (now : Nat) : PcsCondition × Nat :=
  match old with
  | some (d, t) => if t = now ∧ d.ctorIdx ≤ c.ctorIdx then (d, t) else (c, now)
  | none => (c, now)

/-- PCS_CONDITION_REGAINED: a failed condition holds again; a shorter interruption of a link that is up is counted. -/
def pcsConditionRegainedStep (i : Nat) (c : PcsCondition) (s : State) : State :=
  s.modPort i (fun p =>
    if p.failed.any (fun e => e.1 == c) then
      let rest := p.failed.filter (fun e => e.1 != c)
      let q := { p with failed := rest, regained := some (latestRegained p.regained c s.time.powered) }
      if rest = [] ∧ p.up then bumpPortCount q .rxPcsInterrupt else q
    else p)

/-- Frames committed and not begun, back at the head of their partitions as they were (R604). -/
def Port.takeBack (p : Port) (l : List InFlight) : Port :=
  let whole := fun (m : Bool) => (l.filter (fun f => f.from_ == 0 && f.frame.media == m)).map (·.frame)
  { p with media := whole true ++ p.media, bulk := whole false ++ p.bulk }

/-- The frames of a port that has gone down: those in transmission are aborted, a held remainder goes, and frames
committed but not begun stay in their partitions (R604). -/
def State.abortPort (s : State) (i : Nat) : State :=
  let p := (s.port i).settle s.now10
  let lead := preambleBytes * p.mode.byteTime
  let begun := p.committed.filter (fun f => decide (f.sfdAt ≤ s.now10 + lead))
  let back := p.committed.filter (fun f => !decide (f.sfdAt ≤ s.now10 + lead))
  let gone := p.flight.toList ++ p.remainder.toList ++ begun ++ back.filter (fun f => f.from_ != 0)
  let q := { p with flight := none, remainder := none, committed := [], up := false, preemptActive := false,
                    verifying := none, verifyAttempts := 0, guard := false,
                    counts := countAdd p.counts PortCount.txAborted.ctorIdx gone.length }
  (begun.filter (fun f => f.from_ == 0)).foldl (fun s f => s.discardEntry i f.frame) (s.setPort i (q.takeBack back))

/-- The frames left in the old member's egress buffer discarded (R96 step 1, R124). -/
def State.discardEgress (s : State) (i : Nat) : State :=
  let p := s.port i
  let l := p.media ++ p.bulk
  let s1 := s.setPort i { p with media := [], bulk := [], guard := false,
                                 counts := countAdd p.counts PortCount.failoverDiscard.ctorIdx l.length }
  l.foldl (fun s f => s.discardEntry i f) s1

/-- The length of an announcement: a gratuitous ARP, or a neighbour advertisement. -/
def announcementLength (a : List Byte) : Nat := if a.length = 4 then 64 else 90

/-- The switch of a pair to member `dst` (R96). -/
def State.switchPair (s : State) (i from_ dst cause : Nat) : State :=
  let s1 := s.discardEgress from_
  let s2 := { s1 with pairs := tabSet s1.pairs i { s1.pair i with active := some dst } {} }
  let s3 := (Config.ownAddresses (2 * i)).foldl (fun s a =>
    s.queueFrame dst { media := true, length := announcementLength a, content := .announcement a }) s2
  s3.pairNotice i (some dst) cause

/-- The pair of a member that has gone down (R96, R97). -/
def State.pairDown (s : State) (i : Nat) : State :=
  let k := i / 2
  let p := s.pair k
  if ¬ p.joined ∨ p.active ≠ some i then s
  else
    let other := i / 2 * 2 + (1 - i % 2)
    if (s.port other).up then s.switchPair k i other 1
    else (s.setPair k { p with active := none }).pairNotice k none 3

/-- A link taken down, with its cause: a condition lost is logged (Table 20.5), and the port's recovered clock trips
(R471). -/
def State.takeDown (s : State) (i cause : Nat) : State :=
  let s1 := s.abortPort i
  let s2 := (s1.bumpPort i .linkDown).linkNotice i 0 cause
  let paired := (s.pair (i / 2)).joined && (s.pair (i / 2)).active == some i &&
    (s.port (i / 2 * 2 + (1 - i % 2))).up
  let s3 := if 4 ≤ cause then s2
    else s2.logError (if paired then 0x31 else 0x32) 4 (if paired then 5 else 9) i 0xFFFF 0 6 0
  (s3.pairDown i).tripSource (3 + i)

/-- LINK_DOWN: a condition has failed for 100 µs (R63). -/
def linkDownStep (i : Nat) (s : State) : State :=
  let p := s.port i
  match p.failed with
  | [] => s
  | (c, t) :: _ => if p.up ∧ t + 100000 ≤ s.time.powered then s.takeDown i c.ctorIdx else s

/-- The pair of a member that has come up (R97): it becomes active where the pair was down. -/
def State.pairUp (s : State) (i : Nat) : State :=
  let k := i / 2
  let p := s.pair k
  if p.joined ∧ p.active = none then (s.setPair k { p with active := some i }).pairNotice k (some i) 4 else s

/-- LINK_UP: every condition has held for 100 µs (R63). -/
def linkUpStep (i : Nat) (s : State) : State :=
  let p := s.port i
  match p.regained with
  | none => s
  | some (c, t) =>
    if p.up ∨ p.mode = .disabled ∨ p.failed ≠ [] ∨ s.time.powered < t + 100000 then s
    else
      let q := { p with up := true, upSince := s.time.powered }.applyPreempt s.time.powered
      ((s.setPort i q).linkNotice i 1 c.ctorIdx).pairUp i

/-- REVERT_HOLD_EXPIRY of pair `k` (R98). -/
def revertHoldExpiryStep (k : Nat) (s : State) : State :=
  let p := s.pair k
  let low := s.port (2 * k)
  if p.joined ∧ p.revert ∧ low.up ∧ p.active = some (2 * k + 1) ∧ low.upSince + p.revertHold ≤ s.time.powered then
    s.switchPair k (2 * k + 1) (2 * k) 2
  else s

/-! ## PORT_CONFIG (R104) -/

def portModeOf (n : Nat) : PortMode :=
  if n = 1 then .g25 else if n = 2 then .g25rs else if n = 3 then .g10 else if n = 4 then .g10fec else .disabled

/-- The conditions that do not hold as a port begins in a mode. -/
def startConditions (m : PortMode) (now : Nat) : List (PcsCondition × Nat) :=
  if m = .disabled then [] else if m.fec then [(.blockLock, now), (.fecLock, now)] else [(.blockLock, now)]

/-- A port's settings but MODE as a command leaves them. -/
def portWith (l : List Param) (p : Port) : Port :=
  { p with
    mac := match paramNat? l 2 with | some m => some m | none => p.mac,
    maxFrame := paramNat l 3 p.maxFrame, shutters := (match paramNat? l 4 with | some n => n == 1 | none => p.shutters),
    preempt := paramNat l 5 p.preempt, flowCtrl := paramNat l 6 p.flowCtrl, bulkPfcMask := paramNat l 7 p.bulkPfcMask,
    mediaPcp := paramNat l 8 p.mediaPcp, mediaPfc := paramFlag l 9 p.mediaPfc, ptpTc := paramFlag l 10 p.ptpTc }

/-- A change of mode takes the link down and starts link-up anew (R63, R104). -/
def State.changeMode (s : State) (i : Nat) (m : PortMode) : State :=
  let s1 := if (s.port i).up then s.takeDown i (if m = .disabled then 4 else 5) else s
  s1.modPort i (fun p => { p with mode := m, failed := startConditions m s.time.powered, regained := none })

/-- PORT_CONFIG: the values first (R403), then the states. A member of a pair can be set DISABLED, which fails over at once
(R96); any other change of its mode is refused (R99; log entry 82). -/
def portConfigBody : Body := fun x s =>
  let i := x.id
  let p := (s.port i).settle s.now10
  let q := portWith x.params p
  let mode := match paramNat? x.params 1 with | some n => portModeOf n | none => p.mode
  if (fieldAt ((paramBytes? x.params 2).getD [0]) 0 1) % 2 = 1 then refuseParam x stOutOfRange 2
  else if q.bulkPfcMask.testBit q.mediaPcp then
    refuseParam x stOutOfRange (if paramHas x.params 7 then 7 else 8)
  else if mode ≠ p.mode ∧ mode ≠ .disabled ∧ (s.pair (i / 2)).joined then .refuse stWrongState []
  else if mode ≠ p.mode ∧ mode ≠ .disabled ∧ (s.powerDomain (56 + i)).mode ≠ .run then .refuse stWrongState []
  else
    let q1 := if q.preempt ≠ p.preempt ∧ p.up then q.applyPreempt s.time.powered else q
    let s1 := s.setPort i q1
    let s2 := if mode ≠ p.mode then s1.changeMode i mode else s1
    .done stOk [] ((s2.gateStep i).dropTooLong i)

/-! ## SHUTTER_LOAD, SHUTTER_QUERY (R74, R80, R81, R451) -/

/-- The entries of a LIST; RSVD [30:29] is ignored and reads as 0 (R15, R72; log entry 83). -/
def listWords : Nat → List Byte → List Word
  | 0, _ => []
  | fuel + 1, l => if l = [] then [] else (BitVec.ofNat 32 (beNat (l.take 4)) &&& 0x9FFFFFFF#32) :: listWords fuel (l.drop 4)

/-- Why a schedule is refused: the parameter at fault (R72, R74). -/
def scheduleFault (c : Schedule) (bytes : Nat) : Option Nat :=
  if c.cycle < 62500 ∨ 500000000 < c.cycle then some 0x40
  else if c.baseNs % 2 = 1 ∨ 999999998 < c.baseNs then some 0x42
  else if bytes % 4 ≠ 0 ∨ c.list.length = 0 ∨ 256 < c.list.length then some 0x43
  else if c.list.any (fun w => decide (entryInterval w = 0 ∨ 500000000 < entryInterval w)) then some 0x43
  else if ¬ c.segments.any (fun e => e.1) then some 0x43
  else none

def shutterLoadBody : Body := fun x s =>
  let bytes := (paramBytes? x.params 0x43).getD []
  let c : Schedule := { cycle := paramNat x.params 0x40 0, baseSeconds := paramNat x.params 0x41 0,
                        baseNs := paramNat x.params 0x42 0, list := listWords 16384 bytes }
  match scheduleFault c bytes.length with
  | some t => refuseParam x stBadShutterList t
  | none =>
    let p := s.port x.id
    let s1 := match p.pendingSchedule with
      | some k => (s.bumpPort x.id .shutterReplaced).complete k.ref stShutterReplaced []
      | none => s
    .accepted (s1.modPort x.id (fun p => { p with
      pendingSchedule := some { schedule := c, ref := x.ref, notBefore := s.count10 } }))

def scheduleTlvs (c : Schedule) : List Tlv :=
  [rep 0x40 4 c.cycle, rep 0x41 8 c.baseSeconds, rep 0x42 4 c.baseNs,
   { typ := 0x43, val := (c.list.map (fun w => beBytes 4 w.toNat)).flatten }]

/-- NEXT_BOUNDARY of the running schedule. -/
def State.nextBoundary (s : State) (c : Schedule) : Nat :=
  ((c.lastBoundary s.count10 + c.cycle10) / 100).toNat

/-- What SHUTTER_QUERY reports of port `i`: the running schedule, the guard band, the pending schedule (R451). -/
def State.shutterTlvs (s : State) (i : Nat) : List Tlv :=
  let p := s.port i
  let run := match p.schedule with
    | some c =>
      let n := s.nextBoundary c
      scheduleTlvs c ++ [{ typ := 0x400, val := beBytes 8 (n / 1000000000) ++ beBytes 4 (n % 1000000000) }]
    | none => []
  let guard := if p.mode = .disabled then [] else [rep 0x401 4 p.guardNs]
  let pend := match p.pendingSchedule with
    | some k => instanceTlv 11 (0x80 + i) :: scheduleTlvs k.schedule
    | none => []
  run ++ guard ++ pend

def shutterQueryBody : Body := fun x s => .done stOk (s.shutterTlvs x.id) s

/-! ## PORT_PAIR, PORT_COUNTERS, PTP_SEND -/

def portPairBody : Body := fun x s =>
  let i := x.id
  let k := i / 2
  if i % 2 = 1 then .refuse stBadTarget []
  else
    let p := s.pair k
    let join := paramFlag x.params 0x40 false
    let q := { p with joined := join, revert := paramFlag x.params 0x41 p.revert,
                      revertHold := paramNat x.params 0x42 p.revertHold }
    if ¬ join then
      if p.joined then .done stOk [] ((s.setPair k {}).pairNotice k none 5) else .done stNoChange [] s
    else if (s.port i).mode ≠ (s.port (i + 1)).mode then refuseParam x stPairModeMismatch 0x40
    else if p.joined then (if q = p then .done stNoChange [] s else .done stOk [] (s.setPair k q))
    else
      let active := if (s.port i).up then some i else if (s.port (i + 1)).up then some (i + 1) else none
      .done stOk [] ((s.setPair k { q with active := active }).pairNotice k active 0)

def portCountersBody : Body := fun x s =>
  let p := (s.port x.id).settle s.now10
  .done stOk (counterTlvs 0x800 26 p.counts ++ [rep 0x400 1 (boolNat p.up)])
    (s.setPort x.id (if x.clear then { p with counts := [] } else p))

def ptpSendBody : Body := fun x s =>
  let f := (paramBytes? x.params 0x40).getD []
  let one := paramFlag x.params 0x42 false
  if s.frameLimit x.id < f.length + 4 then refuseParam x stOutOfRange 0x40
  else if ¬ s.time.hostOwner then .refuse stWrongState []
  else if one ∧ ¬ isSync f then refuseParam x stOutOfRange 0x42
  else
    .done stOk [] (s.queuePtp x.id f (paramFlag x.params 0x41 false) one (paramNat x.params 0x43 0))

/-! ## The meanings -/

def execPortConfig (p : Packet) (s : State) : Host.Outcome State Fault Refusal := .next (fylosRun 0x0A01 portConfigBody p s)
def execShutterLoad (p : Packet) (s : State) : Host.Outcome State Fault Refusal :=
  .next (fylosRun 0x0A02 shutterLoadBody p s)
def execShutterQuery (p : Packet) (s : State) : Host.Outcome State Fault Refusal :=
  .next (fylosRun 0x0A03 shutterQueryBody p s)
def execPortPair (p : Packet) (s : State) : Host.Outcome State Fault Refusal := .next (fylosRun 0x0A04 portPairBody p s)
def execPortCounters (p : Packet) (s : State) : Host.Outcome State Fault Refusal :=
  .next (fylosRun 0x0A05 portCountersBody p s)
def execPtpSend (p : Packet) (s : State) : Host.Outcome State Fault Refusal := .next (fylosRun 0x0908 ptpSendBody p s)
def execEgressPartitionAccept (port : Nat) (src : EgSource) (s : State) : Host.Outcome State Fault Refusal :=
  .next (egressPartitionAcceptStep port src s)
def execFrameCommit (port vary : Nat) (s : State) : Host.Outcome State Fault Refusal :=
  .next (frameCommitStep port vary s)
def execFrameSfdTx (port vary : Nat) (s : State) : Host.Outcome State Fault Refusal :=
  .next (frameSfdTxStep port vary s)
def execShutterInterval (port : Nat) (s : State) : Host.Outcome State Fault Refusal := .next (shutterIntervalStep port s)
def execShutterCycleBoundary (port : Nat) (s : State) : Host.Outcome State Fault Refusal :=
  .next (shutterCycleBoundaryStep port s)
def execGuardBandStart (port : Nat) (s : State) : Host.Outcome State Fault Refusal := .next (guardBandStartStep port s)
def execPauseTimerExpiry (port : Nat) (prio : Option Nat) (s : State) : Host.Outcome State Fault Refusal :=
  .next (pauseTimerExpiryStep port prio s)
def execVerifyResponse (port : Nat) (s : State) : Host.Outcome State Fault Refusal := .next (verifyResponseStep port s)
def execVerifyTimeout (port : Nat) (s : State) : Host.Outcome State Fault Refusal := .next (verifyTimeoutStep port s)
def execPcsConditionLost (port : Nat) (cond : PcsCondition) (s : State) : Host.Outcome State Fault Refusal :=
  .next (pcsConditionLostStep port cond s)
def execPcsConditionRegained (port : Nat) (cond : PcsCondition) (s : State) : Host.Outcome State Fault Refusal :=
  .next (pcsConditionRegainedStep port cond s)
def execLinkDown (port : Nat) (s : State) : Host.Outcome State Fault Refusal := .next (linkDownStep port s)
def execLinkUp (port : Nat) (s : State) : Host.Outcome State Fault Refusal := .next (linkUpStep port s)
def execRevertHoldExpiry (pair : Nat) (s : State) : Host.Outcome State Fault Refusal := .next (revertHoldExpiryStep pair s)

end Sys2Proof.Machine
end

