-- ==== Sys2Proof/Machine/PacketEngine.lean ====
section
/-! DEFINITION. The flow, SRTP and template commands and the egress side of the packet engine (R141 to R144, R152 to R154,
R163 to R168). -/

namespace Sys2Proof.Machine

/-! ## Flow changes (R142, R143) -/

def flowActionOf (n : Nat) : FlowAction :=
  if n = 0 then .rtp else if n = 1 then .rtcp else if n = 2 then .mux else if n = 3 then .udptl else if n = 4 then .drop
  else .host

/-- The settings of a held entry. -/
def flowSettingsOf (e : FlowEntry) : FlowSettings :=
  { key := e.key, id := e.id, device := e.device, channel := e.channel, leg := e.leg, action := e.action.ctorIdx,
    srtp := e.srtp, latch := e.latch }

/-- A new entry. -/
def flowEntryOf (f : FlowSettings) : FlowEntry :=
  { key := f.key, id := f.id, device := f.device, channel := f.channel, leg := f.leg, action := flowActionOf f.action,
    srtp := f.srtp, latch := f.latch, counts := [] }

/-- Result settings given over those of `o`, in the types of Table 5.2. -/
def flowWith (l : List Param) (o : FlowSettings) : FlowSettings :=
  { o with
    id := paramNat l 1 o.id, device := paramNat l 2 o.device, channel := paramNat l 3 o.channel, leg := paramNat l 4 o.leg,
    action := paramNat l 5 o.action, srtp := (match paramNat? l 6 with | some v => srtpOf v | none => o.srtp),
    latch := paramFlag l 7 o.latch }

def keyLocal (k : List Byte) : Bool := (fieldAt k 0 1).testBit 7
def keyIpv6 (k : List Byte) : Bool := (fieldAt k 0 1).testBit 6
def keyVlan (k : List Byte) : Bool := (fieldAt k 0 1).testBit 5
def keyPort (k : List Byte) : Nat := fieldAt k 0x26 2

/-- A key that breaks Table 5.1 (R142 item 1). -/
def badKey (k : List Byte) (udpPort : Nat) : Bool :=
  fieldAt k 0 1 % 32 != 0 || fieldAt k 1 1 != 17 || fieldAt k 2 1 / 16 != 0 ||
  (keyLocal k && !(allZero (slice k 0x04 16) && allZero (slice k 0x24 2))) ||
  (!keyVlan k && fieldAt k 2 2 != 0) ||
  (!keyIpv6 k && !(allZero (slice k 0x04 12) && allZero (slice k 0x14 12))) || keyPort k == udpPort

/-- Settings that agree with neither the key nor the action (R142 item 2): the parameter at fault. -/
def flowMismatch (f : FlowSettings) : Option Nat :=
  if f.latch ∧ ¬ keyLocal f.key then some 7 else if f.srtp.isSome ∧ 3 ≤ f.action then some 6 else none

/-- Whether the entry's channel is this device's (R142, R540). -/
def State.flowIsOwn (s : State) (f : FlowSettings) : Bool := f.device == s.stack.number

/-- Items 5 and 6 of R142: a stack makes them on the device that DEVICE names. -/
def State.flowContextFault (s : State) (f : FlowSettings) : Option (Nat × Nat) :=
  match f.srtp with
  | none => none
  | some i =>
    if s.stacked ∧ ¬ s.flowIsOwn f then none
    else
      match tabFind? s.flows.contexts i with
      | none => some (stSrtpCtxNotFound, 6)
      | some x => if x.transmit then some (stOutOfRange, 6) else none

/-- Items 5 to 7 of R142. -/
def State.flowChannelFault (s : State) (f : FlowSettings) : Option (Nat × Nat) :=
  match s.flowContextFault f with
  | some r => some r
  | none =>
    if ¬ s.flowIsOwn f then none
    else
      match (s.channel f.channel).state with
      | .migrating => some (stChannelMigrating, 0)
      | .faulted => some (stWrongState, 0)
      | .idle | .opened | .active | .hold | .draining => none

/-- The first check of R142 and R143 that a change fails, with the parameter at fault; FLOW_TABLE_FULL apart. -/
def State.flowRefusal (s : State) (c : FlowChange) : Option (Nat × Nat) :=
  match c with
  | .insert f =>
    if badKey f.key s.flows.udpPort then some (stBadKey, 0x40)
    else
      match flowMismatch f with
      | some t => some (stOutOfRange, t)
      | none =>
        if (flowById s.flows f.id).isSome then some (stFlowIdInUse, 0)
        else if (flowLookup s.flows f.key).isSome then some (stFlowExists, 0)
        else s.flowChannelFault f
  | .modify f =>
    if (flowById s.flows f.id).isNone then some (stFlowNotFound, 1)
    else
      match flowMismatch f with
      | some t => some (stOutOfRange, t)
      | none => s.flowChannelFault f
  | .remove id => if (flowById s.flows id).isNone then some (stFlowNotFound, 1) else none
  | .rehome id d =>
    match flowById s.flows id with
    | none => some (stFlowNotFound, 1)
    | some e => s.flowContextFault { flowSettingsOf e with device := d }

/-- The result settings of an entry replaced; its key, ID and counters stay. -/
def modifyEntry (f : FlowSettings) (e : FlowEntry) : FlowEntry :=
  { flowEntryOf f with key := e.key, id := e.id, counts := e.counts }

/-- A change applied to the table, and whether the table took it (R143, R149 to R151). -/
def applyChange (t : Flows) (c : FlowChange) : Flows × Bool :=
  match c with
  | .insert f => flowInsert t (flowEntryOf f)
  | .modify f => (flowUpdate t f.id (modifyEntry f), true)
  | .remove id => (flowRemove t id, true)
  | .rehome id d => (flowUpdate t id (fun e => { e with device := d }), true)

/-- What a change comes to on this device: a refusal, or OK. A failed walk of a refused insertion is counted (R150). -/
def State.changeVote (s : State) (c : FlowChange) : Nat × Nat :=
  match s.flowRefusal c with
  | some r => r
  | none => if (applyChange s.flows c).2 then (stOk, 0) else (stFlowTableFull, 0)

/-- The content of a change as a message carries it. -/
def changeContent (c : FlowChange) : List (List Byte) :=
  let settings := fun (f : FlowSettings) =>
    [f.key, beBytes 4 f.id, beBytes 1 f.device, beBytes 2 f.channel, beBytes 1 f.leg, beBytes 1 f.action,
     beBytes 4 (f.srtp.getD noneValue), beBytes 1 (boolNat f.latch)]
  match c with
  | .insert f => beBytes 1 0 :: settings f
  | .modify f => beBytes 1 1 :: settings f
  | .remove id => [beBytes 1 2, beBytes 4 id]
  | .rehome id d => [beBytes 1 3, beBytes 4 id, beBytes 1 d]

/-- A flow command: applied at once by a device alone; in a stack it is accepted and goes to the sequencer (R144, R540). -/
def State.flowCommand (s : State) (x : Ctx) (c : FlowChange) : Answer :=
  if s.stacked then
    let s1 := { s with stack := { s.stack with changes := s.stack.changes ++ [(some x.ref, c)] } }
    .accepted (if s.isFollower then s1.sendMessage s.stackRoot 0x11 (changeContent c) else s1)
  else
    match s.flowRefusal c with
    | some (st, t) => refuseFor x st [t]
    | none =>
      let r := applyChange s.flows c
      if r.2 then .done stOk [] { s with flows := r.1 } else .done stFlowTableFull [] { s with flows := r.1 }

/-- The settings an insertion starts from (Table 5.2): this device, RTP, no context, LATCH clear. -/
def State.newFlow (s : State) (key : List Byte) : FlowSettings :=
  { key := key, id := 0, device := s.stack.number, channel := 0, leg := 0, action := 0, srtp := none, latch := false }

def flowInsertBody : Body := fun x s =>
  s.flowCommand x (.insert (flowWith x.params (s.newFlow ((paramBytes? x.params 0x40).getD []))))

def flowRemoveBody : Body := fun x s => s.flowCommand x (.remove (paramNat x.params 1 0))

/-- FLOW_MODIFY: a setting it does not carry keeps its value. -/
def flowModifyBody : Body := fun x s =>
  let base := match flowById s.flows (paramNat x.params 1 0) with | some e => flowSettingsOf e | none => s.newFlow []
  s.flowCommand x (.modify (flowWith x.params base))

/-- What FLOW_QUERY reports of an entry (R445). -/
def State.flowTlvs (s : State) (e : FlowEntry) : List Tlv :=
  [rep 1 4 e.id, rep 2 4 e.device, rep 3 4 e.channel, rep 4 1 e.leg, rep 5 1 e.action.ctorIdx,
   rep 6 4 (e.srtp.getD noneValue), rep 7 1 (boolNat e.latch), { typ := 0x40, val := e.key },
   rep 0x400 1 (flowPlace s.flows e.id)] ++ counterTlvs 0x800 4 e.counts

def flowQueryBody : Body := fun x s =>
  let id := paramNat x.params 1 0
  match flowById s.flows id with
  | none => refuseParam x stFlowNotFound 1
  | some e =>
    .done stOk (s.flowTlvs e) (if x.clear then { s with flows := flowUpdate s.flows id (fun e => { e with counts := [] }) } else s)

/-! ## SRTP contexts (R152 to R154, R446) -/

/-- The master key and salt of a suite in bytes (Table 5.4). -/
def suiteSizes (suite : Nat) : Nat × Nat := if suite = 0 then (16, 14) else if suite = 1 then (16, 12) else (32, 12)

/-- The tag of a suite in bytes (Table 5.4). -/
def suiteTag (suite : Nat) : Nat := if suite = 0 then 10 else 16

/-- Whether a key value fits a suite: empty, or MKI, key and salt, with MKI bytes beyond MKI_LEN zero (R446). -/
def keyFits (suite mkiLen : Nat) (k : List Byte) : Bool :=
  k == [] || (k.length == 4 + (suiteSizes suite).1 + (suiteSizes suite).2 && allZero (k.take (4 - mkiLen)))

/-- A context before its first setting. -/
def newContext : SrtpCtx :=
  { transmit := false, suite := 0, key0 := [], key1 := [], mkiLen := 0, roc := 0, fixedSsrc := false, ssrc := 0,
    learned := false, srtcpEncrypt := true, txKey := 0, sl := 0, rtp := {}, rtcp := {}, srtcpIndex := 0, lastSeq := none,
    used := [], exhausted := [], initialRoc := 0, counts := [] }

/-- The counts of packets under a key, dropped where the key is replaced (R159): `2 k` SRTP and `2 k + 1` SRTCP. -/
def forgetKey (k : Nat) (c : SrtpCtx) : SrtpCtx :=
  { c with used := c.used.filter (fun e => e.1 / 2 ≠ k), exhausted := c.exhausted.filter (· ≠ k) }

/-- A context with settings given over those it has. -/
def contextWith (l : List Param) (o : SrtpCtx) : SrtpCtx :=
  let c1 := match paramBytes? l 3 with | some k => forgetKey 0 { o with key0 := k } | none => o
  let c2 := match paramBytes? l 4 with | some k => forgetKey 1 { c1 with key1 := k } | none => c1
  { c2 with
    transmit := (match paramNat? l 1 with | some v => v == 1 | none => o.transmit), suite := paramNat l 2 o.suite,
    mkiLen := paramNat l 5 o.mkiLen, fixedSsrc := (match paramNat? l 7 with | some v => v == 0 | none => o.fixedSsrc),
    ssrc := paramNat l 8 o.ssrc, srtcpEncrypt := paramFlag l 9 o.srtcpEncrypt, txKey := paramNat l 0x41 o.txKey }

/-- ROC, indices and windows discarded and loaded from the command (Table 5.5, RESET). -/
def contextFresh (l : List Param) (c : SrtpCtx) : SrtpCtx :=
  { c with roc := paramNat l 6 0, initialRoc := paramNat l 6 0, learned := false, sl := 0, rtp := {}, rtcp := {},
           srtcpIndex := 0, lastSeq := none }

/-- The egress records that stand: those of RTP legs, as accepted and as a run has applied them. -/
def State.egressRecords (s : State) : List Leg :=
  s.channels.flatMap (fun e => [e.2.legA, e.2.legB, e.2.runA, e.2.runB].filter (fun l => l.kind == .rtp))

/-- Whether a flow entry or an egress record names a context (R154): an entry names a context of the device its DEVICE names, for each
device has a pool of its own (R540; log entry 96). -/
def State.contextInUse (s : State) (i : Nat) : Bool :=
  (flowAll s.flows).any (fun e => e.srtp == some i && e.device == s.stack.number) ||
  s.egressRecords.any (fun l => l.txSrtp == some i)

/-- Why a context cannot have these settings (R152, R446, Table 5.5): the parameters that may be at fault. Only a TX context sends with
the key that TX_KEY names. -/
def State.contextFault (s : State) (i : Nat) (old : Option SrtpCtx) (c : SrtpCtx) : Option (List Nat) :=
  if ¬ keyFits c.suite c.mkiLen c.key0 then some [3, 2, 5]
  else if ¬ keyFits c.suite c.mkiLen c.key1 then some [4, 2, 5]
  else if c.key0 = [] ∧ c.key1 = [] then some [3, 4]
  else if c.mkiLen = 0 ∧ c.key0 ≠ [] ∧ c.key1 ≠ [] then some [4, 3, 5]
  else if c.transmit ∧ (if c.txKey = 0 then c.key0 else c.key1) = [] then some [0x41, 3, 4]
  else
    match old with
    | some o => if o.transmit ≠ c.transmit ∧ s.contextInUse i then some [1] else none
    | none => none

def srtpSetBody : Body := fun x s =>
  let i := paramNat x.params 0x40 0
  let old := tabFind? s.flows.contexts i
  match (if old.isNone then [1, 2, 3].find? (fun t => !paramHas x.params t) else none) with
  | some t => refuseMissing x t
  | none =>
    let c := contextWith x.params (old.getD newContext)
    match s.contextFault i old c with
    | some t => refuseParam x stOutOfRange (blamed x t)
    | none =>
      let d := if old.isNone ∨ paramFlag x.params 10 false then contextFresh x.params c else c
      .done stOk [] { s with flows := { s.flows with contexts := tabPut s.flows.contexts i d } }

def srtpClearBody : Body := fun x s =>
  let i := paramNat x.params 0x40 0
  if (tabFind? s.flows.contexts i).isNone then refuseParam x stSrtpCtxNotFound 0x40
  else if s.contextInUse i then .refuse stSrtpCtxInUse []
  else .done stOk [] { s with flows := { s.flows with contexts := tabDrop s.flows.contexts i } }

/-- HIGHEST_INDEX of a context: of what it received, or of what it sent. -/
def highestIndex (c : SrtpCtx) : Int := if c.transmit then (c.roc * 65536 + c.lastSeq.getD 0 : Nat) else c.rtp.hi

/-- What SRTP_QUERY reports of a context: never its keys (R446). -/
def srtpTlvs (c : SrtpCtx) : List Tlv :=
  [rep 1 1 (boolNat c.transmit), rep 2 1 c.suite, rep 5 4 c.mkiLen, rep 6 4 c.roc, rep 7 1 (boolNat (!c.fixedSsrc)),
   rep 8 4 c.ssrc, rep 9 1 (boolNat c.srtcpEncrypt), rep 0x41 4 c.txKey,
   rep 0x400 1 (boolNat (c.key0 != []) + 2 * boolNat (c.key1 != [])), repInt 0x401 8 (highestIndex c),
   repInt 0x402 4 (if c.transmit then (c.srtcpIndex : Int) else c.rtcp.hi)] ++ counterTlvs 0x800 8 c.counts

def srtpQueryBody : Body := fun x s =>
  let i := paramNat x.params 0x40 0
  match tabFind? s.flows.contexts i with
  | none => refuseParam x stSrtpCtxNotFound 0x40
  | some c =>
    .done stOk (srtpTlvs c) (if x.clear then
      { s with flows := { s.flows with contexts := tabPut s.flows.contexts i { c with counts := [] } } } else s)

/-! ## Templates (R163) -/

/-- Where the IP header of a template begins. -/
def ipOffset (t : List Byte) : Nat := etherOffset t + 2

/-- The length of a template's headers up to the end of UDP, if they parse. -/
def udpEnd (t : List Byte) : Option Nat :=
  let o := ipOffset t
  if fieldAt t (etherOffset t) 2 = 0x0800 then
    if fieldAt t o 1 = 0x45 ∧ fieldAt t (o + 9) 1 = 17 ∧ o + 28 ≤ t.length then some (o + 28) else none
  else if fieldAt t (etherOffset t) 2 = 0x86DD then
    if fieldAt t o 1 / 16 = 6 ∧ fieldAt t (o + 6) 1 = 17 ∧ o + 48 ≤ t.length then some (o + 48) else none
  else none

/-- The length of an RTP header at the start of a string, with its CSRC list and extension. -/
def rtpHeaderLength (l : List Byte) : Nat :=
  let n := 12 + 4 * (fieldAt l 0 1 % 16)
  if (fieldAt l 0 1).testBit 4 then n + 4 + 4 * fieldAt l (n + 2) 2 else n

/-- Whether the bytes parse as a template of a kind, with nothing after its headers. -/
def templateParses (kind : Nat) (t : List Byte) : Bool :=
  match udpEnd t with
  | none => false
  | some u =>
    let r := t.drop u
    if kind = 0 then
      decide (12 ≤ r.length) && fieldAt r 0 1 / 64 == 2 && !(fieldAt r 0 1).testBit 5 && r.length == rtpHeaderLength r
    else r == []

def templateLoadBody : Body := fun x s =>
  let i := paramNat x.params 0x40 0
  let kind := paramNat x.params 0x41 0
  let csum := paramFlag x.params 0x42 true
  let b := (paramBytes? x.params 0x43).getD []
  if ¬ templateParses kind b then refuseParam x stBadTemplate 0x43
  else if ¬ csum ∧ templateIpv6 b then refuseParam x stBadTemplate 0x42
  else if ¬ tabHas s.flows.templates i ∧ 4096 ≤ s.flows.templates.length then .refuse stTemplateTableFull []
  else
    .done stOk [] { s with flows := { s.flows with
      templates := tabPut s.flows.templates i { kind := kind, udpCsum := csum, bytes := b } } }

def templateRemoveBody : Body := fun x s =>
  let i := paramNat x.params 0x40 0
  if ¬ tabHas s.flows.templates i then refuseParam x stTemplateNotFound 0x40
  else if s.egressRecords.any (fun l => l.template == i) then .refuse stTemplateInUse []
  else .done stOk [] { s with flows := { s.flows with templates := tabDrop s.flows.templates i } }

/-! ## PE_CONFIG and PE_COUNTERS (R167, R168) -/

def peConfigBody : Body := fun x s =>
  let f := s.flows
  let p := paramNat x.params 0x43 f.udpPort
  if p ≠ f.udpPort ∧ (flowAll f).any (fun e => keyPort e.key == p) then .refuse stFlowExists []
  else
    .done stOk [] { s with flows := { f with
      hostMiss := (match paramNat? x.params 0x40 with | some v => v == 1 | none => f.hostMiss),
      hostRate := paramNat x.params 0x41 f.hostRate, holdLimit := paramNat x.params 0x42 f.holdLimit, udpPort := p } }

/-- The counters of Table 5.8 with a device scope: the two occupancies, then the two counts. -/
def deviceCounts (f : Flows) : Counts :=
  tabSet (tabSet f.counts TableCount.tableEntries.ctorIdx (flowAll f).length 0) TableCount.camEntries.ctorIdx f.cam.length 0

def State.peCounterTlvs (s : State) : List Tlv :=
  counterTlvs 0x800 4 (deviceCounts s.flows) ++
  (List.range 4).flatMap (fun r => instanceTlv 3 r :: counterTlvs 0x800 9 (s.region r).counts) ++
  (List.range 16).flatMap (fun b => instanceTlv 4 b :: counterTlvs 0x800 2 (tabGet s.flows.blockCounts b []))

/-- The packet engine counters cleared (R17). -/
def State.clearPe (s : State) : State :=
  let s1 := (List.range 4).foldl (fun s r => s.modRegion r (fun g => { g with counts := [] })) s
  { s1 with flows := { s1.flows with counts := [], blockCounts := [] } }

def peCountersBody : Body := fun x s => .done stOk s.peCounterTlvs (if x.clear then s.clearPe else s)

/-! ## SRTP toward the network (R159, R164, R165) -/

def countCtx (c : SrtpCtx) (k : SrtpCount) : SrtpCtx := { c with counts := bump c.counts k.ctorIdx }

/-- The most packets under one master key (R159). -/
def keyLimit (rtcp : Bool) : Nat := if rtcp then 2 ^ 31 else 2 ^ 48

/-- Whether a protocol has reached its limit under key `k`. -/
def limitReached (c : SrtpCtx) (k : Nat) (rtcp : Bool) : Bool := decide (keyLimit rtcp ≤ tabGet c.used (2 * k + boolNat rtcp) 0)

/-- Whether the context has stopped under key `k`: either limit has been reached (R159). -/
def keySpent (c : SrtpCtx) (k : Nat) : Bool := limitReached c k false || limitReached c k true

/-- One packet under key `k` of a protocol: the context after it, whether it may be processed, and whether the notice is
due (R159). -/
def useKey (c : SrtpCtx) (k : Nat) (rtcp : Bool) : SrtpCtx × Bool × Bool :=
  let i := 2 * k + boolNat rtcp
  if ¬ keySpent c k then ({ c with used := tabSet c.used i (tabGet c.used i 0 + 1) 0 }, true, false)
  else if c.exhausted.contains k then (countCtx c .keyExhausted, false, false)
  else ({ countCtx c .keyExhausted with exhausted := c.exhausted ++ [k] }, false, true)

/-- The SRTP_KEY_EXHAUSTED notice for key `k`, with the protocol whose limit was reached. -/
def State.exhaustedNotice (s : State) (ctx k : Nat) (c : SrtpCtx) : State :=
  s.notify .flow 0x0F09 0 0 [beBytes 4 ctx, beBytes 4 k, beBytes 1 (boolNat (!limitReached c k false))]

def State.setContext (s : State) (i : Nat) (c : SrtpCtx) : State :=
  { s with flows := { s.flows with contexts := tabPut s.flows.contexts i c } }

/-- The bytes of a key's MKI, and its master key with salt. -/
def keyMki (c : SrtpCtx) (k : List Byte) : List Byte := slice k (4 - c.mkiLen) c.mkiLen
def keyOf (c : SrtpCtx) (k : Nat) : List Byte := if k = 0 then c.key0 else c.key1

/-- A packet with the cipher of a suite applied, or removed, past its first `head` bytes: counter mode adds a key stream, so that the
packet keeps its length (Table 5.4). -/
def ciphered (c : SrtpCtx) (key : List Byte) (rtcp : Bool) (ssrc : Nat) (index : Int) (head : Nat) (b : List Byte) : List Byte :=
  b.take head ++ (b.drop head).mapIdx (fun k x => x ^^^ Config.srtpStream c.suite key rtcp ssrc index k)

/-- An SRTP packet's RTP header with its CSRC list and extension goes as it is (R157); an SRTCP packet's first 8 bytes do. -/
def cipheredRtp (c : SrtpCtx) (key : List Byte) (index : Int) (b : List Byte) : List Byte :=
  ciphered c key false (fieldAt b 8 4) index (rtpHeaderLength b) b
def cipheredRtcp (c : SrtpCtx) (key : List Byte) (index : Int) (b : List Byte) : List Byte :=
  ciphered c key true (fieldAt b 4 4) index 8 b

/-- The tag of the bytes it covers, as long as the suite has it (Table 5.4). -/
def tagOf (c : SrtpCtx) (key : List Byte) (rtcp : Bool) (index : Int) (b : List Byte) : List Byte :=
  (beBytes 16 (Config.srtpTag c.suite key rtcp index b).toNat).take (suiteTag c.suite)

/-- A protected packet with what follows it: `word` is the index word of SRTCP. RFC 3711 has word, MKI and tag, RFC 7714 tag, word and
MKI. -/
def tagged (c : SrtpCtx) (body word tag mki : List Byte) : List Byte :=
  if c.suite = 0 then body ++ word ++ mki ++ tag else body ++ tag ++ word ++ mki

/-- An RTP packet protected (R165): the context after it and the packet. -/
def protectRtp (c : SrtpCtx) (packet : List Byte) : SrtpCtx × List Byte :=
  let seq := fieldAt packet 2 2
  let wraps := match c.lastSeq with | some l => decide (seq < l) | none => false
  let c1 := if wraps then countCtx { c with roc := (c.roc + 1) % 2 ^ 32 } .rocIncrements else c
  let c2 := countCtx { c1 with lastSeq := some seq } .txPackets
  let k := keyOf c c.txKey
  let index : Int := (c2.roc * 65536 + seq : Nat)
  let body := cipheredRtp c (k.drop 4) index packet
  (c2, tagged c body [] (tagOf c (k.drop 4) false index body) (keyMki c k))

/-- An RTCP packet protected: the 31-bit index advances by one for each (R165). -/
def protectRtcp (c : SrtpCtx) (packet : List Byte) : SrtpCtx × List Byte :=
  let k := keyOf c c.txKey
  let index := c.srtcpIndex
  let c1 := countCtx { c with srtcpIndex := (index + 1) % 2 ^ 31 } .txPackets
  let body := if c.srtcpEncrypt then cipheredRtcp c (k.drop 4) index packet else packet
  let word := beBytes 4 (boolNat c.srtcpEncrypt * 2 ^ 31 + index)
  (c1, tagged c body word (tagOf c (k.drop 4) true index (body ++ word)) (keyMki c k))

/-- The bytes that SRTP adds to a packet: tag and MKI, and the index word of SRTCP. -/
def srtpAdds (c : SrtpCtx) (rtcp : Bool) : Nat := suiteTag c.suite + c.mkiLen + (if rtcp then 4 else 0)

/-- A packet under its TX context: the machine, and the packet unless its key is exhausted. -/
def State.protect (s : State) (ctx : Option Nat) (rtcp : Bool) (packet : List Byte) : State × Option (List Byte) :=
  match ctx with
  | none => (s, some packet)
  | some i =>
    match tabFind? s.flows.contexts i with
    | none => (s, some packet)
    | some c =>
      match useKey c c.txKey rtcp with
      | (c1, true, _) =>
        let r := if rtcp then protectRtcp c1 packet else protectRtp c1 packet
        (s.setContext i r.1, some r.2)
      | (c1, false, tell) =>
        let s1 := s.setContext i c1
        (if tell then s1.exhaustedNotice i c.txKey c1 else s1, none)

/-! ## Egress assembly (R164, Table 5.7) -/

/-- The 16-bit ones' complement checksum of bytes. -/
def ipChecksum (l : List Byte) : Nat := 65535 - fold16 ((words16 l).sum)

/-- The UDP checksum of a datagram under its pseudo-header; 0 is sent as all ones. -/
def udpChecksum (src dst udp : List Byte) : Nat :=
  let c := ipChecksum (src ++ dst ++ beBytes 4 udp.length ++ beBytes 4 17 ++ udp)
  if c = 0 then 65535 else c

/-- The RTP header of a descriptor over a template's. -/
def fillRtp (d : Descriptor) (h : List Byte) : List Byte :=
  overlay h 1 (beBytes 1 (boolNat d.marker * 128 + d.pt % 128) ++ beBytes 2 d.seq ++ beBytes 4 d.ts ++ beBytes 4 d.record.ssrc)

/-- What follows the UDP header: an RTP packet, an RTCP packet with its sender SSRC, or a UDPTL datagram. -/
def udpContent (t : Template) (u : Nat) (d : Descriptor) : List Byte :=
  if d.udptl then d.payload
  else if t.kind = 0 then fillRtp d (t.bytes.drop u) ++ d.payload
  else if t.kind = 1 then overlay d.payload 4 (beBytes 4 d.record.ssrc)
  else d.payload

/-- A frame from a template's bytes, without FCS: lengths, identification, addresses, ports and checksums (Table 5.7). -/
def buildFrame (t : Template) (u : Nat) (r : Leg) (id : Nat) (content : List Byte) : List Byte :=
  let o := ipOffset t.bytes
  let six := templateIpv6 t.bytes
  let n := 8 + content.length
  let src := if six then slice t.bytes (o + 8) 16 else slice t.bytes (o + 12) 4
  let udp0 := beBytes 2 r.srcPort ++ beBytes 2 r.dstPort ++ beBytes 2 n ++ zeroBytes 2 ++ content
  let udp := if t.udpCsum then overlay udp0 6 (beBytes 2 (udpChecksum src r.dstAddr udp0)) else udp0
  let head := t.bytes.take (u - 8)
  let ip :=
    if six then overlay (overlay head (o + 4) (beBytes 2 n)) (o + 24) r.dstAddr
    else
      let h := overlay (overlay (overlay (overlay head (o + 2) (beBytes 2 (20 + n))) (o + 4) (beBytes 2 id))
        (o + 10) (zeroBytes 2)) (o + 16) r.dstAddr
      overlay h (o + 10) (beBytes 2 (ipChecksum (h.drop o)))
  ip ++ udp

/-- The length of a frame on the wire, from destination address to FCS (R60). -/
def wireLength (f : List Byte) : Nat := max 64 (f.length + 4)

/-- EGRESS_PORT taken apart (Table 16.4): its device, and its port, the lower one of a pair. -/
def egressDevice (v : Nat) : Nat := v / 2 ^ 24
def egressPort (v : Nat) : Nat := if v / 2 ^ 16 % 256 = 1 then 2 * (v / 2 ^ 8 % 256) else v / 2 ^ 8 % 256

/-- The egress queue of a region for one port: 128 KiB (R166). -/
def egressRoom : Nat := 131072

/-- A built frame put into the egress queue of region `r` for port key `k`. -/
def State.queueEgress (s : State) (r k : Nat) (f : EgFrame) : State :=
  s.modRegion r (fun g => { g with egress := tabSet g.egress k (tabGet g.egress k [] ++ [f]) [] })

/-- The bytes that wait in an egress queue. -/
def Region.queued (g : Region) (k : Nat) : Nat := ((tabGet g.egress k []).map (·.length)).sum

/-- The next number of the IPv4 identification counter of a port (Table 5.7). -/
def State.nextId (s : State) (k : Nat) : State × Nat := (s.modPort k (fun p => { p with ipv4Id := p.ipv4Id + 1 }), (s.port k).ipv4Id.toNat)

/-- The frame of a descriptor, sent on its way: to the egress queue of its port, or across Bilgaup (R164, R166), where the device of
the port numbers it from its own counter. -/
def State.assemble (s : State) (r k : Nat) (d : Descriptor) (t : Template) (u : Nat) : State :=
  let dev := egressDevice d.record.egress
  match s.protect d.record.txSrtp (t.kind == 1) (udpContent t u d) with
  | (s1, none) => s1
  | (s1, some content) =>
    if dev = s.stack.number then
      let (s2, id) := s1.nextId k
      let f := buildFrame t u d.record id content
      s2.queueEgress r k { media := true, length := wireLength f, content := .rtp d.channel d.leg f }
    else s1.sendClass dev 0 (Config.messageKind 1) [beBytes 1 k, buildFrame t u d.record 0 content]

/-- The length on the wire of the frame a descriptor makes. -/
def State.frameLength (s : State) (d : Descriptor) (t : Template) (u : Nat) : Nat :=
  let adds := match d.record.txSrtp.bind (fun i => tabFind? s.flows.contexts i) with
    | some c => srtpAdds c (t.kind == 1)
    | none => 0
  max 64 (u + (udpContent t u d).length + adds + 4)

/-- A UDPTL datagram carries no SRTP (Table 5.3). -/
def plainUdptl (d : Descriptor) : Descriptor := if d.udptl then { d with record := { d.record with txSrtp := none } } else d

/-- PE_DESCRIPTOR of region `r`: its oldest descriptor assembled, unless the egress queue of its port lacks room (R164,
R166). -/
def peDescriptorStep (r : Nat) (s : State) : State :=
  let g := s.region r
  match g.descriptors with
  | [] => s
  | d0 :: l =>
    let s1 := s.setRegion r { g with descriptors := l }
    let d := plainUdptl d0
    let dev := egressDevice d.record.egress
    let k := if dev = s.stack.number then s.egressKey (egressPort d.record.egress) else egressPort d.record.egress
    match tabFind? s.flows.templates d.record.template with
    | none => s1
    | some t =>
      match udpEnd t.bytes with
      | none => s1
      | some u =>
        if ¬ s.clockRuns (52 + r) then s
        else if dev = s.stack.number ∧ egressRoom < g.queued k + s.frameLength d t u then s
        else s1.assemble r k d t u

/-! ## The meanings -/

def execFlowInsert (p : Packet) (s : State) : Host.Outcome State Fault Refusal := .next (fylosRun 0x0301 flowInsertBody p s)
def execFlowRemove (p : Packet) (s : State) : Host.Outcome State Fault Refusal := .next (fylosRun 0x0302 flowRemoveBody p s)
def execFlowModify (p : Packet) (s : State) : Host.Outcome State Fault Refusal := .next (fylosRun 0x0303 flowModifyBody p s)
def execFlowQuery (p : Packet) (s : State) : Host.Outcome State Fault Refusal := .next (fylosRun 0x0304 flowQueryBody p s)
def execSrtpSet (p : Packet) (s : State) : Host.Outcome State Fault Refusal := .next (fylosRun 0x0305 srtpSetBody p s)
def execSrtpClear (p : Packet) (s : State) : Host.Outcome State Fault Refusal := .next (fylosRun 0x0306 srtpClearBody p s)
def execSrtpQuery (p : Packet) (s : State) : Host.Outcome State Fault Refusal := .next (fylosRun 0x0307 srtpQueryBody p s)
def execTemplateLoad (p : Packet) (s : State) : Host.Outcome State Fault Refusal :=
  .next (fylosRun 0x0308 templateLoadBody p s)
def execTemplateRemove (p : Packet) (s : State) : Host.Outcome State Fault Refusal :=
  .next (fylosRun 0x0309 templateRemoveBody p s)
def execPeConfig (p : Packet) (s : State) : Host.Outcome State Fault Refusal := .next (fylosRun 0x030A peConfigBody p s)
def execPeCounters (p : Packet) (s : State) : Host.Outcome State Fault Refusal :=
  .next (fylosRun 0x030B peCountersBody p s)
def execPeDescriptor (region : Nat) (s : State) : Host.Outcome State Fault Refusal := .next (peDescriptorStep region s)

end Sys2Proof.Machine
end

