-- ==== Sys2Proof/Machine/Ingress.lean ====
section
/-! DEFINITION. Ingress past the lookup: actions, SRTP, admission by state, delivery to the block and the hold queues (R28,
R145 to R162). -/

namespace Sys2Proof.Machine

/-! ## Delivery to the host (Table 5.3, R145) -/

/-- One more packet to the host, if HOST_RATE allows it in the trailing second. -/
def State.hostRoom (s : State) : Option State :=
  let live := s.flows.hostTimes.filter (fun t => s.time.powered < t + oneSecond)
  if live.length < s.flows.hostRate then
    some { s with flows := { s.flows with hostTimes := live ++ [s.time.powered] } }
  else none

/-- A HOST_PACKET notice, REASON 0 MISS or 1 FLOW_HOST, or the discard of the excess counted in region `r`. -/
def State.toHost (s : State) (r port reason flow : Nat) (stamp : Stamp) (frame : List Byte) : State :=
  match s.hostRoom with
  | some t => t.notify .flow 0x0F07 5 port [beBytes 1 reason, beBytes 4 flow, stampBytes stamp, frame]
  | none => s.bumpRegion r .hostRateDrop

/-! ## SRTP receive (R153, R155, R156, R159) -/

/-- What becomes of a packet under its context: the context after it, and the packet if it passes; a key that has just been
exhausted is named. -/
structure SrtpVerdict where
  ctx : SrtpCtx
  packet : Option (List Byte) := none
  exhausted : Option Nat := none

/-- The MKI a packet carries: before the tag of RFC 3711, after that of RFC 7714. -/
def packetMki (c : SrtpCtx) (b : List Byte) : List Byte :=
  if c.suite = 0 then slice b (b.length - suiteTag 0 - c.mkiLen) c.mkiLen else slice b (b.length - c.mkiLen) c.mkiLen

/-- The key a packet selects (R153): the one held where there is no MKI, else the one whose MKI it carries. -/
def selectKey (c : SrtpCtx) (b : List Byte) : Option Nat :=
  if c.mkiLen = 0 then some (if c.key0 ≠ [] then 0 else 1)
  else [0, 1].find? (fun k => keyOf c k != [] && keyMki c (keyOf c k) == packetMki c b)

/-- Whether a packet's SSRC is refused (R155). -/
def ssrcRefused (c : SrtpCtx) (ssrc : Nat) : Bool := (c.fixedSsrc || c.learned) && ssrc != c.ssrc

/-- The rollover estimate of a sequence number (R156). -/
def rolloverOf (c : SrtpCtx) (seq : Nat) : Int :=
  if c.rtp.fresh then c.roc
  else if c.sl < 32768 then (if (32768 : Int) < seq - c.sl then (c.roc : Int) - 1 else c.roc)
  else if (seq : Int) < (c.sl : Int) - 32768 then (c.roc : Int) + 1 else c.roc

/-- What a replay window says of an index: the counter of a refusal (R156). -/
def replayFault (w : ReplayWindow) (i : Int) : Option SrtpCount :=
  if w.fresh ∨ w.hi < i then none
  else if 1024 ≤ w.hi - i then some .replayOld
  else if w.marks.contains (w.hi - i).toNat then some .replayDup
  else none

/-- A window after an accepted index. -/
def windowTake (w : ReplayWindow) (i : Int) : ReplayWindow :=
  if w.fresh then { fresh := false, hi := i, marks := [0] }
  else if w.hi < i then
    let d := (i - w.hi).toNat
    { w with hi := i, marks := 0 :: (w.marks.map (· + d)).filter (· < 1024) }
  else { w with marks := (w.hi - i).toNat :: w.marks }

/-- The SSRC taken by LEARN (R155). -/
def learnSsrc (c : SrtpCtx) (ssrc : Nat) : SrtpCtx :=
  if c.fixedSsrc ∨ c.learned then c else { c with learned := true, ssrc := ssrc }

/-- Tag and MKI at the end of a packet, and the index word of SRTCP before them: how many bytes. -/
def trailer (c : SrtpCtx) (rtcp : Bool) : Nat := srtpAdds c rtcp

/-- The packet without its trailer. -/
def protectedBody (c : SrtpCtx) (rtcp : Bool) (b : List Byte) : List Byte := b.take (b.length - trailer c rtcp)

/-- The tag a packet carries: the last bytes for RFC 3711, for RFC 7714 those after the body. -/
def carriedTag (c : SrtpCtx) (rtcp : Bool) (b : List Byte) : List Byte :=
  if c.suite = 0 then b.drop (b.length - suiteTag 0) else slice b (b.length - trailer c rtcp) (suiteTag c.suite)

/-- Whether the tag of a packet verifies over the bytes it covers. -/
def authentic (c : SrtpCtx) (key : List Byte) (rtcp : Bool) (index : Int) (b covered : List Byte) : Bool :=
  decide (trailer c rtcp ≤ b.length) && carriedTag c rtcp b == tagOf c key rtcp index covered

/-- An SRTP packet under key `k` (R156). The rollover counter is held in 32 bits. -/
def receiveRtp (c : SrtpCtx) (k : Nat) (b : List Byte) : SrtpVerdict :=
  let seq := fieldAt b 2 2
  let v := rolloverOf c seq
  let i := v * 65536 + seq
  match replayFault c.rtp i with
  | some e => { ctx := countCtx c e }
  | none =>
    let key := (keyOf c k).drop 4
    let body := protectedBody c false b
    if ¬ authentic c key false i b body then { ctx := countCtx c .authFail }
    else
      let c1 := if c.rtp.fresh ∨ c.rtp.hi < i then { c with roc := (v % 2 ^ 32).toNat, sl := seq } else c
      { ctx := learnSsrc { c1 with rtp := windowTake c.rtp i } (fieldAt b 8 4), packet := some (cipheredRtp c key i body) }

/-- Where the word with the E flag and the SRTCP index lies: before MKI and tag, or, for RFC 7714, before the MKI. -/
def srtcpWord (c : SrtpCtx) (b : List Byte) : List Byte :=
  slice b (b.length - (if c.suite = 0 then suiteTag 0 else 0) - c.mkiLen - 4) 4

/-- An SRTCP packet under key `k` (R155, R156, Table 5.5). -/
def receiveRtcp (c : SrtpCtx) (k : Nat) (b : List Byte) : SrtpVerdict :=
  let w := fieldAt (srtcpWord c b) 0 4
  let i : Int := (w % 2 ^ 31 : Nat)
  match replayFault c.rtcp i with
  | some e => { ctx := countCtx c e }
  | none =>
    let key := (keyOf c k).drop 4
    let body := protectedBody c true b
    if c.srtcpEncrypt ∧ w < 2 ^ 31 then { ctx := c }
    else if ¬ authentic c key true i b (body ++ srtcpWord c b) then { ctx := countCtx c .authFail }
    else
      { ctx := learnSsrc { c with rtcp := windowTake c.rtcp i } (fieldAt b 4 4),
        packet := some (if w < 2 ^ 31 then body else cipheredRtcp c key i body) }

/-- A packet under a context: SSRC, key, exhaustion, then R156. A key's count takes the packets it passes (R159). -/
def srtpReceive (c : SrtpCtx) (rtcp : Bool) (b : List Byte) : SrtpVerdict :=
  if ssrcRefused c (fieldAt b (if rtcp then 4 else 8) 4) then { ctx := countCtx c .ssrcMismatch }
  else
    match selectKey c b with
    | none => { ctx := countCtx c .mkiUnknown }
    | some k =>
      if keySpent c k then
        let r := useKey c k rtcp
        { ctx := r.1, exhausted := if r.2.2 then some k else none }
      else
        let v := if rtcp then receiveRtcp c k b else receiveRtp c k b
        if v.packet.isSome then { v with ctx := (useKey v.ctx k rtcp).1 } else v

/-! ## Admission by state (R157, R480) -/

/-- Whether the state of a channel admits a packet. -/
def admitsPacket (v : Channel) (kind : RxKind) : Bool :=
  let migrating := v.state == .migrating
  match kind with
  | .rtcp => v.state == .active || v.state == .hold || v.state == .draining || migrating
  | .rtp | .udptl => v.state == .active || (migrating && (match v.move with | some m => m.from_ == .active | none => false))

/-! ## Hold and delivery (R28, R160, R161) -/

/-- The bytes of one packet in a packet area or an ingress buffer. -/
def entryBytes : PendEntry → Nat
  | .packet p => p.bytes.length
  | .command _ => 0
  | .signal _ _ => 0

/-- The bytes of packets that a block's packet area holds: those in its FIFO, in pending lists, and taken by a run. -/
def packetArea (k : Block) : Nat :=
  (k.fifo.map (fun e => entryBytes e.2)).sum +
  (k.threads.map (fun e => ((e.2.pending ++ e.2.taken).map entryBytes).sum)).sum

/-- The size of a packet area, and of a region's ingress buffer. -/
def packetAreaSize : Nat := 524288
def ingressSize : Nat := 4194304

/-- The bytes held for one block, and in a region's ingress buffer. -/
def heldBytes (k : Block) : Nat := (k.packetHold.map (fun a => a.payload.length)).sum
def State.regionHeld (s : State) (r : Nat) : Nat := ([0, 1, 2, 3].map (fun i => heldBytes (s.block (4 * r + i)))).sum

/-- Whether a packet can be posted to a block now. -/
def canPost (k : Block) (n : Nat) : Bool := decide (k.fifo.length < fifoSize ∧ packetArea k + n ≤ packetAreaSize)

/-- A packet posted. -/
def postPacket (k : Block) (e : Nat × PendEntry) : Block :=
  { k with fifo := k.fifo ++ [e], peakFifo := max k.peakFifo (k.fifo.length + 1) }

/-- HOLD_PEAK_BYTES raised to what block `b` holds. -/
def State.holdPeak (s : State) (b : Nat) : State :=
  let t := s.flows.blockCounts
  { s with flows := { s.flows with blockCounts := tabSet t b (countMax (tabGet t b []) 1 (heldBytes (s.block b))) [] } }

/-! ## One datagram past the lookup -/

/-- The kind of a packet by its action (Table 5.3). -/
def rxKindOf (a : FlowAction) (b : List Byte) : RxKind :=
  match a with
  | .rtcp => .rtcp
  | .udptl => .udptl
  | .mux => if 192 ≤ fieldAt b 1 1 ∧ fieldAt b 1 1 ≤ 223 then .rtcp else .rtp
  | .rtp | .drop | .host => .rtp

/-- LATCH: the first packet to pass on an entry that still has it set gives the leg its destination (R158). -/
def State.latch (s : State) (a : Arrival) : State :=
  match flowById s.flows a.flow.id with
  | some e =>
    if e.latch ∧ a.flow.latch then
      let c := a.flow.channel
      let set := fun (l : Leg) => { l with dstAddr := a.srcAddr, dstPort := a.srcPort }
      let s1 := { s with flows := flowUpdate s.flows e.id (fun e => { e with latch := false }) }
      (s1.modChannel c (fun v =>
        if a.flow.leg = 0 then { v with legA := set v.legA, runA := set v.runA }
        else { v with legB := set v.legB, runB := set v.runB })).notify .flow 0x0F08 4 c
        [beBytes 4 e.id, beBytes 1 a.flow.leg, a.srcAddr, beBytes 4 a.srcPort]
    else s
  | none => s

/-- The bytes of a payload that R160 limits: those past an RTP header, or the whole of another packet. -/
def mediaBytes (kind : RxKind) (b : List Byte) : Nat :=
  match kind with | .rtp => b.length - rtpHeaderLength b | .rtcp | .udptl => b.length

/-- A packet whose crypto is done (R157, R158, R160). -/
def State.admitPacket (s : State) (a : Arrival) (kind : RxKind) (b : List Byte) : State :=
  let s1 := s.latch a
  let v := s1.channel a.flow.channel
  let frozen := s1.clocks.frost && kind != .rtcp
  match v.slot with
  | none => { s1 with flows := flowCount s1.flows a.flow.id .stateDiscard 1 }
  | some t =>
    if ¬ admitsPacket v kind ∨ frozen then { s1 with flows := flowCount s1.flows a.flow.id .stateDiscard 1 }
    else if 1500 < mediaBytes kind b then s1.bumpRegion (blockRegion v.block) .oversize
    else
      s1.modBlock v.block (fun k => postPacket k (t, .packet
        { flow := a.flow.id, leg := a.flow.leg, kind := kind, bytes := b,
          stamp := a.stamp.seconds * 1000000000 + a.stamp.ns, frac := a.stamp.frac, epoch := a.stamp.epoch }))

/-- A packet taken by the packet engine of its channel's region. -/
def State.cryptoPacket (s : State) (a : Arrival) (kind : RxKind) : State :=
  let rtcp := kind == .rtcp
  match a.flow.srtp with
  | none => s.admitPacket a kind a.payload
  | some i =>
    match tabFind? s.flows.contexts i with
    | none => s
    | some c =>
      let r := srtpReceive c rtcp a.payload
      let s1 := s.setContext i r.ctx
      let s2 := match r.exhausted with | some k => s1.exhaustedNotice i k r.ctx | none => s1
      match r.packet with
      | some b => s2.admitPacket a kind b
      | none => s2

/-- A packet for block `b`: to its crypto, or held ahead of it, or discarded beyond HOLD_LIMIT (R28, R161, R162). -/
def State.holdOrTake (s : State) (b : Nat) (a : Arrival) : State :=
  let k := s.block b
  if k.packetHold = [] ∧ canPost k a.payload.length then s.cryptoPacket a (rxKindOf (flowActionOf a.flow.action) a.payload)
  else if s.flows.holdLimit < heldBytes k + a.payload.length then s.countHold b 0 1
  else (s.setBlock b { k with packetHold := k.packetHold ++ [a] }).holdPeak b

/-- HELD_PACKET_POST of block `b`: its oldest held packet, once FIFO and packet area have room (R161). It goes with the result of its
lookup to the channel that names, and R157 decides it by the channel's state now (R162). -/
def heldPacketPostStep (b : Nat) (s : State) : State :=
  let k := s.block b
  match k.packetHold with
  | [] => s
  | a :: r =>
    if canPost k a.payload.length then
      (s.setBlock b { k with packetHold := r }).cryptoPacket a (rxKindOf (flowActionOf a.flow.action) a.payload)
    else s

/-- A datagram whose entry names this device (Table 5.3, R28 item 2, R157). A packet for a channel with no thread waits for no block. -/
def State.takeDatagram (s : State) (a : Arrival) : State :=
  let act := flowActionOf a.flow.action
  let v := s.channel a.flow.channel
  let r := blockRegion v.block
  match act with
  | .drop => { s with flows := flowCount s.flows a.flow.id .flowDrop 1 }
  | .host => s.toHost r a.port 1 a.flow.id a.stamp a.frame
  | .rtp | .rtcp | .mux | .udptl =>
    if ingressSize < s.regionHeld r + a.payload.length then s.bumpRegion r .ingressDiscard
    else if v.slot.isSome then s.holdOrTake v.block a
    else s.cryptoPacket a (rxKindOf act a.payload)

/-- The settings of a lookup's result as a message carries them. -/
def arrivalContent (a : Arrival) : List (List Byte) :=
  changeContent (.insert a.flow) ++ [beBytes 1 a.port, stampBytes a.stamp, a.frame]

/-- A datagram matched: counted on its entry, and taken here or sent to the device that owns its channel (R146). -/
def State.matched (s : State) (a : Arrival) : State :=
  let s1 := { s with flows := flowCount (flowCount s.flows a.flow.id .rxPackets 1) a.flow.id .rxBytes (a.frame.length + 4) }
  let d := a.flow.device
  if d = s.stack.number then s1.takeDatagram a
  else if s1.canReach d then (s1.bumpStack .forwardedPackets).sendMessage d 0x01 (arrivalContent a)
  else s1.bumpStack .unreachableDiscard

/-- A datagram that matches no entry (R145). -/
def State.missed (s : State) (port : Nat) (stamp : Stamp) (frame : List Byte) : State :=
  let s1 := s.bumpRegion 0 .flowMiss
  if s1.flows.hostMiss then s1.toHost 0 port 0 noneValue stamp frame else s1

/-! ## Lookup keys (Table 5.1, R145) -/

/-- An address in its 16-byte place. -/
def keyAddress (a : List Byte) : List Byte := if a.length = 4 then zeroBytes 12 ++ a else a

/-- The FULL key of a datagram: its VLAN ID, addresses and ports. -/
def fullKey (vlan : Option Nat) (src dst : List Byte) (srcPort dstPort : Nat) : List Byte :=
  [BitVec.ofNat 8 ((if src.length = 16 then 0x40 else 0) + (if vlan.isSome then 0x20 else 0)), 17] ++
  beBytes 2 (vlan.getD 0) ++ keyAddress src ++ keyAddress dst ++ beBytes 2 srcPort ++ beBytes 2 dstPort

/-- The LOCAL key of a FULL one. -/
def localKey (k : List Byte) : List Byte :=
  (k.take 1).map (· ||| 0x80) ++ slice k 1 3 ++ zeroBytes 16 ++ slice k 0x14 16 ++ zeroBytes 2 ++ slice k 0x26 2

/-- The two lookups of a datagram. -/
def lookupTwice (f : Flows) (k : List Byte) : Option FlowEntry :=
  match flowLookup f k with
  | some e => some e
  | none => flowLookup f (localKey k)

/-! ## The addresses of a frame -/

/-- Source and destination IP address of a frame. -/
def frameAddresses (f : List Byte) : List Byte × List Byte :=
  let o := ipOffset f
  if fieldAt f (etherOffset f) 2 = 0x86DD then (slice f (o + 8) 16, slice f (o + 24) 16)
  else (slice f (o + 12) 4, slice f (o + 16) 4)

def frameVlan (f : List Byte) : Option Nat := if fieldAt f 12 2 = 0x8100 then some (fieldAt f 14 2 % 4096) else none

/-- The arrival of a frame whose UDP header lies at `u`, with its lookup's result. -/
def arrivalOf (f : FlowSettings) (port : Nat) (frame : List Byte) (u : Nat) (stamp : Stamp) : Arrival :=
  { flow := f, port := port, frame := frame, payload := slice frame (u + 8) (fieldAt frame (u + 4) 2 - 8),
    srcAddr := (frameAddresses frame).1, srcPort := fieldAt frame u 2, stamp := stamp }

/-! ## PTP messages forwarded (R101, R102) -/

/-- Whether a forwarded message is queued for port `j`: it has PTP_TC set, did not take the message in, and sends for itself or
as the active member of its pair; for a pair that is down, one frame waits at the source (R97, R101; log entry 85). -/
def State.forwardsPtp (s : State) (from_ : Option Nat) (j : Nat) : Bool :=
  from_ != some j && (s.port j).ptpTc &&
  (match s.senderOf j with
   | some k => k == j
   | none => j % 2 == 0 || !(s.port (j - 1)).ptpTc)

/-- A forwardable message sent by the ports that have PTP_TC set, a pair by its active member: not by port `from_`. -/
def State.forwardPtp (s : State) (from_ : Option Nat) (frame : List Byte) (stamp : Stamp) (powered : Nat) : State :=
  let timed := match ptpOffset frame with | some o => decide (ptpType frame o ≤ 1) | none => false
  let content := if timed then FrameContent.ptpForward frame stamp powered else .other frame
  ([0, 1, 2, 3].filter (s.forwardsPtp from_)).foldl
    (fun s j => s.queueFrame j { media := true, length := wireLength frame, content := content, entered := from_ }) s

/-! ## FORWARDED_PACKET (R146, R166, R539, R541) -/

/-- A built frame with the IPv4 identification of its port, and the header checksum over it (Table 5.7). -/
def numbered (id : Nat) (f : List Byte) : List Byte :=
  let o := ipOffset f
  if fieldAt f (etherOffset f) 2 = 0x0800 then
    let h := overlay (overlay f (o + 4) (beBytes 2 id)) (o + 10) (zeroBytes 2)
    overlay h (o + 10) (beBytes 2 (ipChecksum (slice h o 20)))
  else f

/-- A packet from another member: handled as if it had arrived here, forwarded, or queued for a port of this device. -/
def forwardedPacketStep (d : Nat) (p : StackPacket) (s : State) : State :=
  match p with
  | .flow f port frame stamp =>
    match udpOffset frame with
    | some u => (s.takeMessage d 0x01).takeDatagram (arrivalOf f port frame u stamp)
    | none => s.takeMessage d 0x01
  | .ptp frame stamp powered => (s.takeMessage d 0x03).forwardPtp none frame stamp powered
  | .egress region port frame =>
    let k := s.egressKey port
    let (s1, id) := (s.takeMessage d (Config.messageKind 1)).nextId k
    let f := numbered id frame
    s1.queueEgress region k { media := true, length := wireLength f, content := .other f }

/-! ## The meanings -/

def execHeldPacketPost (block : Nat) (s : State) : Host.Outcome State Fault Refusal := .next (heldPacketPostStep block s)
def execForwardedPacket (device : Nat) (packet : StackPacket) (s : State) : Host.Outcome State Fault Refusal :=
  .next (forwardedPacketStep device packet s)

end Sys2Proof.Machine
end

