-- ==== Sys2Proof/Machine/Stack.lean ====
section
/-! DEFINITION. Stacking: links lost and restored, joining and leaving, the time root, the flow sequencer, Equinox, and the
stack commands (R527 to R552). Moves are in Machine/Move.lean. -/

namespace Sys2Proof.Machine

/-! ## What this device advertises (R547, R548) -/

def leastOf (l : List Nat) : Nat := match l with | [] => 0 | a :: r => r.foldl min a
def mostOf (l : List Nat) : Nat := l.foldl max 0

def State.ownInfo (s : State) : MemberInfo :=
  let v := s.ownVersions
  let l := s.runningSlots
  { fwVersion := leastOf v, fwHigh := mostOf v, formats := s.formatsRead, fylosMin := mostOf (l.map (·.fylosMin)),
    fylosMax := leastOf (l.map (·.fylosMax)), lacks := v.flatMap versionLacks, links := s.ownLinks }

def lackContent (l : Lack) : List Byte :=
  beBytes 1 l.version ++ beBytes 2 l.opcode ++ beBytes 4 (l.typ.getD noneValue) ++ l.value.getD []
def linkContent (l : MemberLink) : List Byte := beBytes 1 l.port ++ beBytes 1 l.peer ++ beBytes 1 l.lanes
def infoContent (i : MemberInfo) : List (List Byte) :=
  [beBytes 4 i.fwVersion, beBytes 4 i.fwHigh, beBytes 4 i.formats, beBytes 1 i.fylosMin, beBytes 1 i.fylosMax] ++
  i.lacks.map lackContent ++ i.links.map linkContent

/-- An advertisement to every device that a path reaches (R548). -/
def State.advertise (s : State) : State :=
  if s.stacked then
    ((List.range 8).filter (fun d => d ≠ s.stack.number ∧ s.canReach d)).foldl
      (fun s d => s.sendMessage d 0x12 (infoContent s.ownInfo)) s
  else s

/-! ## Notices (Table 16.10) -/

/-- A STACK notice: EVENT 0 JOINED, 1 LEFT, 2 LINK_UP, 3 LINK_DOWN, 4 LINK_DEGRADED. -/
def State.stackNotice (s : State) (member event link lanes : Nat) : State :=
  s.notify4 .stack 0x0F17 0 0 [beBytes 4 member, beBytes 1 event, beBytes 4 link, beBytes 4 lanes]

/-- An EQUINOX notice: EVENT 0 BEGIN, 1 END. -/
def State.equinoxNotice (s : State) (event low high format : Nat) : State :=
  s.notify4 .stack 0x0F18 0 0 [beBytes 1 event, beBytes 4 low, beBytes 4 high, beBytes 4 format]

/-! ## Equinox (R549) -/

/-- The firmware versions that members advertise, and the FORMATS_READ that all of them share. -/
def stackVersions (l : List MemberInfo) : List Nat := (l.flatMap (fun i => [i.fwVersion, i.fwHigh])).eraseDups
def sharedFormats (l : List MemberInfo) : Nat := l.foldl (fun a i => a &&& i.formats) (2 ^ 32 - 1)

/-- The lowest format of a mask. -/
def lowestFormat (mask : Nat) : Option Nat := (List.range 32).find? (fun n => mask.testBit n)

/-- The members as they advertise, this device first. -/
def State.memberInfos (s : State) : List MemberInfo := s.ownInfo :: s.stack.infos.map (·.2)

/-- Whether members run at most two firmware versions and share a format (R551). -/
def versionsAgree (l : List MemberInfo) : Bool := decide ((stackVersions l).length ≤ 2) && (lowestFormat (sharedFormats l)).isSome

/-- The Equinox that the present advertisements make. -/
def State.equinoxNow (s : State) : Option Equinox :=
  let l := s.memberInfos
  let v := stackVersions l
  if v.length < 2 then none
  else some { low := leastOf v, high := mostOf v, format := (lowestFormat (sharedFormats l)).getD 0 }

/-- The Equinox brought up to date, with its notice where it begins or ends. -/
def State.settleEquinox (s : State) : State :=
  let e := s.equinoxNow
  let s1 := { s with stack := { s.stack with equinox := e, commitFormat := if e.isNone then none else s.stack.commitFormat } }
  match s.stack.equinox, e with
  | none, some q => s1.equinoxNotice 0 q.low q.high q.format
  | some _, none => s1.equinoxNotice 1 s.ownInfo.fwVersion s.ownInfo.fwVersion (s.nativeFormat 0)
  | _, _ => s1

/-! ## The time root (R537, R538) -/

/-- The servo of a device as its place in the stack changes: a follower is held to the stack's time, a new root holds until
its own PTP owner supplies a sample. -/
def State.settleRoot (s : State) : State :=
  let root := !s.isFollower
  let s1 := { s with stack := { s.stack with wasRoot := root } }
  if s.stack.wasRoot ∧ ¬ root then
    let s2 := s1.servoMode .run
    { s2 with time := { s2.time with hostOwner := false, quarantineLimit := 0 }, stack := { s2.stack with holdUntil := false } }
  else if ¬ s.stack.wasRoot ∧ root ∧ s.stacked then
    let s2 := s1.servoMode .hold
    { s2 with stack := { s2.stack with holdUntil := true } }
  else s1

/-! ## Joining and leaving (R535, R536) -/

/-- The stack state of a device that is not stacked. -/
def unstacked (k : Stack) : Stack :=
  { k with topology := .none, links := 0, infos := [], members := [k.number], joining := none, inbox := [], changes := [], applying := [],
           forwarded := [],
           ports := k.ports.map (fun (e : Nat × BgPort) => (e.1, ({ counts := e.2.counts } : BgPort))) }

/-- The commands of flow changes not yet complete. -/
def Stack.flowRefs (k : Stack) : List CmdRef := k.changes.filterMap (·.1) ++ k.applying.filterMap (·.1)

/-- The device out of the stack, the others told. Flow changes that the stack has not taken to their end complete (log entry 97). -/
def State.leaveStack (s : State) : State :=
  let s1 := if s.stacked then s.sendAll 1 0x12 [] else s
  let s2 := s.stack.flowRefs.foldl (fun s r => s.complete r stStackUnreachable []) s1
  ({ s2 with stack := unstacked s2.stack }.settleEquinox).settleRoot

/-- A join that fails: the device stays out (R535, R536). -/
def State.failJoin (s : State) : State :=
  match s.stack.joining with
  | none => s
  | some j => (s.leaveStack).complete j.ref stStackUnreachable []

/-- Whether the ports of LINKS are all up with a known device at the far end that advertises. -/
def State.linksReady (s : State) : Bool :=
  [0, 1, 2, 3].all (fun p => !s.linkConfigured p ||
    (let v := s.bgPort p
     v.lanes != 0 && (match v.peer with | some d => tabHas s.stack.infos d | none => false)))

/-- A join completed once its last step has ended: a device that is the root has no table to receive and no time to take. -/
def State.joinStep (s : State) : State :=
  match s.stack.joining with
  | none => s
  | some j =>
    if s.linksReady ∧ (¬ s.isFollower ∨ (j.tableCopied ∧ s.time.state = .locked)) then
      ({ s with stack := { s.stack with joining := none } }.stackNotice s.stack.number 0 0 0).complete j.ref stOk []
    else s

/-- The most members of a topology (R533). -/
def memberLimit (t : Topology) : Nat := match t with | .none => 1 | .ring => 8 | .mesh => 5

/-- Whether a further member can be taken in (R535, R551). -/
def State.memberFits (s : State) (d : Nat) (i : MemberInfo) : Bool :=
  let infos := tabPut s.stack.infos d i
  decide (infos.length + 1 ≤ memberLimit s.stack.topology) && versionsAgree (s.ownInfo :: infos.map (·.2))

/-- The flow table sent to a member that joins, by the sequencer (R536). -/
def State.sendTable (s : State) (d : Nat) : State :=
  ((flowAll s.flows).foldl (fun s e => s.sendMessage d 0x21 (changeContent (.insert (flowSettingsOf e)))) s).sendMessage d 0x21 []

/-- A member that advertises taken into the stack, or what it advertises brought up to date. -/
def State.takeMember (s : State) (d : Nat) (i : MemberInfo) : State :=
  let fresh := !tabHas s.stack.infos d
  let s1 := { s with stack := { s.stack with
    infos := tabPut s.stack.infos d i,
    members := if s.stack.members.contains d then s.stack.members else s.stack.members ++ [d] } }
  let s2 := s1.settleEquinox.settleRoot
  if fresh then
    let s3 := if s2.stack.joining.isSome then s2 else s2.stackNotice d 0 0 0
    let s4 := s3.sendMessage d 0x12 (infoContent s3.ownInfo)
    (if s4.isFollower then s4 else s4.sendTable d).joinStep
  else s2.joinStep

/-- Whether an entry of the flow table names a channel of a device. -/
def namesChannel (t : Flows) (d c : Nat) : Bool := (flowAll t).any (fun e => e.device == d && e.channel == c)

/-- A move whose context the destination has committed ends once no flow entry names the source (R545 steps 5 and 6). -/
def State.settleMove (s : State) (c : Nat) : State :=
  match (s.channel c).move with
  | none => s
  | some m =>
    if ¬ m.done then s
    else if m.inbound then
      if namesChannel s.flows m.device c then s
      else ((s.modChannel c (fun v => { v with state := m.from_, move := none })).bumpStack .movesIn).channelNotice
        c .migrating m.from_ 2 0
    else if namesChannel s.flows s.stack.number c then s
    else ((s.bumpStack .movesOut).completeOpt m.ref stOk).toIdle c 2

def State.settleMoves (s : State) : State := s.channels.foldl (fun s e => s.settleMove e.1) s

/-- A move from another device that fails here: the channel goes back to IDLE (R47). -/
def State.dropMove (s : State) (c status : Nat) : State := (s.enterIdle c).channelNotice c .migrating .idle 3 status

/-- A change that every member has applied: the command here that asked for it completes, and the members hear of it (R540). -/
def State.finishChange (s : State) (e : Option CmdRef × FlowChange × List Nat) : State :=
  (s.sendAll 1 0x11 (changeContent e.2.1)).completeOpt e.1 stOk

/-- The oldest changes that no reachable member has still to apply, finished. -/
def State.settleChanges (s : State) : State :=
  let waits : Option CmdRef × FlowChange × List Nat → Bool := fun e => e.2.2.any (fun d => s.reachableMembers.contains d)
  let done := s.stack.applying.takeWhile (fun e => !waits e)
  done.foldl State.finishChange { s with stack := { s.stack with applying := s.stack.applying.drop done.length } }

/-- Moves whose other end no path reaches any more, and whose result has not been reported (R545). -/
def State.dropMoves (s : State) : State :=
  s.channels.foldl (fun s e =>
    match e.2.move with
    | none => s
    | some m =>
      if m.done ∨ m.device = s.stack.number ∨ s.canReach m.device then s
      else if m.inbound then s.dropMove e.1 stStackUnreachable
      else s.failMove e.1 stStackUnreachable) s

/-- ADVERTISEMENT of device `d`: what it advertises, or none where it leaves (R535, R548). -/
def advertisementStep (d : Nat) (info : Option MemberInfo) (s : State) : State :=
  if ¬ s.stacked then s
  else
    let s0 := s.takeMessage d 0x12
    match info with
    | none =>
      if ¬ tabHas s0.stack.infos d then s0
      else
        let s1 := { s0 with stack := { s0.stack with infos := tabDrop s0.stack.infos d,
                                                     members := s0.stack.members.filter (· ≠ d) } }
        (((s1.stackNotice d 1 0 0).settleEquinox).settleRoot).dropMoves.settleChanges
    | some i =>
      if d = s0.stack.number then s0.failJoin
      else if s0.memberFits d i then s0.takeMember d i
      else if s0.stack.joining.isSome then s0.failJoin
      else s0

/-- STACK_JOIN_TIMEOUT: 10 s after its STACK_CONFIG (R536). -/
def stackJoinTimeoutStep (s : State) : State :=
  match s.stack.joining with
  | none => s
  | some j => if s.time.powered < j.since + 10 * oneSecond then s else s.failJoin

/-- The media clock moved to that of the root as the device joins (R375). -/
def State.moveOrigin (s : State) (mediaNs : Nat) : State :=
  { s with clocks := { s.clocks with mediaNs := mediaNs, mediaFrac := 0, lastOrigin := some (mediaNs / 10000000) },
           blocks := s.blocks.map (fun (e : Nat × Block) => (e.1, { e.2 with lastPhase := some (mediaNs / 125000) })) }

/-- FLOW_TABLE_COPY: one entry of the sequencer's table, or its end with the root's media clock (R375, R536). -/
def flowTableCopyStep (entry : Option FlowSettings) (mediaNs : Nat) (s : State) : State :=
  match s.stack.joining with
  | none => s
  | some j =>
    let s0 := s.takeMessage s.stackRoot 0x21
    match entry with
    | some f => { s0 with flows := (applyChange s0.flows (.insert f)).1 }
    | none =>
      let s1 := { s0 with stack := { s0.stack with joining := some { j with tableCopied := true } } }
      (if s1.isFollower then s1.moveOrigin mediaNs else s1).joinStep

/-! ## Links (R529, R532, R534) -/

/-- A whole link lost: its flits discarded, the waiting ones on another path, and the members told (R534). -/
def State.loseLink (s : State) (p : Nat) : State :=
  let v := s.bgPort p
  let gone : BgPort := { counts := v.counts }
  let w := (gone.bump .linkDown 1).bump .lostFlits v.replay.length
  let s1 := s.setBgPort p w
  let s2 := v.waiting.foldl (fun s f => s.routeFlits f.dst [f]) s1
  let s3 := (s2.logError 0x34 4 9 p 0xFFFF 0 6 0).stackNotice s.stack.number 3 p 0
  s3.advertise.settleRoot.dropMoves.settleChanges

/-- STACK_LINK_LOST of port `p`. -/
def stackLinkLostStep (p : Nat) (s : State) : State := if (s.bgPort p).lanes = 0 then s else s.loseLink p

/-- LANE_LOST of port `p`: it goes on with 3 lanes, and a second loss takes the link down (R532). -/
def laneLostStep (p : Nat) (s : State) : State :=
  let v := s.bgPort p
  if v.lanes = 0 then s
  else if v.lanes = 4 then
    let s1 := s.setBgPort p ((BgPort.resend { v with lanes := 3 }).bump .lanesLost 1)
    ((s1.logError 0x33 4 6 p 0xFFFF 0 6 0).stackNotice s.stack.number 4 p 3).advertise
  else (s.setBgPort p (v.bump .lanesLost 1)).loseLink p

/-- Whether the clock of Bilgaup port `p` runs. -/
def State.linkClock (s : State) (p : Nat) : Bool := s.clockRuns (84 + p)

/-- LANE_RETRAINED of port `p`: a lane, or a link, that trains is taken back in (R532). -/
def laneRetrainedStep (p : Nat) (s : State) : State :=
  let v := s.bgPort p
  if ¬ s.linkConfigured p ∨ ¬ s.linkClock p then s
  else if v.lanes = 0 then
    (s.setBgPort p (BgPort.pump v.waiting.length { v with lanes := 4 })).stackNotice s.stack.number 2 p 4
  else if v.lanes = 3 then (s.setBgPort p { v with lanes := 4 }).advertise
  else s

/-- LINK_RETRAIN of port `p`: a flit was resent 8 times; after the retrain every flit is replayed (R529). -/
def linkRetrainStep (p : Nat) (s : State) : State :=
  let v := s.bgPort p
  if v.replay.any (fun f => decide (8 ≤ f.resends)) then
    let w := v.bump .retrains 1
    s.setBgPort p (BgPort.resend { w with replay := w.replay.map (fun f => { f with resends := 0 }) })
  else s

/-- FLIT_RECEIVED on port `p`: a HELLO that names the device at the far end is answered by an advertisement (R536). -/
def flitReceivedStep (p : Nat) (flit : List Byte) (s : State) : State :=
  if (s.bgPort p).lanes = 0 ∨ ¬ s.linkClock p then s
  else
    let s1 := s.flitIn p flit
    if (s1.bgPort p).peer = (s.bgPort p).peer then s1 else s1.advertise.settleRoot.joinStep

/-! ## One time base (R537, R538) -/

/-- The offset of a two-way exchange in Q32.32 ns: `t1` and `t4` are this device's stamps of the flit it sent and of the
answer, `t2` and `t3` those of the other end. -/
def exchangeOffset (t1 t2 t3 t4 : Stamp) : Int :=
  (((stamp16 t1 : Int) - stamp16 t2) + ((stamp16 t4 : Int) - stamp16 t3)) * 2 ^ 16 / 2

/-- TIME_FLIT_EXCHANGE on port `p`: a member takes a sample from the next device on its path to the root. -/
def timeFlitExchangeStep (p : Nat) (t1 t2 t3 t4 : Stamp) (s : State) : State :=
  if s.isFollower ∧ s.pathPort s.stackRoot = some p then (s.sample (exchangeOffset t1 t2 t3 t4) false).joinStep else s

/-- STACK_STEP_RELAY: the root's step applied with the same epoch (R538). -/
def stackStepRelayStep (amount : Int) (epoch : BitVec 16) (s : State) : State :=
  if s.isFollower then (s.takeMessage s.stackRoot (Config.messageKind 0)).stepDue (.relayed amount epoch) else s

/-! ## STACK_LEG_BLOCK (R543) -/

/-- A block of fixed audio for a STACK leg of a channel here. -/
def stackLegBlockStep (d c leg tick : Nat) (samples : List (BitVec 16 × Bool)) (s : State) : State :=
  let s0 := s.takeMessage d 0x02
  let l := (s0.channel c).runLeg leg
  if l.kind = .stack ∧ l.peerDevice = d then
    s0.modLeg c leg (takeStackBlock tick (samples.map (fun x => (signedOf 16 x.1.toNat, x.2))))
  else s0

/-! ## The flow sequencer (R144, R540) -/

/-- A change applied on this device. -/
def State.commitChange (s : State) (c : FlowChange) : State :=
  (({ s with flows := (applyChange s.flows c).1 }).bumpStack .flowChanges).settleMoves

/-- The command of the oldest change here, where it is this one, and the machine without it. -/
def State.takeChange (s : State) (c : FlowChange) : State × Option CmdRef :=
  match s.stack.changes with
  | (r, k) :: l => if k = c then ({ s with stack := { s.stack with changes := l } }, r) else (s, none)
  | [] => (s, none)

/-- A change abandoned: the refusal names the first device that refused. -/
def State.abandonChange (s : State) (c : FlowChange) (status d : Nat) : State :=
  let r := (s.bumpStack .flowAbandoned).takeChange c
  match r.2 with
  | some x => r.1.complete x status [{ typ := 0xFF03, val := beBytes 1 d }]
  | none => r.1

/-- A walk that fails for a change that is then refused still counts (R150). -/
def State.countFailedWalk (s : State) (c : FlowChange) : State :=
  if (s.changeVote c).1 = stFlowTableFull then { s with flows := (applyChange s.flows c).1 } else s

/-- The first failing vote in ascending device order. -/
def firstRefusal (votes : List (Nat × Nat)) : Option (Nat × Nat) :=
  (List.range 8).findSome? (fun d => votes.find? (fun v => v.1 == d && v.2 != stOk))

/-- Device `d` has applied the oldest change `c` that waits for it. -/
def State.appliedBy (s : State) (d : Nat) (c : FlowChange) : State :=
  let i := s.stack.applying.findIdx (fun e => decide (e.2.1 = c) && e.2.2.contains d)
  { s with stack := { s.stack with applying := s.stack.applying.modify i (fun e => (e.1, e.2.1, e.2.2.filter (· ≠ d))) } }

/-- The sequencer's turn over one change. It completes once every member has applied it. -/
def State.sequenceChange (s : State) (c : FlowChange) (votes : List (Nat × Nat)) : State :=
  let own := (s.stack.number, (s.changeVote c).1)
  match firstRefusal (own :: votes.filter (fun v => s.reachableMembers.contains v.1)) with
  | none =>
    let r := ((s.sendAll 1 0x11 (changeContent c)).commitChange c).takeChange c
    let others := s.reachableMembers.filter (· ≠ s.stack.number)
    { r.1 with stack := { r.1.stack with applying := r.1.stack.applying ++ [(r.2, c, others)] } }.settleChanges
  | some (d, st) => ((s.countFailedWalk c).sendAll 1 0x11 (beBytes 2 st :: beBytes 1 d :: changeContent c)).abandonChange c st d

/-- STACK_FLOW_CHANGE: a turn on the sequencer, or on another member. -/
def stackFlowChangeStep (turn : FlowTurn) (s : State) : State :=
  if ¬ s.stacked then s
  else
    match turn with
    | .sequence none votes =>
      match s.stack.changes with
      | (_, c) :: _ => if s.isFollower then s else s.sequenceChange c votes
      | [] => s
    | .sequence (some c) votes => if s.isFollower then s else s.sequenceChange c votes
    | .vote c =>
      if s.isFollower then
        ((s.takeMessage s.stackRoot 0x11).countFailedWalk c).sendMessage s.stackRoot 0x11 [beBytes 2 (s.changeVote c).1]
      else s
    | .commit c =>
      if s.isFollower then ((s.takeMessage s.stackRoot 0x11).commitChange c).sendMessage s.stackRoot 0x11 (changeContent c) else s
    | .abandon c st d => if s.isFollower then (s.takeMessage s.stackRoot 0x11).abandonChange c st d else s
    | .applied d c => if s.isFollower then s else ((s.takeMessage d 0x11).appliedBy d c).settleChanges
    | .finished c =>
      if s.isFollower then
        let r := (s.takeMessage s.stackRoot 0x11).takeChange c
        r.1.completeOpt r.2 stOk
      else s

/-! ## STACK_CONFIG and STACK_QUERY (R533, R535, R552) -/

def topologyOf (n : Nat) : Topology := if n = 1 then .ring else if n = 2 then .mesh else .none

/-- How many ports a LINKS mask names. -/
def linkCount (m : Nat) : Nat := ([0, 1, 2, 3].filter (fun p => m.testBit p)).length

/-- Whether LINKS agrees with TOPOLOGY (R533). -/
def linksAgree (t : Topology) (m : Nat) : Bool :=
  decide (m < 16) && (match t with
    | .none => m == 0
    | .ring => linkCount m == 2
    | .mesh => decide (1 ≤ linkCount m))

/-- Whether the power domains of the links named are in RUN (R496). -/
def State.linksPowered (s : State) (m : Nat) : Bool :=
  [0, 1, 2, 3].all (fun p => !m.testBit p || (s.powerDomain (60 + p / 2)).mode == .run)

def stackConfigBody : Body := fun x s =>
  let k := s.stack
  let n := paramNat x.params 0x40 k.number
  let t := match paramNat? x.params 0x41 with | some v => topologyOf v | none => k.topology
  let m := paramNat x.params 0x42 k.links
  let f := paramFlag x.params 0x43 k.ptpForward
  if ¬ linksAgree t m then refuseParam x stOutOfRange 0x42
  else if s.channels.any (fun e => e.2.state != .idle) then .refuse stWrongState []
  else if ¬ s.linksPowered m then .refuse stWrongState []
  else if n = k.number ∧ t = k.topology ∧ m = k.links then
    .completed stOk [] { s with stack := { k with ptpForward := f } }
  else
    let s1 := if k.joining.isSome then s.failJoin else s.leaveStack
    let s2 := { s1 with stack := { s1.stack with number := n, members := [n], topology := t, links := m, ptpForward := f } }
    if t = .none then .completed stOk [] s2
    else
      .accepted { s2 with stack := { s2.stack with
        joining := some { ref := x.ref, since := s.time.powered, tableCopied := false } } }

/-- What STACK_QUERY reports of a member. -/
def memberTlvs (d : Nat) (i : MemberInfo) : List Tlv :=
  let links := [0, 1, 2, 3].map (fun p => (i.links.find? (fun l => l.port == p)))
  [instanceTlv 9 d, { typ := 0x401, val := beBytes 1 i.fylosMin ++ beBytes 1 i.fylosMax }, rep 0x402 4 i.formats,
   rep 0x403 4 i.fwVersion,
   { typ := 0x404, val := links.map (fun l => BitVec.ofNat 8 (boolNat l.isSome)) },
   { typ := 0x405, val := links.map (fun l => BitVec.ofNat 8 (match l with | some k => k.lanes | none => 0)) }]

/-- What STACK_QUERY reports: this device, the other members, the four Bilgaup ports, and whether an Equinox lasts (R552). -/
def State.memberStackTlvs (s : State) : List Tlv :=
  let own := memberTlvs s.stack.number s.ownInfo
  let ports := [0, 1, 2, 3].flatMap (fun p => instanceTlv 11 (0x10 + p) :: counterTlvs 0x800 9 (s.bgPort p).counts)
  let device := counterTlvs 0x800 8 s.stack.counts
  let others := s.stack.infos.flatMap (fun e => memberTlvs e.1 e.2)
  own ++ device ++ others ++ ports ++ [rep 0x400 1 (boolNat s.stack.equinox.isSome)]

/-- The counters of the stack and of its ports cleared. -/
def State.clearStack (s : State) : State :=
  let t := [0, 1, 2, 3].foldl (fun s p => s.modBgPort p (fun v => { v with counts := [] })) s
  { t with stack := { t.stack with counts := [] } }

def stackQueryBody : Body := fun x s => .done stOk s.memberStackTlvs (if x.clear then s.clearStack else s)

/-! ## The meanings -/

def execStackConfig (p : Packet) (s : State) : Host.Outcome State Fault Refusal := .next (fylosRun 0x0B01 stackConfigBody p s)
def execStackQuery (p : Packet) (s : State) : Host.Outcome State Fault Refusal := .next (fylosRun 0x0B02 stackQueryBody p s)
def execStackFlowChange (turn : FlowTurn) (s : State) : Host.Outcome State Fault Refusal := .next (stackFlowChangeStep turn s)
def execFlitReceived (port : Nat) (flit : List Byte) (s : State) : Host.Outcome State Fault Refusal :=
  .next (flitReceivedStep port flit s)
def execLinkRetrain (port : Nat) (s : State) : Host.Outcome State Fault Refusal := .next (linkRetrainStep port s)
def execLaneLost (port : Nat) (s : State) : Host.Outcome State Fault Refusal := .next (laneLostStep port s)
def execLaneRetrained (port : Nat) (s : State) : Host.Outcome State Fault Refusal := .next (laneRetrainedStep port s)
def execStackLinkLost (port : Nat) (s : State) : Host.Outcome State Fault Refusal := .next (stackLinkLostStep port s)
def execStackLegBlock (device channel leg tick : Nat) (samples : List (BitVec 16 × Bool)) (s : State) :
    Host.Outcome State Fault Refusal := .next (stackLegBlockStep device channel leg tick samples s)
def execTimeFlitExchange (port : Nat) (t1 t2 t3 t4 : Stamp) (s : State) : Host.Outcome State Fault Refusal :=
  .next (timeFlitExchangeStep port t1 t2 t3 t4 s)
def execStackStepRelay (amount : Int) (epoch : BitVec 16) (s : State) : Host.Outcome State Fault Refusal :=
  .next (stackStepRelayStep amount epoch s)
def execAdvertisement (member : Nat) (info : Option MemberInfo) (s : State) : Host.Outcome State Fault Refusal :=
  .next (advertisementStep member info s)
def execFlowTableCopy (entry : Option FlowSettings) (mediaNs : Nat) (s : State) : Host.Outcome State Fault Refusal :=
  .next (flowTableCopyStep entry mediaNs s)
def execStackJoinTimeout (s : State) : Host.Outcome State Fault Refusal := .next (stackJoinTimeoutStep s)

end Sys2Proof.Machine
end

