-- ==== Sys2Proof/Machine/Move.lean ====
section
/-! DEFINITION. Moves within the device and to another device, the evacuation of a block, the ends of engine jobs, and the
tick origin (R47, R381, R395, R397, R461, R466 to R468, R544 to R549). -/

namespace Sys2Proof.Machine

/-! ## A place for a channel that moves (Table 2.3, Table 16.3) -/

/-- A slot of block `b` for a channel that needs a charge and resampler units there, or the refusal: the block, the compute
test, the DRAM test, the slot (R56, note (c)), the units and the format. -/
def State.moveSlot (s : State) (b c : Nat) (charge : Nat × Nat) (units format : Nat) : Nat ⊕ Nat :=
  if ¬ s.blockInService b then .inr stBlockUnavailable
  else
    match s.admission b (0, 0) charge with
    | some st => .inr st
    | none =>
      match s.place b c with
      | .inr st => .inr st
      | .inl t =>
        if ¬ s.unitsFit b 0 units then .inr stResamplerFull
        else if ¬ (formatMask (s.nativeFormat b)).testBit format then .inr stFormatUnreadable
        else .inl t

/-- A slot of another block of this device for a channel as it stands; its own block has its charge and units already. -/
def State.slotHere (s : State) (b c : Nat) : Nat ⊕ Nat :=
  let v := s.channel c
  if v.block = b then s.moveSlot b c (0, 0) 0 v.format
  else s.moveSlot b c (if charged v.state then v.charge else (0, 0)) v.reservedUnits v.format

/-- The thread of channel `c` to slot `t` of block `b`, with the events on their way to it (R47). A run under way is given
up, and goes from the committed context. -/
def State.moveThread (s : State) (c b t : Nat) : State :=
  let v := s.channel c
  let t0 := v.slot.getD 0
  let s0 := if interrupted (s.thread v.block t0) then s.dropRun c else s
  let k := s0.block v.block
  let old := blockThread k t0
  let cell := (s0.thread b t).cell
  let waiting := entriesOf t0 k.fifo ++ entriesOf t0 k.commandHold
  let held := k.packetHold.filter (fun a => a.flow.channel == c)
  let s1 := (s0.modBlock v.block (fun k =>
    { k with fifo := entriesNot t0 k.fifo, commandHold := entriesNot t0 k.commandHold,
             packetHold := k.packetHold.filter (fun a => a.flow.channel != c) })).modBlock b
    (fun k => { k with packetHold := k.packetHold ++ held })
  let s2 := s1.freeSlotOf v.block (some t0)
  let base := if interrupted old then readyAgain old else unstage old
  let s3 := s2.modThread b t (fun _ => { base with cell := cell, pending := base.pending ++ waiting })
  (s3.modChannel c (fun v => { v with block := b, slot := some t })).noteEmpty v.block

/-! ## CH_MOVE (R46, R47, R544, R545) -/

/-- A move into slot `t` of block `b` of this device: one of an OPEN channel is made at once, any other at the next tick
origin. -/
def State.moveHere (s : State) (c b t : Nat) (r : Option CmdRef) : State :=
  let v := s.channel c
  let s1 := (s.holdSlot b t c).wakeFor b
  if v.state = .opened then
    let s2 := s1.moveThread c b t
    if s2.blockMode b = .run then s2.completeOpt r stOk else s2.modChannel c (fun v => { v with wakeRef := r })
  else
    let charge := if v.block = b then (0, 0) else v.charge
    (s1.modChannel c (fun v => { v with
      state := .migrating,
      move := some { ref := r, from_ := v.state, device := s.stack.number, block := b, slot := t, charge := charge } })).channelNotice
      c v.state .migrating 0 0

/-- What refuses a move to device `d` here (R544). -/
def State.awayRefusal (s : State) (c d : Nat) : Option Nat :=
  let v := s.channel c
  if v.legA.kind = .tdm ∨ v.legB.kind = .tdm then some stWrongState
  else
    match tabFind? s.stack.infos d with
    | none => some stStackUnreachable
    | some i =>
      if ¬ s.canReach d then some stStackUnreachable
      else if ¬ i.formats.testBit v.format then some stFormatUnreadable
      else none

/-- A move to device `d`: the destination is asked for a place (R545 step 1). -/
def State.moveAway (s : State) (c d b : Nat) (r : Option CmdRef) : State :=
  let v := s.channel c
  let charge := if charged v.state then v.charge else (0, 0)
  let s1 := s.modChannel c (fun v => { v with
    state := .migrating,
    move := some { ref := r, from_ := v.state, device := d, block := b, slot := 0, charge := (0, 0) } })
  (s1.channelNotice c v.state .migrating 0 0).sendClass d 1 (Config.messageKind 2)
    [beBytes 2 c, beBytes 1 b, beBytes 1 v.format, beBytes 4 charge.1, beBytes 4 charge.2, beBytes 4 v.reservedUnits,
     beBytes 1 (boolNat v.wide)]

def chMoveBody : Body := fun x s =>
  let c := x.id
  let v := s.channel c
  let d := paramNat x.params 0x40 s.stack.number
  let place := paramNat x.params 0x41 0xFF
  match v.state with
  | .migrating => .refuse stChannelMigrating []
  | .idle | .draining | .faulted => .refuse stWrongState []
  | .opened | .active | .hold =>
    if d = s.stack.number then
      match blockOf c place with
      | none => refuseParam x stBadBlock 0x41
      | some b =>
        match s.slotHere b c with
        | .inr st => .refuse st []
        | .inl t => .accepted s (fun s => s.moveHere c b t (some x.ref))
    else
      match s.awayRefusal c d with
      | some st => .refuse st []
      | none => .accepted s (fun s => s.moveAway c d place (some x.ref))

/-! ## The two ends of a move between devices (R545) -/

/-- The states a channel may be in as a move begins, as the context frame names them. -/
def moveStateOf (n : Nat) : ChState := if n = 1 then .opened else if n = 3 then .hold else .active

/-- The destination is asked for a place for channel `c` of device `d`: it reserves slot, charge and units, or refuses. -/
def reserveStep (d c b format compute dram units : Nat) (wide : Bool) (s : State) : State :=
  let s0 := s.takeMessage d (Config.messageKind 2)
  let place : Nat × Nat ⊕ Nat :=
    if (s0.channel c).state ≠ .idle then .inr stNoThreadSlot
    else
      match blockOf c b with
      | none => .inr stBadBlock
      | some b =>
        match s0.moveSlot b c (compute, dram) units format with
        | .inl t => .inl (b, t)
        | .inr st => .inr st
  let answer := fun (s : State) (st : Nat) => s.sendClass d 1 (Config.messageKind 3) [beBytes 2 c, beBytes 2 st]
  match place with
  | .inr st => answer s0 st
  | .inl (b, t) =>
    let old := s0.channel c
    let s1 := (s0.setChannel c
      { state := .migrating, runState := .migrating, wide := wide, block := b, slot := some t, clearing := old.clearing,
        format := format, media := { reserved := tabSet [] 0 units 0 },
        move := some { ref := none, from_ := .idle, inbound := true, device := d, block := b, slot := t, charge := (compute, dram) } }).holdSlot
      b t c
    answer (s1.wakeFor b) stOk

/-- The first tick whose origin lies at least 1 ms after now. -/
def State.cutTick (s : State) : Nat := (s.clocks.mediaNs + 1000000 + 9999999) / 10000000

/-- The destination's answer reaches the source: the cut tick, or the end of the move (R545 steps 1 and 2). -/
def reservedStep (c status : Nat) (s : State) : State :=
  match (s.channel c).move with
  | none => s
  | some m =>
    if m.device = s.stack.number then s
    else
      let s1 := s.takeMessage m.device (Config.messageKind 3)
      if m.inbound then (if status = stOk then s1 else s1.dropMove c status)
      else if status ≠ stOk then s1.failMove c status
      else s1.modChannel c (fun v => { v with move := some { m with cut := some s.cutTick } })

/-- The peer of a STACK leg told where its channel is now (R545 step 5). -/
def setPeer (d : Nat) (l : Leg) : Leg := { l with peerDevice := d }
def State.peerTo (s : State) (c leg d : Nat) : State :=
  s.modChannel c (fun v => (v.setLeg leg (setPeer d (v.leg leg))).setRunLeg leg (setPeer d (v.runLeg leg)))

def State.tellPeers (s : State) (c d : Nat) : State :=
  let v := s.channel c
  ([v.legA, v.legB].filter (fun l => l.kind == .stack)).foldl (fun s l =>
    if l.peerDevice = s.stack.number then s.peerTo l.peerChannel l.peerLeg d
    else s.sendClass l.peerDevice 1 (Config.messageKind 4) [beBytes 2 l.peerChannel, beBytes 1 l.peerLeg, beBytes 1 d]) s

/-- The flow entries of a channel handed to the sequencer with their new DEVICE (R545 step 5). -/
def State.moveFlows (s : State) (c d : Nat) : State :=
  ((flowAll s.flows).filter (fun e => e.device == s.stack.number && e.channel == c)).foldl (fun s e =>
    let k := FlowChange.rehome e.id d
    let s1 := { s with stack := { s.stack with changes := s.stack.changes ++ [(none, k)] } }
    if s1.isFollower then s1.sendMessage s1.stackRoot 0x11 (changeContent k) else s1) s

/-- The destination's report reaches the source, or the source's abort the destination (R545 steps 4 to 6). -/
def movedStep (c status : Nat) (s : State) : State :=
  match (s.channel c).move with
  | none => s
  | some m =>
    if m.device = s.stack.number ∨ m.done then s
    else
      let s1 := s.takeMessage m.device (Config.messageKind 3)
      if m.inbound then (if status = stOk then s1 else s1.dropMove c status)
      else if ¬ m.sent then s1
      else if status ≠ stOk then s1.failMove c status
      else
        let s2 := s1.modChannel c (fun v => { v with move := some { m with done := true } })
        ((s2.tellPeers c m.device).moveFlows c m.device).settleMove c

/-- A peer's move reaches the other end of a STACK leg. -/
def peerMovedStep (c leg d : Nat) (s : State) : State :=
  if ((s.channel c).leg leg).kind = .stack then s.peerTo c leg d else s

/-- CONTEXT_FRAME_RECEIVED: the frame of a move reaches the destination, whose Enlarger takes it; one too long for the
staging area is refused (R467, R545 step 4). -/
def contextFrameStep (d c cut held : Nat) (frame : List Byte) (s : State) : State :=
  let s0 := s.takeMessage d 0x20
  let v := s0.channel c
  match v.move with
  | none => s0
  | some m =>
    if ¬ m.inbound ∨ m.device ≠ d ∨ m.sent then s0
    else if originalOver frame 65536 then
      (s0.sendClass d 1 (Config.messageKind 3) [beBytes 2 c, beBytes 2 stCheckFailed]).dropMove c stCheckFailed
    else
      (s0.modChannel c (fun v => { v with move := some { m with from_ := moveStateOf held, cut := some cut, sent := true } })).queueJobAt
        (blockRegion v.block)
        { ref := none, use := .contextIn c, cls := 0, order := 0, source := .bytes frame, chain := none, base := 0 }

/-! ## The ends of engine jobs (Table 17.3) -/

/-- A play whose prompt this device does not hold ends NOT_FOUND (R294). -/
def State.endMissing (s : State) (c leg : Nat) : Nat → State
  | 0 => s
  | fuel + 1 =>
    match ((s.channel c).legMedia leg).prompt with
    | none => s
    | some p =>
      if (s.currentPiece p).isSome then s else (s.endPlay c leg 4).endMissing c leg fuel

/-- The end of the job that takes a moving channel's context in (R545 step 4, R547). -/
def State.endContextIn (s : State) (j : Job) (c : Nat) (err : JobError) : State :=
  let v := s.channel c
  match v.move with
  | none => s
  | some m =>
    if ¬ m.inbound ∨ ¬ m.sent ∨ m.done then s
    else
      let e := enlarge (s.sourceBytes j.source) none
      let status := if err ≠ .none ∨ e.ended ≠ .confirmed then stCheckFailed
        else if ¬ Config.contextReadable (s.nativeFormat v.block) e.out then stFormatUnreadable
        else stOk
      let s1 := s.sendClass m.device 1 (Config.messageKind 3) [beBytes 2 c, beBytes 2 status]
      if status ≠ stOk then s1.dropMove c status
      else
        let w := Config.contextChannel e.out
        let s2 := s1.setChannel c
          { w with state := .migrating, runState := m.from_, block := v.block, slot := v.slot, wide := v.wide, wakeRef := none,
                   clearing := v.clearing, openWaits := v.clearing,
                   restarts := w.restarts.map (fun age => s.time.powered - age), move := some { m with done := true },
                   resumeAt := m.cut.getD 0 + 2 }
        let s3 := s2.modThread v.block (v.slot.getD 0) (fun k =>
          { schedThread w.accepted c (placedThread c k.cell) with first := true })
        let s4 := [0, 1].foldl (fun s leg => s.endMissing c leg (((s.channel c).legMedia leg).queue.length + 1)) s3
        s4.settleMove c

/-- The end of the job that compresses a moving channel's context (R545 step 3). -/
def State.endContextOut (s : State) (j : Job) (c : Nat) (err : JobError) : State :=
  match (s.channel c).move with
  | none => s
  | some m =>
    if m.inbound ∨ ¬ m.sent ∨ m.device = s.stack.number then s
    else
      match err with
      | .none => s.sendMessage m.device 0x20
          [beBytes 2 c, beBytes 8 (m.cut.getD 0), beBytes 1 m.from_.ctorIdx, reduce (s.sourceBytes j.source)]
      | .source | .descriptor => (s.abortMove m c stInternalFault).failMove c stInternalFault

/-- The clock domain of a region's engine (Table 18.2). -/
def engineClock (r : Nat) : Nat := 60 + r

/-- ENLARGER_JOB_END of region `r`: what its running job commits or reports (R461, R466, R467). -/
def enlargerJobEndStep (r : Nat) (err : JobError) (s : State) : State :=
  match (s.engine r).enlarger.running with
  | none => s
  | some j =>
    if ¬ s.clockRuns (engineClock r) then s
    else
      let s1 := (s.logJobError err).dropRunning r false
      match j.use with
      | .firmware slot => s1.endFirmware j slot err
      | .table id => s1.endTable j id err
      | .kernel => s1.endKernel j err
      | .prompt id => s1.endPrompt j id err
      | .piece p i => s1.endPiece j (p, i) err
      | .contextIn c => s1.endContextIn j c err
      | .imageEnlarge => s1.endEnlarge j (j.chain.getD 0) err
      | .contextOut _ | .imageReduce | .traceDump => s1

/-- REDUCER_JOB_END of region `r` (R460, R465, R466). -/
def reducerJobEndStep (r : Nat) (err : JobError) (s : State) : State :=
  match (s.engine r).reducer.running with
  | none => s
  | some j =>
    if ¬ s.clockRuns (engineClock r) then s
    else
      let s1 := (s.logJobError err).dropRunning r true
      match j.use with
      | .contextOut c => s1.endContextOut j c err
      | .imageReduce | .traceDump => s1.endReduce j (j.chain.getD 0) err
      | .firmware _ | .table _ | .kernel | .prompt _ | .piece _ _ | .contextIn _ | .imageEnlarge => s1

/-! ## BLOCK_EVACUATE (R546) -/

/-- The lowest-numbered other block that takes a channel, or the refusal of the lowest one in service. -/
def State.evacuationPlace (s : State) (b c : Nat) : (Nat × Nat) ⊕ Nat :=
  let others := (List.range 16).filter (fun k => k != b && s.blockInService k)
  match others.findSome? (fun k => match s.slotHere k c with | .inl t => some (k, t) | .inr _ => none) with
  | some p => .inl p
  | none =>
    match others with
    | [] => .inr stBlockUnavailable
    | k :: _ => match s.slotHere k c with
      | .inl _ => .inr stBlockUnavailable
      | .inr st => .inr st

/-- One channel of an evacuation: its move begun, or the evacuation ended by its refusal. -/
def State.evacuateOne (s : State) (b c : Nat) : State :=
  let v := s.channel c
  let d := (s.block b).evacuateTo
  if (s.block b).evacuation = [] then s
  else
    match v.state with
    | .migrating | .idle => s
    | .draining | .faulted => s.failEvacuation b stWrongState
    | .opened | .active | .hold =>
      if d = s.stack.number then
        match s.evacuationPlace b c with
        | .inl (k, t) => s.moveHere c k t none
        | .inr st => s.failEvacuation b st
      else
        match s.awayRefusal c d with
        | some st => s.failEvacuation b st
        | none => s.moveAway c d 0xFF none

/-- The moves of an evacuation, in ascending channel order; an empty block completes it. -/
def State.evacuate (s : State) (b : Nat) : State :=
  if (s.block b).evacuation = [] then s
  else if ¬ s.holdsChannels b then s.failEvacuation b stOk
  else (s.channelsOf b).foldl (fun s c => s.evacuateOne b c) s

def blockEvacuateBody : Body := fun x s =>
  let d := paramNat x.params 0x40 s.stack.number
  if d ≠ s.stack.number ∧ ¬ s.canReach d then .refuse stStackUnreachable []
  else
    .accepted (s.modBlock x.id (fun k =>
      { k with evacuating := true, evacuation := k.evacuation ++ [x.ref], evacuateTo := d })) (fun s => s.evacuate x.id)

/-! ## TICK_ORIGIN (R286, R381, R395, R397, R546, R549) -/

/-- The scheduling changes of one block applied (R397). -/
def State.applySchedule (s : State) (b : Nat) : State :=
  (s.block b).schedule.foldl (fun s e =>
    let v := s.channel e.1
    match v.slot with
    | none => s
    | some t =>
      let w := mergeSettings v.applied e.2
      (s.setChannel e.1 { v with applied := w }).modThread v.block t (schedThread w e.1))
    (s.modBlock b (fun k => { k with schedule := [] }))

/-- The threads of a cell that takes the reserve role bound to active cells; a run in progress finishes where it is (R395). -/
def State.clearCell (s : State) (b i : Nat) : State :=
  (boundTo (s.block b) i).foldl (fun s e =>
    let dest := s.bindCell b
    s.modThread b e.1 (fun t => { unstage t with cell := dest })) s

/-- A spare policy that waits for the tick origin (R395). -/
def State.applySpare (s : State) (b : Nat) : State :=
  let k := s.block b
  match k.sparePending with
  | none => s
  | some one =>
    let s1 := s.modBlock b (fun k => { k with sparePending := none, spareOne := one })
    if one ∧ ¬ k.spareOne then
      if cellInService (s.cell (8 * b + k.role)) then
        (s1.modBlock b (fun k => { k with reserve := some k.role })).clearCell b k.role
      else s1
    else if ¬ one then s1.modBlock b (fun k => { k with reserve := none })
    else s1

/-- A move within the device made, once its block runs and no run of it is under way (R47). -/
def State.completeMove (s : State) (c : Nat) : State :=
  let v := s.channel c
  match v.move with
  | none => s
  | some m =>
    if m.inbound ∨ m.device ≠ s.stack.number then s
    else if ¬ s.recoverable m.block then s.failMove c stBlockUnavailable
    else if s.blockMode m.block ≠ .run ∨ interrupted (s.thread v.block (v.slot.getD 0)) ∨ tabHas s.openRuns c then s
    else
      let s1 := (s.moveThread c m.block m.slot).modChannel c (fun v => { v with state := m.from_, move := none })
      (s1.completeOpt m.ref stOk).channelNotice c .migrating m.from_ 2 0

/-- The largest of a list by a measure; the first of equals. -/
def mostBy {α : Type} (f : α → Nat) : List α → Option α
  | [] => none
  | a :: r =>
    match mostBy f r with
    | none => some a
    | some b => if f b ≤ f a then some a else some b

/-- One channel thread in WAITING rebound, where the sums of two cells lie far enough apart (R381). -/
def State.rebind (s : State) (b : Nat) : State :=
  let cells := s.activeCells b
  match mostBy (s.cellSum b) cells, leastCell (s.cellSum b) cells with
  | some hi, some lo =>
    let gap := s.cellSum b hi - s.cellSum b lo
    let load := fun (e : Nat × Thread) => (s.channel e.2.channel).charge.1
    let fits := (s.block b).threads.filter (fun e =>
      decide (e.1 < 1024 ∧ e.2.state = .waiting ∧ e.2.cell = hi ∧ 0 < load e ∧ 2 * load e ≤ gap))
    match mostBy load fits with
    | some e => (s.modThread b e.1 (fun t => { t with cell := lo })).bumpBlock b .rebinds
    | none => s
  | _, _ => s

/-- The context of a moving channel that had no run in its cut tick (R545). -/
def State.lateContext (s : State) (c : Nat) : State :=
  let v := s.channel c
  match v.move with
  | none => s
  | some m =>
    if m.cut.getD s.tick < s.tick ∧ ¬ interrupted (s.thread v.block (v.slot.getD 0)) then s.contextLeaves c s.tick else s

def State.eachBlock (s : State) (f : State → Nat → State) : State := (List.range 16).foldl f s
def State.eachMoving (s : State) (f : State → Nat → State) : State :=
  ((s.channels.filter (fun e => e.2.move.isSome)).map (·.1)).foldl f s

/-- TICK_ORIGIN: what takes effect as a tick begins, once in each tick. -/
def tickOriginStep (s : State) : State :=
  if s.clocks.lastOrigin = some s.tick then s
  else
    let s0 := { s with clocks := { s.clocks with lastOrigin := some s.tick },
                       stack := { s.stack with commitFormat := s.stack.equinox.map (fun (e : Equinox) => e.format) } }
    let s1 := ((s0.commitTables).eachBlock State.applySchedule).eachBlock State.applySpare
    let s2 := (s1.eachMoving State.completeMove).eachMoving State.lateContext
    (s2.eachBlock State.rebind).eachBlock State.evacuate

/-! ## The meanings -/

def execChMove (p : Packet) (s : State) : Host.Outcome State Fault Refusal := .next (fylosRun 0x0208 chMoveBody p s)
def execBlockEvacuate (p : Packet) (s : State) : Host.Outcome State Fault Refusal := .next (fylosRun 0x0B03 blockEvacuateBody p s)
def execContextFrameReceived (device channel cut held : Nat) (frame : List Byte) (s : State) : Host.Outcome State Fault Refusal :=
  .next (contextFrameStep device channel cut held frame s)
def execEnlargerJobEnd (region : Nat) (err : JobError) (s : State) : Host.Outcome State Fault Refusal :=
  .next (enlargerJobEndStep region err s)
def execReducerJobEnd (region : Nat) (err : JobError) (s : State) : Host.Outcome State Fault Refusal :=
  .next (reducerJobEndStep region err s)
def execTickOrigin (s : State) : Host.Outcome State Fault Refusal := .next (tickOriginStep s)

end Sys2Proof.Machine
end

