-- ==== Sys2Proof/Machine/Device.lean ====
section
/-! DEFINITION. The device, region, block, cell and firmware commands that have no chapter of their own, the error log read and the
sensors (R421, R438 to R441, R452, R511, R526, R550, R551, R603). -/

namespace Sys2Proof.Machine

/-! ## DEV_HELLO, DEV_QUERY and the UDP key (R420, R421, R438) -/

/-- BOOT_NONCE (Table 15.3). -/
def nonceTlv (s : State) : Tlv := { typ := 0xFF04, val := s.fylos.bootNonce }

def devHelloBody : Body := fun _ s =>
  .done stOk [nonceTlv s, supportedVersions, rep 0x400 4 s.stack.number, rep 0x401 1 s.life.lifeCycle] s

/-- The channels that are not IDLE. -/
def State.openChannels (s : State) : Nat := (s.channels.filter (fun e => e.2.state != .idle)).length

/-- What DEV_QUERY reports (R438). -/
def State.deviceTlvs (s : State) : List Tlv :=
  [rep 0x400 1 1, rep 0x401 6 s.life.macBase, rep 0x402 1 s.life.lifeCycle, rep 0x403 4 s.life.fwVersion,
   rep 0x404 4 s.formatsRead, rep 0x405 4 s.stack.number, rep 0x406 4 s.openChannels] ++ counterTlvs 0x800 9 s.fylos.counts

def devQueryBody : Body := fun x s =>
  .done stOk s.deviceTlvs (if x.clear then { s with fylos := { s.fylos with counts := [] } } else s)

/-- The key of the present life-cycle state is burned once (R420). -/
def devUdpKeySetBody : Body := fun x s =>
  if s.udpKey?.isSome then .refuse stWrongState []
  else
    .done stOk [] { s with life := { s.life with udpKeys := tabPut s.life.udpKeys s.life.lifeCycle ((paramBytes? x.params 0x40).getD []) } }

/-! ## DEV_NOTICE_CONFIG (R426, R441) -/

def destKindOf (n : Nat) : DestKind := if n = 0 then .none else if n = 1 then .ring else .udp

/-- What a KIND needs. -/
def destNeeds (k : DestKind) : List Nat := match k with | .none => [] | .ring => [0x42] | .udp => [0x43, 0x44]

/-- A destination with the settings given; its queue and SEQUENCE stay (R441). -/
def destWith (l : List Param) (k : DestKind) (v : NoticeDest) : NoticeDest :=
  { v with kind := k, ringPair := paramNat l 0x42 v.ringPair, addr := (paramBytes? l 0x43).getD v.addr,
           port := paramNat l 0x44 v.port, groups := paramNat l 0x45 v.groups % 2 ^ 11, version := paramNat l 0x46 v.version }

def devNoticeConfigBody : Body := fun x s =>
  let d := paramNat x.params 0x40 0
  let v := s.dest d
  let k := match paramNat? x.params 0x41 with | some n => destKindOf n | none => v.kind
  match (if k = v.kind then none else (destNeeds k).find? (fun t => !(paramHas x.params t))) with
  | some t => refuseMissing x t
  | none => .done stOk [] (s.setDest d (destWith x.params k v))

/-! ## DEV_RESET and DEV_LIFECYCLE (R439, R506) -/

def devResetBody : Body := fun _ s => .fenced .reset s

def devLifecycleBody : Body := fun x s =>
  let k := paramNat x.params 0x40 0
  if (paramBytes? x.params 0x41).getD [] ≠ s.fylos.bootNonce.take 4 then refuseParam x stOutOfRange 0x41
  else if k ≤ s.life.lifeCycle ∨ (s.life.lifeCycle = 0 ∧ s.life.keyBlank) then .refuse stWrongState []
  else .fenced (.lifeCycle k) s

/-! ## Weights (R23, R438) -/

/-- Weights given set over those held; a weight never set is 16. -/
def weightsWith (l : List Param) (w : Tab Nat) : Tab Nat := l.foldl (fun w q => tabSet w (q.typ - 0x40) (beNat q.val) 16) w

def devArbSetBody : Body := fun x s => .done stOk [] { s with board := { s.board with weights := weightsWith x.params s.board.weights } }

def regionArbSetBody : Body := fun x s =>
  .done stOk [] (s.modRegion x.id (fun r => { r with weights := weightsWith x.params r.weights }))

/-! ## BLOCK_CONFIG and BLOCK_QUERY (R57, R395, R398) -/

/-- The spare policy that a block has at its next tick origin. -/
def nextSpare (k : Block) : Bool := k.sparePending.getD k.spareOne

def blockConfigBody : Body := fun x s =>
  match paramNat? x.params 0x40 with
  | none => .done stOk [] s
  | some n =>
    if n = 0 ∧ ¬ nextSpare (s.block x.id) ∧ 99960 < (s.blockSums x.id).1 then .refuse stAdmissionCompute []
    else .done stOk [] (s.modBlock x.id (fun k => { k with sparePending := some (n == 0) }))

/-- The channel slots of a block that are held. -/
def slotsHeld (k : Block) : Nat := (k.threads.filter (fun e => decide (e.1 < 1024 ∧ e.2.state ≠ .free))).length

/-- What BLOCK_QUERY reports of a block (R398). -/
def State.blockTlvs (s : State) (b : Nat) : List Tlv :=
  let k := s.block b
  let sums := s.blockSums b
  let live := (List.range 8).filter (fun i => cellInService (s.cell (8 * b + i)))
  [rep 0x40 1 (boolNat (!k.spareOne)), rep 0x400 1 (maskOf live), rep 0x401 4 (k.reserve.getD noneValue),
   rep 0x402 4 sums.1, rep 0x403 4 sums.2] ++ (List.range 8).map (fun i => rep (0x404 + i) 4 (s.cellSum b i)) ++
  [rep 0x40C 4 (slotsHeld k), rep 0x40D 4 k.peakFifo, rep 0x40E 4 k.peakPool] ++ counterTlvs 0x800 13 k.counts

def blockQueryBody : Body := fun x s =>
  .done stOk (s.blockTlvs x.id) (if x.clear then s.modBlock x.id (fun k => { k with counts := [] }) else s)

/-! ## Resets of a region, a block or a cell (R440, R495, R497, R501) -/

/-- A command that completes when its scope is back in service. -/
def State.awaitReset (s : State) (scope id : Nat) (r : CmdRef) : State :=
  { s with life := { s.life with resets := s.life.resets ++ [(scope, id, r)] } }

/-- A power domain woken for a reset (R497): at once from SLEEP. -/
def State.wakeForReset (s : State) (l : List Nat) : State :=
  l.foldl (fun s p => match (s.powerDomain p).mode with
    | .run => s
    | .sleep => s.wakeDomain p
    | .deepSleep => s.startWakeDomain p) s

/-- A block under reset: its dispatcher and block memory wiped, its events gone (R501). -/
def wipedBlock (k : Block) : Block :=
  { k with underReset := true, isolated := false, evacuating := false, threads := [], fifo := [], commandHold := [], packetHold := [],
           records := [], saves := [], commits := [], memory := [], taken := [], notices := [], schedule := [], lastPhase := none }

/-- A cell under reset, its memories wiped; the times of its memory traps stay (R501, R521). -/
def wipedCell (c : Cell) : Cell := { underReset := true, memTraps := c.memTraps }

/-- A block reset begun: its cells and its memory are wiped. -/
def State.wipeBlock (s : State) (b : Nat) : State :=
  (List.range 8).foldl (fun s i => s.modCell (8 * b + i) wipedCell) (s.modBlock b wipedBlock)

/-- The cells of a block and its templates refilled, and the reserve role set again (R324, R394, R501). -/
def State.returnBlock (s : State) (b : Nat) : State :=
  let s0 := s.modBlock b (fun k => { k with firmware := k.activate.getD k.firmware, activate := none })
  ((List.range 8).foldl (fun s i => s.resetCell (8 * b + i)) (s0.loadTemplates b)).modBlock b (fun k =>
    { k with underReset := false,
             reserve := if k.spareOne then some k.role else none, emptySince := s.time.powered })

def blockResetBody : Body := fun x s =>
  let b := x.id
  if s.holdsChannels b ∨ (s.region (blockRegion b)).underReset then .refuse stWrongState []
  else .accepted (s.awaitReset 2 b x.ref) (fun s => (s.wakeForReset (blockDomains b)).wipeBlock b)

def cellResetBody : Body := fun x s =>
  let n := x.id
  let b := cellBlock n
  let k := s.block b
  let spare := k.reserve == some (cellLocal n) && (boundTo k (cellLocal n)).isEmpty
  if k.underReset ∨ (s.region (blockRegion b)).underReset ∨ ¬ ((s.cell n).trap.isSome ∨ spare) then .refuse stWrongState []
  else .accepted (s.awaitReset 3 n x.ref) (fun s => (s.wakeForReset (blockDomains b)).modCell n wipedCell)

/-- The blocks of a region. -/
def regionBlocks (r : Nat) : List Nat := [4 * r, 4 * r + 1, 4 * r + 2, 4 * r + 3]

/-- The packets held for a region under reset are discarded and counted (R501). -/
def State.dropHeld (s : State) (r : Nat) : State :=
  let n := ((regionBlocks r).map (fun b => (s.block b).packetHold.length)).sum
  s.modRegion r (fun g => { g with counts := countAdd g.counts RegionCount.ingressDiscard.ctorIdx n })

/-- A region reset begun; its running jobs go on to their ends (R469). -/
def State.wipeRegion (s : State) (r : Nat) : State :=
  let s1 := (s.dropHeld r).modRegion r (fun g => { g with underReset := true, bufferUsed := 0, egress := [], descriptors := [] })
  (regionBlocks r).foldl State.wipeBlock s1

def regionResetBody : Body := fun x s =>
  let r := x.id
  if (regionBlocks r).any s.holdsChannels then .refuse stWrongState []
  else
    .accepted (s.awaitReset 1 r x.ref) (fun s =>
      (((regionBlocks r).foldl (fun s b => s.wakeForReset (blockDomains b)) s).wakeForReset [52 + r]).wipeRegion r)

/-! ## Firmware slots (R511, R550, R551) -/

/-- The selector copy that boot would use: valid, and the newer of two (R511). -/
def Life.selectorInUse (l : Life) : Option Nat :=
  if l.selector0.valid ∧ l.selector1.valid then
    (let d := (l.selector1.generation - l.selector0.generation).toNat
     if d ≠ 0 ∧ d < 2 ^ 31 then some 1 else some 0)
  else if l.selector0.valid then some 0
  else if l.selector1.valid then some 1
  else none

def Life.selector (l : Life) (i : Nat) : Selector := if i = 0 then l.selector0 else l.selector1

/-- The copy not in use written with the next generation (R511). -/
def Life.writeSelector (l : Life) (slot : Nat) : Life :=
  match l.selectorInUse with
  | some 0 => { l with selector1 := { valid := true, slot := slot, generation := l.selector0.generation + 1 } }
  | some _ => { l with selector0 := { valid := true, slot := slot, generation := l.selector1.generation + 1 } }
  | none => { l with selector0 := { valid := true, slot := slot, generation := 1 } }

/-- A slot's description. -/
def State.fwSlot (s : State) (k : Nat) : FwSlot := if s.life.failedSlots.contains k then {} else tabGet s.life.slots k {}

def fwActivateBody : Body := fun x s =>
  let k := paramNat x.params 0x40 0
  if ¬ (s.fwSlot k).held then .refuse stWrongState []
  else .done stOk [] { s with life := s.life.writeSelector k }

/-- A slot's state: 0 EMPTY, 1 VERIFIED, 2 ACTIVE. -/
def State.slotState (s : State) (k : Nat) : Nat := if ¬ (s.fwSlot k).held then 0 else if s.slotRuns k then 2 else 1

/-- What FW_QUERY reports of slots A and B (R511). -/
def State.firmwareTlvs (s : State) : List Tlv :=
  [0, 1].flatMap (fun k =>
    let v := s.fwSlot k
    [instanceTlv 12 k, rep 0x400 4 v.version, rep 0x401 4 v.format, { typ := 0x402, val := beBytes 1 v.fylosMin ++ beBytes 1 v.fylosMax },
     rep 0x403 1 (s.slotState k)])

def fwQueryBody : Body := fun _ s => .done stOk s.firmwareTlvs s

/-- The opcode that carries a settings group. -/
def groupOpcode (g : Nat) : Nat :=
  if g = 0 then 0x0501 else if g = 1 then 0x0601 else if g = 2 then 0x0603 else if g = 3 then 0x0401 else if g = 4 then 0x0701
  else if g = 5 then 0x0704 else if g = 6 then 0x020B else 0x0C21

/-- Whether a channel's settings use what a release lacks (R551). -/
def usesLacking (l : List Lack) (v : Channel) : Bool :=
  v.state != .idle && v.accepted.any (fun e => l.any (fun k =>
    k.opcode == groupOpcode (e.1 / 65536 / 8) &&
    (match k.typ with | none => true | some t => t == e.1 % 65536) && (match k.value with | none => true | some w => w == e.2)))

/-- Why a block cannot take a slot's firmware, if it cannot (R551). -/
def State.activateRefused (s : State) (b k : Nat) : Bool :=
  let t := s.modBlock b (fun v => { v with firmware := k })
  let l := t.memberInfos
  !(versionsAgree l) ||
  (s.equinoxNow.isNone && (stackVersions l).length == 2 &&
   s.channels.any (fun e => usesLacking (versionLacks (leastOf (stackVersions l))) e.2))

def fwBlockActivateBody : Body := fun x s =>
  let b := x.id
  let k := paramNat x.params 0x40 0
  if s.holdsChannels b ∨ ¬ (s.fwSlot k).held ∨ (s.region (blockRegion b)).underReset then .refuse stWrongState []
  else if s.activateRefused b k then .refuse stFeatureVersion []
  else
    .accepted (s.awaitReset 2 b x.ref) (fun s =>
      let s1 := ((s.wakeForReset (blockDomains b)).wipeBlock b).modBlock b (fun v => { v with activate := some k })
      if s.life.management = k then s1
      else { s1 with fylos := { s1.fylos with switching := true }, life := { s1.life with switchTo := some k } })

/-- MANAGEMENT_FIRMWARE_SWITCHED: Damium runs the new slot, and takes commands again (R550). -/
def firmwareSwitchedStep (s : State) : State :=
  match s.life.switchTo with
  | none => s
  | some k =>
    let v := s.fwSlot k
    { s with fylos := { s.fylos with switching := false },
             life := { s.life with switchTo := none, management := k, fwSource := k + 1, fwVersion := v.version, fwFormat := v.format } }

/-! ## SCOPE_RESET_COMPLETE (R440, R501, R550) -/

/-- The commands that wait for one scope completed. -/
def State.payReset (s : State) (scope id : Nat) : State :=
  let due := s.life.resets.filter (fun e => e.1 == scope && e.2.1 == id)
  due.foldl (fun s e => s.complete e.2.2 stOk [])
    { s with life := { s.life with resets := s.life.resets.filter (fun e => !(e.1 == scope && e.2.1 == id)) } }

/-- The slot selector follows once the last of the 16 blocks runs a slot (R550). -/
def State.settleSelector (s : State) (k : Nat) : State :=
  if k < 2 ∧ (List.range 16).all (fun b => (s.block b).firmware == k) then { s with life := s.life.writeSelector k } else s

/-- A block back in service; where it changed firmware, the members are told (R548, R549). -/
def State.endBlockReset (s : State) (b : Nat) : State :=
  let a := (s.block b).activate
  let s1 := s.returnBlock b
  match a with
  | none => s1
  | some k => ((s1.settleSelector k).advertise).settleEquinox

/-- Whether every power domain of a block runs. -/
def State.blockAwake (s : State) (b : Nat) : Bool := s.blockMode b == .run

/-- SCOPE_RESET_COMPLETE of a target scope: 1 region, 2 block, 3 cell. -/
def scopeResetStep (scope id : Nat) (s : State) : State :=
  if s.fylos.switching then s
  else if scope = 1 then
    let e := s.engine id
    if ¬ (s.region id).underReset ∨ e.reducer.running.isSome ∨ e.enlarger.running.isSome ∨ ¬ (regionBlocks id).all s.blockAwake then s
    else
      let s1 := (regionBlocks id).foldl State.endBlockReset (s.modRegion id (fun g => { g with underReset := false }))
      (regionBlocks id).foldl (fun s b => s.payReset 2 b) (s1.payReset 1 id)
  else if scope = 2 then
    if ¬ (s.block id).underReset ∨ (s.region (blockRegion id)).underReset ∨ ¬ s.blockAwake id then s
    else
      let s1 := s.endBlockReset id
      (List.range 8).foldl (fun s i => s.payReset 3 (8 * id + i)) (s1.payReset 2 id)
  else if scope = 3 then
    if ¬ (s.cell id).underReset ∨ (s.block (cellBlock id)).underReset ∨ ¬ s.blockAwake (cellBlock id) then s
    else (s.returnCell id).payReset 3 id
  else s

/-! ## ERROR_LOG_READ and SENSOR_QUERY (R524, R526, R581, R603) -/

/-- ELOG_NEWEST and ELOG_OLDEST (Table 20.3). -/
def ErrorLog.newest (l : ErrorLog) : Nat := match l.entries.getLast? with | some e => e.seq | none => 0
def ErrorLog.oldest (l : ErrorLog) : Nat := match l.entries.head? with | some e => e.seq | none => 0

/-- The eight words of an entry (Table 20.4). -/
def logWords (e : LogEntry) : List Nat :=
  [e.seq, e.cause % 256 + 256 * (e.level % 16) + 4096 * (e.action % 16) + 65536 * (e.unit % 65536), e.channel % 65536 + 65536 * (e.detail % 65536),
   e.memory % 16, e.address % 2 ^ 32, e.address / 2 ^ 32, e.time % 2 ^ 32, e.time / 2 ^ 32]

def logBytes (e : LogEntry) : List Byte := ((logWords e).map (beBytes 4)).flatten

def logTotals (l : ErrorLog) : List Tlv := [rep 0x401 4 l.corrected, rep 0x402 4 l.uncorrected, rep 0x403 4 l.fatal]

/-- At most `count` entries of the log from sequence `first` on, and its totals (R526). -/
def logTlvs (l : ErrorLog) (first count : Nat) : List Tlv :=
  ((l.entries.filter (fun e => decide (first ≤ e.seq))).take count).map (fun e => { typ := 0x400, val := logBytes e }) ++ logTotals l

def errorLogReadBody : Body := fun x s =>
  let l := s.log
  .done stOk (logTlvs l (paramNat x.params 0x40 l.oldest) (paramNat x.params 0x41 256))
    (if x.clear then { s with log := { l with corrected := 0, uncorrected := 0, fatal := 0 } } else s)

/-- The 8 temperatures and the 8 supplies are what the part measures: free values. -/
def State.sensorTlvs (s : State) : List Tlv :=
  let v := fun (i n : Nat) => Config.freeAt s.draws i % 256 ^ n
  (List.range 8).map (fun i => rep (0x400 + i) 2 (v i 2)) ++ (List.range 8).map (fun i => rep (0x408 + i) 4 (v (8 + i) 4))

def sensorQueryBody : Body := fun _ s => .done stOk s.sensorTlvs s.drawn

/-! ## The meanings -/

def execDevHello (p : Packet) (s : State) : Host.Outcome State Fault Refusal := .next (fylosRun 0x0101 devHelloBody p s)
def execDevUdpKeySet (p : Packet) (s : State) : Host.Outcome State Fault Refusal := .next (fylosRun 0x0102 devUdpKeySetBody p s)
def execDevNoticeConfig (p : Packet) (s : State) : Host.Outcome State Fault Refusal := .next (fylosRun 0x0103 devNoticeConfigBody p s)
def execDevQuery (p : Packet) (s : State) : Host.Outcome State Fault Refusal := .next (fylosRun 0x0104 devQueryBody p s)
def execDevReset (p : Packet) (s : State) : Host.Outcome State Fault Refusal := .next (fylosRun 0x0105 devResetBody p s)
def execDevLifecycle (p : Packet) (s : State) : Host.Outcome State Fault Refusal := .next (fylosRun 0x0106 devLifecycleBody p s)
def execDevArbSet (p : Packet) (s : State) : Host.Outcome State Fault Refusal := .next (fylosRun 0x0107 devArbSetBody p s)
def execBlockConfig (p : Packet) (s : State) : Host.Outcome State Fault Refusal := .next (fylosRun 0x0110 blockConfigBody p s)
def execBlockQuery (p : Packet) (s : State) : Host.Outcome State Fault Refusal := .next (fylosRun 0x0111 blockQueryBody p s)
def execBlockReset (p : Packet) (s : State) : Host.Outcome State Fault Refusal := .next (fylosRun 0x0112 blockResetBody p s)
def execCellReset (p : Packet) (s : State) : Host.Outcome State Fault Refusal := .next (fylosRun 0x0113 cellResetBody p s)
def execRegionReset (p : Packet) (s : State) : Host.Outcome State Fault Refusal := .next (fylosRun 0x0114 regionResetBody p s)
def execRegionArbSet (p : Packet) (s : State) : Host.Outcome State Fault Refusal := .next (fylosRun 0x0115 regionArbSetBody p s)
def execFwActivate (p : Packet) (s : State) : Host.Outcome State Fault Refusal := .next (fylosRun 0x0C02 fwActivateBody p s)
def execFwQuery (p : Packet) (s : State) : Host.Outcome State Fault Refusal := .next (fylosRun 0x0C03 fwQueryBody p s)
def execFwBlockActivate (p : Packet) (s : State) : Host.Outcome State Fault Refusal := .next (fylosRun 0x0C04 fwBlockActivateBody p s)
def execErrorLogRead (p : Packet) (s : State) : Host.Outcome State Fault Refusal := .next (fylosRun 0x0E01 errorLogReadBody p s)
def execSensorQuery (p : Packet) (s : State) : Host.Outcome State Fault Refusal := .next (fylosRun 0x0E04 sensorQueryBody p s)
def execScopeResetComplete (scope id : Nat) (s : State) : Host.Outcome State Fault Refusal := .next (scopeResetStep scope id s)

end Sys2Proof.Machine
end

