-- ==== Sys2Proof/Machine/FylosAll.lean ====
section
/-! DEFINITION. The own rules of every opcode, and the turns in which Damium takes commands from its five sources (R405, R414, R416,
R432, R550, R578). -/

namespace Sys2Proof.Machine

/-- The own rules of an opcode of a range, from the list of its range. -/
def bodyIn (l : List (Nat × Body)) (op : Nat) : Option Body := (l.find? (fun e => e.1 == op)).map (·.2)

def bodies01 : List (Nat × Body) :=
  [(0x0101, devHelloBody), (0x0102, devUdpKeySetBody), (0x0103, devNoticeConfigBody), (0x0104, devQueryBody),
   (0x0105, devResetBody), (0x0106, devLifecycleBody), (0x0107, devArbSetBody), (0x0110, blockConfigBody),
   (0x0111, blockQueryBody), (0x0112, blockResetBody), (0x0113, cellResetBody), (0x0114, regionResetBody),
   (0x0115, regionArbSetBody)]

def bodies02 : List (Nat × Body) :=
  [(0x0201, chOpenBody), (0x0202, chSetLegBody), (0x0203, chActivateBody), (0x0204, chHoldBody), (0x0205, chResumeBody),
   (0x0206, chDrainBody), (0x0207, chCloseBody), (0x0208, chMoveBody), (0x0209, chRecoverBody), (0x020A, chQueryBody),
   (0x020B, chSchedSetBody)]

def bodies03 : List (Nat × Body) :=
  [(0x0301, flowInsertBody), (0x0302, flowRemoveBody), (0x0303, flowModifyBody), (0x0304, flowQueryBody), (0x0305, srtpSetBody),
   (0x0306, srtpClearBody), (0x0307, srtpQueryBody), (0x0308, templateLoadBody), (0x0309, templateRemoveBody),
   (0x030A, peConfigBody), (0x030B, peCountersBody)]

def bodies04 : List (Nat × Body) :=
  [(0x0401, echoSetBody), (0x0402, echoQueryBody), (0x0403, echoCoefReadBody)]

def bodies05 : List (Nat × Body) :=
  [(0x0501, playoutSetBody), (0x0502, playoutQueryBody)]

def bodies06 : List (Nat × Body) :=
  [(0x0601, codecSetBody), (0x0602, codecQueryBody), (0x0603, resampleSetBody), (0x0604, resampleResetBody),
   (0x0605, resampleQueryBody)]

def bodies07 : List (Nat × Body) :=
  [(0x0701, toneDetectSetBody), (0x0702, tonePlayBody), (0x0703, toneStopBody), (0x0704, gainSetBody), (0x0710, tableLoadBody),
   (0x0711, tableDeleteBody), (0x0712, tableQueryBody), (0x0713, tableReadBody), (0x0720, promptLoadBody),
   (0x0721, promptDeleteBody), (0x0722, promptPlayBody), (0x0723, promptStopBody), (0x0724, promptQueryBody),
   (0x0725, promptStoreConfigBody)]

def bodies08 : List (Nat × Body) :=
  [(0x0801, tdmGroupConfigBody), (0x0802, tdmHighwayConfigBody), (0x0803, tdmLoopbackBody), (0x0804, tdmQueryBody)]

def bodies09 : List (Nat × Body) :=
  [(0x0901, timeConfigBody), (0x0902, timeSetBody), (0x0903, timeStepBody), (0x0904, timeQueryBody), (0x0905, servoConfigBody),
   (0x0906, servoSampleBody), (0x0907, portTsConfigBody), (0x0908, ptpSendBody)]

def bodies0A : List (Nat × Body) :=
  [(0x0A01, portConfigBody), (0x0A02, shutterLoadBody), (0x0A03, shutterQueryBody), (0x0A04, portPairBody),
   (0x0A05, portCountersBody)]

def bodies0B : List (Nat × Body) :=
  [(0x0B01, stackConfigBody), (0x0B02, stackQueryBody), (0x0B03, blockEvacuateBody)]

def bodies0C : List (Nat × Body) :=
  [(0x0C01, fwLoadBody), (0x0C02, fwActivateBody), (0x0C03, fwQueryBody), (0x0C04, fwBlockActivateBody),
   (0x0C05, imageEnlargeBody), (0x0C06, imageReduceBody), (0x0C20, userKernelLoadBody), (0x0C21, userHookSetBody),
   (0x0C22, userKernelQueryBody)]

def bodies0D : List (Nat × Body) :=
  [(0x0D01, clockConfigBody), (0x0D02, clockQueryBody), (0x0D03, domainGateBody), (0x0D04, clkoutSetBody),
   (0x0D05, tclkOutSetBody), (0x0D06, powerSetBody), (0x0D07, powerQueryBody)]

def bodies0E : List (Nat × Body) :=
  [(0x0E01, errorLogReadBody), (0x0E02, traceConfigBody), (0x0E03, traceDumpBody), (0x0E04, sensorQueryBody),
   (0x0E10, rsRomReadBody)]

/-- The own rules of an opcode; one the manual does not list is refused (R432). -/
def bodyOf (op : Nat) : Body :=
  (bodyIn (bodies01 ++ bodies02 ++ bodies03 ++ bodies04 ++ bodies05 ++ bodies06 ++ bodies07 ++
    bodies08 ++ bodies09 ++ bodies0A ++ bodies0B ++ bodies0C ++ bodies0D ++ bodies0E) op).getD (fun _ _ => .refuse stUnknownOpcode [])

/-! ## The turns of the five sources (R405, R413 to R416) -/

/-- A packet and its opcode from the bytes of its entries or datagram (Table 15.1). -/
def packetOf (src : Source) (l : List Byte) : Nat × Packet :=
  let n := fieldAt l 0x10 4
  (fieldAt l 4 2,
   { source := src, magic := BitVec.ofNat 16 (fieldAt l 0 2), version := BitVec.ofNat 8 (fieldAt l 2 1), flags := BitVec.ofNat 8 (fieldAt l 3 1),
     status := BitVec.ofNat 16 (fieldAt l 6 2), sequence := BitVec.ofNat 32 (fieldAt l 8 4), target := BitVec.ofNat 32 (fieldAt l 12 4),
     paramLen := BitVec.ofNat 32 n, part := BitVec.ofNat 16 (fieldAt l 0x14 2), parts := BitVec.ofNat 16 (fieldAt l 0x16 2),
     sourceDevice := BitVec.ofNat 8 (fieldAt l 0x18 1), rsvd := slice l 0x19 7, params := slice l 32 n, tag := l.drop (32 + n) })

/-- The entries a command of so many parameter bytes takes (R413). -/
def entryCount (paramLen : Nat) : Nat := 1 + (paramLen - 32 + 63) / 64

/-- A ring pair stopped by a failed access to host memory (Table 15.5): cause 3 a read, 4 a write. What it still held to write
cannot be written. -/
def State.dmaStop (s : State) (n cause index : Nat) : State :=
  s.modRing n (fun r => { r with dmaError := true, errCause := BitVec.ofNat 4 cause, errIndex := BitVec.ofNat 12 index, stopped := true,
                                 covered := [], held := [], waiting := [] })

/-- A command taken from the entries a doorbell has covered: its entries are read, CMD_HEAD moves past them, and it runs. An entry of
other than 64 bytes is one whose read failed. `none` where no whole command is covered (R414). -/
def State.takeEntries (s : State) (n : Nat) : Option State :=
  let r := s.ring n
  match r.covered with
  | [] => none
  | e :: _ =>
    if e.length ≠ 64 then some (s.dmaStop n 3 r.cmdHead.toNat)
    else
      let (op, p) := packetOf (.ring n) e
      if p.magic ≠ 0x4659 ∨ 16352 < p.paramLen.toNat then some (ringCommand op n (bodyOf op) p s)
      else
        let k := entryCount p.paramLen.toNat
        let l := r.covered.take k
        if l.length < k then none
        else if l.any (fun x => x.length != 64) then some (s.dmaStop n 3 r.cmdHead.toNat)
        else
          let (op, p) := packetOf (.ring n) l.flatten
          let s1 := s.modRing n (fun r => { r with covered := r.covered.drop k, cmdHead := r.cmdHead + BitVec.ofNat 12 k })
          some (ringCommand op n (bodyOf op) p s1)

/-- One command taken from ring pair `n`, if it holds one and no item of the pair waits for room (R405, R416). -/
def State.takeRing (s : State) (n : Nat) : Option State :=
  let r := s.ring n
  if r.replyWait then none
  else
    match r.held with
    | (op, p) :: l => some (ringCommand op n (bodyOf op) p (s.modRing n (fun r => { r with held := l })))
    | [] => s.takeEntries n

/-- One datagram, or one command from the stack, that waited taken. -/
def State.takeUdp (s : State) : Option State :=
  match s.fylos.heldUdp with
  | [] => none
  | (op, p) :: l =>
    let s1 := { s with fylos := { s.fylos with heldUdp := l } }
    some (fylosRun op (bodyOf op) p s1)

/-- One command of a source: ring pairs 0 to 3, then UDP. -/
def State.takeFrom (s : State) (k : Nat) : Option State := if k < 4 then s.takeRing k else s.takeUdp

/-- The next command in turn, with the place the turn has reached (R405). -/
def State.takeNext (s : State) : Option State :=
  if ¬ s.damiumTakes then none
  else
    ([0, 1, 2, 3, 4].map (fun i => (s.fylos.nextSource + i) % 5)).findSome? (fun k =>
      (s.takeFrom k).map (fun t => { t with fylos := { t.fylos with nextSource := (k + 1) % 5 } }))

/-- The commands that wait anywhere. -/
def State.waitingCommands (s : State) : Nat :=
  ([0, 1, 2, 3].map (fun n => (s.ring n).covered.length + (s.ring n).held.length)).sum + s.fylos.heldUdp.length

/-- Commands taken in turn until none can be. -/
def State.takeAll : Nat → State → State
  | 0, s => s
  | fuel + 1, s => match s.takeNext with | some t => State.takeAll fuel t | none => s

/-- Every command that Damium can take now, taken. -/
def State.service (s : State) : State := s.takeAll s.waitingCommands

def execUnknownOpcode (opcode : BitVec 16) (p : Packet) (s : State) : Host.Outcome State Fault Refusal :=
  .next (fylosRun opcode.toNat (bodyOf opcode.toNat) p s)
def execManagementFirmwareSwitched (s : State) : Host.Outcome State Fault Refusal := .next (firmwareSwitchedStep s).service

end Sys2Proof.Machine
end

