-- ==== Sys2Proof/Machine/Rings.lean ====
section
/-! DEFINITION. The ring pairs: doorbells, indices, enables, the writing of replies and their interrupts (R412 to R417, R427, R439, R456,
R500, R560). -/

namespace Sys2Proof.Machine

/-- Whether the endpoint takes memory requests (R502, R560): past step 7, or where the boot has failed before it (R574). -/
def State.hostOpen (s : State) : Bool := (decide (7 ≤ s.life.progress) || s.board.bootPhase == .failed) && s.board.memorySpace

/-- The entries that a doorbell newly covers; one not given is one whose read fails. -/
def newEntries (old new : BitVec 12) (l : List (List Byte)) : List (List Byte) :=
  (List.range (new - old).toNat).map (fun i => (l[i]?).getD [])

/-- CMD_TAIL_DOORBELL of pair `n` (R414). -/
def doorbellStep (n : Nat) (tail : BitVec 12) (entries : List (List Byte)) (s : State) : State :=
  if ¬ s.hostOpen ∨ 4 ≤ n then s
  else
    let r := s.ring n
    let l := if r.enable ∧ ¬ r.stopped then newEntries r.cmdTail tail entries else []
    (s.modRing n (fun r => { r with cmdTail := tail, covered := r.covered ++ l })).service

/-- The parts still in the reply ring once the host has consumed up to RPL_HEAD. -/
def unconsumed (left : Nat) : List OutPart → List OutPart
  | [] => []
  | p :: r => if left ≤ (r.map partEntries).sum then unconsumed left r else p :: r

/-- RPL_HEAD_WRITE of pair `n`: room frees for what waits (R416). -/
def rplHeadStep (n : Nat) (head : BitVec 12) (s : State) : State :=
  if ¬ s.hostOpen ∨ 4 ≤ n then s
  else
    (s.modRing n (fun r => { r with rplHead := head, written := unconsumed (r.rplTail - head).toNat r.written })).service

/-- DEV_READY, once after a device reset, to destination 0 as a reset leaves it (R441, R456). -/
def State.devReady (s : State) : State :=
  if s.fylos.readySent ∨ ¬ s.fylos.ready then s
  else
    let v := s.dest 0
    let d : NoticeDest := { destDefault 0 with sequence := v.sequence, lostCount := v.lostCount, lostFirst := v.lostFirst, lostLast := v.lostLast }
    let s1 := (s.setDest 0 d).noticeAt .system false 0x0F19 (targetOf s.stack.number 0 0)
      (fields [beBytes 4 s.life.fwVersion, beBytes 1 s.life.lifeCycle, beBytes 1 s.life.cause.ctorIdx]) 0
    let w := s1.dest 0
    let s2 := s1.setDest 0 { v with sequence := w.sequence, lostCount := w.lostCount, lostFirst := w.lostFirst, lostLast := w.lostLast }
    { s2 with fylos := { s2.fylos with readySent := true } }

/-- RING_ENABLE of pair `n`: ENABLE from 0 to 1 (R412). -/
def ringEnableStep (n : Nat) (s : State) : State :=
  if ¬ s.hostOpen ∨ 4 ≤ n ∨ (s.ring n).enable then s
  else
    let s1 := s.modRing n (fun r => { r with enable := true, cmdTail := 0, cmdHead := 0, rplHead := 0, rplTail := 0, covered := [],
                                             written := [], unsignalled := 0, stopped := false })
    (if n = 0 then s1.devReady else s1).service

/-- ENABLE of a pair cleared: intake stops, and the replies owed stay to be written (R412). -/
def State.disableRing (s : State) (n : Nat) : State := s.modRing n (fun r => { r with enable := false, covered := [] })

/-- RING_DISABLE of pair `n`. -/
def ringDisableStep (n : Nat) (s : State) : State := if ¬ s.hostOpen ∨ 4 ≤ n then s else s.disableRing n

/-- ENABLE of all four pairs cleared (R500, R560). -/
def State.disableRings (s : State) : State := [0, 1, 2, 3].foldl State.disableRing s

/-- VECTOR of a pair signalled (R417). -/
def State.signalRing (s : State) (n : Nat) : State :=
  (s.modRing n (fun r => { r with unsignalled := 0 })).signal (s.ring n).vector.toNat

/-- What follows a part that has left for its destination: its fence (R439), and the NOTICES_LOST notice a freed place holds (R427). -/
def State.partLeft (s : State) (p : OutPart) : State :=
  let s1 := s.fenceLeft p.fence
  match p.dest with
  | some d => s1.tellLost d
  | none => s1

/-- REPLY_WRITE of pair `n`: the part at the head written once the ring has room for it; `ok` tells whether the write succeeds. -/
def replyWriteStep (n : Nat) (ok : Bool) (s : State) : State :=
  let r := s.ring n
  match r.waiting with
  | [] => s
  | p :: l =>
    if r.room < partEntries p then s
    else if ¬ ok then s.dmaStop n 4 r.rplTail.toNat
    else
      let k := partEntries p
      let since := if r.unsignalled = 0 then s.time.powered else r.coalSince
      let s1 := s.modRing n (fun r => { r with waiting := l, written := r.written ++ [p], rplTail := r.rplTail + BitVec.ofNat 12 k,
                                               unsignalled := r.unsignalled + k, coalSince := since })
      let s2 := if r.coalCount.toNat ≤ r.unsignalled + k then s1.signalRing n else s1
      (s2.partLeft p).service

/-- COAL_TIME_EXPIRY of pair `n` (R417). -/
def coalTimeStep (n : Nat) (s : State) : State :=
  let r := s.ring n
  if r.coalTime = 0 ∨ r.unsignalled = 0 ∨ s.time.powered < r.coalSince + r.coalTime.toNat * 1000 then s else s.signalRing n

/-! ## Link resets and D3hot (R500, R560) -/

/-- PCIE_LINK_RESET: configuration space comes back in D0. -/
def pcieLinkResetStep (s : State) : State :=
  let s1 := s.disableRings
  { s1 with board := { s1.board with memorySpace := true } }

/-- D3HOT entered or left. -/
def d3hotStep (enter : Bool) (s : State) : State :=
  if enter then
    let s1 := s.disableRings
    { s1 with board := { s1.board with memorySpace := false } }
  else { s with board := { s.board with memorySpace := true } }

/-! ## The meanings -/

def execCmdTailDoorbell (pair : Nat) (tail : BitVec 12) (entries : List (List Byte)) (s : State) : Host.Outcome State Fault Refusal :=
  .next (doorbellStep pair tail entries s)
def execRplHeadWrite (pair : Nat) (head : BitVec 12) (s : State) : Host.Outcome State Fault Refusal := .next (rplHeadStep pair head s)
def execRingEnable (pair : Nat) (s : State) : Host.Outcome State Fault Refusal := .next (ringEnableStep pair s)
def execRingDisable (pair : Nat) (s : State) : Host.Outcome State Fault Refusal := .next (ringDisableStep pair s)
def execReplyWrite (pair : Nat) (ok : Bool) (s : State) : Host.Outcome State Fault Refusal := .next (replyWriteStep pair ok s)
def execCoalTimeExpiry (pair : Nat) (s : State) : Host.Outcome State Fault Refusal := .next (coalTimeStep pair s)
def execPcieLinkReset (s : State) : Host.Outcome State Fault Refusal := .next (pcieLinkResetStep s)
def execD3hot (enter : Bool) (s : State) : Host.Outcome State Fault Refusal := .next (d3hotStep enter s)

end Sys2Proof.Machine
end

