-- ==== Sys2Proof/Machine/Regs.lean ====
section
/-! DEFINITION. BAR0 and BAR2: what every register reads as, what a write of it does, and the window onto device DRAM (R14 to R16, R25,
R112, R125, R126, R491, R503, R504, R510, R524, R561 to R569, R575, R580, R581). -/

namespace Sys2Proof.Machine

/-! ## Reads (Tables 23.2, 23.3, 23.10, 23.11) -/

/-- The low and the high half of a wide value. -/
def low32 (v : Nat) : Nat := v % 2 ^ 32
def high32 (v : Nat) : Nat := v / 2 ^ 32 % 2 ^ 32

/-- A flag at a bit. -/
def flagBit (b : Bool) (i : Nat) : Nat := boolNat b * 2 ^ i

/-- The identity and status block (Table 23.3). -/
def State.idRead (s : State) (o : Nat) : Nat :=
  let l := s.life
  let b := s.board
  if o = 0x00 then 0x14B16
  else if o = 0x04 then low32 l.serial
  else if o = 0x08 then high32 l.serial
  else if o = 0x0C then low32 l.macBase
  else if o = 0x10 then l.macBase / 2 ^ 32 % 65536
  else if o = 0x14 then l.fwVersion
  else if o = 0x18 then l.fwSource + 256 * l.fwFormat
  else if o = 0x1C then flagBit s.fylos.ready 0 + flagBit s.clocks.frost 1
  else if o = 0x20 then b.bootPhase.ctorIdx + 16 * b.bootError.ctorIdx + 256 * b.bootSel
  else if o = 0x24 then b.bootAddrLo.toNat
  else if o = 0x28 then b.bootAddrHi.toNat
  else if o = 0x2C then b.bootLen.toNat
  else if o = 0x34 then low32 s.store.bar2Base
  else if o = 0x38 then high32 s.store.bar2Base
  else if o = 0x3C then s.store.populatedGib + 256 * (s.usableBytes / 2 ^ 20)
  else if o = 0x40 then low32 s.hostEnd
  else if o = 0x44 then high32 s.hostEnd
  else if o = 0x48 then b.devIrq.toNat
  else if o = 0x4C then b.devIrqMask.toNat
  else 0

/-- ACTIVE (R412). -/
def Ring.active (r : Ring) : Bool := r.enable || r.waiting != []

/-- The registers of one ring pair (Tables 15.4 and 15.5). -/
def ringRead (r : Ring) (o : Nat) : Nat :=
  if o = 0x00 then r.cmdBaseLo.toNat
  else if o = 0x04 then r.cmdBaseHi.toNat
  else if o = 0x08 then r.cmdTail.toNat
  else if o = 0x0C then r.cmdHead.toNat
  else if o = 0x10 then r.rplBaseLo.toNat
  else if o = 0x14 then r.rplBaseHi.toNat
  else if o = 0x18 then r.rplHead.toNat
  else if o = 0x1C then r.rplTail.toNat
  else if o = 0x20 then flagBit r.enable 0 + 2 * r.vector.toNat + 256 * r.coalCount.toNat + 65536 * r.coalTime.toNat
  else if o = 0x24 then
    flagBit r.active 0 + flagBit r.cmdError 1 + flagBit r.dmaError 2 + flagBit r.replyWait 3 + 16 * r.errCause.toNat + 256 * r.errIndex.toNat
  else 0

/-- The Fylos ring block. -/
def State.ringsRead (s : State) (o : Nat) : Nat :=
  if o < 0x400 then ringRead (s.ring (o / 0x100)) (o % 0x100) else if o = 0x400 then 0x40304 else 0

def sheetCode (k : SheetKind) : Nat := match k with | .empty => 0 | .stamp => 1 | .gap => 2 | .discarded => 3

/-- A contact sheet entry word by word (Table 4.4). -/
def sheetWord (e : SheetEntry) (k : Nat) : Nat :=
  if k = 0 then sheetCode e.kind * 2 ^ 30 + e.epoch % 65536
  else if k = 1 then e.frameId * 65536 + e.lastId
  else if k = 2 then high32 e.seconds
  else if k = 3 then low32 e.seconds
  else if k = 4 then e.ns
  else if k = 5 then e.frac
  else if k = 6 then e.lost
  else 0

/-- A contact sheet window (Tables 4.5 and 4.6); it reads 0 while Damium owns PTP (R126). -/
def State.sheetRead (s : State) (p o : Nat) : Nat :=
  let h := s.sheet p
  if ¬ s.time.hostOwner then 0
  else if o = 0x00 then h.entries.length + flagBit (h.pendingLost != 0) 7 + 65536 * min h.pendingLost 65535
  else if o = 0x04 then flagBit h.wmIe 1 + flagBit h.wm 2
  else if o = 0x08 then h.lostTotal
  else if 0x10 ≤ o ∧ o < 0x30 then (match h.entries with | e :: _ => sheetWord e ((o - 0x10) / 4) | [] => 0)
  else 0

/-- TS_STATUS (Table 4.2). -/
def State.tsStatus (s : State) : Nat :=
  let t := s.time
  flagBit t.snapValid 0 + flagBit s.clocks.frost 1 + 4 * t.state.ctorIdx + 16 * servoState t + flagBit t.slew.isSome 6 + flagBit t.stepped 7 +
  flagBit t.suspect 8

/-- The time snapshot block (Table 4.1). -/
def State.timeRead (s : State) (o : Nat) : Nat :=
  let v := s.time.snapshot
  let p := s.time.pps
  if 0x100 ≤ o then s.sheetRead ((o - 0x100) / 0x40) ((o - 0x100) % 0x40)
  else if o = 0x04 then s.tsStatus
  else if o = 0x08 then low32 v.seconds
  else if o = 0x0C then high32 v.seconds
  else if o = 0x10 then v.ns
  else if o = 0x14 then v.frac
  else if o = 0x18 then v.epoch.toNat
  else if o = 0x20 then low32 v.powered
  else if o = 0x24 then high32 v.powered
  else if o = 0x40 then low32 p.seconds
  else if o = 0x44 then high32 p.seconds
  else if o = 0x48 then p.ns
  else if o = 0x4C then p.epoch.toNat
  else if o = 0x50 then p.count.toNat
  else 0

/-- CLK_ORDER (Table 18.6). -/
def orderWord (l : List Nat) : Nat := ((List.range 7).map (fun k => ((l[k]?).getD 0xF) * 16 ^ k)).sum

/-- DIVISOR of a domain: for domain 98 the product of R488. -/
def State.divisorField (s : State) (d : Nat) : Nat :=
  if d = 98 then (match s.clocks.clkoutDomain with | some k => divisorOf k * s.clocks.clkoutDivide | none => 0) else divisorOf d

/-- RUNNING of a domain: for domain 98 the output of R488. -/
def State.runningField (s : State) (d : Nat) : Bool :=
  if d = 98 then (match s.clocks.clkoutDomain with | some k => s.clocks.clkoutOn && s.clockRuns k | none => false) else s.clockRuns d

/-- CLK_DOM_d (Table 18.6). -/
def State.domainRead (s : State) (d : Nat) : Nat :=
  let k := s.clockDomain d
  let free := ungated d
  flagBit k.runEn 0 + flagBit (free || k.sleepEn) 1 + flagBit (free || k.deepEn) 2 + flagBit (s.runningField d) 3 +
  flagBit (s.clocks.gates.any (fun j => j.begun && j.waiting.contains d)) 4 + 256 * s.divisorField d

/-- The clock and reset block (Tables 18.6 and 19.5). COUNTING and PRESENT are what the inputs do: free values, but that a qualified source
is present. -/
def State.clockRead (s : State) (o : Nat) : Nat :=
  let k := s.clocks
  let l := s.life
  let q := maskOf k.qualified
  if o = 0x00 then k.ctrl.ctorIdx + 8 * k.selectedCode + flagBit k.frost 7 + flagBit k.refFreq 8
  else if o = 0x04 then q + 256 * (Config.freeAt s.draws 0 % 128) + 65536 * (q ||| Config.freeAt s.draws 1 % 128)
  else if o = 0x08 then orderWord k.order
  else if 0x100 ≤ o ∧ o < 0x290 then s.domainRead ((o - 0x100) / 4)
  else if o = 0x300 then l.cause.ctorIdx + flagBit l.wipeResumed 3
  else if o = 0x304 then l.warmResets + 65536 * l.watchdogResets
  else if o = 0x308 then l.progress
  else if o = 0x30C then l.scratch.toNat
  else 0

/-- PWR_DOM_p (Table 19.6). -/
def State.powerRead (s : State) (o : Nat) : Nat :=
  let d := s.powerDomain (o / 4)
  if 0x100 ≤ o then 0 else d.mode.ctorIdx + flagBit d.auto 2 + flagBit d.changing.isSome 3

/-- Whether a fuse of 4 bits reads burned (R506). -/
def burned (t : Tab Nat) (k : Nat) : Bool := decide (2 ≤ tabGet t k 0)

/-- The states whose bit of a test is set, as a mask. -/
def maskWhere (l : List Nat) (f : Nat → Bool) : Nat := (l.map (fun i => flagBit (f i) i)).sum

/-- The life-cycle block with the fuse registers (Tables 19.8 and 23.10). -/
def State.lifeRead (s : State) (o : Nat) : Nat :=
  let l := s.life
  let b := s.board
  if o = 0x00 then
    l.lifeCycle + flagBit ([1, 2, 3].any (fun k => burned l.trans k && !(burned l.wipe k))) 2 +
    4 * maskWhere [1, 2, 3] (burned l.trans) + 32 * maskWhere [1, 2, 3] (burned l.wipe)
  else if o = 0x04 then maskWhere [0, 1, 2] (tabHas l.udpKeys) + 16 * maskWhere [0, 1, 2] (fun i => l.locked.contains i)
  else if 0x100 ≤ o ∧ o < 0x130 then fieldAt l.keyHash (o - 0x100) 4
  else if o = 0x140 then flagBit l.keyBlank 0 + flagBit b.debugUnlocked 1 + flagBit b.debugDenied 2 + 8 * b.unlockFails
  else if o = 0x144 then l.subsystem
  else 0

/-- The error log block (Tables 20.3 and 20.4). -/
def State.logRead (s : State) (o : Nat) : Nat :=
  let l := s.log
  if o = 0x00 then l.newest
  else if o = 0x04 then l.oldest
  else if o = 0x08 then l.corrected
  else if o = 0x0C then l.uncorrected
  else if o = 0x10 then l.fatal
  else if 0x100 ≤ o ∧ o < 0x2100 then
    match l.entries.find? (fun e => e.seq % 256 == (o - 0x100) / 32) with
    | some e => ((logWords e)[(o - 0x100) % 32 / 4]?).getD 0
    | none => 0
  else 0

/-- The diagnostics block (Table 23.11); the junction temperature is a free value. -/
def State.diagRead (s : State) (o : Nat) : Nat :=
  let b := s.board
  if o = 0x00 then b.barPartial
  else if o = 0x04 then b.barOutside
  else if o = 0x08 then b.dramTrain
  else if o = 0x0C then Config.freeAt s.draws 2 % 65536
  else 0

/-- A dword of an MSI-X table entry. -/
def msixRead (e : MsixEntry) (k : Nat) : Nat :=
  if k = 0 then e.addrLo.toNat else if k = 1 then e.addrHi.toNat else if k = 2 then e.data.toNat else e.control.toNat

/-- One dword of BAR0 as a read returns it; offsets that Table 23.2 does not assign read 0 (R561, R562). -/
def State.barRead (s : State) (a : Nat) : Nat :=
  if a < 0x1000 then s.idRead a
  else if 0x10000 ≤ a ∧ a < 0x11000 then s.ringsRead (a - 0x10000)
  else if 0x20000 ≤ a ∧ a < 0x20200 then s.timeRead (a - 0x20000)
  else if 0x30000 ≤ a ∧ a < 0x30310 then s.clockRead (a - 0x30000)
  else if 0x40000 ≤ a ∧ a < 0x40100 then s.powerRead (a - 0x40000)
  else if 0x50000 ≤ a ∧ a < 0x50200 then s.lifeRead (a - 0x50000)
  else if 0x100000 ≤ a ∧ a < 0x102100 then s.logRead (a - 0x100000)
  else if 0x200000 ≤ a ∧ a < 0x200100 then s.diagRead (a - 0x200000)
  else if 0xF00000 ≤ a ∧ a < 0xF00400 then msixRead (s.msixEntry ((a - 0xF00000) / 16)) ((a - 0xF00000) % 16 / 4)
  else if a = 0xF00800 then maskWhere (List.range 32) (fun v => tabGet s.board.pba v false)
  else if a = 0xF00804 then maskWhere (List.range 32) (fun v => tabGet s.board.pba (32 + v) false)
  else 0

/-! ## Writes -/

def State.withBoard (s : State) (f : Board → Board) : State := { s with board := f s.board }

/-- Whether the boot registers take writes (R575). -/
def State.waitsHost (s : State) : Bool := s.board.bootPhase == .waitHost

/-- BAR2_BASE_WRITE of the low or the high half: a base outside the host area leaves BASE as it was (R569). -/
def bar2BaseStep (hi : Bool) (v : Word) (s : State) : State :=
  let old := s.store.bar2Base
  let new := if hi then old % 2 ^ 32 + v.toNat % 4 * 2 ^ 32 else old / 2 ^ 32 * 2 ^ 32 + v.toNat / 2 ^ 20 * 2 ^ 20
  if s.hostOpen ∧ hostStart ≤ new ∧ new + 2 ^ 20 ≤ s.hostEnd then { s with store := { s.store with bar2Base := new } } else s

/-- PHASE of the boot, with the interrupt that some phases raise (Table 23.3). -/
def State.bootPhase (s : State) (p : BootPhase) : State :=
  let s1 := s.withBoard (fun b => { b with bootPhase := p })
  match p with
  | .waitHost | .failed | .running => s1.deviceIrq 0
  | .reset | .flashSelect | .flashLoad | .verify | .hostVerify | .start => s1

/-- An error of R573 as BOOT_STATUS numbers it. -/
def bootErrorOf (n : Nat) : BootError :=
  if n = 1 then .selector else if n = 2 then .header else if n = 3 then .key else if n = 4 then .signature else if n = 5 then .payloadHash
  else if n = 6 then .enlarge else if n = 7 then .directory else if n = 8 then .size else if n = 9 then .flashIo else if n = 10 then .dram else .none

/-- START of a boot from slot `k` (2 for an image from the host): every block runs it, and step 9 follows, with the media origin (R375, R502, R574). -/
def State.startImage (s : State) (k : Nat) : State :=
  let v := s.fwSlot k
  let named := (List.range 16).foldl (fun s b => (s.modBlock b (fun x => { x with firmware := k })).loadTemplates b) s
  let bs := (List.range 128).foldl State.startCell named
  let s1 := { bs with life := { bs.life with management := k, fwSource := k + 1, fwVersion := v.version, fwFormat := v.format, progress := 8 },
                      fylos := { bs.fylos with ready := true }, clocks := { bs.clocks with mediaNs := 0, mediaFrac := 0, lastOrigin := none } }
  (s1.bootPhase .running).deviceIrq 1

/-- BOOT_GO: the image the host wrote is checked, and runs if it passes (R573, R575). -/
def bootGoStep (s : State) : State :=
  if ¬ s.hostOpen ∨ ¬ s.waitsHost then s
  else
    let a := s.board.bootAddrLo.toNat + s.board.bootAddrHi.toNat * 2 ^ 32
    let n := s.board.bootLen.toNat
    let s1 := s.bootPhase .hostVerify
    let img := memRead s.store.dram a n
    let e := if ¬ s.inHostArea a n then 8 else firmwareError s.life img (min n (16 * mib))
    if e ≠ 0 then (s1.withBoard (fun b => { b with bootError := bootErrorOf e })).bootPhase .waitHost
    else ({ s1 with life := { s1.life with slots := tabSet s1.life.slots 2 (slotOf img) {} } }).startImage 2

/-- A write of the identity and status block. -/
def State.idWrite (s : State) (o : Nat) (v : Word) : State :=
  if o = 0x24 then (if s.waitsHost then s.withBoard (fun b => { b with bootAddrLo := v }) else s)
  else if o = 0x28 then (if s.waitsHost then s.withBoard (fun b => { b with bootAddrHi := v }) else s)
  else if o = 0x2C then (if s.waitsHost then s.withBoard (fun b => { b with bootLen := v.setWidth 25 }) else s)
  else if o = 0x30 then (if v.getLsbD 0 then bootGoStep s else s)
  else if o = 0x34 then bar2BaseStep false v s
  else if o = 0x38 then bar2BaseStep true v s
  else if o = 0x48 then s.withBoard (fun b => { b with devIrq := b.devIrq &&& ~~~(v.setWidth 3) })
  else if o = 0x4C then s.withBoard (fun b => { b with devIrqMask := v.setWidth 3 })
  else s

/-- RING_CTRL: COAL_COUNT 0 is reserved and keeps its value (R16); then ENABLE. -/
def State.ringCtrl (s : State) (n : Nat) (v : Word) : State :=
  let c := (v >>> 8).setWidth 8
  let s1 := s.modRing n (fun r => { r with vector := (v >>> 1).setWidth 6, coalCount := if c = 0 then r.coalCount else c,
                                           coalTime := (v >>> 16).setWidth 16 })
  if v.getLsbD 0 then ringEnableStep n s1 else if (s.ring n).enable then ringDisableStep n s1 else s1

/-- A base register of a pair: no effect while ACTIVE (R412). -/
def State.ringBase (s : State) (n : Nat) (f : Ring → Ring) : State := if (s.ring n).active then s else s.modRing n f

/-- The low 12 bits of a ring base are reserved. -/
def ringPage (v : Word) : Word := v &&& 0xFFFFF000

/-- A write of the Fylos ring block; CMD_TAIL has a row of its own, which carries the entries. -/
def State.ringsWrite (s : State) (o : Nat) (v : Word) : State :=
  let n := o / 0x100
  let k := o % 0x100
  if 0x400 ≤ o then s
  else if k = 0x00 then s.ringBase n (fun r => { r with cmdBaseLo := ringPage v })
  else if k = 0x04 then s.ringBase n (fun r => { r with cmdBaseHi := v })
  else if k = 0x10 then s.ringBase n (fun r => { r with rplBaseLo := ringPage v })
  else if k = 0x14 then s.ringBase n (fun r => { r with rplBaseHi := v })
  else if k = 0x18 then rplHeadStep n (v.setWidth 12) s
  else if k = 0x20 then s.ringCtrl n v
  else if k = 0x24 then
    s.modRing n (fun r => { r with cmdError := r.cmdError && !v.getLsbD 1, dmaError := r.dmaError && !v.getLsbD 2 })
  else s

/-- CS_CTRL of port `p` (Table 4.6). -/
def State.sheetCtrl (s : State) (p : Nat) (v : Word) : State :=
  if ¬ s.time.hostOwner then s
  else
    let h := s.sheet p
    let s1 := s.setSheet p { h with wmIe := v.getLsbD 1, wm := h.wm && !v.getLsbD 2 }
    let s2 := if v.getLsbD 0 then s1.popSheet p else s1
    if v.getLsbD 3 then s2.flushSheet p else s2

/-- A write of the time block. -/
def State.timeWrite (s : State) (o : Nat) (v : Word) : State :=
  if o = 0x00 then (if v.getLsbD 0 then tsSnapStep s else s)
  else if o = 0x04 then
    { s with time := { s.time with stepped := s.time.stepped && !v.getLsbD 7, suspect := s.time.suspect && !v.getLsbD 8 } }
  else if 0x100 ≤ o ∧ (o - 0x100) % 0x40 = 4 then s.sheetCtrl ((o - 0x100) / 0x40) v
  else s

/-- A write to an MSI-X table entry: a vector that is pending is sent once its mask bit clears. -/
def State.msixWrite (s : State) (n k : Nat) (v : Word) : State :=
  let e := s.msixEntry n
  let w : MsixEntry :=
    if k = 0 then { e with addrLo := v &&& 0xFFFFFFFC } else if k = 1 then { e with addrHi := v } else if k = 2 then { e with data := v }
    else { e with control := v &&& 1 }
  let s1 := s.withBoard (fun b => { b with msix := tabSet b.msix n w {} })
  if ¬ w.control.getLsbD 0 ∧ tabGet s.board.pba n false then
    s1.withBoard (fun b => { b with pba := tabDrop b.pba n, msixSent := bump b.msixSent n })
  else s1

/-- The bytes of a dword that a write enables, over those it does not. -/
def mergeBytes (old v : Word) (be : BitVec 4) : Word :=
  let m := ([0, 1, 2, 3].map (fun i => if be.getLsbD i then 0xFF#32 <<< (8 * i) else 0#32)).foldl (· ||| ·) 0#32
  (v &&& m) ||| (old &&& ~~~m)

/-- A whole dword written to a register (R14, R15). -/
def State.barWrite (s : State) (a : Nat) (v : Word) : State :=
  if a < 0x1000 then s.idWrite a v
  else if 0x10000 ≤ a ∧ a < 0x11000 then s.ringsWrite (a - 0x10000) v
  else if 0x20000 ≤ a ∧ a < 0x20200 then s.timeWrite (a - 0x20000) v
  else if a = 0x30304 then { s with life := { s.life with warmResets := v.toNat % 65536, watchdogResets := v.toNat / 65536 } }
  else if a = 0x3030C then { s with life := { s.life with scratch := v } }
  else if a = 0x50140 then s.withBoard (fun b => { b with debugDenied := b.debugDenied && !v.getLsbD 2 })
  else s

/-- REGISTER_WRITE: a write that does not cover its dword is discarded and counted, but in the MSI-X table (R561). -/
def registerWriteStep (offset : BitVec 24) (v : Word) (be : BitVec 4) (s : State) : State :=
  let a := offset.toNat / 4 * 4
  if ¬ s.hostOpen then s
  else if 0xF00000 ≤ a ∧ a < 0xF00400 then
    let n := (a - 0xF00000) / 16
    let k := (a - 0xF00000) % 16 / 4
    s.msixWrite n k (mergeBytes (BitVec.ofNat 32 (msixRead (s.msixEntry n) k)) v be)
  else if 0xF00800 ≤ a ∧ a < 0xF00808 then s
  else if be ≠ 0xF then s.withBoard (fun b => { b with barPartial := satAdd 32 b.barPartial 1 })
  else s.barWrite a v

/-- A read of an RC counter: it returns the count, least significant byte first, and clears it (R11, R14). -/
def diagPartialStep (s : State) : State :=
  if s.hostOpen then s.withBoard (fun b => { b with readData := leBytes 4 b.barPartial, barPartial := 0 }) else s
def diagOutsideStep (s : State) : State :=
  if s.hostOpen then s.withBoard (fun b => { b with readData := leBytes 4 b.barOutside, barOutside := 0 }) else s

/-! ## BAR2 (R569) -/

/-- An access that reaches past HOST_END is counted. -/
def State.countOutside (s : State) (last : Nat) : State :=
  if s.hostEnd ≤ last then s.withBoard (fun b => { b with barOutside := satAdd 32 b.barOutside 1 }) else s

/-- BAR2_ACCESS: bytes written, or read into `readData`; a read that meets an uncorrectable error comes back poisoned (Table 20.1). After a
failed training it is an Unsupported Request (R574). -/
def bar2Step (offset : BitVec 30) (data : Option (List Byte)) (len : Nat) (ecc : Ecc) (s : State) : State :=
  let a := s.store.bar2Base + offset.toNat
  let s0 := s.countOutside (a + (match data with | some d => d.length | none => len) - 1)
  if ¬ s.hostOpen ∨ (s.board.bootPhase = .failed ∧ s.board.bootError = .dram) then s
  else
    match data with
    | some d => { s0 with store := { s0.store with dram := memWrite s0.store.dram a (d.take (s.hostEnd - a)) } }
    | none =>
      match ecc with
      | .uncorrectable => (s0.logError 0x24 4 8 0 0xFFFF 0 4 a).withBoard (fun b => { b with readData := [] })
      | .clean | .corrected =>
        let s1 := if ecc = .corrected then s0.correctable 0x12 4 0 4 a 4 0 else s0
        let l := (List.range len).map (fun i => if a + i < s.hostEnd then memByte s.store.dram (a + i) else 0)
        s1.withBoard (fun b => { b with readData := l })

/-! ## The meanings -/

def execBootGo (s : State) : Host.Outcome State Fault Refusal := .next (bootGoStep s)
def execBar2BaseWrite (hi : Bool) (value : BitVec 32) (s : State) : Host.Outcome State Fault Refusal := .next (bar2BaseStep hi value s)
def execDiagBar0PartialRead (s : State) : Host.Outcome State Fault Refusal := .next (diagPartialStep s)
def execDiagBar2OutsideRead (s : State) : Host.Outcome State Fault Refusal := .next (diagOutsideStep s)
def execRegisterWrite (offset : BitVec 24) (value : BitVec 32) (enables : BitVec 4) (s : State) : Host.Outcome State Fault Refusal :=
  .next (registerWriteStep offset value enables s)
def execBar2Access (offset : BitVec 30) (data : Option (List Byte)) (len : Nat) (ecc : Ecc) (s : State) : Host.Outcome State Fault Refusal :=
  .next (bar2Step offset data len ecc s)

end Sys2Proof.Machine
end

