-- ==== Sys2Proof/Machine/VeRead.lean ====
section
/-! DEFINITION. Registers of a cell's bank as a word sees them, and addresses (R321 to R333, R356). -/

namespace Sys2Proof.Machine

/-! ## Register numbers -/

def rV (k : Nat) : Nat := k
def rD (k : Nat) : Nat := 8 + k
def rAC (k : Nat) : Nat := 24 + k
def rP (k : Nat) : Nat := 32 + k
def rQ (k : Nat) : Nat := 40 + k
def rN (k : Nat) : Nat := 48 + k
def rM (k : Nat) : Nat := 56 + k
/-- ZF, NF, CF and VF in bits 0 to 3 (Table 12.5). -/
def rFlags : Nat := 64
def rLC : Nat := 65
def rGO : Nat := 66
def rSAT : Nat := 67

/-- The register of an address class. -/
def rClass (c : AClass) (i : Nat) : Nat :=
  match c with | .p => rP i | .q => rQ i | .n => rN i | .m => rM i

/-! ## Delays (Table 12.7, R361, R362, R368) -/

/-- What reads a register. -/
inductive Consumer
  | operand | storeData | accumulate | narrow | address | branch | jump | loop | vmaxa
  deriving DecidableEq, Repr

/-- The words from a producer to the first word whose reads of this kind see it. -/
def delayOf (p : Producer) (c : Consumer) : Nat :=
  match p with
  | .load => if c = .jump then 5 else 3
  | .compute => if c = .jump then 5 else if c = .storeData then 2 else 4
  | .mul31 => if c = .storeData then 3 else 5
  | .acc => if c = .accumulate then 1 else if c = .narrow then 2 else 4
  | .acc31 => if c = .accumulate then 2 else if c = .narrow then 3 else 5
  | .addr => 1
  | .control => 1
  | .flags => if c = .branch then 5 else 4
  | .vmaxa => if c = .vmaxa then 1 else if c = .jump then 5 else if c = .storeData then 2 else 4

/-- The words until a write completes: the order in which writes reach registers (R333). -/
def rankOf (p : Producer) : Nat :=
  match p with
  | .load => 3 | .compute => 4 | .mul31 => 5 | .acc => 4 | .acc31 => 5 | .addr => 1 | .control => 1 | .flags => 4
  | .vmaxa => 4

/-- The cycle in which a write completes, in words. -/
def RegWrite.completes (w : RegWrite) : Nat := w.issue + rankOf w.producer

/-- A write put in its place among those in flight: by completion, the later word last (R333). -/
def putWrite (w : RegWrite) : List RegWrite → List RegWrite
  | [] => [w]
  | x :: r => if w.completes < x.completes ∨ (w.completes = x.completes ∧ w.issue < x.issue) then w :: x :: r
              else x :: putWrite w r

/-- Writes that every reader of word `now` and later sees go to the registers. -/
def retire (now : Nat) (b : Bank) : Bank :=
  let old := b.flight.takeWhile (fun w => decide (w.completes + 2 ≤ now))
  { b with regs := old.foldl (fun t w => tabSet t w.reg w.value 0) b.regs, flight := b.flight.drop old.length }

/-- The value of a register that word `now` reads for a purpose (R332). -/
def readReg (b : Bank) (now reg : Nat) (c : Consumer) : BitVec 128 :=
  match (b.flight.filter (fun w => w.reg == reg && decide (w.issue + delayOf w.producer c ≤ now))).getLast? with
  | some w => w.value
  | none => tabGet b.regs reg 0

/-! ## Values -/

/-- What a word reads from: its bank and its number. -/
structure View where
  bank : Bank
  now : Nat
  deriving DecidableEq, Repr

def View.nat (v : View) (reg : Nat) (c : Consumer) : Nat := (readReg v.bank v.now reg c).toNat
def View.d (v : View) (k : Nat) : Nat := v.nat (rD k) .operand
def View.dInt (v : View) (k : Nat) : Int := signedOf 32 (v.d k)

/-- The eight real lanes of a 128-bit value, signed (R325). -/
def lanesOf (x : Nat) : List Int := (List.range 8).map (fun i => signedOf 16 (x / 2 ^ (16 * i) % 65536))
def packLanes (l : List Int) : Nat := ((l.zipIdx).map (fun p => patternOf 16 p.1 * 2 ^ (16 * p.2))).sum
def View.lanes (v : View) (k : Nat) : List Int := lanesOf (v.nat (rV k) .operand)

/-- Complex lanes: real and imaginary parts (R325). -/
def complexOf (l : List Int) : List (Int × Int) :=
  (List.range 4).map (fun j => (((l[2 * j]?).getD 0), ((l[2 * j + 1]?).getD 0)))
def flatten (l : List (Int × Int)) : List Int := (l.map (fun p => [p.1, p.2])).flatten
def View.complex (v : View) (k : Nat) : List (Int × Int) := complexOf (v.lanes k)

/-- An accumulator's halves, each of 40 bits, in one register value. -/
def packAcc (re im : Int) : Nat := patternOf 40 re + patternOf 40 im * 2 ^ 64
def accOf (x : Nat) : Int × Int := (signedOf 40 (x % 2 ^ 40), signedOf 40 (x / 2 ^ 64 % 2 ^ 40))
def View.acc (v : View) (k : Nat) (c : Consumer) : Int × Int := accOf (v.nat (rAC k) c)

/-- wrap40, and whether an exact sum leaves 40 bits (R326). -/
def wrap40 (v : Int) : Int := signedOf 40 (patternOf 40 v)
def leaves40 (v : Int) : Bool := wrap40 v != v

def sat32 (v : Int) : Int := clampInt v (-2147483648) 2147483647

/-- Narrowing of an accumulator half (R328). -/
def st16 (h : Int) (s : Nat) : Int := sat16 (rne h (16 + s))
def st32 (h : Int) (s : Nat) : Int := sat32 (rne h s)
def clamps16 (h : Int) (s : Nat) : Bool := st16 h s != rne h (16 + s)
def clamps32 (h : Int) (s : Nat) : Bool := st32 h s != rne h s

/-! ## Addresses (R329, R330) -/

/-- The exponent of the least power of two at or above `n`, for `n` up to 65,536. -/
def ceilLog2 (n : Nat) : Nat := ((List.range 17).find? (fun b => decide (n ≤ 2 ^ b))).getD 16
def ceilPow2 (n : Nat) : Nat := 2 ^ ceilLog2 n

/-- rev(x, b): the low `b` bits reversed. -/
def revBits : Nat → Nat → Nat
  | 0, _ => 0
  | b + 1, x => x % 2 * 2 ^ b + revBits b (x / 2)

/-- next() of R330: pointer, signed offset, M register. -/
def nextPtr (p : Nat) (n : Int) (m : Nat) : Nat :=
  let len := m % 65536
  if len = 0 then patternOf 24 ((p : Int) + n)
  else
    let k := ceilPow2 len
    let base := p / k * k
    if m.testBit 16 then
      let b := ceilLog2 len
      let r := revBits b (p - base) + revBits b (patternOf 24 n % k)
      patternOf 24 ((base : Int) + (revBits b (r % k) : Nat))
    else
      let q : Int := ((p - base : Nat) : Int) + n
      let q1 := if (len : Int) ≤ q then q - len else if q < 0 then q + len else q
      patternOf 24 ((base : Int) + q1)

/-- A pointer, N and M as address operands of a side. -/
def View.ptr (v : View) (yside : Bool) (k : Nat) : Nat := v.nat (if yside then rQ k else rP k) .address
def View.n (v : View) (k : Nat) : Int := signedOf 24 (v.nat (rN k) .address)
def View.m (v : View) (k : Nat) : Nat := v.nat (rM k) .address

/-- The address a mode forms, and the pointer after it where the mode updates it (R356). -/
def formAddress (v : View) (yside : Bool) (k : Nat) (mode : AMode) (width : Nat) : Nat × Option Nat :=
  let p := v.ptr yside k
  match mode with
  | .plain => (p, none)
  | .postN => (p, some (nextPtr p (v.n k) (v.m k)))
  | .postInc => (p, some (nextPtr p (width : Int) (v.m k)))
  | .indexed => (patternOf 24 ((p : Int) + v.n k), none)

end Sys2Proof.Machine
end

