-- ==== Sys2Proof/Machine/Tap.lean ====
section
/-! DEFINITION. The test access port (R576 to R579). -/

namespace Sys2Proof.Machine

/-- An instruction in force, with what its data register shifts out. The balls leave their functions while a boundary test is loaded. -/
def State.tapLoad (s : State) (i : TapInstr) (held : Bool) (d : List Byte) : State :=
  s.withBoard (fun b => { b with tap := i, ballsHeld := held, dataRegister := d })

/-- BYPASS: one bit, 0. -/
def State.tapBypass (s : State) : State := s.tapLoad .bypass false [0]

/-- An instruction that the life-cycle state does not allow (R577). -/
def State.tapDenied (s : State) : State := s.tapBypass.withBoard (fun b => { b with debugDenied := true })

/-- IDCODE (R576). -/
def idcodeBytes : List Byte := beBytes 4 0x14B169A7

def idcodeStep (s : State) : State := s.tapLoad .idcode false idcodeBytes

/-- SAMPLE/PRELOAD: the boundary register holds the values shifted in; the balls keep their functions. -/
def samplePreloadStep (cells : List Bool) (s : State) : State :=
  (s.tapLoad .samplePreload false []).withBoard (fun b => { b with boundary := cells })

def extestStep (s : State) : State := s.tapLoad .extest true []
def extestPulseStep (s : State) : State := s.tapLoad .extestPulse true []
def extestTrainStep (s : State) : State := s.tapLoad .extestTrain true []
def clampStep (s : State) : State := s.tapLoad .clamp true [0]
def highzStep (s : State) : State := s.tapLoad .highz true [0]
def bypassStep (s : State) : State := s.tapBypass

/-- TAP_RESET: IDCODE again; device function goes on (R576). -/
def tapResetStep (s : State) : State := idcodeStep s

/-! ## DEBUG (R577, R578) -/

/-- Table 23.9 for DEBUG. -/
def State.debugAllowed (s : State) : Bool := s.life.lifeCycle == 0 || (s.life.lifeCycle == 1 && s.board.debugUnlocked)

/-- SR as a bank image holds it (Table 12.5). -/
def bankSr (second : Bool) (c : Cell) (b : Bank) : Nat :=
  (tabGet b.regs rFlags 0).toNat % 16 + flagBit (tabGet b.regs rGO 0 != 0) 4 + flagBit (tabGet b.regs rSAT 0 != 0) 5 + flagBit second 8 +
  flagBit b.user 9 + flagBit (c.rep != 0 && second == c.bank) 10

/-- The 512-byte image of a bank (Table 12.4). -/
def bankImage (second : Bool) (c : Cell) : List Byte :=
  let b := drainBank (if second then c.bank1 else c.bank0)
  let v := fun (r : Nat) => (tabGet b.regs r 0).toNat
  let eight := fun (f : Nat → List Byte) => ((List.range 8).map f).flatten
  let wide := fun (i : Int) => leBytes 8 (patternOf 64 i)
  eight (fun k => leBytes 16 (v (rV k))) ++ ((List.range 16).map (fun k => leBytes 4 (v (rD k)))).flatten ++
  eight (fun k => let a := accOf (v (rAC k)); wide a.1 ++ wide a.2) ++ eight (fun k => leBytes 4 (v (rP k))) ++
  eight (fun k => leBytes 4 (v (rQ k))) ++ eight (fun k => leBytes 4 (patternOf 32 (signedOf 24 (v (rN k))))) ++
  eight (fun k => leBytes 4 (v (rM k))) ++ leBytes 4 (bankSr second c b) ++ leBytes 4 (v rLC) ++ leBytes 4 b.pc.toNat ++ zeroBytes 52

/-- Instruction memory as bytes. -/
def imemByte (c : Cell) (a : Nat) : Byte := BitVec.ofNat 8 ((tabGet c.imem (a / 8) 0).toNat / 256 ^ (a % 8))

/-- What DEBUG reads of a cell. -/
def cellBytes (c : Cell) (p : CellStore) (a n : Nat) : List Byte :=
  match p with
  | .bank0 => slice (bankImage false c) a n
  | .bank1 => slice (bankImage true c) a n
  | .x => memRead c.xmem a n
  | .y => memRead c.ymem a n
  | .i => (List.range n).map (fun i => imemByte c (a + i))

/-- Damium's registers and SRAM: what DEBUG wrote reads back, the rest is a free value. -/
def State.damiumBytes (s : State) (a n : Nat) : List Byte :=
  (List.range n).map (fun i => (tabFind? s.board.damium (a + i)).getD (BitVec.ofNat 8 (Config.freeAt s.draws i)))

/-- Bytes that DEBUG writes to Damium. -/
def damiumPut (t : Tab Byte) (a : Nat) : List Byte → Tab Byte
  | [] => t
  | b :: r => damiumPut (tabPut t a b) (a + 1) r

/-- A dword of BAR0 that DEBUG reads, least significant byte first (R11); an RC counter is cleared by it as by the host's read (R14, R561). -/
def State.debugRead (s : State) (a : Nat) : State :=
  let s1 := s.drawn.withBoard (fun b => { b with readData := leBytes 4 (s.barRead a) })
  if a = 0x200000 then s1.withBoard (fun b => { b with barPartial := 0 })
  else if a = 0x200004 then s1.withBoard (fun b => { b with barOutside := 0 })
  else if 0x20100 ≤ a ∧ a < 0x20200 ∧ a % 0x40 = 8 ∧ s.time.hostOwner then
    let p := (a - 0x20100) / 0x40
    s1.setSheet p { s1.sheet p with lostTotal := 0 }
  else s1

def debugRun (op : DebugOp) (s : State) : State :=
  match op with
  | .halt => { s with fylos := { s.fylos with halted := true } }
  | .resume => { s with fylos := { s.fylos with halted := false } }.service
  | .readDamium a n => s.drawn.withBoard (fun b => { b with readData := s.damiumBytes a n })
  | .writeDamium a d => s.withBoard (fun b => { b with damium := damiumPut b.damium a d })
  | .readCell n p a k => s.withBoard (fun b => { b with readData := cellBytes (s.cell n) p a k })
  | .readBar0 o => s.debugRead (o.toNat / 4 * 4)

def debugStep (op : DebugOp) (s : State) : State :=
  if s.debugAllowed then debugRun op (s.tapLoad .debug false []) else s.tapDenied

/-- The challenge of DEBUG_UNLOCK (R578). -/
def State.challenge (s : State) : List Byte := Config.sha384 (s.fylos.bootNonce ++ beBytes 8 s.life.serial)

/-- DEBUG_UNLOCK with the public key and the signature shifted in. In MANUFACTURE it is not needed: it shifts its challenge out and changes
nothing. -/
def debugUnlockStep (key sig : List Byte) (s : State) : State :=
  if 2 ≤ s.life.lifeCycle ∨ (s.life.lifeCycle = 1 ∧ 3 ≤ s.board.unlockFails) then s.tapDenied
  else
    let s1 := s.tapLoad .debugUnlock false s.challenge
    if s.life.lifeCycle = 0 then s1
    else if Config.sha384 key = s.life.keyHash ∧ Config.ecdsaVerifies key sig s.challenge then
      s1.withBoard (fun b => { b with debugUnlocked := true })
    else s1.withBoard (fun b => { b with unlockFails := b.unlockFails + 1 })

/-! ## FUSE_PROG (R579) -/

/-- A field burned where it is blank. -/
def burnField (f : FuseField) (l : Life) : Life :=
  match f with
  | .keyHash h => if l.keyBlank ∧ h.length = 48 ∧ ¬ allZero h then { l with keyHash := h, keyBlank := false } else l
  | .subsystem v => if l.subsystem = 0 then { l with subsystem := v.toNat } else l
  | .macBase v => if l.macBase = 0 then { l with macBase := v.toNat } else l
  | .serial v => if l.serial = 0 then { l with serial := v.toNat } else l

def fuseProgStep (f : FuseField) (s : State) : State :=
  if s.life.lifeCycle = 0 then
    let s1 := s.tapLoad .fuseProg false []
    { s1 with life := burnField f s1.life }
  else s.tapDenied

/-! ## The meanings -/

def execIdcode (s : State) : Host.Outcome State Fault Refusal := .next (idcodeStep s)
def execSamplePreload (cells : List Bool) (s : State) : Host.Outcome State Fault Refusal := .next (samplePreloadStep cells s)
def execExtest (s : State) : Host.Outcome State Fault Refusal := .next (extestStep s)
def execExtestPulse (s : State) : Host.Outcome State Fault Refusal := .next (extestPulseStep s)
def execExtestTrain (s : State) : Host.Outcome State Fault Refusal := .next (extestTrainStep s)
def execClamp (s : State) : Host.Outcome State Fault Refusal := .next (clampStep s)
def execHighz (s : State) : Host.Outcome State Fault Refusal := .next (highzStep s)
def execBypass (s : State) : Host.Outcome State Fault Refusal := .next (bypassStep s)
def execDebug (op : DebugOp) (s : State) : Host.Outcome State Fault Refusal := .next (debugStep op s)
def execDebugUnlock (key signature : List Byte) (s : State) : Host.Outcome State Fault Refusal :=
  .next (debugUnlockStep key signature s)
def execFuseProg (field : FuseField) (s : State) : Host.Outcome State Fault Refusal := .next (fuseProgStep field s)
def execTapReset (s : State) : Host.Outcome State Fault Refusal := .next (tapResetStep s)

end Sys2Proof.Machine
end

