-- ==== Sys2Proof/Machine/Resets.lean ====
section
/-! DEFINITION. Device resets, the sequence that follows them with its boot, life-cycle transitions, fatal errors and patrol scrubbing
(R470, R473, R499 to R503, R506 to R508, R511 to R517, R523, R570 to R575, R592). -/

namespace Sys2Proof.Machine

/-! ## The wipe of a device reset (R501, R502) -/

/-- A fresh BOOT_NONCE: 16 free bytes. -/
def State.freshNonce (s : State) : List Byte := (List.range 16).map (fun i => BitVec.ofNat 8 (Config.freeAt s.draws i))

/-- What a device reset keeps of the life-cycle block: the fuses, the flash and the RWS fields. -/
def keptLife (l : Life) : Life :=
  { l with slots := tabDrop l.slots 2, fwSource := 0, fwVersion := 0, fwFormat := 0, management := 0, switchTo := none,
           progress := 0, wipeResumed := false, resetAt := none, transitionAt := none, resets := [] }

/-- What it keeps of the clock controller (R472, R473, R492, R501). -/
def keptClocks (k : Clocks) : Clocks :=
  { ctrl := k.ctrl, selected := k.selected, qualified := k.qualified, order := k.order, refFreq := k.refFreq, since := k.since,
    level := k.level, frostSince := k.frostSince, recheck := k.recheck, floorAt := k.floorAt, frost := k.frost, counts := k.counts }

/-- What it keeps on the board side: straps, the test port and the messages sent. -/
def keptBoard (b : Board) : Board :=
  { devIrq := 0, bootPhase := .reset, dramTrain := 0, bootSel := b.bootSel, tdmVsel := b.tdmVsel, tap := b.tap, boundary := b.boundary,
    ballsHeld := b.ballsHeld, dataRegister := b.dataRegister, msixSent := b.msixSent }

/-- Everything a device reset wipes, wiped: the queue of commands is the model's own and stays. -/
def State.wiped (s : State) : State :=
  { pending := s.pending, draws := s.draws + 1, log := s.log, life := keptLife s.life, clocks := keptClocks s.clocks, board := keptBoard s.board,
    time := { powered := s.time.powered, poweredFrac := s.time.poweredFrac }, store := { populatedGib := s.store.populatedGib },
    fylos := { bootNonce := s.freshNonce, ready := false } }

/-- The clock controller after power-on or RESET_N: no reference, no count (R473). -/
def State.freshClocks (s : State) : State := { s with clocks := { ctrl := .start, selected := none, qualified := [], refFreq := s.clocks.refFreq } }

/-- The RWS fields cleared. -/
def State.clearRws (s : State) : State := { s with life := { s.life with warmResets := 0, watchdogResets := 0, scratch := 0 } }

/-- A reset before its wipe: every other than power-on and RESET_N sets the ports DISABLED, which trips ETH0 to ETH3 (R471, R473). -/
def State.tripPorts (s : State) : State :=
  [3, 4, 5, 6].foldl (fun s c => if s.clocks.qualified.contains c then s.tripSource c else s) s

/-- Step 1 of R502: a device reset from a source of Table 19.3. -/
def State.beginReset (cause : ResetCause) (s : State) : State :=
  let clocked := match cause with | .powerOn | .resetN => false | .pcie | .watchdog | .command | .lifeCycle => true
  let s1 := (if clocked then s.tripPorts else s.freshClocks).wiped
  let l := s1.life
  let s2 := { s1 with life := { l with cause := cause, warmResets := satAdd 16 l.warmResets 1,
                                       watchdogResets := if cause = .watchdog then satAdd 16 l.watchdogResets 1 else l.watchdogResets } }
  match cause with
  | .powerOn =>
    let s3 := s2.clearRws
    { s3 with log := {}, time := {}, board := { s3.board with tap := .idcode, boundary := [], ballsHeld := false, dataRegister := [] } }
  | .resetN | .pcie | .watchdog | .command | .lifeCycle => s2

/-! ## The reset sources that hold (R499) -/

def State.withHeld (s : State) (l : List ResetCause) : State := { s with life := { s.life with held := l } }

/-- A source asserted: it joins the hold; a source whose scope one that already holds the device covers starts no reset of its own. -/
def State.assertSource (c : ResetCause) (covered : List ResetCause) (s : State) : State :=
  if s.life.held.contains c then s
  else
    let l := s.life.held ++ [c]
    if s.life.held.any covered.contains then s.withHeld l else (s.beginReset c).withHeld l

/-- A source released. -/
def State.releaseSource (c : ResetCause) (s : State) : State := s.withHeld (s.life.held.filter (· ≠ c))

/-- POWER_ON_RESET: a supply below its threshold, or all in range for 1 ms, when the straps BOOT_SEL0, BOOT_SEL1, REF_FREQ_SEL and TDM_VSEL
are sampled, in this order from bit 0 (R592). -/
def powerOnStep (asserted : Bool) (straps : BitVec 4) (s : State) : State :=
  if asserted then s.assertSource .powerOn []
  else if ¬ s.life.held.contains .powerOn then s
  else
    let s1 := s.releaseSource .powerOn
    { s1 with board := { s1.board with bootSel := straps.toNat % 4, tdmVsel := straps.getLsbD 3 },
              clocks := { s1.clocks with refFreq := straps.getLsbD 2 } }

/-- RESET_N and PERST_N past their glitch filters. -/
def resetNStep (low : Bool) (s : State) : State := if low then s.assertSource .resetN [.powerOn] else s.releaseSource .resetN
def perstNStep (low : Bool) (s : State) : State := if low then s.assertSource .pcie [.powerOn, .resetN] else s.releaseSource .pcie

/-! ## Fatal errors and the chip watchdog (R512, R523) -/

/-- A fatal error: its entry, then the chip watchdog at once. -/
def State.fatal (cause memory address : Nat) (s : State) : State :=
  (s.logError cause 4 7 0 0xFFFF 0 memory address).beginReset .watchdog

/-- CHIP_WATCHDOG: it runs once a boot has ended in RUNNING, and pauses while DEBUG holds Damium (R574, R578). -/
def chipWatchdogStep (s : State) : State :=
  if s.board.bootPhase ≠ .running ∨ s.fylos.halted then s else s.fatal 0x45 6 0

/-- DAMIUM_LOCKSTEP_MISMATCH. -/
def lockstepStep (s : State) : State := s.fatal 0x42 6 0

/-! ## Life-cycle fuses (R506 to R508) -/

/-- All four bits of a fuse burned, or as many more as a cut leaves. -/
def burnFuse (t : Tab Nat) (k bits : Nat) : Tab Nat := tabSet t k (max (tabGet t k 0) bits) 0

/-- The state that the fuses spell. -/
def fusedState (l : Life) : Nat := (([3, 2, 1].find? (burned l.trans)).getD 0)

/-- TRANS_k burned. -/
def Life.burnTrans (l : Life) (k bits : Nat) : Life :=
  let m := { l with trans := burnFuse l.trans k bits }
  { m with lifeCycle := fusedState m }

/-- WIPE_k burned. -/
def Life.burnWipe (l : Life) (k bits : Nat) : Life := { l with wipe := burnFuse l.wipe k bits }

/-- The key bank of every state below `k` locked: a locked key is unreadable (R507). -/
def Life.lockBelow (l : Life) (k : Nat) : Life := { l with locked := ((l.locked ++ List.range (min k 3)).mergeSort (· ≤ ·)).eraseDups }

/-- The transitions begun and not whole. -/
def pendingTransitions (l : Life) : List Nat := [1, 2, 3].filter (fun k => burned l.trans k && !(burned l.wipe k))

/-- Step 2 of R507: keys, memories, RWS fields and the error log. -/
def State.transitionWipe (k : Nat) (s : State) : State :=
  let s1 := ({ s with life := s.life.lockBelow k }.wiped).clearRws
  { s1 with log := {} }

/-- LIFE_CYCLE_TRANSITION, 100 µs after its reply has left; `till` tells how far it comes before a reset or a loss of power cuts it. -/
def lifeCycleTransitionStep (till : TransitionEnd) (s : State) : State :=
  match s.life.transitionAt with
  | none => s
  | some (k, t) =>
    if s.time.powered < t + 100000 then s
    else
      let s1 := { s with life := { s.life with transitionAt := none } }
      let whole := { s1 with life := s1.life.burnTrans k 4 }
      match till with
      | .cutTrans bits => { s1 with life := s1.life.burnTrans k bits.val }
      | .cutWiping => whole.transitionWipe k
      | .cutWipe bits =>
        let s2 := whole.transitionWipe k
        { s2 with life := s2.life.burnWipe k bits.val }
      | .whole =>
        let s2 := whole.transitionWipe k
        { s2 with life := s2.life.burnWipe k 4 }.beginReset .lifeCycle

/-! ## Boot (R511, R570 to R574) -/

/-- The step of R502 last begun. -/
def State.atStep (s : State) (n : Nat) : State := { s with life := { s.life with progress := n } }

def State.bootFailed (s : State) (e : BootError) : State := (s.withBoard (fun b => { b with bootError := e })).bootPhase .failed

/-- The check of R573 that a slot's image fails, as BOOT_STATUS numbers it; a slot that holds none has no header. -/
def slotError (f : BootFacts) (l : Life) (k : Nat) : Nat :=
  let e := if k = 0 then f.slotA else f.slotB
  if e = 0 ∧ ¬ (tabGet l.slots k {}).held then 2 else e

/-- The slot that the selector copies choose, slot A where neither is valid, and whether that is so (R511, R574). -/
def chosenSlot (l : Life) : Nat × Bool :=
  match l.selectorInUse with
  | some i => ((l.selector i).slot, false)
  | none => (0, true)

/-- A slot that a boot has checked: one that failed reads EMPTY from then on. -/
def noteSlot (l : Life) (k : Nat) (good : Bool) : Life :=
  { l with failedSlots := l.failedSlots.filter (· ≠ k) ++ (if good then [] else [k]) }

def State.bootError (s : State) (e : BootError) : State := s.withBoard (fun b => { b with bootError := e })

/-- One slot tried: it runs, or its failure is recorded and `next` follows. -/
def State.trySlot (f : BootFacts) (k : Nat) (next : State → State) (s : State) : State :=
  let e := slotError f s.life k
  let s1 := { s with life := noteSlot s.life k (e = 0) }
  if e = 0 then s1.startImage k else next (s1.bootError (bootErrorOf e))

/-- Boot from the flash: the chosen slot, the other one once, then PCIe or FAILED. -/
def State.flashBoot (f : BootFacts) (s : State) : State :=
  let l := s.life
  let s1 := { s with life := { l with selector0 := { l.selector0 with valid := l.selector0.valid && f.selector0 },
                                      selector1 := { l.selector1 with valid := l.selector1.valid && f.selector1 } } }
  let c := chosenSlot s1.life
  let s2 := if c.2 then s1.bootError .selector else s1
  let last := fun (s : State) => if s.board.bootSel = 2 then s.bootPhase .waitHost else s.bootPhase .failed
  s2.trySlot f c.1 (State.trySlot f (1 - c.1) last)

/-- Step 8 of R502 (R574). -/
def State.boot (f : BootFacts) (s : State) : State :=
  if s.board.bootSel = 1 then s.bootPhase .waitHost
  else if s.board.bootSel = 3 then s.bootFailed .flashIo
  else s.flashBoot f

/-- The populations that train (R566). -/
def populations : List Nat := [2, 4, 8, 16]

/-- Steps 3 to 9 of R502. A pending transition found by step 3 is completed by step 7 (R508); where DRAM training fails, the wipe and step
7 are skipped and the boot ends FAILED (R574). -/
def State.finishReset (f : BootFacts) (s : State) : State :=
  let due := pendingTransitions s.life
  let s1 := { s with life := due.foldl (fun l k => l.lockBelow k) { s.life with lifeCycle := fusedState s.life } }
  let s2 := s1.withBoard (fun b => { b with dramTrain := f.trained.toNat })
  if f.trained ≠ 0xF ∨ ¬ populations.contains f.gib then (s2.atStep 5).bootFailed .dram
  else
    let s3 := { s2 with store := { s2.store with populatedGib := f.gib } }
    let s4 := if due = [] then s3
      else
        let s4 := s3.clearRws
        { s4 with log := {}, life := { due.foldl (fun l k => l.burnWipe k 4) s4.life with wipeResumed := true } }
    (s4.atStep 7).boot f

/-- DEVICE_RESET_SEQUENCE: a DEV_RESET whose reply left 100 µs ago begins its reset (R439); the sequence runs once no source holds the
device, and waits in step 2 for a reference. -/
def deviceResetStep (f : BootFacts) (s : State) : State :=
  let due := match s.life.resetAt with | some t => decide (t + 100000 ≤ s.time.powered) | none => false
  let s1 := if due then s.beginReset .command else s
  if 2 ≤ s1.life.progress ∨ s1.life.held ≠ [] then s1
  else if s1.clocks.ctrl = .start then s1.atStep 1
  else s1.finishReset f

/-! ## Patrol scrubbing (R515 to R517) -/

/-- The power domain of a place, if its memory can be in DEEP_SLEEP. -/
def scrubDomain (p : ErrorPlace) : Option Nat :=
  match p with
  | .cell n _ => some (cellBlock n)
  | .packetArea b _ => some (16 + b)
  | .streamStore b _ _ => some (16 + b)
  | .commitBuffer b => some (16 + b)
  | .dispatcher b => some (16 + b)
  | .regionIngress r _ _ => some (48 + r)
  | .regionControl r => some (48 + r)
  | .portIngress i => some (56 + i)
  | .portEgress i _ _ => some (56 + i)
  | .tdmBuffer _ _ => some 62
  | .contextSlot _ | .suspendRecord _ _ | .tableStore _ _ | .srtpContext _ _ | .flowCopy _ _ | .promptStore _ _ | .jobData _ _ | .window
  | .dramLink | .flowTable _ | .damiumSram | .fabric => none

/-- A correctable error at a place (R513). -/
def State.scrubCorrected (p : ErrorPlace) (a : Nat) (s : State) : State :=
  match p with
  | .cell n m => s.correctable 0x10 1 n m a m (cellBlock n)
  | .packetArea b _ => s.correctable 0x11 2 b 3 a 3 b
  | .streamStore b _ _ => s.correctable 0x11 2 b 3 a 3 b
  | .commitBuffer b => s.correctable 0x11 2 b 3 a 3 b
  | .dispatcher b => s.correctable 0x11 2 b 3 a 3 b
  | .contextSlot _ | .suspendRecord _ _ | .tableStore _ _ | .srtpContext _ _ | .flowCopy _ _ | .promptStore _ _ | .jobData _ _ | .window =>
    s.correctable 0x12 4 0 4 a 4 0
  | .dramLink => s.correctable 0x14 4 0 4 a 4 0
  | .regionIngress r _ _ => s.correctable 0x13 3 r 5 a 5 0
  | .regionControl r => s.correctable 0x13 3 r 5 a 5 0
  | .portIngress i => s.correctable 0x13 4 i 5 a 5 0
  | .portEgress i _ _ => s.correctable 0x13 4 i 5 a 5 0
  | .tdmBuffer h _ => s.correctable 0x13 4 h 5 a 5 0
  | .flowTable _ | .damiumSram => s.correctable 0x13 4 0 5 a 5 0
  | .fabric => s

/-- The pending entries of a thread that an error names, removed and counted. -/
def State.dropPending (s : State) (b : Nat) (l : List (Nat × Nat)) : State :=
  ((l.map (·.1)).eraseDups).foldl (fun s t =>
    let gone := ((l.filter (fun e => e.1 == t)).map (·.2)).eraseDups
    let old := (s.thread b t).pending
    let kept := (old.zipIdx.filter (fun e => !(gone.contains e.2))).map (·.1)
    (s.modThread b t (fun k => { k with pending := kept })).modBlock b (fun k =>
      { k with counts := countAdd k.counts BlockCount.pendingDiscard.ctorIdx (old.length - kept.length) })) s

/-- A stream whose store units hold an uncorrectable error: a synchronising reset, counted (R222). -/
def State.spoilStream (s : State) (b c key : Nat) : State :=
  if (s.channel c).block ≠ b then s
  else
    (s.resetKey c key).modChannel c (fun v =>
      let t := v.stream key
      if t.present then v.setStream key { t with counts := bump t.counts StreamCount.storeError.ctorIdx } else v)

/-- The channels whose flow entry or egress record names an SRTP context. -/
def State.contextChannels (s : State) (i : Nat) : List Nat :=
  let byFlow := ((flowAll s.flows).filter (fun e => e.srtp == some i && e.device == s.stack.number)).map (·.channel)
  let byLeg := (s.channels.filter (fun e => [e.2.legA, e.2.legB].any (fun l => l.txSrtp == some i))).map (·.1)
  (byFlow ++ byLeg).eraseDups

/-- Both copies of an SRTP context lost (R517); the CAUSE of the notices is not stated. -/
def State.loseContext (s : State) (i a : Nat) : State :=
  let l := s.contextChannels i
  let s1 := s.drawn.logError 0x23 4 3 0 (oneOrMany l) 0 4 a
  let s2 := l.foldl (fun t c => t.faultChannel c (s.freeValue % 256)) s1
  { s2 with flows := { s2.flows with contexts := tabDrop s2.flows.contexts i } }

/-- A host table lost: its plays end as the table is gone (R517). -/
def State.loseTable (s : State) (id : Nat) : State :=
  let gone := fun (m : LegMedia) =>
    match m.generator with | some g => if g.table = id then { m with generator := none } else m | none => m
  { s with store := { s.store with tables := tabDrop s.store.tables id, retired := tabDrop s.store.retired id },
           channels := s.channels.map (fun e => (e.1, { e.2 with media := { e.2.media with a := gone e.2.media.a, b := gone e.2.media.b } })) }

/-- Frame `n` of a queue spoiled. -/
def spoilFrame (l : List EgFrame) (n : Nat) : List EgFrame := l.zipIdx.map (fun e => if e.2 = n then { e.1 with spoiled := true } else e.1)

/-- A frame of an egress buffer that will end with an inverted FCS. -/
def State.spoilEgress (s : State) (i : Nat) (media : Bool) (n : Nat) : State :=
  s.modPort i (fun p =>
    if media ∧ n < p.media.length then { p with media := spoilFrame p.media n }
    else if ¬ media ∧ n < p.bulk.length then { p with bulk := spoilFrame p.bulk n }
    else { p with flight := p.flight.map (fun f => { f with frame := { f.frame with spoiled := true } }) })

/-- A sample of a TDM buffer replaced by idle code and counted (Table 20.1). -/
def State.spoilSlot (s : State) (h n : Nat) : State :=
  let k := slotKey h n
  let t := s.tdmSlot k
  match t.mapped with
  | some (c, leg) => s.setTdmSlot k { countSlot t .underrun 1 with sent := some (s.idleOctets (s.highway h) ((s.channel c).runLeg leg)) }
  | none => s

/-- A held packet of a region's ingress buffer discarded. -/
def State.dropHeldPacket (s : State) (r b n : Nat) : State :=
  (s.modBlock b (fun k => { k with packetHold := k.packetHold.eraseIdx n })).bumpRegion r .ingressDiscard

/-- A thread whose suspend record is lost, unless its bank is back in a shadow. -/
def State.loseRecord (s : State) (b t a : Nat) : State :=
  let k := s.thread b t
  let saved : Bool := match k.suspendRec with | some r => tabHas (s.block b).saves r | none => false
  let back := (List.range 8).any (fun i => (s.cell (8 * b + i)).shadow == some t)
  if k.state = .suspended ∧ saved ∧ ¬ back then s.stageFault b t k a else s

/-- An uncorrectable error at a place: what Table 20.1 says. -/
def State.scrubFault (p : ErrorPlace) (a : Nat) (s : State) : State :=
  match p with
  | .cell n m => s.cellTrap n (if m = 0 then .uncorrectableX else if m = 1 then .uncorrectableY else .uncorrectableI) 0 m a
  | .packetArea b l => (s.dropPending b l).logError 0x20 2 8 b 0xFFFF 0 3 a
  | .streamStore b c key => (s.spoilStream b c key).logError 0x20 2 8 b c 0 3 a
  | .commitBuffer b => commitCompleteStep b .uncorrectable s
  | .dispatcher b => isolationStep b false a s
  | .contextSlot c => if (s.channel c).slot.isSome then s.modChannel c (fun v => { v with slotBad := true }) else s
  | .suspendRecord b t => s.loseRecord b t a
  | .tableStore id both =>
    if ¬ both ∨ ¬ tabHas s.store.tables id then s.logError 0x23 4 0 0 0xFFFF 0 4 a else (s.loseTable id).logError 0x23 4 3 0 0xFFFF 0 4 a
  | .srtpContext i both => if both then s.loseContext i a else s.logError 0x23 4 0 0 0xFFFF 0 4 a
  | .flowCopy id both =>
    if both then
      { s with flows := flowRemove s.flows id }.logError 0x23 4 3 0 0xFFFF 0 4 a
    else s.logError 0x23 4 0 0 0xFFFF 0 4 a
  | .promptStore i k =>
    ({ s with store := { s.store with badPieces := s.store.badPieces.filter (· ≠ (i, k)) ++ [(i, k)] } }).logError 0x24 4 8 0 0xFFFF 0 4 a
  | .jobData r reducer => if reducer then reducerJobEndStep r .source s else enlargerJobEndStep r .source s
  | .window => s.logError 0x24 4 8 0 0xFFFF 0 4 a
  | .dramLink => s
  | .flowTable _ => s.logError 0x40 4 0 0 0xFFFF 0 5 a
  | .portIngress i => (s.bumpPort i .rxBufferDiscard).logError 0x41 4 8 i 0xFFFF 0 5 a
  | .regionIngress r b n => (s.dropHeldPacket r b n).logError 0x41 3 8 r 0xFFFF 0 5 a
  | .portEgress i media n => (s.spoilEgress i media n).logError 0x41 4 8 i 0xFFFF 0 5 a
  | .regionControl r => s.isolateRegion r a
  | .tdmBuffer h n => (s.spoilSlot h n).logError 0x41 4 8 h 0xFFFF 0 5 a
  | .damiumSram => s.fatal 0x43 5 a
  | .fabric => s.fatal 0x44 6 a

/-- PATROL_SCRUB: a memory in DEEP_SLEEP is not scrubbed. -/
def patrolScrubStep (p : ErrorPlace) (a : Nat) (uncorrectable : Bool) (s : State) : State :=
  let asleep : Bool := match scrubDomain p with | some d => (s.powerDomain d).mode == .deepSleep | none => false
  if asleep then s else if uncorrectable then s.scrubFault p a else s.scrubCorrected p a

/-! ## The meanings -/

def execPowerOnReset (asserted : Bool) (straps : BitVec 4) (s : State) : Host.Outcome State Fault Refusal := .next (powerOnStep asserted straps s)
def execResetN (low : Bool) (s : State) : Host.Outcome State Fault Refusal := .next (resetNStep low s)
def execPerstN (low : Bool) (s : State) : Host.Outcome State Fault Refusal := .next (perstNStep low s)
def execChipWatchdog (s : State) : Host.Outcome State Fault Refusal := .next (chipWatchdogStep s)
def execDamiumLockstepMismatch (s : State) : Host.Outcome State Fault Refusal := .next (lockstepStep s)
def execDeviceResetSequence (facts : BootFacts) (s : State) : Host.Outcome State Fault Refusal := .next (deviceResetStep facts s)
def execLifeCycleTransition (till : TransitionEnd) (s : State) : Host.Outcome State Fault Refusal := .next (lifeCycleTransitionStep till s)
def execPatrolScrub (place : ErrorPlace) (address : Nat) (uncorrectable : Bool) (s : State) : Host.Outcome State Fault Refusal :=
  .next (patrolScrubStep place address uncorrectable s)

end Sys2Proof.Machine
end

