-- ==== Sys2Proof/Machine/FrameRx.lean ====
section
/-! DEFINITION. A frame received, and what crosses Bilgaup for Fylos (R26, R28, R63, R66, R67, R88 to R91, R100, R101, R113, R115, R128,
R140, R145, R411, R418, R419, R604, R605). -/

namespace Sys2Proof.Machine

/-! ## Addresses (R67, R100) -/

def broadcastMac : Nat := 0xFFFFFFFFFFFF
/-- The address of MAC control frames. -/
def controlMac : Nat := 0x0180C2000001
/-- The PTP multicast addresses: those of Ethernet, and where 224.0.1.129 and FF0X::181 map to. -/
def ptpMacs : List Nat := [0x011B19000000, 0x0180C200000E, 0x01005E000181, 0x333300000181]

def frameDest (f : List Byte) : Nat := fieldAt f 0 6

/-- A MAC control frame that the MAC takes ahead of the filter. -/
def State.takesControl (s : State) (i : Nat) (f : List Byte) : Bool :=
  fieldAt f 12 2 == 0x8808 && (frameDest f == controlMac || frameDest f == s.macOf i)

def State.accepts (s : State) (i : Nat) (f : List Byte) : Bool :=
  let d := frameDest f
  d == s.macOf i || d == broadcastMac || ptpMacs.contains d || s.takesControl i f

/-! ## PAUSE and PFC (R89 to R91) -/

/-- One pause timer loaded: the timer after it, and whether a time of zero found it stopped. -/
def loadTimer (now quantum old quanta : Nat) : Nat × Bool := if quanta = 0 then (0, old == 0) else (now + quanta * quantum, false)

/-- The priorities whose timers act on a class. -/
def Port.actsOn (p : Port) (k : Nat) : Bool := p.bulkPfcMask.testBit k || (p.mediaPfc && k == p.mediaPcp)

/-- One priority of a PFC frame. -/
def Port.loadPfc (now : Nat) (f : List Byte) (p : Port) (k : Nat) : Port :=
  if ¬ (fieldAt f 16 1 * 256 + fieldAt f 17 1).testBit k ∨ ¬ p.actsOn k then p
  else
    let r := loadTimer now p.mode.quantum (tabGet p.pfcTimers k 0) (fieldAt f (18 + 2 * k) 2)
    let q := { p with pfcTimers := tabSet p.pfcTimers k r.1 0 }
    if r.2 then bumpPortCount q .pauseZeroIdle else q

/-- Whether any priority that a PFC frame enables acts on a class: a frame of which none does is not acted on (R89, Table 3.5). -/
def Port.pfcActs (p : Port) (f : List Byte) : Bool :=
  [0, 1, 2, 3, 4, 5, 6, 7].any (fun k => (fieldAt f 17 1).testBit k && p.actsOn k)

/-- A MAC control frame received whole with a good FCS. -/
def Port.control (now : Nat) (f : List Byte) (p : Port) : Port :=
  let op := fieldAt f 14 2
  if op = 0x0001 then
    let q := bumpPortCount p .pauseRx
    if p.flowCtrl ≠ 1 then bumpPortCount q .pauseIgnored
    else
      let r := loadTimer now p.mode.quantum p.pauseTimer (fieldAt f 16 2)
      let t := { q with pauseTimer := r.1 }
      if r.2 then bumpPortCount t .pauseZeroIdle else t
  else if op = 0x0101 then
    let q := bumpPortCount p .pfcRx
    if p.flowCtrl ≠ 2 ∨ ¬ p.pfcActs f then bumpPortCount q .pauseIgnored else [0, 1, 2, 3, 4, 5, 6, 7].foldl (Port.loadPfc now f) q
  else bumpPortCount p .pauseIgnored

/-! ## PTP (R100, R101, R128) -/

/-- Whether a message has a forwardable destination (R100). -/
def ptpForwardable (f : List Byte) (o : Nat) : Bool :=
  let d := (frameAddresses f).2
  let dest := match udpOffset f with
    | none => frameDest f == 0x011B19000000
    | some _ =>
      if d.length = 4 then beNat d == 0xE0000181
      else fieldAt d 0 1 == 0xFF && fieldAt d 1 1 / 16 == 0 && allZero (slice d 2 12) && fieldAt d 14 2 == 0x181
  let t := ptpType f o
  dest && !(t == 2 || t == 3 || t == 10)

/-- A PTP message delivered to the PTP owner, with its stamp (R115, R128). Damium's engine takes it without a trace in the
registers. -/
def State.ptpToOwner (s : State) (i : Nat) (f : List Byte) (stamp : Stamp) : State :=
  if s.time.hostOwner then s.notify .time 0x0F0A 5 i [stampBytes stamp, f] else s

/-- A PTP message whose body lies at `o`: forwarded, with a copy to the owner where its domain is one of the device's own clock
(R101), or taken by the PTP owner. -/
def State.takePtp (s : State) (i o : Nat) (f : List Byte) (stamp : Stamp) (powered : Nat) : State :=
  if ptpForwardable f o ∧ (s.port i).ptpTc then
    let s1 := (s.bumpPort i .ptpForwarded).forwardPtp (some i) f stamp powered
    let s2 := if s1.stack.ptpForward then s1.sendAll 0 0x03 [stampBytes stamp, beBytes 8 powered, f] else s1
    if Config.ptpDomainUsed (fieldAt f (o + 4) 1) then s2.ptpToOwner i f stamp else s2
  else (s.bumpPort i .ptpNotForwarded).ptpToOwner i f stamp

/-! ## Ahead of the lookup (R140) -/

/-- IPv6 extension headers. -/
def extensionHeaders : List Nat := [0, 43, 44, 51, 60, 135, 139, 140]

/-- Whether a Fragment header stands in a chain of extension headers: the next header's number and where it begins. -/
def hasFragment (f : List Byte) : Nat → Nat → Nat → Bool
  | 0, _, _ => false
  | fuel + 1, h, o =>
    if h = 44 then true
    else if ¬ extensionHeaders.contains h ∨ f.length ≤ o then false
    else hasFragment f fuel (fieldAt f o 1) (o + (if h = 51 then 4 * (fieldAt f (o + 1) 1 + 2) else 8 * (fieldAt f (o + 1) 1 + 1)))

/-- The first step of R140 that disposes of an IP frame whose header begins at `o`. -/
inductive IpVerdict
  | damium | bad (c : RegionCount) | udp (u : Nat)
  deriving DecidableEq, Repr

/-- Whether a UDP datagram of `n` bytes at `u` keeps its checksum; a zero IPv4 one is not checked. -/
def udpGood (f : List Byte) (u n : Nat) (six : Bool) : Bool :=
  let a := frameAddresses f
  let udp := slice f u n
  let c := fieldAt f (u + 6) 2
  decide (8 ≤ n ∧ fieldAt f (u + 4) 2 = n ∧ udp.length = n) &&
  (if c = 0 then !six else ipChecksum (a.1 ++ a.2 ++ beBytes 4 n ++ beBytes 4 17 ++ udp) == 0)

/-- An IPv4 frame, steps 2 to 5. -/
def ipv4Verdict (f : List Byte) (o : Nat) : IpVerdict :=
  let ihl := 4 * (fieldAt f o 1 % 16)
  let total := fieldAt f (o + 2) 2
  let have_ := f.length - o
  if fieldAt f (o + 9) 1 ≠ 17 then .damium
  else if fieldAt f o 1 / 16 ≠ 4 ∨ ihl < 20 ∨ have_ < ihl ∨ ipChecksum (slice f o ihl) ≠ 0 ∨ total < ihl ∨ have_ < total ∨
      (total < have_ ∧ 64 < f.length + 4) then .bad .ipError
  else if fieldAt f (o + 6) 2 % 2 ^ 14 ≠ 0 then .bad .ipFragment
  else if ¬ udpGood f (o + ihl) (total - ihl) false then .bad .udpChecksum
  else .udp (o + ihl)

/-- An IPv6 frame, steps 2, 4 and 5. -/
def ipv6Verdict (f : List Byte) (o : Nat) : IpVerdict :=
  let h := fieldAt f (o + 6) 1
  if extensionHeaders.contains h then .bad (if hasFragment f f.length h (o + 40) then .ipFragment else .ipUnsupported)
  else if h ≠ 17 then .damium
  else if ¬ udpGood f (o + 40) (fieldAt f (o + 4) 2) true then .bad .udpChecksum
  else .udp (o + 40)

/-- A frame that Damium takes and may answer, with no frame longer than MAX_FRAME (R66, R67). -/
def State.damiumFrame (s : State) (i : Nat) (f : List Byte) : State :=
  match Config.protocolAnswer i f with
  | some g => if s.frameLimit i < wireLength g then s
      else s.queueFrame i { media := false, length := wireLength g, content := .other g }
  | none => s

/-- Whether an IP address is one of the device's own. -/
def State.ownAddress (s : State) (a : List Byte) : Bool := [0, 1, 2, 3].any (fun i => (Config.ownAddresses (s.egressKey i)).contains a)

/-- A datagram for Damium (R418, R419). -/
def State.fylosDatagram (s : State) (i : Nat) (a : Arrival) : State :=
  if a.payload.length < 32 then s.bumpFylos .badLength
  else
    let (op, p) := packetOf (.udp a.srcAddr a.srcPort i) a.payload
    fylosRun op (bodyOf op) p s

/-- A lookup's result: an uncorrectable error in the flow table makes it a miss (Table 20.1). -/
def State.lookUp (s : State) (key : List Byte) (ecc : Ecc) : State × Option FlowEntry :=
  match ecc with
  | .clean => (s, lookupTwice s.flows key)
  | .corrected => (s.drawn.correctable 0x13 4 0 5 s.freeValue 5 0, lookupTwice s.flows key)
  | .uncorrectable => (s.drawn.logError 0x40 4 0 0 0xFFFF 0 5 s.freeValue, none)

/-- A UDP datagram whose header lies at `u`, steps 6 and 7. -/
def State.datagram (s : State) (i : Nat) (f : List Byte) (u : Nat) (stamp : Stamp) (ecc : Ecc) : State :=
  let d := (frameAddresses f).2
  let port := fieldAt f (u + 2) 2
  let a := arrivalOf (s.newFlow []) i f u stamp
  if s.ownAddress d ∧ port = s.flows.udpPort then s.fylosDatagram i a
  else
    let r := s.lookUp (fullKey (frameVlan f) a.srcAddr d a.srcPort port) ecc
    match r.2 with
    | some e => r.1.matched { a with flow := flowSettingsOf e }
    | none => r.1.missed i stamp f

/-- The examination of R140. -/
def State.examine (s : State) (i : Nat) (f : List Byte) (stamp : Stamp) (powered : Nat) (ecc : Ecc) : State :=
  let o := etherOffset f
  match ptpOffset f with
  | some p => s.takePtp i p f stamp powered
  | none =>
    let v : Option IpVerdict :=
      if fieldAt f o 2 = 0x0800 then some (ipv4Verdict f (o + 2))
      else if fieldAt f o 2 = 0x86DD then some (ipv6Verdict f (o + 2))
      else if fieldAt f o 2 = 0x0806 then some .damium
      else none
    match v with
    | none => s.bumpRegion 0 .nonIp
    | some .damium => s.damiumFrame i f
    | some (.bad c) => s.bumpRegion 0 c
    | some (.udp u) => s.datagram i f u stamp ecc

/-! ## The checks of the MAC (R605) and reassembly (R88) -/

/-- A whole frame at port `i`: counted once, and examined if nothing discards it. -/
def State.wholeFrame (s : State) (i : Nat) (bytes : List Byte) (fcsGood room : Bool) (stamp : Stamp) (powered : Nat)
    (ecc lookup : Ecc) : State :=
  let p := s.port i
  let n := bytes.length + 4
  if ¬ room then s.bumpPort i .rxBufferDiscard
  else if ecc = .uncorrectable then (s.bumpPort i .rxBufferDiscard).drawn.logError 0x41 4 8 i 0xFFFF 0 5 s.freeValue
  else
    let s0 := if ecc = .corrected then s.drawn.correctable 0x13 4 i 5 s.freeValue 5 0 else s
    if n < 64 ∨ p.maxFrame < n then s0.bumpPort i .rxLengthError
    else if ¬ fcsGood then s0.bumpPort i .rxFcsError
    else if ¬ s0.accepts i bytes then s0.bumpPort i .rxAddrDiscard
    else
      let s1 := s0.bumpPort i .rxFrames
      if s1.takesControl i bytes then s1.modPort i (Port.control s1.now10 bytes) else s1.examine i bytes stamp powered lookup

/-- The 512 KiB ingress buffer (R26, R64). -/
def ingressBufferSize : Nat := 524288

/-- Whether the ingress buffer has room for a frame of `n` bytes: beside a frame in reassembly, and beside the frames under
classification, which the arrival tells of. -/
def Port.ingressRoom (p : Port) (n : Nat) (room : Bool) : Bool :=
  room && decide ((match p.reassembly with | some r => r.bytes.length | none => 0) + n ≤ ingressBufferSize)

/-- How long ago the SFD of a frame or fragment of `n` bytes and 4 check bytes crossed the boundary, in units of 10 ps: its last
byte arrives now. -/
def Port.sinceSfd (p : Port) (n : Nat) : Nat := (n + 4) * p.mode.byteTime

/-- The ingress stamp of a frame whose last byte arrives now (R26, R113). -/
def State.ingressStamp (s : State) (p : Port) (n vary : Nat) : Stamp :=
  let r := s.counterAgo (p.sinceSfd n)
  stampAt (r.1 - p.rxCorrection vary) r.2.toNat

/-- The powered time of its SFD, corrected alike, in units of 2^-16 ns (R103). -/
def State.ingressPowered (s : State) (p : Port) (n vary : Nat) : Nat :=
  poweredStamp (s.now10 - p.sinceSfd n) (-(p.rxCorrection vary))

/-- A partial frame discarded; `due` tells whether its sender still owes fragments of it. -/
def Port.dropPartial (p : Port) (due : Bool) : Port :=
  bumpPortCount { p with reassembly := none, fragmentDue := due } .reassemblyError

/-- An express frame that arrives with no reassembly pending while a fragment was expected (R88; log entry 43). -/
def Port.expressBeforeFragment (p : Port) : Port :=
  if p.fragmentDue ∧ p.reassembly = none then p.dropPartial false else p

/-- Whether the MAC and PCS of port `i` receive (R485). -/
def State.macReceives (s : State) (i : Nat) : Bool := s.clockRuns (72 + i) && s.clockRuns (76 + i)

/-- A fragment at a port that is link-up (R88). -/
def State.fragment (s : State) (f : RxFrame) : State :=
  let i := f.port
  let p := s.port i
  let n := f.bytes.length
  match f.framing with
  | .express => s
  | .first good =>
    let q := if p.reassembly.isSome then p.dropPartial false else p
    if ¬ good then s.setPort i (q.dropPartial true)
    else s.setPort i { q with
      fragmentDue := false,
      reassembly := some { bytes := f.bytes, next := 0, stamp := s.ingressStamp p n f.vary, powered := s.ingressPowered p n f.vary } }
  | .continuation k good last =>
    match p.reassembly with
    | none => if last then s.setPort i { p with fragmentDue := false } else s
    | some r =>
      if k ≠ r.next ∨ (¬ last ∧ ¬ good) then s.setPort i (p.dropPartial (!last))
      else if last then
        (s.setPort i { p with reassembly := none }).wholeFrame i (r.bytes ++ f.bytes) f.fcsGood
          (({ p with reassembly := none }).ingressRoom (r.bytes.length + n) f.room) r.stamp r.powered f.ecc f.lookup
      else s.setPort i { p with reassembly := some { r with bytes := r.bytes ++ f.bytes, next := (r.next + 1) % 4 } }

/-- FRAME_RECEIVED: a frame or fragment whose last byte has arrived. With PREEMPT OFF the port knows no fragments: what they
start with is no start-of-frame delimiter (R84; log entry 84). -/
def frameReceivedStep (f : RxFrame) (s : State) : State :=
  let i := f.port
  let p := s.port i
  if 4 ≤ i ∨ ¬ s.macReceives i then s
  else if ¬ p.up then
    let counts : Bool := match f.framing with
      | .express => true
      | .first _ => true
      | .continuation _ _ _ => p.reassembly.isSome
    let s1 := s.setPort i { p with reassembly := none, fragmentDue := false }
    if counts then s1.bumpPort i .rxNotUp else s1
  else
    match f.framing with
    | .express =>
      let n := f.bytes.length
      (s.setPort i p.expressBeforeFragment).wholeFrame i f.bytes f.fcsGood (p.ingressRoom n f.room) (s.ingressStamp p n f.vary)
        (s.ingressPowered p n f.vary) f.ecc f.lookup
    | .first _ | .continuation _ _ _ => if p.preempt = 0 then s else s.fragment f

/-! ## FORWARDED_FYLOS (R411, R544, R545) -/

/-- A reply or completion of another member, given to the source of the command it answers. -/
def State.relay (s : State) (k : PacketKind) (d : Nat) (r : CmdRef) (status : Nat) (tlvs : List Tlv) : State :=
  let parts := partsOf (answer k r d status tlvs .none) (s.partLimit r.source)
  let s1 := s.send r.source parts
  { s1 with fylos := { s1.fylos with cache := cacheAdd s1.fylos.cache r (k == .reply) parts } }

/-- The reply of another member: one that accepts leaves its command outstanding here. -/
def State.relayReply (s : State) (d : Nat) (r : CmdRef) (status : Nat) (tlvs : List Tlv) : State :=
  let e : Forwarded := { device := d, ref := r }
  if ¬ s.stack.forwarded.contains e then s
  else
    let s1 := { s with stack := { s.stack with forwarded := s.stack.forwarded.erase e } }
    let s2 := if status = stAccepted then { s1 with fylos := { s1.fylos with outstanding := s1.fylos.outstanding ++ [r] } } else s1
    s2.relay .reply d r status tlvs

/-- The completion of another member. -/
def State.relayCompletion (s : State) (d : Nat) (r : CmdRef) (status : Nat) (tlvs : List Tlv) : State :=
  if ¬ s.fylos.outstanding.contains r then s
  else
    let s1 := { s with fylos := { s.fylos with outstanding := s.fylos.outstanding.erase r } }
    if s1.deliverable r.source then s1.relay .completion d r status tlvs else s1.bumpFylos .droppedCompletions

/-- The groups by number. -/
def groupOf (n : Nat) : Group :=
  (([.system, .channel, .tone, .media, .flow, .time, .port, .tdm, .clockPower, .fault, .stack] : List Group)[n]?).getD .system

/-- A notice of another member, to the destinations set here: it carries that member's number. -/
def State.relayNotice (s : State) (d : Nat) (g : Group) (v4 : Bool) (op target : Nat) (tlvs : List Tlv) : State :=
  let own := s.stack.number
  let s1 := [0, 1, 2, 3].foldl State.tellLost s
  let s2 := { s1 with stack := { s1.stack with number := d } }.notice g v4 op target tlvs
  { s2 with stack := { s2.stack with number := own } }

/-- FORWARDED_FYLOS from device `d`. -/
def forwardedFylosStep (d : Nat) (m : StackFylos) (s : State) : State :=
  match m with
  | .command dev op p =>
    let q := { p with source := .stack dev (isRing p.source) }
    fylosRun op.toNat (bodyOf op.toNat) q (s.takeMessage d 0x10)
  | .reply dev r st l => (s.takeMessage d 0x10).relayReply dev r st l
  | .completion dev r st l => (s.takeMessage d 0x10).relayCompletion dev r st l
  | .notice dev g v4 op target l => (s.takeMessage d 0x10).relayNotice dev (groupOf g) v4 op target l
  | .reserve dev c b format compute dram units wide => reserveStep dev c b format compute dram units wide s
  | .reserved c st => reservedStep c st s
  | .moved c st => movedStep c st s
  | .peerMoved c leg dev => peerMovedStep c leg dev s

/-! ## The meanings -/

def execFrameReceived (f : RxFrame) (s : State) : Host.Outcome State Fault Refusal := .next (frameReceivedStep f s)
def execForwardedFylos (device : Nat) (message : StackFylos) (s : State) : Host.Outcome State Fault Refusal :=
  .next (forwardedFylosStep device message s)

end Sys2Proof.Machine
end

