-- ==== Sys2Proof/Machine/Flags.lean ====
section
/-! DEFINITION. The flags of SR (Table 12.5, Table 13.6): ZF, NF, CF and VF of a result, conditions, and SR as read. -/

namespace Sys2Proof.Machine

/-- ZF, NF, CF, VF as one value. -/
def packFlags (r : Nat) (cf vf : Bool) : Nat :=
  boolNat (r % 2 ^ 32 == 0) + 2 * boolNat (r.testBit 31) + 4 * boolNat cf + 8 * boolNat vf

/-- Whether an integer lies outside 32 signed bits. -/
def leaves32 (v : Int) : Bool := sat32 v != v

/-- A sum of two D values: the exact signed sum, and the carry out. -/
def addParts (a b : Nat) : Int × Bool := (signedOf 32 a + signedOf 32 b, decide (2 ^ 32 ≤ a + b))
/-- A difference: the exact signed difference, and the borrow. -/
def subParts (a b : Nat) : Int × Bool := (signedOf 32 a - signedOf 32 b, decide (a < b))

/-- Flags of ADD, SUB, CMP and NEG, from the exact result and the carry or borrow. -/
def wrapFlags (p : Int × Bool) : Nat := packFlags (patternOf 32 p.1) p.2 (leaves32 p.1)
/-- Flags of ADDS and SUBS, from the clamped result. -/
def clampFlags (p : Int × Bool) : Nat := packFlags (patternOf 32 (sat32 p.1)) p.2 (leaves32 p.1)
/-- Flags of the operations that clear CF and VF. -/
def plainFlags (r : Nat) : Nat := packFlags r false false

/-- Flags of SHL by `n`: the last bit shifted out, and whether shifting back differs. -/
def shlFlags (a n : Nat) : Nat :=
  let r := a * 2 ^ n % 2 ^ 32
  packFlags r (n != 0 && a.testBit (32 - n)) (signedOf 32 r / 2 ^ n != signedOf 32 a)
/-- Flags of ASR and LSR by `n` with result `r`. -/
def shrFlags (a n r : Nat) : Nat := packFlags r (n != 0 && a.testBit (n - 1)) false

/-- Whether a condition holds on the flags, GO and SAT (Table 13.10). -/
def condHolds (c : Cond) (f : Nat) (go sat : Bool) : Bool :=
  let z := f.testBit 0
  let n := f.testBit 1
  let cf := f.testBit 2
  let v := f.testBit 3
  match c with
  | .always => true
  | .eq => z
  | .ne => !z
  | .lt => n != v
  | .ge => n == v
  | .gt => !z && n == v
  | .le => z || n != v
  | .cs => cf
  | .cc => !cf
  | .vs => v
  | .vc => !v
  | .mi => n
  | .pl => !n
  | .gos => go
  | .sats => sat

/-- A condition as a word's branch sees it. -/
def View.holds (v : View) (c : Cond) : Bool :=
  condHolds c (v.nat rFlags .branch) (v.nat rGO .branch == 1) (v.nat rSAT .branch == 1)

/-- SR as a compute operation reads it: BANK, USER and REPA beside the flags (Table 12.5). -/
def View.sr (v : View) (bank rep : Bool) : Nat :=
  v.nat rFlags .operand + 16 * v.nat rGO .operand + 32 * v.nat rSAT .operand + 256 * boolNat bank +
  512 * boolNat v.bank.user + 1024 * boolNat rep

end Sys2Proof.Machine
end

