-- ==== Sys2Proof/Machine/VeCompute.lean ====
section
/-! DEFINITION. The compute operations of the cells (Tables 13.5, 13.6 and 13.8): each as the register writes it makes. -/

namespace Sys2Proof.Machine

/-- One register write that an operation asks for: `late` words later than its producer's row gives. -/
structure WriteReq where
  producer : Producer
  reg : Nat
  value : Nat
  late : Nat := 0
  deriving DecidableEq, Repr

/-! ## Results -/

def toV (k : Nat) (l : List Int) : WriteReq := { producer := .compute, reg := rV k, value := packLanes l }
def toD (k r : Nat) : WriteReq := { producer := .compute, reg := rD k, value := r % 2 ^ 32 }
def toAcc (k : Nat) (a : Int × Int) : WriteReq := { producer := .acc, reg := rAC k, value := packAcc a.1 a.2 }
def setFlags (f : Nat) : WriteReq := { producer := .flags, reg := rFlags, value := f }
/-- GO and SAT are only ever set (R323, R363). -/
def setGo (b : Bool) : List WriteReq := if b then [{ producer := .flags, reg := rGO, value := 1 }] else []
def setSat (b : Bool) : List WriteReq := if b then [{ producer := .flags, reg := rSAT, value := 1 }] else []
/-- A scalar result with its flags. -/
def scalar (k r f : Nat) : List WriteReq := [toD k r, setFlags f]
/-- Results that appear one word later (R361). -/
def later (l : List WriteReq) : List WriteReq :=
  l.map (fun w =>
    match w.producer with
    | .compute => { w with producer := .mul31 }
    | .acc => { w with producer := .acc31 }
    | _ => { w with late := 1 })

/-! ## Lanes -/

/-- The product of complex lanes without its shift (prod30), with `a` conjugated under CJA. -/
def prod30 (cja : Bool) (p : (Int × Int) × (Int × Int)) : Int × Int :=
  let ai := if cja then -p.1.2 else p.1.2
  (p.1.1 * p.2.1 - ai * p.2.2, p.1.1 * p.2.2 + ai * p.2.1)

def cpairs (v : View) (a b : Nat) : List ((Int × Int) × (Int × Int)) := (v.complex a).zip (v.complex b)
def rpairs (v : View) (a b : Nat) : List (Int × Int) := (v.lanes a).zip (v.lanes b)

/-- Lanes saturated to 16 bits: the values, and whether any clamps. -/
def sat16s (l : List Int) : List Int × Bool := (l.map sat16, l.any saturates)

/-- A vector of lanes that saturate, with SAT. -/
def satVector (d : Nat) (l : List Int) : List WriteReq := let r := sat16s l; toV d r.1 :: setSat r.2

/-- An accumulator's old halves plus or minus a complex sum, wrapped, with GO. -/
def accumulate (k : Nat) (old : Int × Int) (neg : Bool) (sum : Int × Int) : List WriteReq :=
  let s : Int := if neg then -1 else 1
  let re := old.1 + s * sum.1
  let im := old.2 + s * sum.2
  toAcc k (wrap40 re, wrap40 im) :: setGo (leaves40 re || leaves40 im)

/-- The halves an accumulation starts from. -/
def accStart (v : View) (k : Nat) (clr : Bool) : Int × Int := if clr then (0, 0) else v.acc k .accumulate

/-- One GO for several accumulations. -/
def joinGo (l : List (List WriteReq)) : List WriteReq :=
  let all := l.flatten
  all.filter (fun w => w.reg != rGO) ++ setGo (all.any (fun w => w.reg == rGO))

/-- The redundant sign bits below bit 31. -/
def signBits : Nat → Nat → Nat
  | 0, _ => 0
  | n + 1, a => if a.testBit n = a.testBit 31 then signBits n a + 1 else 0

/-! ## The operations (Table 13.5) -/

def doCmac4 (v : View) (k a b : Nat) (cja neg clr : Bool) : List WriteReq :=
  let p := (cpairs v a b).map (prod30 cja)
  accumulate k (accStart v k clr) neg (2 * (p.map (·.1)).sum, 2 * (p.map (·.2)).sum)

def doCmac4v (v : View) (hi : Bool) (a b : Nat) (cja neg clr : Bool) : List WriteReq :=
  let k := if hi then 4 else 0
  joinGo (((cpairs v a b).zipIdx).map (fun (q : ((Int × Int) × (Int × Int)) × Nat) =>
    let p := prod30 cja q.1
    accumulate (k + q.2) (accStart v (k + q.2) clr) neg (2 * p.1, 2 * p.2)))

def doRmac8 (v : View) (k a b : Nat) (neg clr : Bool) : List WriteReq :=
  accumulate k (accStart v k clr) neg (2 * ((rpairs v a b).map (fun p => p.1 * p.2)).sum, 0)

def doCmul4 (v : View) (d a b : Nat) (cja : Bool) (s : Nat) : List WriteReq :=
  satVector d ((flatten ((cpairs v a b).map (prod30 cja))).map (fun x => rne x (15 + s)))

def doVcmac4 (v : View) (d c a b : Nat) (cja : Bool) (s : Nat) : List WriteReq :=
  let sh := v.d s % 32
  satVector d (((v.lanes c).zip (flatten ((cpairs v a b).map (prod30 cja)))).map (fun p => p.1 + rne p.2 (15 + sh)))

def doVmul8 (v : View) (d a b s : Nat) : List WriteReq :=
  satVector d ((rpairs v a b).map (fun p => rne (p.1 * p.2) (15 + s)))

def doBfly (v : View) (d a b s : Nat) : List WriteReq :=
  let x := sat16s ((rpairs v a b).map (fun p => rne (p.1 + p.2) s))
  let y := sat16s ((rpairs v a b).map (fun p => rne (p.1 - p.2) s))
  [toV d x.1, toV (d + 1) y.1] ++ setSat (x.2 || y.2)

/-- VADD and VSUB: `l` holds the exact lanes before the shift. -/
def narrowLanes (d s : Nat) (satm : Bool) (l : List Int) : List WriteReq :=
  let r := l.map (fun x => rne x s)
  if satm then satVector d r else [toV d r]

def doVadd (v : View) (d a b s : Nat) (satm : Bool) : List WriteReq :=
  narrowLanes d s satm ((rpairs v a b).map (fun p => p.1 + p.2))
def doVsub (v : View) (d a b s : Nat) (satm : Bool) : List WriteReq :=
  narrowLanes d s satm ((rpairs v a b).map (fun p => p.1 - p.2))
def doVshr (v : View) (d a s : Nat) : List WriteReq := [toV d ((v.lanes a).map (fun x => rne x s))]
def doVshl (v : View) (d a s : Nat) : List WriteReq := satVector d ((v.lanes a).map (fun x => x * 2 ^ s))

def lane (l : List (Int × Int)) (j : Nat) : Int × Int := (l[j]?).getD (0, 0)

def doCzip (v : View) (d a b : Nat) : List WriteReq :=
  let x := v.complex a
  let y := v.complex b
  [toV d (flatten [lane x 0, lane y 0, lane x 1, lane y 1]), toV (d + 1) (flatten [lane x 2, lane y 2, lane x 3, lane y 3])]

def doCunzip (v : View) (d a b : Nat) : List WriteReq :=
  let x := v.complex a
  let y := v.complex b
  [toV d (flatten [lane x 0, lane x 2, lane y 0, lane y 2]), toV (d + 1) (flatten [lane x 1, lane x 3, lane y 1, lane y 3])]

def doVmov (v : View) (d a : Nat) : List WriteReq := [toV d (v.lanes a)]

/-- One 32-bit value in each complex lane. -/
def fourLanes (x : Nat) : Nat := x * (1 + 2 ^ 32 + 2 ^ 64 + 2 ^ 96)

def doVbcast (v : View) (d a : Nat) : List WriteReq :=
  [{ producer := .compute, reg := rV d, value := fourLanes (v.d a) }]

def doVmaxa (v : View) (d a : Nat) (pair : Bool) : List WriteReq :=
  let l := v.lanes a ++ (if pair then v.lanes (a + 1) else [])
  [{ producer := .vmaxa, reg := rD d, value := (l.map Int.natAbs).foldl max (v.nat (rD d) .vmaxa) }]

def doPack (v : View) (d : Nat) (hi : Bool) (s : Nat) : List WriteReq :=
  let k := if hi then 4 else 0
  let halves := flatten ((List.range 4).map (fun j => v.acc (k + j) .operand))
  toV d (halves.map (fun h => st16 h s)) :: setSat (halves.any (fun h => clamps16 h s))

def doAcshr (v : View) (k s : Nat) : List WriteReq :=
  let a := v.acc k .operand
  [toAcc k (rne a.1 s, rne a.2 s)]

def doAcadd (v : View) (d s : Nat) : List WriteReq := accumulate d (v.acc d .accumulate) false (v.acc s .operand)

def doActod (v : View) (d k s : Nat) : List WriteReq :=
  let h := (v.acc k .operand).1
  toD d (patternOf 32 (st32 h s)) :: setSat (clamps32 h s)

def doDtoac (v : View) (k a : Nat) : List WriteReq := [toAcc k (v.dInt a, 0)]

/-! Scalars: operands as values, so that the SCALAR_IMM forms use the same operations (R365). -/

def addTo (d a b : Nat) : List WriteReq := let p := addParts a b; scalar d (patternOf 32 p.1) (wrapFlags p)
def subTo (d a b : Nat) : List WriteReq := let p := subParts a b; scalar d (patternOf 32 p.1) (wrapFlags p)
def cmpOf (a b : Nat) : List WriteReq := [setFlags (wrapFlags (subParts a b))]
def logicTo (d r : Nat) : List WriteReq := scalar d r (plainFlags r)

def clampTo (d : Nat) (p : Int × Bool) : List WriteReq :=
  scalar d (patternOf 32 (sat32 p.1)) (clampFlags p) ++ setSat (leaves32 p.1)

def doAbs (d a : Nat) : List WriteReq :=
  let r := patternOf 32 ((signedOf 32 a).natAbs : Int)
  scalar d r (packFlags r false (a == 2 ^ 31))

def doShl (d a n : Nat) : List WriteReq := scalar d (a * 2 ^ n % 2 ^ 32) (shlFlags a n)
def doAsr (d a n : Nat) : List WriteReq :=
  let r := patternOf 32 (signedOf 32 a / 2 ^ n)
  scalar d r (shrFlags a n r)
def doLsr (d a n : Nat) : List WriteReq := scalar d (a / 2 ^ n) (shrFlags a n (a / 2 ^ n))

def doMul (d : Nat) (a b : Int) : List WriteReq :=
  let r := patternOf 32 (a * b)
  scalar d r (packFlags r false (leaves32 (a * b)))

def doMpy15 (d a b : Nat) : List WriteReq :=
  let p := rne (signedOf 16 a * signedOf 16 b) 15
  let r := patternOf 32 (sat16 p)
  scalar d r (plainFlags r) ++ setSat (saturates p)

def doMpy31 (d : Nat) (a b : Int) : List WriteReq :=
  let p := rne (a * b) 31
  let r := patternOf 32 (sat32 p)
  later (scalar d r (plainFlags r) ++ setSat (leaves32 p))

def doMac31 (k : Nat) (old : Int × Int) (a b : Int) : List WriteReq :=
  let re := old.1 + rne (a * b) 31
  later (toAcc k (wrap40 re, old.2) :: setGo (leaves40 re))

/-- The writes of a compute field; `bank` and `rep` are what MFS reads of SR besides the flags. -/
def compute (v : View) (bank rep : Bool) (c : Comp) : List WriteReq :=
  match c with
  | .nop => []
  | .cmac4 k a b cja neg clr => doCmac4 v k a b cja neg clr
  | .cmac4v hi a b cja neg clr => doCmac4v v hi a b cja neg clr
  | .rmac8 k a b neg clr => doRmac8 v k a b neg clr
  | .cmul4 d a b cja s => doCmul4 v d a b cja s
  | .vcmac4 d c a b cja s => doVcmac4 v d c a b cja s
  | .vmul8 d a b s => doVmul8 v d a b s
  | .bfly dh a b s => doBfly v (2 * dh.val) a b s
  | .vadd d a b s satm => doVadd v d a b s satm
  | .vsub d a b s satm => doVsub v d a b s satm
  | .vshr d a s => doVshr v d a s
  | .vshl d a s => doVshl v d a s
  | .czip dh a b => doCzip v (2 * dh.val) a b
  | .cunzip dh a b => doCunzip v (2 * dh.val) a b
  | .vmov d a => doVmov v d a
  | .vbcast d a => doVbcast v d a
  | .vmaxa d a pair => doVmaxa v d a pair
  | .pack d hi s => doPack v d hi s
  | .acshr k s => doAcshr v k s
  | .acadd d s => doAcadd v d s
  | .actod d k s => doActod v d k s
  | .dtoac k a => doDtoac v k a
  | .add d a b => addTo d (v.d a) (v.d b)
  | .sub d a b => subTo d (v.d a) (v.d b)
  | .adds d a b => clampTo d (addParts (v.d a) (v.d b))
  | .subs d a b => clampTo d (subParts (v.d a) (v.d b))
  | .and d a b => logicTo d (v.d a &&& v.d b)
  | .or d a b => logicTo d (v.d a ||| v.d b)
  | .xor d a b => logicTo d (v.d a ^^^ v.d b)
  | .cmp a b => cmpOf (v.d a) (v.d b)
  | .mov d a => logicTo d (v.d a)
  | .neg d a => subTo d 0 (v.d a)
  | .abs d a => doAbs d (v.d a)
  | .min d a b => logicTo d (if v.dInt a ≤ v.dInt b then v.d a else v.d b)
  | .max d a b => logicTo d (if v.dInt a ≤ v.dInt b then v.d b else v.d a)
  | .shl d a n => doShl d (v.d a) n
  | .asr d a n => doAsr d (v.d a) n
  | .lsr d a n => doLsr d (v.d a) n
  | .mul d a b => doMul d (v.dInt a) (v.dInt b)
  | .mpy15 d a b => doMpy15 d (v.d a) (v.d b)
  | .mpy31 d a b => doMpy31 d (v.dInt a) (v.dInt b)
  | .mac31 k a b => doMac31 k (v.acc k .accumulate) (v.dInt a) (v.dInt b)
  | .norm d a => logicTo d (signBits 31 (v.d a))
  | .mfs d lc => logicTo d (if lc then v.nat rLC .operand else v.sr bank rep)

/-- A 16-bit immediate sign-extended to 32 bits. -/
def sext16 (i : BitVec 16) : Nat := patternOf 32 i.toInt

/-- The writes of a SCALAR_IMM operation (Table 13.8). -/
def scalarImm (v : View) (o : SImm) : List WriteReq :=
  match o with
  | .addi d a i => addTo d (v.d a) (sext16 i)
  | .andi d a i => logicTo d (v.d a &&& i.toNat)
  | .ori d a i => logicTo d (v.d a ||| i.toNat)
  | .xori d a i => logicTo d (v.d a ^^^ i.toNat)
  | .cmpi a i => cmpOf (v.d a) (sext16 i)
  | .movi d i => logicTo d (sext16 i)
  | .movhi d a i => logicTo d (i.toNat * 65536 + v.d a % 65536)

end Sys2Proof.Machine
end

