-- ==== Sys2Proof/Machine/VeMemory.lean ====
section
/-! DEFINITION. Data accesses of a cell: the address map, what an access may do, and what it reads and writes (R315 to
R320, R343, R344, R350, R358, R372, R396). -/

namespace Sys2Proof.Machine

/-! ## Places (Tables 12.2, 12.10, 12.11 and 14.6) -/

/-- Where a logical address of one side leads. -/
inductive Place
  | memory (phys : Nat) (common : Bool)
  | block (off : Nat)
  | port (off : Nat)
  | status (off : Nat)
  | rsvd
  deriving DecidableEq, Repr

def placeOf (bank yside : Bool) (a : Nat) : Place :=
  if a < 0xC000 then .memory (pageBase bank + a) false
  else if 0x10000 ≤ a ∧ a < 0x18000 then .memory (0x18000 + (a - 0x10000)) true
  else if ¬ yside ∧ 0x200000 ≤ a ∧ a < 0x400000 then .block (a - 0x200000)
  else if yside ∧ 0x400000 ≤ a ∧ a < 0x400500 then .port (a - 0x400000)
  else if yside ∧ 0x401000 ≤ a ∧ a < 0x401100 then .status (a - 0x401000)
  else .rsvd

/-- One data access of a word. -/
structure Access where
  yside : Bool
  addr : Nat
  width : Nat
  store : Bool
  deriving DecidableEq, Repr

/-- Whether a block memory offset lies in the thread table, the pending pool or the event FIFO (R396). -/
def dispatcherArea (off : Nat) : Bool := decide (0x1B0000 ≤ off ∧ off < 0x1E4000)

/-- The trap an access raises, if any: in a repeated word, misalignment, a reserved address, user mode. -/
def accessTrap (bank user rep : Bool) (x : Access) : Option TrapCause :=
  match placeOf bank x.yside x.addr with
  | .memory _ common =>
    if x.addr % x.width ≠ 0 then some .alignment
    else if user ∧ (if common then x.store else decide (x.addr < 0x8000)) then some .privilege
    else none
  | .block off =>
    if rep then some .illegalSequence
    else if x.addr % x.width ≠ 0 then some .alignment
    else if user then some .privilege
    else if x.store ∧ dispatcherArea off then some .address
    else none
  | .port _ =>
    if rep then some .illegalSequence
    else if x.addr % x.width ≠ 0 then some .alignment
    else if user then some .privilege
    else none
  | .status _ =>
    if rep then some .illegalSequence
    else if x.addr % x.width ≠ 0 then some .alignment
    else if user then some .privilege
    else if x.store then some .address
    else none
  | .rsvd => if rep then some .illegalSequence else if x.addr % x.width ≠ 0 then some .alignment else some .address

/-! ## What a read finds -/

/-- The thread record of slot `t` as Table 14.1 lays it out; the pool indices of a list are free. -/
def threadBytes (draw t : Nat) (k : Thread) : List Byte :=
  let w0 := k.state.ctorIdx + k.cell * 2 ^ 3 + k.priority * 2 ^ 7 + k.phase * 2 ^ 13 + boolNat k.wakeTick * 2 ^ 20 +
    boolNat k.wakeTdm0 * 2 ^ 21 + boolNat k.wakeTdm1 * 2 ^ 22 + boolNat k.wakeSignal * 2 ^ 23 +
    boolNat k.wakeCommand * 2 ^ 24 + boolNat k.tickPend * 2 ^ 25 + boolNat k.tdmPend * 2 ^ 26 + boolNat k.eventPend * 2 ^ 27
  let n := k.pending.length
  let index := fun (i : Nat) => if n = 0 then 0xFFFF else Config.freeAt draw (2 * t + i) % 8192
  leBytes 4 w0 ++ leBytes 2 k.channel ++ leBytes 2 k.stageList ++ leBytes 2 k.budget ++ leBytes 2 n ++
  leBytes 2 (index 0) ++ leBytes 2 (index 1) ++ leBytes 8 k.deadline ++ leBytes 4 k.tick ++ leBytes 4 k.runs.toNat ++
  leBytes 4 k.misses.toNat ++ leBytes 4 k.skips.toNat ++ leBytes 4 (k.suspendRec.getD 0) ++ zeroBytes 20

/-- A slot never used reads as its reset value (Table 14.1). -/
def recordBytes (draw t : Nat) (k : Block) : List Byte := threadBytes draw t (blockThread k t)

/-- One byte of block memory (Table 14.6): the thread table reads as the records stand; how the packet engine, the array and the
dispatcher place packets, streams, commit copies, the pool and the FIFO in their areas is free; the system area reads as written. -/
def blockByte (draw : Nat) (k : Block) (off : Nat) : Byte :=
  if 0x1B0000 ≤ off ∧ off < 0x1C2000 then
    ((recordBytes draw ((off - 0x1B0000) / 64) k)[(off - 0x1B0000) % 64]?).getD 0
  else if off < 0x1E4000 then BitVec.ofNat 8 (Config.freeAt draw off)
  else memByte k.memory off

/-- The status page (Table 12.11). -/
def statusBytes (n : Nat) (c : Cell) : List Byte :=
  leBytes 4 n ++ zeroBytes 4 ++ leBytes 8 c.cycle.toNat ++ leBytes 8 c.stall.toNat ++
  leBytes 8 (patternOf 64 ((c.budgetEnd : Int) - c.cycle.toNat)) ++ [c.userStatus] ++ zeroBytes 3 ++
  leBytes 4 c.active.userCycles

/-- A byte of a data memory with the stores that word `now` sees (R358). -/
def dataByte (c : Cell) (yside : Bool) (now phys : Nat) : Byte :=
  let seen := c.stores.filter (fun p => p.yside == yside && decide (p.issue + 2 ≤ now) &&
    decide (p.addr ≤ phys ∧ phys < p.addr + p.bytes.length))
  match seen.getLast? with
  | some p => (p.bytes[phys - p.addr]?).getD 0
  | none => memByte (if yside then c.ymem else c.xmem) phys

/-- The bytes an access reads. -/
def State.loadBytes (s : State) (n now : Nat) (x : Access) : List Byte :=
  let c := s.cell n
  match placeOf c.bank x.yside x.addr with
  | .memory p _ => (List.range x.width).map (fun i => dataByte c x.yside now (p + i))
  | .block off => (List.range x.width).map (fun i => blockByte s.draws (s.block (cellBlock n)) (off + i))
  | .port _ => freeBytes s.draws x.addr x.width
  | .status off => (List.range x.width).map (fun i => ((statusBytes n c)[off + i]?).getD 0)
  | .rsvd => []

/-! ## Stores -/

/-- The port of a port window offset. -/
def portOf (off : Nat) : Nat := off / 256

/-- A store made: in a cell memory it stays in flight for the words behind it; elsewhere it is made at once, in order. -/
def State.storeBytes (s : State) (n now : Nat) (x : Access) (l : List Byte) : State :=
  let c := s.cell n
  match placeOf c.bank x.yside x.addr with
  | .memory p _ =>
    s.setCell n { c with stores := c.stores ++ [{ issue := now, yside := x.yside, addr := p, bytes := l }] }
  | .block off => s.modBlock (cellBlock n) (fun k => { k with memory := memWrite k.memory off l })
  | .port off => s.setCell n { c with open_ := tabSet c.open_ (portOf off) (memWrite (tabGet c.open_ (portOf off) []) off l) [] }
  | .status _ => s
  | .rsvd => s

/-- Stores older than any word a trap would discard are carried out (R346). -/
def settleStores (now : Nat) (c : Cell) : Cell :=
  let old := c.stores.filter (fun p => decide (p.issue + 5 ≤ now))
  { applyStores c old with stores := c.stores.filter (fun p => decide (now < p.issue + 5)) }

/-- The stall cycles of an access: 8 to 520 for block memory, any number for the port window and the status page, one
for a store narrower than 64 bits (R318, R319). -/
def State.stallOf (s : State) (n k : Nat) (x : Access) : Nat :=
  let c := s.cell n
  match placeOf c.bank x.yside x.addr with
  | .memory _ _ => if x.store ∧ x.width < 8 then 1 else 0
  | .block _ => 8 + Config.freeAt s.draws (0x1000000 + k) % 513
  | .port _ | .status _ => Config.freeAt s.draws (0x1000000 + k)
  | .rsvd => 0

/-- Whether an access reads protected words: a load, or a store narrower than its granule (R319). -/
def readsWords (x : Access) : Bool := !x.store || decide (x.width < 8)

/-- The memory an access reads, as the error log numbers it, and the address there; none where it is no memory. -/
def memoryOf (bank : Bool) (x : Access) : Option (Nat × Nat) :=
  match placeOf bank x.yside x.addr with
  | .memory p _ => some (if x.yside then 1 else 0, p / 8 * 8)
  | .block off => some (3, off / 8 * 8)
  | .port _ | .status _ | .rsvd => none

/-- A corrected error of a data read (R320, R513). -/
def State.correctAccess (s : State) (n : Nat) (x : Access) : State :=
  match memoryOf (s.cell n).bank x with
  | some (3, a) => s.correctable 0x11 2 (cellBlock n) 3 a 3 (cellBlock n)
  | some (m, a) => s.correctable 0x10 1 n m a m (cellBlock n)
  | none => s

/-- An uncorrectable error of a data read: a cell trap, or the isolation of the block where its control areas fail
(Table 20.1). -/
def State.failAccess (s : State) (n : Nat) (x : Access) : State :=
  match memoryOf (s.cell n).bank x with
  | some (3, a) =>
    if 0x1B0000 ≤ a then isolationStep (cellBlock n) false a s
    else s.cellTrap n .uncorrectableX 0 3 a
  | some (m, a) => s.cellTrap n (if m = 1 then .uncorrectableY else .uncorrectableX) 0 m a
  | none => s

end Sys2Proof.Machine
end

