-- ==== Sys2Proof/Machine/VeIssue.lean ====
section
/-! DEFINITION. The issue of one word: the checks at D, its moves, slot, compute and control operation, REP and the delay
words (R331 to R336, R352 to R370). -/

namespace Sys2Proof.Machine

/-! ## Parts of a word -/

def wordComp (w : VeWord) : Comp :=
  match w with | .parallel c _ _ _ => c | .immediate c _ => c | .control _ _ _ => .nop | .scalarImm _ _ _ => .nop
def wordX (w : VeWord) : Move :=
  match w with | .parallel _ x _ _ => x | .immediate _ _ => .nop | .control _ x _ => x | .scalarImm _ x _ => x
def wordY (w : VeWord) : Move :=
  match w with | .parallel _ _ y _ => y | .immediate _ _ => .nop | .control _ _ y => y | .scalarImm _ _ y => y
def wordSlot (w : VeWord) : Slot := match w with | .parallel _ _ _ s => s | _ => .nop

/-- The pointer of a move, and whether it updates it. -/
def movePtr (m : Move) : Option (Nat × AMode) :=
  match m with
  | .nop => none
  | .ldQ _ p k | .stQ _ p k | .ldW _ p k | .ldH _ p k | .stW _ p k | .stH _ p k | .ldA _ _ p k | .ldL _ p k | .stL _ p k =>
    some (p, k)
  | .stAC _ _ p _ => some (p, .postInc)
def moveUpdates (m : Move) : Bool :=
  match movePtr m with
  | some (_, .postN) | some (_, .postInc) => true
  | _ => false

/-- Bytes a move moves (Table 13.3). -/
def moveWidth (m : Move) : Nat :=
  match m with
  | .nop => 0
  | .ldQ _ _ _ | .stQ _ _ _ => 16
  | .ldL _ _ _ | .stL _ _ _ => 8
  | .ldW _ _ _ | .stW _ _ _ | .ldA _ _ _ _ | .stAC _ _ _ _ => 4
  | .ldH _ _ _ | .stH _ _ _ => 2
def moveStores (m : Move) : Bool :=
  match m with
  | .stQ _ _ _ | .stW _ _ _ | .stH _ _ _ | .stAC _ _ _ _ | .stL _ _ _ => true
  | .nop | .ldQ _ _ _ | .ldW _ _ _ | .ldH _ _ _ | .ldA _ _ _ _ | .ldL _ _ _ => false

/-! ## Illegal words (R353, R354) -/

/-- The registers a move writes. -/
def moveRegs (yside : Bool) (m : Move) : List Nat :=
  (match m with
   | .ldQ r _ _ => [rV r]
   | .ldW r _ _ | .ldH r _ _ => [rD r]
   | .ldA c i _ _ => [rClass c i]
   | .ldL h _ _ => [rD (2 * h.val), rD (2 * h.val + 1)]
   | .nop | .stQ _ _ _ | .stW _ _ _ | .stH _ _ _ | .stAC _ _ _ _ | .stL _ _ _ => []) ++
  (match movePtr m with
   | some (p, .postN) | some (p, .postInc) => [if yside then rQ p else rP p]
   | _ => [])

/-- The registers a slot operation writes. -/
def slotRegs (s : Slot) : List Nat :=
  match s with
  | .nop | .rep _ | .replc => []
  | .aadd q k _ => [if q then rQ k else rP k]
  | .amov c i _ _ => [rClass c i]
  | .xferIn c i _ => [rClass c i]
  | .xferOut _ _ d => [rD d]
  | .lci _ => [rLC]

/-- The registers a compute field writes, its flags apart (R354). -/
def compRegs (c : Comp) : List Nat :=
  match c with
  | .nop | .cmp _ _ => []
  | .cmac4 k _ _ _ _ _ | .rmac8 k _ _ _ _ | .acshr k _ | .dtoac k _ | .mac31 k _ _ => [rAC k]
  | .acadd d _ => [rAC d]
  | .cmac4v hi _ _ _ _ _ => (List.range 4).map (fun j => rAC ((if hi then 4 else 0) + j))
  | .cmul4 d _ _ _ _ | .vcmac4 d _ _ _ _ _ | .vmul8 d _ _ _ | .vadd d _ _ _ _ | .vsub d _ _ _ _ | .vshr d _ _ | .vshl d _ _
  | .vmov d _ | .vbcast d _ | .pack d _ _ => [rV d]
  | .bfly h _ _ _ | .czip h _ _ | .cunzip h _ _ => [rV (2 * h.val), rV (2 * h.val + 1)]
  | .vmaxa d _ _ | .actod d _ _ | .add d _ _ | .sub d _ _ | .adds d _ _ | .subs d _ _ | .and d _ _ | .or d _ _ | .xor d _ _
  | .mov d _ | .neg d _ | .abs d _ | .min d _ _ | .max d _ _ | .shl d _ _ | .asr d _ _ | .lsr d _ _ | .mul d _ _
  | .mpy15 d _ _ | .mpy31 d _ _ | .norm d _ | .mfs d _ => [rD d]

/-- The register an IMMEDIATE word writes; SR stands for its flags. -/
def immRegs (d : ImmDest) : List Nat :=
  match d with
  | .v k _ => [rV k] | .lc _ => [rLC] | .sr _ => [rFlags] | .d k _ => [rD k]
  | .p k _ => [rP k] | .q k _ => [rQ k] | .n k _ => [rN k] | .m k _ => [rM k]

def scalarRegs (o : SImm) : List Nat :=
  match o with
  | .addi d _ _ | .andi d _ _ | .ori d _ _ | .xori d _ _ | .movi d _ | .movhi d _ _ => [rD d]
  | .cmpi _ _ => []

/-- The registers a control operation writes. -/
def ctlRegs (c : Ctl) : List Nat :=
  match c with
  | .brlc _ => [rLC]
  | .call _ _ => [rD 15]
  | .br _ _ | .jmpr _ _ | .callu _ | .retu | .done _ | .trap _ => []

/-- Every register a word writes. -/
def wordRegs (w : VeWord) : List Nat :=
  moveRegs false (wordX w) ++ moveRegs true (wordY w) ++ slotRegs (wordSlot w) ++ compRegs (wordComp w) ++
  (match w with
   | .parallel _ _ _ _ => []
   | .immediate _ d => immRegs d
   | .control c _ _ => ctlRegs c
   | .scalarImm o _ _ => scalarRegs o)

/-- Whether a slot operation may stand beside the moves of its sides (R354). -/
def slotFits (w : VeWord) : Bool :=
  let sides := fun (c : AClass) => match c with | .p => (true, false) | .q => (false, true) | .n => (true, true) | .m => (true, true)
  let fits := fun (p : Bool × Bool) => !(p.1 && moveUpdates (wordX w)) && !(p.2 && moveUpdates (wordY w))
  match wordSlot w with
  | .aadd q _ _ => fits (!q, q)
  | .amov c _ _ _ => fits (sides c)
  | .xferIn c _ _ => fits (sides c)
  | .nop | .xferOut _ _ _ | .rep _ | .replc | .lci _ => true

/-- A register index that must be even is even: the pair of VMAXA (R353). -/
def compFits (c : Comp) : Bool := match c with | .vmaxa _ a true => a.val % 2 == 0 | _ => true

/-- Whether the register writes of a word are all different. -/
def noRepeat (l : List Nat) : Bool :=
  match l with
  | [] => true
  | x :: r => !r.contains x && noRepeat r

/-- Whether a word is legal (R353, R354); reserved encodings are no word at all. -/
def legalWord (w : VeWord) : Bool := compFits (wordComp w) && noRepeat (wordRegs w) && slotFits w

/-! ## Sequences (R334 to R336, R350, R369, R370) -/

/-- A branch, REP, DONE, CALLU, RETU or TRAP. -/
def branchClass (w : VeWord) : Bool :=
  match w with
  | .control _ _ _ => true
  | .parallel _ _ _ (.rep _) | .parallel _ _ _ .replc => true
  | _ => false

/-- A control operation (R370). -/
def controlOp (w : VeWord) : Bool :=
  branchClass w || (match w with
    | .parallel _ _ _ (.lci _) => true
    | .immediate _ (.lc _) | .immediate _ (.sr _) => true
    | _ => false)

/-- A Q31 × Q31 multiply. -/
def isQ31 (c : Comp) : Bool := match c with | .mpy31 _ _ _ | .mac31 _ _ _ => true | _ => false

/-- Whether a word carries an operation of the compute unit. -/
def computes (w : VeWord) : Bool := wordComp w != .nop || (match w with | .scalarImm _ _ _ => true | _ => false)

/-- The operations that user mode may not use (R350). -/
def userForbids (w : VeWord) : Bool :=
  match w with
  | .control (.callu _) _ _ | .control (.done _) _ _ | .control (.trap _) _ _ => true
  | .immediate _ (.sr _) => true
  | _ => false

/-- The trap a word raises at D, if any. `entries` is the loaded kernel's NENTRY. -/
def wordTrap (c : Cell) (v : View) (entries : Nat) (w : VeWord) : Option TrapCause :=
  let user := v.bank.user
  let narrow := fun (m : Move) => moveStores m && decide (moveWidth m < 8)
  if ¬ legalWord w then some .illegalWord
  else if user ∧ userForbids w then some .privilege
  else if c.delay.isSome ∧ branchClass w then some .illegalSequence
  else if c.mpyShadow ∧ computes w then some .illegalSequence
  else if 0 < c.rep ∧ (controlOp w || isQ31 (wordComp w) || narrow (wordX w) || narrow (wordY w)) then some .illegalSequence
  else
    match w with
    | .parallel _ _ _ .replc => if 1024 < v.nat rLC .loop then some .illegalSequence else none
    | .control .retu _ _ => if user then none else some .illegalSequence
    | .control (.callu e) _ _ => if entries ≤ e.val then some .illegalSequence else none
    | .control (.trap _) _ _ => some .trapOp
    | _ => none

/-! ## Moves -/

/-- The access of a move and its pointer update. -/
def moveAccess (v : View) (yside : Bool) (m : Move) : Option (Access × Option WriteReq) :=
  match movePtr m with
  | none => none
  | some (p, mode) =>
    let a := formAddress v yside p mode (moveWidth m)
    some ({ yside := yside, addr := a.1, width := moveWidth m, store := moveStores m },
      a.2.map (fun x => { producer := .addr, reg := if yside then rQ p else rP p, value := x }))

/-- The bytes a store move stores, and whether ST.AC clamps (R355, R357). -/
def moveData (v : View) (m : Move) : List Byte × Bool :=
  let d := fun (k : Nat) => v.nat (rD k) .storeData
  match m with
  | .stQ r _ _ => (leBytes 16 (v.nat (rV r) .storeData), false)
  | .stW r _ _ => (leBytes 4 (d r), false)
  | .stH r _ _ => (leBytes 2 (d r % 65536), false)
  | .stL h _ _ => (leBytes 4 (d (2 * h.val)) ++ leBytes 4 (d (2 * h.val + 1)), false)
  | .stAC k s _ form =>
    let a := v.acc k .narrow
    if form then (leBytes 4 (patternOf 32 (st32 a.1 s)), clamps32 a.1 s)
    else (leBytes 2 (patternOf 16 (st16 a.1 s)) ++ leBytes 2 (patternOf 16 (st16 a.2 s)), clamps16 a.1 s || clamps16 a.2 s)
  | .nop | .ldQ _ _ _ | .ldW _ _ _ | .ldH _ _ _ | .ldA _ _ _ _ | .ldL _ _ _ => ([], false)

/-- The registers a load move writes from the bytes it reads (Table 13.3). -/
def moveLoads (m : Move) (l : List Byte) : List WriteReq :=
  let x := leNat l
  match m with
  | .ldQ r _ _ => [{ producer := .load, reg := rV r, value := x }]
  | .ldW r _ _ => [{ producer := .load, reg := rD r, value := x }]
  | .ldH r _ _ => [{ producer := .load, reg := rD r, value := patternOf 32 (signedOf 16 x) }]
  | .ldA .m i _ _ => [{ producer := .load, reg := rM i, value := x % 2 ^ 17 }]
  | .ldA c i _ _ => [{ producer := .load, reg := rClass c i, value := x % 2 ^ 24 }]
  | .ldL h _ _ => [{ producer := .load, reg := rD (2 * h.val), value := leNat (l.take 4) },
                   { producer := .load, reg := rD (2 * h.val + 1), value := leNat (l.drop 4) }]
  | .nop | .stQ _ _ _ | .stW _ _ _ | .stH _ _ _ | .stAC _ _ _ _ | .stL _ _ _ => []

/-- One move carried out: the machine with its store, and the registers it writes. -/
def State.doMove (s : State) (n : Nat) (v : View) (yside : Bool) (m : Move) : State × List WriteReq :=
  match moveAccess v yside m with
  | none => (s, [])
  | some (x, upd) =>
    if x.store then
      let d := moveData v m
      (s.storeBytes n v.now x d.1, upd.toList ++ setSat d.2)
    else (s, upd.toList ++ moveLoads m (s.loadBytes n v.now x))

/-! ## Slot and immediate -/

/-- The value of an address-class register of `src` as one of `dst` holds it (Table 13.4, LD.A). -/
def classValue (dst : AClass) (x : Nat) : Nat := match dst with | .m => x % 2 ^ 17 | _ => x % 2 ^ 24

def slotWrites (v : View) (s : Slot) : List WriteReq :=
  match s with
  | .nop | .rep _ | .replc => []
  | .aadd q k i => [{ producer := .addr, reg := if q then rQ k else rP k, value := nextPtr (v.ptr q k) i.toInt (v.m k) }]
  | .amov c i sc si => [{ producer := .addr, reg := rClass c i, value := classValue c (v.nat (rClass sc si) .address) }]
  | .xferIn c i d => [{ producer := .addr, reg := rClass c i, value := classValue c (v.d d) }]
  | .xferOut c i d =>
    let x := v.nat (rClass c i) .address
    [{ producer := .compute, reg := rD d, value := match c with | .n => patternOf 32 (signedOf 24 x) | _ => x }]
  | .lci i => [{ producer := .control, reg := rLC, value := i.toNat }]

/-- The writes of an IMMEDIATE word (Table 13.7). -/
def immWrites (d : ImmDest) : List WriteReq :=
  match d with
  | .v k i => [{ producer := .load, reg := rV k, value := fourLanes i.toNat }]
  | .lc i => [{ producer := .control, reg := rLC, value := i.toNat }]
  | .sr i => { producer := .load, reg := rFlags, value := i.toNat % 16 } ::
      ((if i.getLsbD 4 then [{ producer := .load, reg := rGO, value := 0 }] else []) ++
       (if i.getLsbD 5 then [{ producer := .load, reg := rSAT, value := 0 }] else []))
  | .d k i => [{ producer := .load, reg := rD k, value := i.toNat }]
  | .p k i => [{ producer := .addr, reg := rP k, value := i.toNat }]
  | .q k i => [{ producer := .addr, reg := rQ k, value := i.toNat }]
  | .n k i => [{ producer := .addr, reg := rN k, value := i.toNat }]
  | .m k i => [{ producer := .addr, reg := rM k, value := i.toNat }]

/-! ## Control (Table 13.9) -/

/-- ENTRY[e] of the loaded kernel (Table 12.13). -/
def kernelEntry (img : List Byte) (e : Nat) : Nat := u16 img (0x10 + 2 * e)

/-- The writes of a control operation and what happens after its two delay words. -/
def controlEffect (v : View) (kernel : List Byte) (c : Ctl) : List WriteReq × Delayed :=
  match c with
  | .br k t => ([], if v.holds k then .jump t else .fall)
  | .brlc t =>
    let n := v.nat rLC .loop
    if n = 0 then ([], .fall)
    else ([{ producer := .control, reg := rLC, value := n - 1 }], if n = 1 then .fall else .jump t)
  | .call k t =>
    if v.holds k then ([{ producer := .compute, reg := rD 15, value := (v.bank.pc.toNat + 3) % 8192 }], .jump t)
    else ([], .fall)
  | .jmpr k r => ([], if v.holds k then .jump (BitVec.ofNat 13 (v.nat (rD r) .jump)) else .fall)
  | .callu e => ([], .enterUser (BitVec.ofNat 13 (0x1800 + kernelEntry kernel e)))
  | .retu => ([], .leaveUser)
  | .done commit => ([], .endRun commit)
  | .trap _ => ([], .fall)

/-! ## The issue -/

/-- The register writes of a word besides those of its moves. -/
def wordWrites (v : View) (c : Cell) (kernel : List Byte) (w : VeWord) : List WriteReq :=
  let k := compute v c.bank (0 < c.rep) (wordComp w)
  match w with
  | .parallel _ _ _ sl => k ++ slotWrites v sl
  | .immediate _ d => k ++ immWrites d
  | .control ctl _ _ => (controlEffect v kernel ctl).1
  | .scalarImm o _ _ => scalarImm v o

/-- Writes put into flight. -/
def addWrites (b : Bank) (now : Nat) (l : List WriteReq) : Bank :=
  { b with flight := l.foldl (fun f w =>
      putWrite { issue := now + w.late, producer := w.producer, reg := w.reg, value := BitVec.ofNat 128 w.value } f) b.flight }

/-- The repetitions a word asks for of the word behind it: REP #n holds n − 1 (R335). -/
def repAsked (v : View) (w : VeWord) : Option Nat :=
  match wordSlot w with
  | .rep n1 => some (n1.toNat + 1)
  | .replc => some (v.nat rLC .loop)
  | _ => none

/-- PC, REP and delay words after the issue of a word, control operations apart (R335, R366, R367). -/
def stepPc (c : Cell) (v : View) (w : VeWord) (delayed : Option Delayed) : Cell :=
  let b := c.active
  let next := b.pc + 1
  let c1 :=
    if 1 < c.rep then { c with rep := c.rep - 1 }
    else if c.rep = 1 then { c with rep := 0 }.setActive { b with pc := next }
    else match repAsked v w with
      | some 0 => c.setActive { b with pc := next + 1 }
      | some k => { c with rep := k }.setActive { b with pc := next }
      | none => c.setActive { b with pc := next }
  let c2 := { c1 with mpyShadow := isQ31 (wordComp w) }
  match delayed with
  | some d => { c2 with delay := some (2, d) }
  | none =>
    match c2.delay with
    | some (k + 2, d) => { c2 with delay := some (k + 1, d) }
    | _ => c2

/-- What takes effect once both delay words have issued: the target, user mode, or the end of the run. -/
def State.afterDelay (s : State) (n : Nat) : State :=
  let c := s.cell n
  match c.delay with
  | some (_, d) =>
    let c1 := { c with delay := none }
    let b := c1.active
    match d with
    | .fall => s.setCell n c1
    | .jump t => s.setCell n (c1.setActive { b with pc := t })
    | .enterUser t => s.setCell n (c1.setActive { b with pc := t, user := true })
    | .leaveUser => s.setCell n (c1.setActive { b with pc := 8, user := false })
    | .endRun commit => (s.setCell n c1).threadDone n commit
  | none => s

/-- Whether cell `n` issues words: in service, running a thread, its block and clocks running. -/
def State.cellIssues (s : State) (n : Nat) : Bool :=
  decide (n < 128) && cellInService (s.cell n) && (s.cell n).running.isSome && s.blockRuns (cellBlock n)

/-- What CALLU keeps for the trap report: the hook in D2, and a clear USER_STATUS (R349, R369). -/
def noteCall (v : View) (w : VeWord) (c : Cell) : Cell :=
  match w with
  | .control (.callu _) _ _ => { c with userStatus := 0, userHook := v.d 2 % 2 }
  | _ => c

/-- A word carried out: its moves, X first, the register writes `l` besides theirs, and what a control operation leaves
for after the delay words. -/
def State.carryOut (s : State) (n : Nat) (v : View) (w : VeWord) (l : List WriteReq) (delayed : Option Delayed) : State :=
  let wasDelay := (s.cell n).delay
  let ax := moveAccess v false (wordX w)
  let ay := moveAccess v true (wordY w)
  let stall := (match ax with | some a => s.stallOf n 0 a.1 | none => 0) + (match ay with | some a => s.stallOf n 1 a.1 | none => 0)
  let m1 := s.doMove n v false (wordX w)
  let m2 := State.doMove m1.1 n v true (wordY w)
  let cycles := 1 + stall
  let s1 := m2.1.modCell n (fun c =>
    let b := addWrites c.active v.now (m1.2 ++ m2.2 ++ l)
    let b1 := if b.user then { b with userCycles := b.userCycles + cycles } else b
    let c1 := noteCall v w (c.setActive b1)
    let c2 := stepPc c1 v w delayed
    { c2 with issued := c2.issued + 1, cycle := c2.cycle + BitVec.ofNat 64 cycles,
              stall := c2.stall + BitVec.ofNat 64 stall, sinceSwap := c2.sinceSwap + cycles })
  let s2 := if stall = 0 then s1 else s1.drawn
  let s3 := match wasDelay with
    | some (1, _) => s2.afterDelay n
    | _ => s2
  s3.swapIfDue n

/-- The issue proper of a word that raises no trap at D and whose accesses are allowed. -/
def State.issueGood (s : State) (n : Nat) (v : View) (w : VeWord) : State :=
  s.carryOut n v w (wordWrites v (s.cell n) s.store.kernel w)
    (match w with
     | .control ctl _ _ => some (controlEffect v s.store.kernel ctl).2
     | _ => none)

/-- The trap that a word's accesses raise, the X side first. -/
def accessTraps (c : Cell) (v : View) (l : List Access) : Option TrapCause :=
  l.findSome? (fun x => accessTrap c.bank v.bank.user (0 < c.rep) x)

/-- What the checks of a word's data reads find, the X side first: corrected errors are logged, an uncorrectable one
takes the word. -/
def State.checkReads (s : State) (n : Nat) (l : List (Access × Ecc)) (good : State → State) : State :=
  match l with
  | [] => good s
  | (x, e) :: r =>
    if ¬ readsWords x ∨ (memoryOf (s.cell n).bank x).isNone then s.checkReads n r good
    else
      match e with
      | .clean => s.checkReads n r good
      | .corrected => (s.correctAccess n x).checkReads n r good
      | .uncorrectable => s.failAccess n x

/-- The code of a TRAP operation; 0 for any other word. -/
def trapCodeOf (w : VeWord) : Nat := match w with | .control (.trap c) _ _ => c.toNat | _ => 0

/-- One word at D, past its fetch. -/
def State.issueWord (s : State) (i : Issue) (w : VeWord) : State :=
  let n := i.cell
  let s0 := s.modCell n (fun c => (settleStores c.issued c).setActive (retire c.issued c.active))
  let c := s0.cell n
  let v : View := { bank := c.active, now := c.issued }
  let pc := c.active.pc.toNat
  match wordTrap c v (s.kernelEntries) w with
  | some t => s0.trap n t (if t = .trapOp then trapCodeOf w else 0) 6 pc
  | none =>
    let ax := (moveAccess v false (wordX w)).map (·.1)
    let ay := (moveAccess v true (wordY w)).map (·.1)
    match accessTraps c v (ax.toList ++ ay.toList) with
    | some t => s0.trap n t 0 6 pc
    | none =>
      s0.checkReads n ((ax.map (fun a => (a, i.x))).toList ++ (ay.map (fun a => (a, i.y))).toList)
        (fun s => s.issueGood n v w)

/-- The fetch of a word (R320, R367), and what follows where it succeeds. -/
def State.fetchWord (s : State) (i : Issue) (next : State → State) : State :=
  let n := i.cell
  let b := (s.cell n).active
  if ¬ s.cellIssues n then s
  else if b.user ∧ b.pc.toNat < 0x1800 then s.trap n .privilege 0 6 b.pc.toNat
  else
    match i.fetch with
    | .clean => next s
    | .corrected => next (s.correctable 0x10 1 n 2 (8 * b.pc.toNat) 2 (cellBlock n))
    | .uncorrectable => s.cellTrap n .uncorrectableI 0 2 (8 * b.pc.toNat)

/-- One issue of a word on a cell. -/
def issueStep (i : Issue) (w : VeWord) (s : State) : State := s.fetchWord i (fun s => s.issueWord i w)

/-- A word of no meaning at D (R353). -/
def illegalStep (i : Issue) (s : State) : State :=
  s.fetchWord i (fun s => s.trap i.cell .illegalWord 0 6 (s.cell i.cell).active.pc.toNat)

end Sys2Proof.Machine
end

