-- ==== Sys2Proof/Machine/VeRows.lean ====
section
/-! DEFINITION. The rows of the vector engine: each row names one operation of a word and carries the rest of the word;
its meaning is the issue of that word (R331, R352). -/

namespace Sys2Proof.Machine

/-- A word from its compute operation and its rest. -/
def compWord (c : Comp) (r : CompRest) : VeWord :=
  match r with
  | .parallel x y s => .parallel c x y s
  | .immediate d => .immediate c d

/-- A word from one of its moves and its rest. -/
def moveWord (m : Move) (r : MoveRest) : VeWord :=
  match r with
  | .parallelX c y s => .parallel c m y s
  | .parallelY c x s => .parallel c x m s
  | .controlX c y => .control c m y
  | .controlY c x => .control c x m
  | .scalarX o y => .scalarImm o m y
  | .scalarY o x => .scalarImm o x m

def slotWord (t : Slot) (r : SlotRest) : VeWord := .parallel r.comp r.x r.y t
def simmWord (o : SImm) (r : TwoMoves) : VeWord := .scalarImm o r.x r.y
def ctlWord (c : Ctl) (r : TwoMoves) : VeWord := .control c r.x r.y

def execCmac4 (i : Issue) (k a b : Fin 8) (cja neg clr : Bool) (r : CompRest) (s : State) : Host.Outcome State Fault Refusal :=
  .next (issueStep i (compWord (.cmac4 k a b cja neg clr) r) s)
def execCmac4v (i : Issue) (hi : Bool) (a b : Fin 8) (cja neg clr : Bool) (r : CompRest) (s : State) : Host.Outcome State Fault Refusal :=
  .next (issueStep i (compWord (.cmac4v hi a b cja neg clr) r) s)
def execRmac8 (i : Issue) (k a b : Fin 8) (neg clr : Bool) (r : CompRest) (s : State) : Host.Outcome State Fault Refusal :=
  .next (issueStep i (compWord (.rmac8 k a b neg clr) r) s)
def execCmul4 (i : Issue) (d a b : Fin 8) (cja : Bool) (s : Fin 8) (r : CompRest) (st : State) : Host.Outcome State Fault Refusal :=
  .next (issueStep i (compWord (.cmul4 d a b cja s) r) st)
def execVcmac4 (i : Issue) (d c a b : Fin 8) (cja : Bool) (s : Fin 8) (r : CompRest) (st : State) : Host.Outcome State Fault Refusal :=
  .next (issueStep i (compWord (.vcmac4 d c a b cja s) r) st)
def execVmul8 (i : Issue) (d a b s : Fin 8) (r : CompRest) (st : State) : Host.Outcome State Fault Refusal :=
  .next (issueStep i (compWord (.vmul8 d a b s) r) st)
def execBfly (i : Issue) (dhalf : Fin 4) (a b s : Fin 8) (r : CompRest) (st : State) : Host.Outcome State Fault Refusal :=
  .next (issueStep i (compWord (.bfly dhalf a b s) r) st)
def execVadd (i : Issue) (d a b s : Fin 8) (satm : Bool) (r : CompRest) (st : State) : Host.Outcome State Fault Refusal :=
  .next (issueStep i (compWord (.vadd d a b s satm) r) st)
def execVsub (i : Issue) (d a b s : Fin 8) (satm : Bool) (r : CompRest) (st : State) : Host.Outcome State Fault Refusal :=
  .next (issueStep i (compWord (.vsub d a b s satm) r) st)
def execVshr (i : Issue) (d a s : Fin 8) (r : CompRest) (st : State) : Host.Outcome State Fault Refusal :=
  .next (issueStep i (compWord (.vshr d a s) r) st)
def execVshl (i : Issue) (d a s : Fin 8) (r : CompRest) (st : State) : Host.Outcome State Fault Refusal :=
  .next (issueStep i (compWord (.vshl d a s) r) st)
def execCzip (i : Issue) (dhalf : Fin 4) (a b : Fin 8) (r : CompRest) (s : State) : Host.Outcome State Fault Refusal :=
  .next (issueStep i (compWord (.czip dhalf a b) r) s)
def execCunzip (i : Issue) (dhalf : Fin 4) (a b : Fin 8) (r : CompRest) (s : State) : Host.Outcome State Fault Refusal :=
  .next (issueStep i (compWord (.cunzip dhalf a b) r) s)
def execVmov (i : Issue) (d a : Fin 8) (r : CompRest) (s : State) : Host.Outcome State Fault Refusal :=
  .next (issueStep i (compWord (.vmov d a) r) s)
def execVbcast (i : Issue) (d : Fin 8) (a : Fin 16) (r : CompRest) (s : State) : Host.Outcome State Fault Refusal :=
  .next (issueStep i (compWord (.vbcast d a) r) s)
def execVmaxa (i : Issue) (d : Fin 16) (a : Fin 8) (pair : Bool) (r : CompRest) (s : State) : Host.Outcome State Fault Refusal :=
  .next (issueStep i (compWord (.vmaxa d a pair) r) s)
def execPack (i : Issue) (d : Fin 8) (hi : Bool) (s : Fin 8) (r : CompRest) (st : State) : Host.Outcome State Fault Refusal :=
  .next (issueStep i (compWord (.pack d hi s) r) st)
def execAcshr (i : Issue) (k s : Fin 8) (r : CompRest) (st : State) : Host.Outcome State Fault Refusal :=
  .next (issueStep i (compWord (.acshr k s) r) st)
def execAcadd (i : Issue) (d s : Fin 8) (r : CompRest) (st : State) : Host.Outcome State Fault Refusal :=
  .next (issueStep i (compWord (.acadd d s) r) st)
def execActod (i : Issue) (d : Fin 16) (k s : Fin 8) (r : CompRest) (st : State) : Host.Outcome State Fault Refusal :=
  .next (issueStep i (compWord (.actod d k s) r) st)
def execDtoac (i : Issue) (k : Fin 8) (a : Fin 16) (r : CompRest) (s : State) : Host.Outcome State Fault Refusal :=
  .next (issueStep i (compWord (.dtoac k a) r) s)
def execAdd (i : Issue) (d a b : Fin 16) (r : CompRest) (s : State) : Host.Outcome State Fault Refusal :=
  .next (issueStep i (compWord (.add d a b) r) s)
def execSub (i : Issue) (d a b : Fin 16) (r : CompRest) (s : State) : Host.Outcome State Fault Refusal :=
  .next (issueStep i (compWord (.sub d a b) r) s)
def execAdds (i : Issue) (d a b : Fin 16) (r : CompRest) (s : State) : Host.Outcome State Fault Refusal :=
  .next (issueStep i (compWord (.adds d a b) r) s)
def execSubs (i : Issue) (d a b : Fin 16) (r : CompRest) (s : State) : Host.Outcome State Fault Refusal :=
  .next (issueStep i (compWord (.subs d a b) r) s)
def execAnd (i : Issue) (d a b : Fin 16) (r : CompRest) (s : State) : Host.Outcome State Fault Refusal :=
  .next (issueStep i (compWord (.and d a b) r) s)
def execOr (i : Issue) (d a b : Fin 16) (r : CompRest) (s : State) : Host.Outcome State Fault Refusal :=
  .next (issueStep i (compWord (.or d a b) r) s)
def execXor (i : Issue) (d a b : Fin 16) (r : CompRest) (s : State) : Host.Outcome State Fault Refusal :=
  .next (issueStep i (compWord (.xor d a b) r) s)
def execCmp (i : Issue) (a b : Fin 16) (r : CompRest) (s : State) : Host.Outcome State Fault Refusal :=
  .next (issueStep i (compWord (.cmp a b) r) s)
def execMov (i : Issue) (d a : Fin 16) (r : CompRest) (s : State) : Host.Outcome State Fault Refusal :=
  .next (issueStep i (compWord (.mov d a) r) s)
def execNeg (i : Issue) (d a : Fin 16) (r : CompRest) (s : State) : Host.Outcome State Fault Refusal :=
  .next (issueStep i (compWord (.neg d a) r) s)
def execAbs (i : Issue) (d a : Fin 16) (r : CompRest) (s : State) : Host.Outcome State Fault Refusal :=
  .next (issueStep i (compWord (.abs d a) r) s)
def execMin (i : Issue) (d a b : Fin 16) (r : CompRest) (s : State) : Host.Outcome State Fault Refusal :=
  .next (issueStep i (compWord (.min d a b) r) s)
def execMax (i : Issue) (d a b : Fin 16) (r : CompRest) (s : State) : Host.Outcome State Fault Refusal :=
  .next (issueStep i (compWord (.max d a b) r) s)
def execShl (i : Issue) (d a : Fin 16) (n : Fin 32) (r : CompRest) (s : State) : Host.Outcome State Fault Refusal :=
  .next (issueStep i (compWord (.shl d a n) r) s)
def execAsr (i : Issue) (d a : Fin 16) (n : Fin 32) (r : CompRest) (s : State) : Host.Outcome State Fault Refusal :=
  .next (issueStep i (compWord (.asr d a n) r) s)
def execLsr (i : Issue) (d a : Fin 16) (n : Fin 32) (r : CompRest) (s : State) : Host.Outcome State Fault Refusal :=
  .next (issueStep i (compWord (.lsr d a n) r) s)
def execMul (i : Issue) (d a b : Fin 16) (r : CompRest) (s : State) : Host.Outcome State Fault Refusal :=
  .next (issueStep i (compWord (.mul d a b) r) s)
def execMpy15 (i : Issue) (d a b : Fin 16) (r : CompRest) (s : State) : Host.Outcome State Fault Refusal :=
  .next (issueStep i (compWord (.mpy15 d a b) r) s)
def execMpy31 (i : Issue) (d a b : Fin 16) (r : CompRest) (s : State) : Host.Outcome State Fault Refusal :=
  .next (issueStep i (compWord (.mpy31 d a b) r) s)
def execMac31 (i : Issue) (k : Fin 8) (a b : Fin 16) (r : CompRest) (s : State) : Host.Outcome State Fault Refusal :=
  .next (issueStep i (compWord (.mac31 k a b) r) s)
def execNorm (i : Issue) (d a : Fin 16) (r : CompRest) (s : State) : Host.Outcome State Fault Refusal :=
  .next (issueStep i (compWord (.norm d a) r) s)
def execMfs (i : Issue) (d : Fin 16) (lc : Bool) (r : CompRest) (s : State) : Host.Outcome State Fault Refusal :=
  .next (issueStep i (compWord (.mfs d lc) r) s)
def execLdQ (i : Issue) (reg ptr : Fin 8) (mode : AMode) (r : MoveRest) (s : State) : Host.Outcome State Fault Refusal :=
  .next (issueStep i (moveWord (.ldQ reg ptr mode) r) s)
def execStQ (i : Issue) (reg ptr : Fin 8) (mode : AMode) (r : MoveRest) (s : State) : Host.Outcome State Fault Refusal :=
  .next (issueStep i (moveWord (.stQ reg ptr mode) r) s)
def execLdW (i : Issue) (reg : Fin 16) (ptr : Fin 8) (mode : AMode) (r : MoveRest) (s : State) : Host.Outcome State Fault Refusal :=
  .next (issueStep i (moveWord (.ldW reg ptr mode) r) s)
def execLdH (i : Issue) (reg : Fin 16) (ptr : Fin 8) (mode : AMode) (r : MoveRest) (s : State) : Host.Outcome State Fault Refusal :=
  .next (issueStep i (moveWord (.ldH reg ptr mode) r) s)
def execStW (i : Issue) (reg : Fin 16) (ptr : Fin 8) (mode : AMode) (r : MoveRest) (s : State) : Host.Outcome State Fault Refusal :=
  .next (issueStep i (moveWord (.stW reg ptr mode) r) s)
def execStH (i : Issue) (reg : Fin 16) (ptr : Fin 8) (mode : AMode) (r : MoveRest) (s : State) : Host.Outcome State Fault Refusal :=
  .next (issueStep i (moveWord (.stH reg ptr mode) r) s)
def execLdA (i : Issue) (cls : AClass) (idx ptr : Fin 8) (mode : AMode) (r : MoveRest) (s : State) : Host.Outcome State Fault Refusal :=
  .next (issueStep i (moveWord (.ldA cls idx ptr mode) r) s)
def execStAc (i : Issue) (k shift ptr : Fin 8) (form : Bool) (r : MoveRest) (s : State) : Host.Outcome State Fault Refusal :=
  .next (issueStep i (moveWord (.stAC k shift ptr form) r) s)
def execLdL (i : Issue) (half ptr : Fin 8) (mode : AMode) (r : MoveRest) (s : State) : Host.Outcome State Fault Refusal :=
  .next (issueStep i (moveWord (.ldL half ptr mode) r) s)
def execStL (i : Issue) (half ptr : Fin 8) (mode : AMode) (r : MoveRest) (s : State) : Host.Outcome State Fault Refusal :=
  .next (issueStep i (moveWord (.stL half ptr mode) r) s)
def execAadd (i : Issue) (qside : Bool) (k : Fin 8) (imm : BitVec 6) (r : SlotRest) (s : State) : Host.Outcome State Fault Refusal :=
  .next (issueStep i (slotWord (.aadd qside k imm) r) s)
def execAmov (i : Issue) (dst : AClass) (di : Fin 8) (src : AClass) (si : Fin 8) (r : SlotRest) (s : State) : Host.Outcome State Fault Refusal :=
  .next (issueStep i (slotWord (.amov dst di src si) r) s)
def execXfer (i : Issue) (out : Bool) (cls : AClass) (idx : Fin 8) (d : Fin 16) (r : SlotRest) (s : State) : Host.Outcome State Fault Refusal :=
  .next (issueStep i (slotWord (if out then .xferOut cls idx d else .xferIn cls idx d) r) s)
def execRep (i : Issue) (n1 : BitVec 10) (r : SlotRest) (s : State) : Host.Outcome State Fault Refusal :=
  .next (issueStep i (slotWord (.rep n1) r) s)
def execReplc (i : Issue) (r : SlotRest) (s : State) : Host.Outcome State Fault Refusal :=
  .next (issueStep i (slotWord (.replc) r) s)
def execLci (i : Issue) (imm : BitVec 10) (r : SlotRest) (s : State) : Host.Outcome State Fault Refusal :=
  .next (issueStep i (slotWord (.lci imm) r) s)
def execImmediate (i : Issue) (c : Comp) (dest : ImmDest) (s : State) : Host.Outcome State Fault Refusal :=
  .next (issueStep i (.immediate c dest) s)
def execAddi (i : Issue) (d a : Fin 16) (imm : BitVec 16) (r : TwoMoves) (s : State) : Host.Outcome State Fault Refusal :=
  .next (issueStep i (simmWord (.addi d a imm) r) s)
def execAndi (i : Issue) (d a : Fin 16) (imm : BitVec 16) (r : TwoMoves) (s : State) : Host.Outcome State Fault Refusal :=
  .next (issueStep i (simmWord (.andi d a imm) r) s)
def execOri (i : Issue) (d a : Fin 16) (imm : BitVec 16) (r : TwoMoves) (s : State) : Host.Outcome State Fault Refusal :=
  .next (issueStep i (simmWord (.ori d a imm) r) s)
def execXori (i : Issue) (d a : Fin 16) (imm : BitVec 16) (r : TwoMoves) (s : State) : Host.Outcome State Fault Refusal :=
  .next (issueStep i (simmWord (.xori d a imm) r) s)
def execCmpi (i : Issue) (a : Fin 16) (imm : BitVec 16) (r : TwoMoves) (s : State) : Host.Outcome State Fault Refusal :=
  .next (issueStep i (simmWord (.cmpi a imm) r) s)
def execMovi (i : Issue) (d : Fin 16) (imm : BitVec 16) (r : TwoMoves) (s : State) : Host.Outcome State Fault Refusal :=
  .next (issueStep i (simmWord (.movi d imm) r) s)
def execMovhi (i : Issue) (d a : Fin 16) (imm : BitVec 16) (r : TwoMoves) (s : State) : Host.Outcome State Fault Refusal :=
  .next (issueStep i (simmWord (.movhi d a imm) r) s)
def execBr (i : Issue) (cond : Cond) (target : BitVec 13) (r : TwoMoves) (s : State) : Host.Outcome State Fault Refusal :=
  .next (issueStep i (ctlWord (.br cond target) r) s)
def execBrlc (i : Issue) (target : BitVec 13) (r : TwoMoves) (s : State) : Host.Outcome State Fault Refusal :=
  .next (issueStep i (ctlWord (.brlc target) r) s)
def execCall (i : Issue) (cond : Cond) (target : BitVec 13) (r : TwoMoves) (s : State) : Host.Outcome State Fault Refusal :=
  .next (issueStep i (ctlWord (.call cond target) r) s)
def execJmpr (i : Issue) (cond : Cond) (k : Fin 16) (r : TwoMoves) (s : State) : Host.Outcome State Fault Refusal :=
  .next (issueStep i (ctlWord (.jmpr cond k) r) s)
def execCallu (i : Issue) (entry : Fin 16) (r : TwoMoves) (s : State) : Host.Outcome State Fault Refusal :=
  .next (issueStep i (ctlWord (.callu entry) r) s)
def execRetu (i : Issue) (r : TwoMoves) (s : State) : Host.Outcome State Fault Refusal :=
  .next (issueStep i (ctlWord (.retu) r) s)
def execDone (i : Issue) (commit : Bool) (r : TwoMoves) (s : State) : Host.Outcome State Fault Refusal :=
  .next (issueStep i (ctlWord (.done commit) r) s)
def execTrap (i : Issue) (code : BitVec 8) (r : TwoMoves) (s : State) : Host.Outcome State Fault Refusal :=
  .next (issueStep i (ctlWord (.trap code) r) s)
/-- A word that decodes after all is issued as what it spells. -/
def execIllegalWord (i : Issue) (w : BitVec 64) (s : State) : Host.Outcome State Fault Refusal :=
  match decodeWord w with
  | none => .next (illegalStep i s)
  | some v => .next (issueStep i v s)
def execNop (i : Issue) (s : State) : Host.Outcome State Fault Refusal :=
  .next (issueStep i (.parallel .nop .nop .nop .nop) s)

end Sys2Proof.Machine
end

