-- ==== Sys2Proof/Machine/Dispatch.lean ====
section
/-! DEFINITION. The dispatch of a command to its meaning: one arm per constructor. -/

namespace Sys2Proof.Machine

def exec (i : Instr) (s : State) : Host.Outcome State Fault Refusal :=
  match i with
  | .devHello p => Sys2Proof.Machine.execDevHello p s
  | .devUdpKeySet p => Sys2Proof.Machine.execDevUdpKeySet p s
  | .devNoticeConfig p => Sys2Proof.Machine.execDevNoticeConfig p s
  | .devQuery p => Sys2Proof.Machine.execDevQuery p s
  | .devReset p => Sys2Proof.Machine.execDevReset p s
  | .devLifecycle p => Sys2Proof.Machine.execDevLifecycle p s
  | .devArbSet p => Sys2Proof.Machine.execDevArbSet p s
  | .blockConfig p => Sys2Proof.Machine.execBlockConfig p s
  | .blockQuery p => Sys2Proof.Machine.execBlockQuery p s
  | .blockReset p => Sys2Proof.Machine.execBlockReset p s
  | .cellReset p => Sys2Proof.Machine.execCellReset p s
  | .regionReset p => Sys2Proof.Machine.execRegionReset p s
  | .regionArbSet p => Sys2Proof.Machine.execRegionArbSet p s
  | .chOpen p => Sys2Proof.Machine.execChOpen p s
  | .chSetLeg p => Sys2Proof.Machine.execChSetLeg p s
  | .chActivate p => Sys2Proof.Machine.execChActivate p s
  | .chHold p => Sys2Proof.Machine.execChHold p s
  | .chResume p => Sys2Proof.Machine.execChResume p s
  | .chDrain p => Sys2Proof.Machine.execChDrain p s
  | .chClose p => Sys2Proof.Machine.execChClose p s
  | .chMove p => Sys2Proof.Machine.execChMove p s
  | .chRecover p => Sys2Proof.Machine.execChRecover p s
  | .chQuery p => Sys2Proof.Machine.execChQuery p s
  | .chSchedSet p => Sys2Proof.Machine.execChSchedSet p s
  | .flowInsert p => Sys2Proof.Machine.execFlowInsert p s
  | .flowRemove p => Sys2Proof.Machine.execFlowRemove p s
  | .flowModify p => Sys2Proof.Machine.execFlowModify p s
  | .flowQuery p => Sys2Proof.Machine.execFlowQuery p s
  | .srtpSet p => Sys2Proof.Machine.execSrtpSet p s
  | .srtpClear p => Sys2Proof.Machine.execSrtpClear p s
  | .srtpQuery p => Sys2Proof.Machine.execSrtpQuery p s
  | .templateLoad p => Sys2Proof.Machine.execTemplateLoad p s
  | .templateRemove p => Sys2Proof.Machine.execTemplateRemove p s
  | .peConfig p => Sys2Proof.Machine.execPeConfig p s
  | .peCounters p => Sys2Proof.Machine.execPeCounters p s
  | .echoSet p => Sys2Proof.Machine.execEchoSet p s
  | .echoQuery p => Sys2Proof.Machine.execEchoQuery p s
  | .echoCoefRead p => Sys2Proof.Machine.execEchoCoefRead p s
  | .playoutSet p => Sys2Proof.Machine.execPlayoutSet p s
  | .playoutQuery p => Sys2Proof.Machine.execPlayoutQuery p s
  | .codecSet p => Sys2Proof.Machine.execCodecSet p s
  | .codecQuery p => Sys2Proof.Machine.execCodecQuery p s
  | .resampleSet p => Sys2Proof.Machine.execResampleSet p s
  | .resampleReset p => Sys2Proof.Machine.execResampleReset p s
  | .resampleQuery p => Sys2Proof.Machine.execResampleQuery p s
  | .toneDetectSet p => Sys2Proof.Machine.execToneDetectSet p s
  | .tonePlay p => Sys2Proof.Machine.execTonePlay p s
  | .toneStop p => Sys2Proof.Machine.execToneStop p s
  | .gainSet p => Sys2Proof.Machine.execGainSet p s
  | .tableLoad p => Sys2Proof.Machine.execTableLoad p s
  | .tableDelete p => Sys2Proof.Machine.execTableDelete p s
  | .tableQuery p => Sys2Proof.Machine.execTableQuery p s
  | .tableRead p => Sys2Proof.Machine.execTableRead p s
  | .promptLoad p => Sys2Proof.Machine.execPromptLoad p s
  | .promptDelete p => Sys2Proof.Machine.execPromptDelete p s
  | .promptPlay p => Sys2Proof.Machine.execPromptPlay p s
  | .promptStop p => Sys2Proof.Machine.execPromptStop p s
  | .promptQuery p => Sys2Proof.Machine.execPromptQuery p s
  | .promptStoreConfig p => Sys2Proof.Machine.execPromptStoreConfig p s
  | .tdmGroupConfig p => Sys2Proof.Machine.execTdmGroupConfig p s
  | .tdmHighwayConfig p => Sys2Proof.Machine.execTdmHighwayConfig p s
  | .tdmLoopback p => Sys2Proof.Machine.execTdmLoopback p s
  | .tdmQuery p => Sys2Proof.Machine.execTdmQuery p s
  | .timeConfig p => Sys2Proof.Machine.execTimeConfig p s
  | .timeSet p => Sys2Proof.Machine.execTimeSet p s
  | .timeStep p => Sys2Proof.Machine.execTimeStep p s
  | .timeQuery p => Sys2Proof.Machine.execTimeQuery p s
  | .servoConfig p => Sys2Proof.Machine.execServoConfig p s
  | .servoSample p => Sys2Proof.Machine.execServoSample p s
  | .portTsConfig p => Sys2Proof.Machine.execPortTsConfig p s
  | .ptpSend p => Sys2Proof.Machine.execPtpSend p s
  | .portConfig p => Sys2Proof.Machine.execPortConfig p s
  | .shutterLoad p => Sys2Proof.Machine.execShutterLoad p s
  | .shutterQuery p => Sys2Proof.Machine.execShutterQuery p s
  | .portPair p => Sys2Proof.Machine.execPortPair p s
  | .portCounters p => Sys2Proof.Machine.execPortCounters p s
  | .stackConfig p => Sys2Proof.Machine.execStackConfig p s
  | .stackQuery p => Sys2Proof.Machine.execStackQuery p s
  | .blockEvacuate p => Sys2Proof.Machine.execBlockEvacuate p s
  | .fwLoad p => Sys2Proof.Machine.execFwLoad p s
  | .fwActivate p => Sys2Proof.Machine.execFwActivate p s
  | .fwQuery p => Sys2Proof.Machine.execFwQuery p s
  | .fwBlockActivate p => Sys2Proof.Machine.execFwBlockActivate p s
  | .imageEnlarge p => Sys2Proof.Machine.execImageEnlarge p s
  | .imageReduce p => Sys2Proof.Machine.execImageReduce p s
  | .userKernelLoad p => Sys2Proof.Machine.execUserKernelLoad p s
  | .userHookSet p => Sys2Proof.Machine.execUserHookSet p s
  | .userKernelQuery p => Sys2Proof.Machine.execUserKernelQuery p s
  | .clockConfig p => Sys2Proof.Machine.execClockConfig p s
  | .clockQuery p => Sys2Proof.Machine.execClockQuery p s
  | .domainGate p => Sys2Proof.Machine.execDomainGate p s
  | .clkoutSet p => Sys2Proof.Machine.execClkoutSet p s
  | .tclkOutSet p => Sys2Proof.Machine.execTclkOutSet p s
  | .powerSet p => Sys2Proof.Machine.execPowerSet p s
  | .powerQuery p => Sys2Proof.Machine.execPowerQuery p s
  | .errorLogRead p => Sys2Proof.Machine.execErrorLogRead p s
  | .traceConfig p => Sys2Proof.Machine.execTraceConfig p s
  | .traceDump p => Sys2Proof.Machine.execTraceDump p s
  | .sensorQuery p => Sys2Proof.Machine.execSensorQuery p s
  | .rsRomRead p => Sys2Proof.Machine.execRsRomRead p s
  | .unknownOpcode opcode p => Sys2Proof.Machine.execUnknownOpcode opcode p s
  | .stackFlowChange turn => Sys2Proof.Machine.execStackFlowChange turn s
  | .cmdTailDoorbell pair tail entries => Sys2Proof.Machine.execCmdTailDoorbell pair tail entries s
  | .rplHeadWrite pair head => Sys2Proof.Machine.execRplHeadWrite pair head s
  | .ringEnable pair => Sys2Proof.Machine.execRingEnable pair s
  | .ringDisable pair => Sys2Proof.Machine.execRingDisable pair s
  | .replyWrite pair ok => Sys2Proof.Machine.execReplyWrite pair ok s
  | .coalTimeExpiry pair => Sys2Proof.Machine.execCoalTimeExpiry pair s
  | .tsSnap => Sys2Proof.Machine.execTsSnap s
  | .csPop sheet => Sys2Proof.Machine.execCsPop sheet s
  | .csFlush sheet => Sys2Proof.Machine.execCsFlush sheet s
  | .csLostTotalRead sheet => Sys2Proof.Machine.execCsLostTotalRead sheet s
  | .bootGo => Sys2Proof.Machine.execBootGo s
  | .bar2BaseWrite hi value => Sys2Proof.Machine.execBar2BaseWrite hi value s
  | .diagBar0PartialRead => Sys2Proof.Machine.execDiagBar0PartialRead s
  | .diagBar2OutsideRead => Sys2Proof.Machine.execDiagBar2OutsideRead s
  | .registerWrite offset value enables => Sys2Proof.Machine.execRegisterWrite offset value enables s
  | .bar2Access offset data len ecc => Sys2Proof.Machine.execBar2Access offset data len ecc s
  | .pcieLinkReset => Sys2Proof.Machine.execPcieLinkReset s
  | .d3hot enter => Sys2Proof.Machine.execD3hot enter s
  | .idcode => Sys2Proof.Machine.execIdcode s
  | .samplePreload cells => Sys2Proof.Machine.execSamplePreload cells s
  | .extest => Sys2Proof.Machine.execExtest s
  | .extestPulse => Sys2Proof.Machine.execExtestPulse s
  | .extestTrain => Sys2Proof.Machine.execExtestTrain s
  | .clamp => Sys2Proof.Machine.execClamp s
  | .highz => Sys2Proof.Machine.execHighz s
  | .bypass => Sys2Proof.Machine.execBypass s
  | .debug op => Sys2Proof.Machine.execDebug op s
  | .debugUnlock key signature => Sys2Proof.Machine.execDebugUnlock key signature s
  | .fuseProg field => Sys2Proof.Machine.execFuseProg field s
  | .tapReset => Sys2Proof.Machine.execTapReset s
  | .cmac4 x_i k a b cja neg clr r => Sys2Proof.Machine.execCmac4 x_i k a b cja neg clr r s
  | .cmac4v x_i hi a b cja neg clr r => Sys2Proof.Machine.execCmac4v x_i hi a b cja neg clr r s
  | .rmac8 x_i k a b neg clr r => Sys2Proof.Machine.execRmac8 x_i k a b neg clr r s
  | .cmul4 x_i d a b cja x_s r => Sys2Proof.Machine.execCmul4 x_i d a b cja x_s r s
  | .vcmac4 x_i d c a b cja x_s r => Sys2Proof.Machine.execVcmac4 x_i d c a b cja x_s r s
  | .vmul8 x_i d a b x_s r => Sys2Proof.Machine.execVmul8 x_i d a b x_s r s
  | .bfly x_i dhalf a b x_s r => Sys2Proof.Machine.execBfly x_i dhalf a b x_s r s
  | .vadd x_i d a b x_s satm r => Sys2Proof.Machine.execVadd x_i d a b x_s satm r s
  | .vsub x_i d a b x_s satm r => Sys2Proof.Machine.execVsub x_i d a b x_s satm r s
  | .vshr x_i d a x_s r => Sys2Proof.Machine.execVshr x_i d a x_s r s
  | .vshl x_i d a x_s r => Sys2Proof.Machine.execVshl x_i d a x_s r s
  | .czip x_i dhalf a b r => Sys2Proof.Machine.execCzip x_i dhalf a b r s
  | .cunzip x_i dhalf a b r => Sys2Proof.Machine.execCunzip x_i dhalf a b r s
  | .vmov x_i d a r => Sys2Proof.Machine.execVmov x_i d a r s
  | .vbcast x_i d a r => Sys2Proof.Machine.execVbcast x_i d a r s
  | .vmaxa x_i d a pair r => Sys2Proof.Machine.execVmaxa x_i d a pair r s
  | .pack x_i d hi x_s r => Sys2Proof.Machine.execPack x_i d hi x_s r s
  | .acshr x_i k x_s r => Sys2Proof.Machine.execAcshr x_i k x_s r s
  | .acadd x_i d x_s r => Sys2Proof.Machine.execAcadd x_i d x_s r s
  | .actod x_i d k x_s r => Sys2Proof.Machine.execActod x_i d k x_s r s
  | .dtoac x_i k a r => Sys2Proof.Machine.execDtoac x_i k a r s
  | .add x_i d a b r => Sys2Proof.Machine.execAdd x_i d a b r s
  | .sub x_i d a b r => Sys2Proof.Machine.execSub x_i d a b r s
  | .adds x_i d a b r => Sys2Proof.Machine.execAdds x_i d a b r s
  | .subs x_i d a b r => Sys2Proof.Machine.execSubs x_i d a b r s
  | .and x_i d a b r => Sys2Proof.Machine.execAnd x_i d a b r s
  | .or x_i d a b r => Sys2Proof.Machine.execOr x_i d a b r s
  | .xor x_i d a b r => Sys2Proof.Machine.execXor x_i d a b r s
  | .cmp x_i a b r => Sys2Proof.Machine.execCmp x_i a b r s
  | .mov x_i d a r => Sys2Proof.Machine.execMov x_i d a r s
  | .neg x_i d a r => Sys2Proof.Machine.execNeg x_i d a r s
  | .abs x_i d a r => Sys2Proof.Machine.execAbs x_i d a r s
  | .min x_i d a b r => Sys2Proof.Machine.execMin x_i d a b r s
  | .max x_i d a b r => Sys2Proof.Machine.execMax x_i d a b r s
  | .shl x_i d a n r => Sys2Proof.Machine.execShl x_i d a n r s
  | .asr x_i d a n r => Sys2Proof.Machine.execAsr x_i d a n r s
  | .lsr x_i d a n r => Sys2Proof.Machine.execLsr x_i d a n r s
  | .mul x_i d a b r => Sys2Proof.Machine.execMul x_i d a b r s
  | .mpy15 x_i d a b r => Sys2Proof.Machine.execMpy15 x_i d a b r s
  | .mpy31 x_i d a b r => Sys2Proof.Machine.execMpy31 x_i d a b r s
  | .mac31 x_i k a b r => Sys2Proof.Machine.execMac31 x_i k a b r s
  | .norm x_i d a r => Sys2Proof.Machine.execNorm x_i d a r s
  | .mfs x_i d lc r => Sys2Proof.Machine.execMfs x_i d lc r s
  | .ldQ x_i reg ptr mode r => Sys2Proof.Machine.execLdQ x_i reg ptr mode r s
  | .stQ x_i reg ptr mode r => Sys2Proof.Machine.execStQ x_i reg ptr mode r s
  | .ldW x_i reg ptr mode r => Sys2Proof.Machine.execLdW x_i reg ptr mode r s
  | .ldH x_i reg ptr mode r => Sys2Proof.Machine.execLdH x_i reg ptr mode r s
  | .stW x_i reg ptr mode r => Sys2Proof.Machine.execStW x_i reg ptr mode r s
  | .stH x_i reg ptr mode r => Sys2Proof.Machine.execStH x_i reg ptr mode r s
  | .ldA x_i cls idx ptr mode r => Sys2Proof.Machine.execLdA x_i cls idx ptr mode r s
  | .stAc x_i k shift ptr form r => Sys2Proof.Machine.execStAc x_i k shift ptr form r s
  | .ldL x_i half ptr mode r => Sys2Proof.Machine.execLdL x_i half ptr mode r s
  | .stL x_i half ptr mode r => Sys2Proof.Machine.execStL x_i half ptr mode r s
  | .aadd x_i qside k imm r => Sys2Proof.Machine.execAadd x_i qside k imm r s
  | .amov x_i dst di src si r => Sys2Proof.Machine.execAmov x_i dst di src si r s
  | .xfer x_i out cls idx d r => Sys2Proof.Machine.execXfer x_i out cls idx d r s
  | .rep x_i n1 r => Sys2Proof.Machine.execRep x_i n1 r s
  | .replc x_i r => Sys2Proof.Machine.execReplc x_i r s
  | .lci x_i imm r => Sys2Proof.Machine.execLci x_i imm r s
  | .immediate x_i c dest => Sys2Proof.Machine.execImmediate x_i c dest s
  | .addi x_i d a imm r => Sys2Proof.Machine.execAddi x_i d a imm r s
  | .andi x_i d a imm r => Sys2Proof.Machine.execAndi x_i d a imm r s
  | .ori x_i d a imm r => Sys2Proof.Machine.execOri x_i d a imm r s
  | .xori x_i d a imm r => Sys2Proof.Machine.execXori x_i d a imm r s
  | .cmpi x_i a imm r => Sys2Proof.Machine.execCmpi x_i a imm r s
  | .movi x_i d imm r => Sys2Proof.Machine.execMovi x_i d imm r s
  | .movhi x_i d a imm r => Sys2Proof.Machine.execMovhi x_i d a imm r s
  | .br x_i cond target r => Sys2Proof.Machine.execBr x_i cond target r s
  | .brlc x_i target r => Sys2Proof.Machine.execBrlc x_i target r s
  | .call x_i cond target r => Sys2Proof.Machine.execCall x_i cond target r s
  | .jmpr x_i cond k r => Sys2Proof.Machine.execJmpr x_i cond k r s
  | .callu x_i entry r => Sys2Proof.Machine.execCallu x_i entry r s
  | .retu x_i r => Sys2Proof.Machine.execRetu x_i r s
  | .done x_i commit r => Sys2Proof.Machine.execDone x_i commit r s
  | .trap x_i code r => Sys2Proof.Machine.execTrap x_i code r s
  | .watchdog cell => Sys2Proof.Machine.execWatchdog cell s
  | .userBudget cell => Sys2Proof.Machine.execUserBudget cell s
  | .phaseBoundary block => Sys2Proof.Machine.execPhaseBoundary block s
  | .tickOrigin => Sys2Proof.Machine.execTickOrigin s
  | .eventFifoEntry block => Sys2Proof.Machine.execEventFifoEntry block s
  | .stagingStart cell ecc => Sys2Proof.Machine.execStagingStart cell ecc s
  | .stagingComplete cell => Sys2Proof.Machine.execStagingComplete cell s
  | .suspendSave cell => Sys2Proof.Machine.execSuspendSave cell s
  | .commitComplete block ecc => Sys2Proof.Machine.execCommitComplete block ecc s
  | .deadlineMiss block slot => Sys2Proof.Machine.execDeadlineMiss block slot s
  | .tickRun channel => Sys2Proof.Machine.execTickRun channel s
  | .ssrcAdoption channel leg => Sys2Proof.Machine.execSsrcAdoption channel leg s
  | .dtHangEnd channel => Sys2Proof.Machine.execDtHangEnd channel s
  | .nlpHangEnd channel => Sys2Proof.Machine.execNlpHangEnd channel s
  | .pathChange channel => Sys2Proof.Machine.execPathChange channel s
  | .divergence channel => Sys2Proof.Machine.execDivergence channel s
  | .converged channel => Sys2Proof.Machine.execConverged channel s
  | .toneDisableEnd channel => Sys2Proof.Machine.execToneDisableEnd channel s
  | .eventExtendTimeout channel leg => Sys2Proof.Machine.execEventExtendTimeout channel leg s
  | .contextCleared channel => Sys2Proof.Machine.execContextCleared channel s
  | .rsInRecord channel key tick samples => Sys2Proof.Machine.execRsInRecord channel key tick samples s
  | .peDescriptor region => Sys2Proof.Machine.execPeDescriptor region s
  | .signalRecord block sender seq slot value => Sys2Proof.Machine.execSignalRecord block sender seq slot value s
  | .noticeRecord block => Sys2Proof.Machine.execNoticeRecord block s
  | .dissolveEnd channel key => Sys2Proof.Machine.execDissolveEnd channel key s
  | .settleEnd channel key => Sys2Proof.Machine.execSettleEnd channel key s
  | .fillMeasurement channel key => Sys2Proof.Machine.execFillMeasurement channel key s
  | .frameReceived f => Sys2Proof.Machine.execFrameReceived f s
  | .heldPacketPost block => Sys2Proof.Machine.execHeldPacketPost block s
  | .egressPartitionAccept port src => Sys2Proof.Machine.execEgressPartitionAccept port src s
  | .frameCommit port vary => Sys2Proof.Machine.execFrameCommit port vary s
  | .frameSfdTx port vary => Sys2Proof.Machine.execFrameSfdTx port vary s
  | .shutterInterval port => Sys2Proof.Machine.execShutterInterval port s
  | .shutterCycleBoundary port => Sys2Proof.Machine.execShutterCycleBoundary port s
  | .guardBandStart port => Sys2Proof.Machine.execGuardBandStart port s
  | .pauseTimerExpiry port prio => Sys2Proof.Machine.execPauseTimerExpiry port prio s
  | .verifyResponse port => Sys2Proof.Machine.execVerifyResponse port s
  | .verifyTimeout port => Sys2Proof.Machine.execVerifyTimeout port s
  | .pcsConditionLost port cond => Sys2Proof.Machine.execPcsConditionLost port cond s
  | .pcsConditionRegained port cond => Sys2Proof.Machine.execPcsConditionRegained port cond s
  | .linkDown port => Sys2Proof.Machine.execLinkDown port s
  | .linkUp port => Sys2Proof.Machine.execLinkUp port s
  | .revertHoldExpiry pair => Sys2Proof.Machine.execRevertHoldExpiry pair s
  | .offsetSample x masterChanged => Sys2Proof.Machine.execOffsetSample x masterChanged s
  | .quarantineEnd => Sys2Proof.Machine.execQuarantineEnd s
  | .slewEnd => Sys2Proof.Machine.execSlewEnd s
  | .stepApply => Sys2Proof.Machine.execStepApply s
  | .ppsEdge high => Sys2Proof.Machine.execPpsEdge high s
  | .tdmFrame group fsGood rx => Sys2Proof.Machine.execTdmFrame group fsGood rx s
  | .tdmFramed group => Sys2Proof.Machine.execTdmFramed group s
  | .tdmGroupLost group clk => Sys2Proof.Machine.execTdmGroupLost group clk s
  | .tdmMUpdate group up => Sys2Proof.Machine.execTdmMUpdate group up s
  | .tdmMasterStart group => Sys2Proof.Machine.execTdmMasterStart group s
  | .referenceTrip source => Sys2Proof.Machine.execReferenceTrip source s
  | .referenceQualified source => Sys2Proof.Machine.execReferenceQualified source s
  | .referenceLock => Sys2Proof.Machine.execReferenceLock s
  | .coastEnd => Sys2Proof.Machine.execCoastEnd s
  | .acquireLock => Sys2Proof.Machine.execAcquireLock s
  | .rampEnd => Sys2Proof.Machine.execRampEnd s
  | .gateQuiesced domain => Sys2Proof.Machine.execGateQuiesced domain s
  | .gateTimeout domain => Sys2Proof.Machine.execGateTimeout domain s
  | .powerWakeDone domain => Sys2Proof.Machine.execPowerWakeDone domain s
  | .deepSleepEntered domain => Sys2Proof.Machine.execDeepSleepEntered domain s
  | .autoDeepSleep block => Sys2Proof.Machine.execAutoDeepSleep block s
  | .powerOnReset asserted straps => Sys2Proof.Machine.execPowerOnReset asserted straps s
  | .resetN low => Sys2Proof.Machine.execResetN low s
  | .perstN low => Sys2Proof.Machine.execPerstN low s
  | .chipWatchdog => Sys2Proof.Machine.execChipWatchdog s
  | .deviceResetSequence facts => Sys2Proof.Machine.execDeviceResetSequence facts s
  | .lifeCycleTransition till => Sys2Proof.Machine.execLifeCycleTransition till s
  | .patrolScrub place address uncorrectable => Sys2Proof.Machine.execPatrolScrub place address uncorrectable s
  | .contextRebuilt channel => Sys2Proof.Machine.execContextRebuilt channel s
  | .blockIsolation block handshake address => Sys2Proof.Machine.execBlockIsolation block handshake address s
  | .cellReturn cell => Sys2Proof.Machine.execCellReturn cell s
  | .jobStart region reducer => Sys2Proof.Machine.execJobStart region reducer s
  | .enlargerJobEnd region err => Sys2Proof.Machine.execEnlargerJobEnd region err s
  | .reducerJobEnd region err => Sys2Proof.Machine.execReducerJobEnd region err s
  | .flitReceived port flit => Sys2Proof.Machine.execFlitReceived port flit s
  | .linkRetrain port => Sys2Proof.Machine.execLinkRetrain port s
  | .laneLost port => Sys2Proof.Machine.execLaneLost port s
  | .laneRetrained port => Sys2Proof.Machine.execLaneRetrained port s
  | .stackLinkLost port => Sys2Proof.Machine.execStackLinkLost port s
  | .forwardedPacket device packet => Sys2Proof.Machine.execForwardedPacket device packet s
  | .stackLegBlock device channel leg tick samples => Sys2Proof.Machine.execStackLegBlock device channel leg tick samples s
  | .timeFlitExchange port t1 t2 t3 t4 => Sys2Proof.Machine.execTimeFlitExchange port t1 t2 t3 t4 s
  | .stackStepRelay amount epoch => Sys2Proof.Machine.execStackStepRelay amount epoch s
  | .advertisement member info => Sys2Proof.Machine.execAdvertisement member info s
  | .contextFrameReceived device channel cut held frame => Sys2Proof.Machine.execContextFrameReceived device channel cut held frame s
  | .flowTableCopy entry mediaNs => Sys2Proof.Machine.execFlowTableCopy entry mediaNs s
  | .stackJoinTimeout => Sys2Proof.Machine.execStackJoinTimeout s
  | .forwardedFylos device message => Sys2Proof.Machine.execForwardedFylos device message s
  | .illegalWord x_i w => Sys2Proof.Machine.execIllegalWord x_i w s
  | .nop x_i => Sys2Proof.Machine.execNop x_i s
  | .damiumLockstepMismatch => Sys2Proof.Machine.execDamiumLockstepMismatch s
  | .scopeResetComplete scope id => Sys2Proof.Machine.execScopeResetComplete scope id s
  | .managementFirmwareSwitched => Sys2Proof.Machine.execManagementFirmwareSwitched s

end Sys2Proof.Machine
end

