-- ==== Sys2Proof/Safety.lean ====
section
/-! DEFINITION. The terms in which statements are made: a run that goes on, a Fylos command that Damium takes from a ring, and the reply
it gets. No command stops the machine (R24 keeps every fault of the part a change of its state). -/

namespace Sys2Proof.Safety

open Sys2Proof.Machine

/-- An outcome that lets the machine go on. -/
def goesOn (o : Host.Outcome State Fault Refusal) : Prop := ∃ t, o = .next t

/-- A run of `k` steps that no fault and no refusal stops. -/
def safeFor (k : Nat) (s : State) : Prop := goesOn (Sys2Proof.core.run k s)

/-- A command as Damium reads it from the entries of a ring: as many parameter bytes as PARAM_LEN says (R413). -/
def ringPacket (p : Packet) : Packet := { p with params := p.params.take p.paramLen.toNat }

/-- Command `p` comes whole on ring pair `n`, no item of the pair waits, and Damium takes it now (R405, R413, R416). -/
structure Delivered (n : Nat) (p : Packet) (s : State) : Prop where
  source : p.source = .ring n
  takes : s.damiumTakes = true
  idle : (s.ring n).held = [] ∧ (s.ring n).replyWait = false
  framed : p.magic = 0x4659 ∧ p.paramLen.toNat ≤ 16352

/-- A delivered command of opcode `op` that the checks of R400, R401, R403, R428 and R432 and the settings row of Table 2.3 pass:
`c` is what the command's own rules are given. -/
structure Taken (op n : Nat) (p : Packet) (s : State) (c : Ctx) : Prop where
  delivered : Delivered n p s
  header : headerRefusal s op (opSpec? op) (ringPacket p) = none
  here : deviceHere s (ringPacket p) = true
  admitted : (opSpec? op).map (fun o => admitCommand s op o (ringPacket p) false) = some (.inr c)

/-- The packet as Damium reads it at its source: of a ring's entries as many parameter bytes as PARAM_LEN says (R413). -/
def readAt (p : Packet) : Packet :=
  match p.source with
  | .ring _ => ringPacket p
  | .udp _ _ _ | .stack _ _ => p

/-- A tagged UDP command whose SEQUENCE is new: the machine with the window and the cache after it (R424, R425). -/
def newSequence (op : Nat) (p : Packet) (s : State) : Option State :=
  let f := s.fylos
  let ahead := (p.sequence - f.highest).toNat
  let back := (f.highest - p.sequence).toNat
  let cache := cacheNew f.cache op p
  if f.first then some { s with fylos := { f with first := false, highest := p.sequence, window := [0], cache := cache } }
  else if ahead ≠ 0 ∧ ahead < 2 ^ 31 then
    some { s with fylos := { f with highest := p.sequence, window := windowShift f.window ahead, cache := cache } }
  else if back < 1024 ∧ f.window.contains back = false then
    some { s with fylos := { f with window := back :: f.window, cache := cache } }
  else none

/-- Command `p` of opcode `op` comes whole from its source, a ring pair on which no item waits, the stack, or UDP, untagged only as
DEV_HELLO and within its rate, else with the tag of the key and a new SEQUENCE, and Damium takes it now (R405, R413, R416, R419 to R425):
its rules run on `u`, and `tagged` tells whether its replies carry a tag. -/
def Reaches (op : Nat) (p : Packet) (s u : State) (tagged : Bool) : Prop :=
  s.damiumTakes = true ∧
  match p.source with
  | .ring n => (s.ring n).held = [] ∧ (s.ring n).replyWait = false ∧ p.magic = 0x4659 ∧ p.paramLen.toNat ≤ 16352 ∧ u = s ∧ tagged = false
  | .stack _ _ => u = s ∧ tagged = false
  | .udp _ _ _ =>
    p.magic = 0x4659 ∧ s.life.lifeCycle ≠ 3 ∧ p.rsvd.length = 7 ∧ p.params.length = p.paramLen.toNat ∧
    ((op = 0x0101 ∧ packetAuth p = false ∧ p.tag = [] ∧ helloRoom s = some u ∧ tagged = false) ∨
     (∃ key, packetAuth p = true ∧ p.tag.length = 16 ∧ s.udpKey? = some key ∧ p.tag = wantedTag s key op p ∧
       newSequence op p s = some u ∧ tagged = (op != 0x0101)))

/-- A command for this device, from any source, that the checks of R400, R401, R403, R428 and R432 and the settings row of Table 2.3
pass: its own rules run on `u`, and `c` is what they are given. -/
structure Admitted (op : Nat) (p : Packet) (s u : State) (c : Ctx) : Prop where
  reaches : Reaches op p s u c.ref.tagged
  header : headerRefusal u op (opSpec? op) (readAt p) = none
  here : deviceHere u (readAt p) = true
  admitted : (opSpec? op).map (fun o => admitCommand u op o (readAt p) c.ref.tagged) = some (.inr c)

/-- The opcode and the packet of a Fylos command's row (Tables 16.2 to 16.9). -/
def fylosRow (i : Instr) : Option (Nat × Packet) :=
  match i with
  | .devHello p => some (0x0101, p)
  | .devUdpKeySet p => some (0x0102, p)
  | .devNoticeConfig p => some (0x0103, p)
  | .devQuery p => some (0x0104, p)
  | .devReset p => some (0x0105, p)
  | .devLifecycle p => some (0x0106, p)
  | .devArbSet p => some (0x0107, p)
  | .blockConfig p => some (0x0110, p)
  | .blockQuery p => some (0x0111, p)
  | .blockReset p => some (0x0112, p)
  | .cellReset p => some (0x0113, p)
  | .regionReset p => some (0x0114, p)
  | .regionArbSet p => some (0x0115, p)
  | .chOpen p => some (0x0201, p)
  | .chSetLeg p => some (0x0202, p)
  | .chActivate p => some (0x0203, p)
  | .chHold p => some (0x0204, p)
  | .chResume p => some (0x0205, p)
  | .chDrain p => some (0x0206, p)
  | .chClose p => some (0x0207, p)
  | .chMove p => some (0x0208, p)
  | .chRecover p => some (0x0209, p)
  | .chQuery p => some (0x020A, p)
  | .chSchedSet p => some (0x020B, p)
  | .flowInsert p => some (0x0301, p)
  | .flowRemove p => some (0x0302, p)
  | .flowModify p => some (0x0303, p)
  | .flowQuery p => some (0x0304, p)
  | .srtpSet p => some (0x0305, p)
  | .srtpClear p => some (0x0306, p)
  | .srtpQuery p => some (0x0307, p)
  | .templateLoad p => some (0x0308, p)
  | .templateRemove p => some (0x0309, p)
  | .peConfig p => some (0x030A, p)
  | .peCounters p => some (0x030B, p)
  | .echoSet p => some (0x0401, p)
  | .echoQuery p => some (0x0402, p)
  | .echoCoefRead p => some (0x0403, p)
  | .playoutSet p => some (0x0501, p)
  | .playoutQuery p => some (0x0502, p)
  | .codecSet p => some (0x0601, p)
  | .codecQuery p => some (0x0602, p)
  | .resampleSet p => some (0x0603, p)
  | .resampleReset p => some (0x0604, p)
  | .resampleQuery p => some (0x0605, p)
  | .toneDetectSet p => some (0x0701, p)
  | .tonePlay p => some (0x0702, p)
  | .toneStop p => some (0x0703, p)
  | .gainSet p => some (0x0704, p)
  | .tableLoad p => some (0x0710, p)
  | .tableDelete p => some (0x0711, p)
  | .tableQuery p => some (0x0712, p)
  | .tableRead p => some (0x0713, p)
  | .promptLoad p => some (0x0720, p)
  | .promptDelete p => some (0x0721, p)
  | .promptPlay p => some (0x0722, p)
  | .promptStop p => some (0x0723, p)
  | .promptQuery p => some (0x0724, p)
  | .promptStoreConfig p => some (0x0725, p)
  | .tdmGroupConfig p => some (0x0801, p)
  | .tdmHighwayConfig p => some (0x0802, p)
  | .tdmLoopback p => some (0x0803, p)
  | .tdmQuery p => some (0x0804, p)
  | .timeConfig p => some (0x0901, p)
  | .timeSet p => some (0x0902, p)
  | .timeStep p => some (0x0903, p)
  | .timeQuery p => some (0x0904, p)
  | .servoConfig p => some (0x0905, p)
  | .servoSample p => some (0x0906, p)
  | .portTsConfig p => some (0x0907, p)
  | .ptpSend p => some (0x0908, p)
  | .portConfig p => some (0x0A01, p)
  | .shutterLoad p => some (0x0A02, p)
  | .shutterQuery p => some (0x0A03, p)
  | .portPair p => some (0x0A04, p)
  | .portCounters p => some (0x0A05, p)
  | .stackConfig p => some (0x0B01, p)
  | .stackQuery p => some (0x0B02, p)
  | .blockEvacuate p => some (0x0B03, p)
  | .fwLoad p => some (0x0C01, p)
  | .fwActivate p => some (0x0C02, p)
  | .fwQuery p => some (0x0C03, p)
  | .fwBlockActivate p => some (0x0C04, p)
  | .imageEnlarge p => some (0x0C05, p)
  | .imageReduce p => some (0x0C06, p)
  | .userKernelLoad p => some (0x0C20, p)
  | .userHookSet p => some (0x0C21, p)
  | .userKernelQuery p => some (0x0C22, p)
  | .clockConfig p => some (0x0D01, p)
  | .clockQuery p => some (0x0D02, p)
  | .domainGate p => some (0x0D03, p)
  | .clkoutSet p => some (0x0D04, p)
  | .tclkOutSet p => some (0x0D05, p)
  | .powerSet p => some (0x0D06, p)
  | .powerQuery p => some (0x0D07, p)
  | .errorLogRead p => some (0x0E01, p)
  | .traceConfig p => some (0x0E02, p)
  | .traceDump p => some (0x0E03, p)
  | .sensorQuery p => some (0x0E04, p)
  | .rsRomRead p => some (0x0E10, p)
  | .unknownOpcode op p => some (op.toNat, p)
  | _ => none

/-- What a reply carries fits one packet where version 3 asks for that (R428). -/
def fits (c : Ctx) (l : List Tlv) : Prop := c.ref.version = 3 → (partition ringPartLimit l []).length ≤ 1

/-- Command `i` completes in its one reply, of status `st` carrying `l`, over what it made of the machine (R406). -/
def Replies (i : Instr) (s : State) (c : Ctx) (st : Nat) (l : List Tlv) (u : State) : Prop :=
  exec i s = .next (u.reply c.ref st l .none)

/-- Command `i` is answered ACCEPTED over `u`, its completion outstanding, and `after` follows (R406); while its source has 1,024
completions outstanding it is refused with PENDING_LIMIT instead, with no effect (R409). -/
def Accepts (i : Instr) (s : State) (c : Ctx) (u : State) (after : State → State) : Prop :=
  exec i s = .next (if 1024 ≤ outstandingOf s c.ref.source then s.reply c.ref stPendingLimit [] .none else after
    (({ u with fylos := { u.fylos with outstanding := u.fylos.outstanding ++ [c.ref] } }).reply c.ref stAccepted [] .none))

/-- The source of a command has fewer than 1,024 completions outstanding (R409). -/
def hasRoom (u : State) (c : Ctx) : Prop := outstandingOf u c.ref.source < 1024

/-- The machine `v` once the command is answered ACCEPTED over it, its completion outstanding (R406). -/
def acceptedOver (c : Ctx) (v : State) : State :=
  ({ v with fylos := { v.fylos with outstanding := v.fylos.outstanding ++ [c.ref] } }).reply c.ref stAccepted [] .none

/-- The machine `v` once the command is answered ACCEPTED over it and completed at once with OK (R406). -/
def completedOver (c : Ctx) (v : State) : State := (v.reply c.ref stAccepted [] .none).complete c.ref stOk []

/-- The reply fits one part, which version 3 asks for (R428). -/
def onePart (u : State) (c : Ctx) (l : List Tlv) : Prop :=
  c.ref.version = 3 → (partition (u.partLimit c.ref.source) l []).length ≤ 1

/-- Command `i`, admitted on `u`, completes in its one OK reply, which carries `l`, over `t`, where what it carries fits one part or
version 4 takes more (R406, R428). -/
def Reports (i : Instr) (s u : State) (c : Ctx) (l : List Tlv) (t : State) : Prop := onePart u c l → Replies i s c stOk l t

/-- Command `i` takes the machine from `s` to `t`. -/
def Becomes (i : Instr) (s t : State) : Prop := exec i s = .next t

/-! ## The vector engine -/

/-- Cell `i.cell` when its next word is at D: the writes and stores that every reader sees have reached their places
(R332, R346). -/
def settled (i : Issue) (s : State) : State :=
  s.modCell i.cell (fun c => (settleStores c.issued c).setActive (retire c.issued c.active))

/-- What the next word of cell `i.cell` reads from. -/
def viewOf (i : Issue) (s : State) : View :=
  { bank := ((settled i s).cell i.cell).active, now := ((settled i s).cell i.cell).issued }

/-- The data accesses of a word, the X side first. -/
def accessesOf (v : View) (w : VeWord) : List Access :=
  ((moveAccess v false (wordX w)).map (·.1)).toList ++ ((moveAccess v true (wordY w)).map (·.1)).toList

/-- Word `w` issues on cell `i.cell` and is carried out: the cell runs, the word is fetched where its mode allows, every
check at D passes (R334, R350, R354), every access is allowed and no memory error is found. -/
structure Issues (i : Issue) (w : VeWord) (s : State) : Prop where
  runs : s.cellIssues i.cell = true
  place : (s.cell i.cell).active.user = true → 0x1800 ≤ (s.cell i.cell).active.pc.toNat
  sound : i.fetch = .clean ∧ i.x = .clean ∧ i.y = .clean
  passes : wordTrap ((settled i s).cell i.cell) (viewOf i s) s.kernelEntries w = none
  allowed : ∀ x ∈ accessesOf (viewOf i s) w,
    accessTrap ((settled i s).cell i.cell).bank (viewOf i s).bank.user (0 < ((settled i s).cell i.cell).rep) x = none

/-- The write of `value` to register `reg` by a producer of Table 12.7. -/
def wrote (p : Producer) (reg value : Nat) : WriteReq := { producer := p, reg := reg, value := value }

/-- The writes of the rest of a word that carries a compute operation: its slot or its immediate (R352). -/
def restWrites (v : View) (r : CompRest) : List WriteReq :=
  match r with
  | .parallel _ _ t => slotWrites v t
  | .immediate d => immWrites d

/-- Command `c` carries word `w` out on cell `i.cell` with the register writes `l` besides those of its moves, and no
control operation. -/
def Writes (c : Instr) (i : Issue) (w : VeWord) (s : State) (l : List WriteReq) : Prop :=
  exec c s = .next ((settled i s).carryOut i.cell (viewOf i s) w l none)

/-- Command `c` carries control word `w` out: the writes `l`, and `d` after the two delay words (R366). -/
def Controls (c : Instr) (i : Issue) (w : VeWord) (s : State) (l : List WriteReq) (d : Delayed) : Prop :=
  exec c s = .next ((settled i s).carryOut i.cell (viewOf i s) w l (some d))

/-- Command `c` carries the word of compute operation `k` and rest `r` out, the operation writing `l` (R331, R352). -/
def Computes (c : Instr) (i : Issue) (k : Comp) (r : CompRest) (s : State) (l : List WriteReq) : Prop :=
  Issues i (compWord k r) s → Writes c i (compWord k r) s (l ++ restWrites (viewOf i s) r)

/-- Command `c` carries the word of slot operation `t` and rest `r` out, the slot writing `l`. -/
def SlotWrites (c : Instr) (i : Issue) (t : Slot) (r : SlotRest) (s : State) (l : List WriteReq) : Prop :=
  Issues i (slotWord t r) s →
    Writes c i (slotWord t r) s (compute (viewOf i s) ((settled i s).cell i.cell).bank (0 < ((settled i s).cell i.cell).rep) r.comp ++ l)

/-- The side of a word that move row `r` names: true for Y. -/
def sideOf (r : MoveRest) : Bool :=
  match r with
  | .parallelX _ _ _ | .controlX _ _ | .scalarX _ _ => false
  | .parallelY _ _ _ | .controlY _ _ | .scalarY _ _ => true

/-- The machine when the move of row `r` has its turn: a Y move comes after the word's X move (R331). -/
def beforeMove (i : Issue) (m : Move) (r : MoveRest) (s : State) : State :=
  if sideOf r then ((settled i s).doMove i.cell (viewOf i s) false (wordX (moveWord m r))).1 else settled i s

/-- Command `c` carries the word of move `m` out, and the move leaves the machine as `t` and writes `l`. -/
def Moves (c : Instr) (i : Issue) (m : Move) (r : MoveRest) (s : State) (t : State) (l : List WriteReq) : Prop :=
  Issues i (moveWord m r) s →
    exec c s = .next ((settled i s).issueGood i.cell (viewOf i s) (moveWord m r)) ∧
    (beforeMove i m r s).doMove i.cell (viewOf i s) (sideOf r) m = (t, l)

/-- The pointer write of an access through pointer `p` of a side, in addressing mode `a` and of `width` bytes (R330, R356). -/
def pointerWrite (v : View) (yside : Bool) (p : Fin 8) (a : AMode) (width : Nat) : List WriteReq :=
  match a with
  | .plain | .indexed => []
  | .postN => [{ producer := .addr, reg := if yside then rQ p else rP p, value := nextPtr (v.ptr yside p) (v.n p) (v.m p) }]
  | .postInc => [{ producer := .addr, reg := if yside then rQ p else rP p, value := nextPtr (v.ptr yside p) (width : Int) (v.m p) }]

/-- The access a move makes through pointer `p` of a side (R329, R356). -/
def accessAt (v : View) (yside : Bool) (p : Fin 8) (a : AMode) (width : Nat) (store : Bool) : Access :=
  { yside := yside, width := width, store := store,
    addr := match a with | .indexed => patternOf 24 ((v.ptr yside p : Int) + v.n p) | _ => v.ptr yside p }

/-- A legal machine: the life-cycle state is the one that its fuses spell (R506), the error log holds at most its 256 entries (R524), and DRAM is in
canonical form. -/
structure Legal (s : State) : Prop where
  fuses : s.life.lifeCycle = fusedState s.life
  log : s.log.entries.length ≤ 256
  dram : memoryWf s.store.dram = true

end Sys2Proof.Safety
end

