-- ==== Sys2Proof/WellFormed.lean ====
section
/-! DEFINITION. The ranges of a command's operands: the numbers of pairs, ports, cells, blocks, regions, channels, domains and devices that
the K16 has (R20, R39, R94, R219, R371, R475, R493). A packet is checked by the machine itself. -/

namespace Sys2Proof

/-- Whether a target scope (1 region, 2 block, 3 cell) has the object (Table 15.1). -/
def scopeHas (scope id : Nat) : Bool :=
  match scope with
  | 1 => decide (id < 4)
  | 2 => decide (id < 16)
  | 3 => decide (id < 128)
  | _ => false

/-- Whether every operand of a command lies in its range. -/
def Instr.wellFormed (c : Instr) : Bool :=
  match c with
  | .devHello _ => true
  | .devUdpKeySet _ => true
  | .devNoticeConfig _ => true
  | .devQuery _ => true
  | .devReset _ => true
  | .devLifecycle _ => true
  | .devArbSet _ => true
  | .blockConfig _ => true
  | .blockQuery _ => true
  | .blockReset _ => true
  | .cellReset _ => true
  | .regionReset _ => true
  | .regionArbSet _ => true
  | .chOpen _ => true
  | .chSetLeg _ => true
  | .chActivate _ => true
  | .chHold _ => true
  | .chResume _ => true
  | .chDrain _ => true
  | .chClose _ => true
  | .chMove _ => true
  | .chRecover _ => true
  | .chQuery _ => true
  | .chSchedSet _ => true
  | .flowInsert _ => true
  | .flowRemove _ => true
  | .flowModify _ => true
  | .flowQuery _ => true
  | .srtpSet _ => true
  | .srtpClear _ => true
  | .srtpQuery _ => true
  | .templateLoad _ => true
  | .templateRemove _ => true
  | .peConfig _ => true
  | .peCounters _ => true
  | .echoSet _ => true
  | .echoQuery _ => true
  | .echoCoefRead _ => true
  | .playoutSet _ => true
  | .playoutQuery _ => true
  | .codecSet _ => true
  | .codecQuery _ => true
  | .resampleSet _ => true
  | .resampleReset _ => true
  | .resampleQuery _ => true
  | .toneDetectSet _ => true
  | .tonePlay _ => true
  | .toneStop _ => true
  | .gainSet _ => true
  | .tableLoad _ => true
  | .tableDelete _ => true
  | .tableQuery _ => true
  | .tableRead _ => true
  | .promptLoad _ => true
  | .promptDelete _ => true
  | .promptPlay _ => true
  | .promptStop _ => true
  | .promptQuery _ => true
  | .promptStoreConfig _ => true
  | .tdmGroupConfig _ => true
  | .tdmHighwayConfig _ => true
  | .tdmLoopback _ => true
  | .tdmQuery _ => true
  | .timeConfig _ => true
  | .timeSet _ => true
  | .timeStep _ => true
  | .timeQuery _ => true
  | .servoConfig _ => true
  | .servoSample _ => true
  | .portTsConfig _ => true
  | .ptpSend _ => true
  | .portConfig _ => true
  | .shutterLoad _ => true
  | .shutterQuery _ => true
  | .portPair _ => true
  | .portCounters _ => true
  | .stackConfig _ => true
  | .stackQuery _ => true
  | .blockEvacuate _ => true
  | .fwLoad _ => true
  | .fwActivate _ => true
  | .fwQuery _ => true
  | .fwBlockActivate _ => true
  | .imageEnlarge _ => true
  | .imageReduce _ => true
  | .userKernelLoad _ => true
  | .userHookSet _ => true
  | .userKernelQuery _ => true
  | .clockConfig _ => true
  | .clockQuery _ => true
  | .domainGate _ => true
  | .clkoutSet _ => true
  | .tclkOutSet _ => true
  | .powerSet _ => true
  | .powerQuery _ => true
  | .errorLogRead _ => true
  | .traceConfig _ => true
  | .traceDump _ => true
  | .sensorQuery _ => true
  | .rsRomRead _ => true
  | .unknownOpcode _ _ => true
  | .stackFlowChange _ => true
  | .cmdTailDoorbell pair _ _ => decide (pair < 4)
  | .rplHeadWrite pair _ => decide (pair < 4)
  | .ringEnable pair => decide (pair < 4)
  | .ringDisable pair => decide (pair < 4)
  | .replyWrite pair _ => decide (pair < 4)
  | .coalTimeExpiry pair => decide (pair < 4)
  | .tsSnap => true
  | .csPop sheet => decide (sheet.port < 4)
  | .csFlush sheet => decide (sheet.port < 4)
  | .csLostTotalRead sheet => decide (sheet.port < 4)
  | .bootGo => true
  | .bar2BaseWrite _ _ => true
  | .diagBar0PartialRead => true
  | .diagBar2OutsideRead => true
  | .registerWrite _ _ _ => true
  | .bar2Access _ _ _ _ => true
  | .pcieLinkReset => true
  | .d3hot _ => true
  | .idcode => true
  | .samplePreload _ => true
  | .extest => true
  | .extestPulse => true
  | .extestTrain => true
  | .clamp => true
  | .highz => true
  | .bypass => true
  | .debug _ => true
  | .debugUnlock _ _ => true
  | .fuseProg _ => true
  | .tapReset => true
  | .cmac4 i _ _ _ _ _ _ _ => decide (i.cell < 128)
  | .cmac4v i _ _ _ _ _ _ _ => decide (i.cell < 128)
  | .rmac8 i _ _ _ _ _ _ => decide (i.cell < 128)
  | .cmul4 i _ _ _ _ _ _ => decide (i.cell < 128)
  | .vcmac4 i _ _ _ _ _ _ _ => decide (i.cell < 128)
  | .vmul8 i _ _ _ _ _ => decide (i.cell < 128)
  | .bfly i _ _ _ _ _ => decide (i.cell < 128)
  | .vadd i _ _ _ _ _ _ => decide (i.cell < 128)
  | .vsub i _ _ _ _ _ _ => decide (i.cell < 128)
  | .vshr i _ _ _ _ => decide (i.cell < 128)
  | .vshl i _ _ _ _ => decide (i.cell < 128)
  | .czip i _ _ _ _ => decide (i.cell < 128)
  | .cunzip i _ _ _ _ => decide (i.cell < 128)
  | .vmov i _ _ _ => decide (i.cell < 128)
  | .vbcast i _ _ _ => decide (i.cell < 128)
  | .vmaxa i _ _ _ _ => decide (i.cell < 128)
  | .pack i _ _ _ _ => decide (i.cell < 128)
  | .acshr i _ _ _ => decide (i.cell < 128)
  | .acadd i _ _ _ => decide (i.cell < 128)
  | .actod i _ _ _ _ => decide (i.cell < 128)
  | .dtoac i _ _ _ => decide (i.cell < 128)
  | .add i _ _ _ _ => decide (i.cell < 128)
  | .sub i _ _ _ _ => decide (i.cell < 128)
  | .adds i _ _ _ _ => decide (i.cell < 128)
  | .subs i _ _ _ _ => decide (i.cell < 128)
  | .and i _ _ _ _ => decide (i.cell < 128)
  | .or i _ _ _ _ => decide (i.cell < 128)
  | .xor i _ _ _ _ => decide (i.cell < 128)
  | .cmp i _ _ _ => decide (i.cell < 128)
  | .mov i _ _ _ => decide (i.cell < 128)
  | .neg i _ _ _ => decide (i.cell < 128)
  | .abs i _ _ _ => decide (i.cell < 128)
  | .min i _ _ _ _ => decide (i.cell < 128)
  | .max i _ _ _ _ => decide (i.cell < 128)
  | .shl i _ _ _ _ => decide (i.cell < 128)
  | .asr i _ _ _ _ => decide (i.cell < 128)
  | .lsr i _ _ _ _ => decide (i.cell < 128)
  | .mul i _ _ _ _ => decide (i.cell < 128)
  | .mpy15 i _ _ _ _ => decide (i.cell < 128)
  | .mpy31 i _ _ _ _ => decide (i.cell < 128)
  | .mac31 i _ _ _ _ => decide (i.cell < 128)
  | .norm i _ _ _ => decide (i.cell < 128)
  | .mfs i _ _ _ => decide (i.cell < 128)
  | .ldQ i _ _ _ _ => decide (i.cell < 128)
  | .stQ i _ _ _ _ => decide (i.cell < 128)
  | .ldW i _ _ _ _ => decide (i.cell < 128)
  | .ldH i _ _ _ _ => decide (i.cell < 128)
  | .stW i _ _ _ _ => decide (i.cell < 128)
  | .stH i _ _ _ _ => decide (i.cell < 128)
  | .ldA i _ _ _ _ _ => decide (i.cell < 128)
  | .stAc i _ _ _ _ _ => decide (i.cell < 128)
  | .ldL i _ _ _ _ => decide (i.cell < 128)
  | .stL i _ _ _ _ => decide (i.cell < 128)
  | .aadd i _ _ _ _ => decide (i.cell < 128)
  | .amov i _ _ _ _ _ => decide (i.cell < 128)
  | .xfer i _ _ _ _ _ => decide (i.cell < 128)
  | .rep i _ _ => decide (i.cell < 128)
  | .replc i _ => decide (i.cell < 128)
  | .lci i _ _ => decide (i.cell < 128)
  | .immediate i _ _ => decide (i.cell < 128)
  | .addi i _ _ _ _ => decide (i.cell < 128)
  | .andi i _ _ _ _ => decide (i.cell < 128)
  | .ori i _ _ _ _ => decide (i.cell < 128)
  | .xori i _ _ _ _ => decide (i.cell < 128)
  | .cmpi i _ _ _ => decide (i.cell < 128)
  | .movi i _ _ _ => decide (i.cell < 128)
  | .movhi i _ _ _ _ => decide (i.cell < 128)
  | .br i _ _ _ => decide (i.cell < 128)
  | .brlc i _ _ => decide (i.cell < 128)
  | .call i _ _ _ => decide (i.cell < 128)
  | .jmpr i _ _ _ => decide (i.cell < 128)
  | .callu i _ _ => decide (i.cell < 128)
  | .retu i _ => decide (i.cell < 128)
  | .done i _ _ => decide (i.cell < 128)
  | .trap i _ _ => decide (i.cell < 128)
  | .watchdog cell => decide (cell < 128)
  | .userBudget cell => decide (cell < 128)
  | .phaseBoundary block => decide (block < 16)
  | .tickOrigin => true
  | .eventFifoEntry block => decide (block < 16)
  | .stagingStart cell _ => decide (cell < 128)
  | .stagingComplete cell => decide (cell < 128)
  | .suspendSave cell => decide (cell < 128)
  | .commitComplete block _ => decide (block < 16)
  | .deadlineMiss block slot => decide (block < 16) && decide (slot < 1152)
  | .tickRun channel => decide (channel < 16384)
  | .ssrcAdoption channel leg => decide (channel < 16384) && decide (leg < 2)
  | .dtHangEnd channel => decide (channel < 16384)
  | .nlpHangEnd channel => decide (channel < 16384)
  | .pathChange channel => decide (channel < 16384)
  | .divergence channel => decide (channel < 16384)
  | .converged channel => decide (channel < 16384)
  | .toneDisableEnd channel => decide (channel < 16384)
  | .eventExtendTimeout channel leg => decide (channel < 16384) && decide (leg < 2)
  | .contextCleared channel => decide (channel < 16384)
  | .rsInRecord channel key _ _ => decide (channel < 16384) && decide (key < 10)
  | .peDescriptor region => decide (region < 4)
  | .signalRecord block _ _ slot _ => decide (block < 16) && decide (slot < 1152)
  | .noticeRecord block => decide (block < 16)
  | .dissolveEnd channel key => decide (channel < 16384) && decide (key < 10)
  | .settleEnd channel key => decide (channel < 16384) && decide (key < 10)
  | .fillMeasurement channel key => decide (channel < 16384) && decide (key < 10)
  | .frameReceived f => decide (f.port < 4)
  | .heldPacketPost block => decide (block < 16)
  | .egressPartitionAccept port src =>
    decide (port < 4) && (match src with | .ptpEngine _ _ _ id => decide (id < 65536) | .region _ | .damium | .fylos => true)
  | .frameCommit port _ => decide (port < 4)
  | .frameSfdTx port _ => decide (port < 4)
  | .shutterInterval port => decide (port < 4)
  | .shutterCycleBoundary port => decide (port < 4)
  | .guardBandStart port => decide (port < 4)
  | .pauseTimerExpiry port prio => decide (port < 4) && (match prio with | some k => decide (k < 8) | none => true)
  | .verifyResponse port => decide (port < 4)
  | .verifyTimeout port => decide (port < 4)
  | .pcsConditionLost port _ => decide (port < 4)
  | .pcsConditionRegained port _ => decide (port < 4)
  | .linkDown port => decide (port < 4)
  | .linkUp port => decide (port < 4)
  | .revertHoldExpiry pair => decide (pair < 2)
  | .offsetSample _ _ => true
  | .quarantineEnd => true
  | .slewEnd => true
  | .stepApply => true
  | .ppsEdge _ => true
  | .tdmFrame group _ _ => decide (group < 2)
  | .tdmFramed group => decide (group < 2)
  | .tdmGroupLost group _ => decide (group < 2)
  | .tdmMUpdate group _ => decide (group < 2)
  | .tdmMasterStart group => decide (group < 2)
  | .referenceTrip source => decide (source < 7)
  | .referenceQualified source => decide (source < 7)
  | .referenceLock => true
  | .coastEnd => true
  | .acquireLock => true
  | .rampEnd => true
  | .gateQuiesced domain => decide (domain < 100)
  | .gateTimeout domain => decide (domain < 100)
  | .powerWakeDone domain => decide (domain < 63)
  | .deepSleepEntered domain => decide (domain < 63)
  | .autoDeepSleep block => decide (block < 16)
  | .powerOnReset _ _ => true
  | .resetN _ => true
  | .perstN _ => true
  | .chipWatchdog => true
  | .deviceResetSequence _ => true
  | .lifeCycleTransition _ => true
  | .patrolScrub _ _ _ => true
  | .contextRebuilt channel => decide (channel < 16384)
  | .blockIsolation block _ _ => decide (block < 16)
  | .cellReturn cell => decide (cell < 128)
  | .jobStart region _ => decide (region < 4)
  | .enlargerJobEnd region _ => decide (region < 4)
  | .reducerJobEnd region _ => decide (region < 4)
  | .flitReceived port _ => decide (port < 4)
  | .linkRetrain port => decide (port < 4)
  | .laneLost port => decide (port < 4)
  | .laneRetrained port => decide (port < 4)
  | .stackLinkLost port => decide (port < 4)
  | .forwardedPacket device _ => decide (device < 8)
  | .stackLegBlock device channel leg _ _ => decide (device < 8) && decide (channel < 16384) && decide (leg < 2)
  | .timeFlitExchange port _ _ _ _ => decide (port < 4)
  | .stackStepRelay _ _ => true
  | .advertisement member _ => decide (member < 8)
  | .contextFrameReceived device channel _ _ _ => decide (device < 8) && decide (channel < 16384)
  | .flowTableCopy _ _ => true
  | .stackJoinTimeout => true
  | .forwardedFylos device _ => decide (device < 8)
  | .illegalWord i _ => decide (i.cell < 128)
  | .nop i => decide (i.cell < 128)
  | .damiumLockstepMismatch => true
  | .scopeResetComplete scope id => scopeHas scope id
  | .managementFirmwareSwitched => true

end Sys2Proof
end

