-- ==== Sys2Proof/Certificates/Slice0/Obligations.lean ====
section
/-! DEFINITION. The statements of slice 0, in the order of the spec's chapters: the queue and reset, the Fylos commands, the host rings and
the test port, the voice engine words, the events, the whole-machine rules. -/

open Sys2Proof Sys2Proof.Machine Sys2Proof.Safety

/-! ## The queue and reset -/

/-- A command at the front of the queue is carried out on the machine with the queue's rest (the model's form of "a command comes"). -/
def Obligations.StepRunsFrontOfQueue : Prop :=
  ∀ (i : Instr) (rest : List Instr) (s : State),
    step { s with pending := i :: rest } = exec i { s with pending := rest }

/-- Every command, on every state, ends in a next state: no command of the table stops the part (R24). -/
def Obligations.EveryCommandGoesOn : Prop :=
  ∀ (i : Instr) (s : State), goesOn (exec i s)

/-! ## Fylos commands, 0x01xx (R438 to R441, R395, R420, R421, R501, R506) -/

/-- From any source, once admitted. DEV_HELLO tells the nonce, the versions, the number and the life-cycle state (R421); DEV_UDP_KEY_SET keeps
a key where the present life-cycle state has none (R420); DEV_NOTICE_CONFIG sets a destination, which keeps its queue and SEQUENCE (R441);
DEV_RESET and DEV_LIFECYCLE follow their reply, the latter with the nonce given and a state above the present one (R439, R506); DEV_ARB_SET
and REGION_ARB_SET hold the weights given; BLOCK_CONFIG leaves a spare policy for the next tick (R395), REPLACE where the sum of the block
leaves the budget of seven cells. BLOCK_RESET, CELL_RESET and REGION_RESET are ACCEPTED and wipe their scope, in the states of R440: no
channels in a block or region, a cell that is trapped or an unbound reserve, no reset of the scope around it under way. -/
def Obligations.DeviceAndBlockCommandsComplete : Prop :=
  ∀ (p : Packet) (s u : State) (c : Ctx),
    (Admitted 0x0101 p s u c →
      Reports (.devHello p) s u c [nonceTlv u, supportedVersions, rep 0x400 4 u.stack.number, rep 0x401 1 u.life.lifeCycle] u) ∧
    (∀ k, Admitted 0x0102 p s u c → u.udpKey? = none → paramBytes? c.params 0x40 = some k →
      Replies (.devUdpKeySet p) s c stOk [] { u with life := { u.life with udpKeys := tabPut u.life.udpKeys u.life.lifeCycle k } }) ∧
    (∀ d k, Admitted 0x0103 p s u c → d = paramNat c.params 0x40 0 →
      k = (match paramNat? c.params 0x41 with | some n => destKindOf n | none => (u.dest d).kind) →
      (k = (u.dest d).kind ∨ ∀ t ∈ destNeeds k, paramHas c.params t = true) →
      Replies (.devNoticeConfig p) s c stOk [] (u.setDest d { u.dest d with
        kind := k, ringPair := paramNat c.params 0x42 (u.dest d).ringPair, addr := (paramBytes? c.params 0x43).getD (u.dest d).addr,
        port := paramNat c.params 0x44 (u.dest d).port, groups := paramNat c.params 0x45 (u.dest d).groups % 2 ^ 11,
        version := paramNat c.params 0x46 (u.dest d).version })) ∧
    (Admitted 0x0105 p s u c → Becomes (.devReset p) s (u.reply c.ref stOk [] .reset)) ∧
    (∀ k, Admitted 0x0106 p s u c → paramNat? c.params 0x40 = some k → paramBytes? c.params 0x41 = some (u.fylos.bootNonce.take 4) →
      u.life.lifeCycle < k → (u.life.lifeCycle = 0 → u.life.keyBlank = false) →
      Becomes (.devLifecycle p) s (u.reply c.ref stOk [] (.lifeCycle k))) ∧
    (Admitted 0x0107 p s u c →
      Replies (.devArbSet p) s c stOk [] { u with board := { u.board with weights := weightsWith c.params u.board.weights } }) ∧
    (Admitted 0x0115 p s u c →
      Replies (.regionArbSet p) s c stOk [] (u.modRegion c.id (fun r => { r with weights := weightsWith c.params r.weights }))) ∧
    (Admitted 0x0110 p s u c →
      (paramNat? c.params 0x40 = some 0 → nextSpare (u.block c.id) = true ∨ (u.blockSums c.id).1 ≤ 99960) →
      Replies (.blockConfig p) s c stOk [] (match paramNat? c.params 0x40 with
        | none => u
        | some n => u.modBlock c.id (fun k => { k with sparePending := some (n == 0) }))) ∧
    (Admitted 0x0112 p s u c → hasRoom u c → u.holdsChannels c.id = false → (u.region (blockRegion c.id)).underReset = false →
      Becomes (.blockReset p) s (((acceptedOver c (u.awaitReset 2 c.id c.ref)).wakeForReset (blockDomains c.id)).wipeBlock c.id)) ∧
    (Admitted 0x0113 p s u c → hasRoom u c → (u.block (cellBlock c.id)).underReset = false →
      (u.region (blockRegion (cellBlock c.id))).underReset = false →
      ((u.cell c.id).trap.isSome = true ∨ ((u.block (cellBlock c.id)).reserve = some (cellLocal c.id) ∧
        boundTo (u.block (cellBlock c.id)) (cellLocal c.id) = [])) →
      Becomes (.cellReset p) s (((acceptedOver c (u.awaitReset 3 c.id c.ref)).wakeForReset (blockDomains (cellBlock c.id))).modCell c.id
        (fun k => { underReset := true, memTraps := k.memTraps }))) ∧
    (Admitted 0x0114 p s u c → hasRoom u c → (regionBlocks c.id).all (fun b => !(u.holdsChannels b)) = true →
      Becomes (.regionReset p) s (((((regionBlocks c.id).foldl (fun t b => t.wakeForReset (blockDomains b))
        (acceptedOver c (u.awaitReset 1 c.id c.ref))).wakeForReset [52 + c.id]).wipeRegion c.id)))

/-! ## Fylos commands, 0x02xx (R40 to R51, R56, R397, R442 to R444, R496, R544, R545) -/

/-- From any source, once admitted, in the states of Table 2.3. CH_OPEN places an IDLE channel and wakes its block: from DEEP_SLEEP it is
ACCEPTED (R51). CH_SET_LEG binds a leg, or changes some of its settings, where the parameters its type needs are there, the units they name
take it, and admission and the resampler leave room (R443). CH_ACTIVATE, CH_HOLD, CH_RESUME and CH_DRAIN report the new state and tell the
thread, or answer NO_CHANGE in it already; CH_CLOSE and CH_DRAIN from OPEN return the channel to IDLE. CH_MOVE begins a move within the
device or to another one (R46, R544), CH_RECOVER sets a FAULTED channel OPEN where it finds a place (R47), and CH_SCHED_SET leaves its
settings for the next tick origin (R397). -/
def Obligations.ChannelStateCommandsComplete : Prop :=
  ∀ (p : Packet) (s u : State) (c : Ctx),
    (∀ b t v, Admitted 0x0201 p s u c → (u.channel c.id).state = .idle → blockOf c.id (paramNat c.params 0x41 0xFF) = some b →
      u.place b c.id = .inl t → v = (u.openAt c.id b t (paramNat c.params 0x40 0 == 1)).channelNotice c.id .idle .opened 0 0 →
      (u.blockMode b = .run → Replies (.chOpen p) s c stOk [] v) ∧
      (u.blockMode b = .sleep → Replies (.chOpen p) s c stOk [] (v.wakeBlock b)) ∧
      (u.blockMode b = .deepSleep → hasRoom u c → Becomes (.chOpen p) s
        (acceptedOver c ((v.modChannel c.id (fun k => { k with wakeRef := some c.ref })).startWake b)))) ∧
    (∀ leg old l t, Admitted 0x0202 p s u c → settingsRow (u.channel c.id).state = none → leg = paramNat c.params 0x40 0 →
      old = (u.channel c.id).leg leg → l = u.askedLeg c.params old → (∀ k ∈ askedNeeds c.params old l, paramHas c.params k = true) →
      (∀ q ∈ c.params, q.typ = 0x40 ∨ q.typ = 0x41 ∨ q.typ ∈ legTypes l.kind) →
      (l.kind = .none → leg = 0 → paramHas c.params 0x41 = false) → u.legRefusal c.id leg l = none →
      t = (if freshBinding c.params old = true ∧ l.kind = .rtp then dropSettings (u.channel c.id).accepted .codec leg
        else (u.channel c.id).accepted) →
      u.admitChange (u.channel c.id) (chargeOf (u.channel c.id).wide t ((u.channel c.id).setLeg leg l).legA
        ((u.channel c.id).setLeg leg l).legB) = none →
      u.unitsFit (u.channel c.id).block ((u.channel c.id).reservedAt leg) (u.legUnits t (u.channel c.id).rate leg l) = true →
      ∃ v, Replies (.chSetLeg p) s c stOk [] v ∧ (v.channel c.id).legA = ((u.channel c.id).setLeg leg l).legA ∧
        (v.channel c.id).legB = ((u.channel c.id).setLeg leg l).legB ∧ (v.channel c.id).accepted = t ∧
        (v.channel c.id).state = (u.channel c.id).state ∧ ∀ k, k ≠ c.id → v.channel k = u.channel k) ∧
    (Admitted 0x0203 p s u c →
      ((u.channel c.id).state = .active → Replies (.chActivate p) s c stNoChange [] u) ∧
      ((u.channel c.id).state = .opened → (u.channel c.id).legA.bound = true → (u.channel c.id).legA.kind ≠ .none →
        ((u.channel c.id).legB.kind = .none ∨ (u.channel c.id).legB.bound = true) →
        u.admission (u.channel c.id).block (0, 0) (u.channel c.id).charge = none →
        Replies (.chActivate p) s c stOk [] (((u.modChannel c.id (fun v => { v with state := .active })).channelNotice c.id
          .opened .active 0 0).postCommand c.id .activate))) ∧
    (Admitted 0x0204 p s u c →
      ((u.channel c.id).state = .hold → Replies (.chHold p) s c stNoChange [] u) ∧
      ((u.channel c.id).state = .active → Replies (.chHold p) s c stOk []
        (((u.modChannel c.id (fun v => { v with state := .hold })).channelNotice c.id .active .hold 0 0).postCommand c.id .hold))) ∧
    (Admitted 0x0205 p s u c →
      ((u.channel c.id).state = .active → Replies (.chResume p) s c stNoChange [] u) ∧
      ((u.channel c.id).state = .hold → Replies (.chResume p) s c stOk []
        (((u.modChannel c.id (fun v => { v with state := .active })).channelNotice c.id .hold .active 0 0).postCommand c.id .resume))) ∧
    (Admitted 0x0206 p s u c →
      ((u.channel c.id).state = .draining → Replies (.chDrain p) s c stNoChange [] u) ∧
      ((u.channel c.id).state = .opened → Replies (.chDrain p) s c stOk []
        ((u.enterIdle c.id).channelNotice c.id .opened .idle 0 0)) ∧
      (((u.channel c.id).state = .active ∨ (u.channel c.id).state = .hold) → Replies (.chDrain p) s c stOk []
        (((u.modChannel c.id (fun v => { v with state := .draining })).channelNotice c.id (u.channel c.id).state .draining 0 0).postCommand
          c.id .drain))) ∧
    (Admitted 0x0207 p s u c →
      ((u.channel c.id).state = .idle → Replies (.chClose p) s c stNoChange [] u) ∧
      ((u.channel c.id).state ≠ .idle → (u.channel c.id).state ≠ .migrating →
        Replies (.chClose p) s c stOk [] ((u.enterIdle c.id).channelNotice c.id (u.channel c.id).state .idle 0 0))) ∧
    (∀ d, Admitted 0x0208 p s u c → hasRoom u c → d = paramNat c.params 0x40 u.stack.number →
      ((u.channel c.id).state = .opened ∨ (u.channel c.id).state = .active ∨ (u.channel c.id).state = .hold) →
      (∀ b t, d = u.stack.number → blockOf c.id (paramNat c.params 0x41 0xFF) = some b → u.slotHere b c.id = .inl t →
        Becomes (.chMove p) s ((acceptedOver c u).moveHere c.id b t (some c.ref))) ∧
      (d ≠ u.stack.number → u.awayRefusal c.id d = none →
        Becomes (.chMove p) s ((acceptedOver c u).moveAway c.id d (paramNat c.params 0x41 0xFF) (some c.ref)))) ∧
    (∀ b t, Admitted 0x0209 p s u c → hasRoom u c → (u.channel c.id).state = .faulted → u.recoverPlace c.id = .inl (b, t) →
      ∃ v, Becomes (.chRecover p) s (acceptedOver c v) ∧ (v.channel c.id).state = .opened ∧ (v.channel c.id).block = b ∧
        (v.channel c.id).slot = some t ∧ (v.channel c.id).accepted = (u.channel c.id).accepted ∧
        (v.channel c.id).legA = (u.channel c.id).legA ∧ (v.channel c.id).legB = (u.channel c.id).legB ∧
        (v.channel c.id).restarts = (u.channel c.id).restarts) ∧
    (∀ l, Admitted 0x020B p s u c → l = settingsOf .sched 0 c.params →
      Replies (.chSchedSet p) s c stOk []
        ((u.modChannel c.id (fun v => { v with accepted := mergeSettings v.accepted l })).modBlock (u.channel c.id).block
          (fun k => { k with schedule := k.schedule ++ [(c.id, l)] })))

/-! ## Fylos commands, 0x03xx (R141 to R166, R445, R446, R540) -/

/-- From any source, once admitted. FLOW_INSERT, FLOW_REMOVE and FLOW_MODIFY act on the table at once on a device alone, where R142 and R143
refuse nothing and the table has a place; in a stack they are ACCEPTED and join the changes that wait, and a follower sends the change to the
sequencer (R144, R540). SRTP_SET, for a new context with what it needs (R446) or an old one, with or without RESET; SRTP_CLEAR of a context
that nothing names (R154); TEMPLATE_LOAD of a template that parses and has a place (R163), TEMPLATE_REMOVE of one that no leg uses; PE_CONFIG
with a port that no flow entry has. -/
def Obligations.FlowAndPacketCommandsComplete : Prop :=
  ∀ (p : Packet) (s u : State) (c : Ctx),
    (∀ (i : Instr) (op : Nat) (e : FlowChange),
      ((op = 0x0301 ∧ i = .flowInsert p ∧ e = .insert (flowWith c.params (u.newFlow ((paramBytes? c.params 0x40).getD [])))) ∨
       (op = 0x0302 ∧ i = .flowRemove p ∧ e = .remove (paramNat c.params 1 0)) ∨
       (op = 0x0303 ∧ i = .flowModify p ∧ e = .modify (flowWith c.params (match flowById u.flows (paramNat c.params 1 0) with
         | some o => flowSettingsOf o
         | none => u.newFlow [])))) →
      Admitted op p s u c →
      (u.stacked = false → u.flowRefusal e = none → (applyChange u.flows e).2 = true →
        Replies i s c stOk [] { u with flows := (applyChange u.flows e).1 }) ∧
      (u.stacked = true → hasRoom u c → ∀ v, v = { u with stack := { u.stack with changes := u.stack.changes ++ [(some c.ref, e)] } } →
        (u.isFollower = false → Becomes i s (acceptedOver c v)) ∧
        (u.isFollower = true → Becomes i s (acceptedOver c (v.sendMessage u.stackRoot 0x11 (changeContent e)))))) ∧
    (∀ i old k d, Admitted 0x0305 p s u c → paramNat? c.params 0x40 = some i → old = tabFind? u.flows.contexts i →
      k = contextWith c.params (old.getD newContext) → (old = none → ∀ t ∈ [1, 2, 3], paramHas c.params t = true) →
      u.contextFault i old k = none →
      d = (if old.isNone = true ∨ paramFlag c.params 10 false = true then contextFresh c.params k else k) →
      Replies (.srtpSet p) s c stOk [] { u with flows := { u.flows with contexts := tabPut u.flows.contexts i d } }) ∧
    (∀ i, Admitted 0x0306 p s u c → paramNat? c.params 0x40 = some i → (tabFind? u.flows.contexts i).isSome = true →
      u.contextInUse i = false →
      Replies (.srtpClear p) s c stOk [] { u with flows := { u.flows with contexts := tabDrop u.flows.contexts i } }) ∧
    (∀ i b k, Admitted 0x0308 p s u c → paramNat? c.params 0x40 = some i → paramBytes? c.params 0x43 = some b →
      templateParses (paramNat c.params 0x41 0) b = true → (paramFlag c.params 0x42 true = true ∨ templateIpv6 b = false) →
      (tabHas u.flows.templates i = true ∨ u.flows.templates.length < 4096) →
      k = { kind := paramNat c.params 0x41 0, udpCsum := paramFlag c.params 0x42 true, bytes := b } →
      Replies (.templateLoad p) s c stOk [] { u with flows := { u.flows with templates := tabPut u.flows.templates i k } }) ∧
    (∀ i, Admitted 0x0309 p s u c → paramNat? c.params 0x40 = some i → tabHas u.flows.templates i = true →
      u.egressRecords.any (fun l => l.template == i) = false →
      Replies (.templateRemove p) s c stOk [] { u with flows := { u.flows with templates := tabDrop u.flows.templates i } }) ∧
    (∀ q, Admitted 0x030A p s u c → q = paramNat c.params 0x43 u.flows.udpPort →
      (q = u.flows.udpPort ∨ (flowAll u.flows).any (fun e => keyPort e.key == q) = false) →
      Replies (.peConfig p) s c stOk [] { u with flows := { u.flows with
        hostMiss := (match paramNat? c.params 0x40 with | some v => v == 1 | none => u.flows.hostMiss),
        hostRate := paramNat c.params 0x41 u.flows.hostRate, holdLimit := paramNat c.params 0x42 u.flows.holdLimit, udpPort := q } })

/-! ## Fylos commands, 0x04xx to 0x07xx and USER_HOOK_SET (R38, R447 to R450) -/

/-- From any source, once admitted. ECHO_SET, PLAYOUT_SET, CODEC_SET, RESAMPLE_SET, GAIN_SET, TONE_DETECT_SET and USER_HOOK_SET hold what they
give as the channel's accepted settings and tell its thread (R38), with the reset or restart they ask for; TONE_PLAY, TONE_STOP, PROMPT_PLAY,
PROMPT_STOP and RESAMPLE_RESET reach the thread. Each needs what R196, R198, R220, R243, R277, R279, R281, R292 and R348 ask: values that agree,
tables and prompts that are held, admission, resampler units and a place in the line of plays. TONE_STOP, PROMPT_STOP and RESAMPLE_RESET of a
named stream answer NO_CHANGE where nothing plays or the stream does not exist. -/
def Obligations.ChannelUnitCommandsComplete : Prop :=
  ∀ (p : Packet) (s u : State) (c : Ctx) (v : Channel), v = u.channel c.id →
    (∀ l, Admitted 0x0401 p s u c → l = settingsOf .echo 0 (c.params.filter (fun q => q.typ != 19)) →
      u.admitChange v (chargeOf v.wide (mergeSettings v.accepted l) v.legA v.legB) = none →
      Replies (.echoSet p) s c stOk [] (if paramFlag c.params 19 false then (u.acceptSettings c.id l).postCommand c.id .echoReset
        else u.acceptSettings c.id l)) ∧
    (∀ l mn mx ini, Admitted 0x0501 p s u c → l = settingsOf .playout 0 (c.params.filter (fun q => q.typ != 9)) →
      mn = settingNat (mergeSettings v.accepted l) .playout 0 2 (ms 20) → mx = settingNat (mergeSettings v.accepted l) .playout 0 3 (ms 200) →
      ini = settingNat (mergeSettings v.accepted l) .playout 0 4 (ms 40) → mn ≤ ini → ini ≤ mx →
      Replies (.playoutSet p) s c stOk [] (if paramFlag c.params 9 false then (u.acceptSettings c.id l).postCommand c.id .windowRestart
        else u.acceptSettings c.id l)) ∧
    (∀ leg l n, Admitted 0x0601 p s u c → leg = paramNat c.params 0x40 0 → (v.leg leg).kind = .rtp → codecOutcome c u = .inl l →
      u.admitChange v (chargeOf v.wide (mergeSettings v.accepted l) v.legA v.legB) = none →
      n = u.legUnits (mergeSettings v.accepted l) v.rate leg (v.leg leg) → u.unitsFit v.block (v.reservedAt leg) n = true →
      Replies (.codecSet p) s c stOk [] ((u.setChannel c.id (v.reserve leg n)).acceptSettings c.id l)) ∧
    (∀ n l t w, Admitted 0x0603 p s u c → paramNat? c.params 1 = some n →
      l = settingsOf .resample n (c.params.filter (fun q => q.typ != 1)) → t = mergeSettings v.accepted l →
      (∀ k ∈ namedKeys n, (v.stream k).present = true → chainPermitted t n (v.stream k).chain.fin (v.stream k).chain.fout = true) →
      w = u.reservedWith v t → u.unitsFit v.block v.reservedUnits w.reservedUnits = true →
      Replies (.resampleSet p) s c stOk [] ((u.setChannel c.id w).acceptSettings c.id l)) ∧
    (Admitted 0x0604 p s u c →
      (paramNat? c.params 1 = none → Replies (.resampleReset p) s c stOk [] (u.postCommand c.id (.resampleReset none))) ∧
      (∀ n, paramNat? c.params 1 = some n →
        ((∃ k ∈ namedKeys n, (v.stream k).present = true) →
          Replies (.resampleReset p) s c stOk [] (u.postCommand c.id (.resampleReset (some n)))) ∧
        ((∀ k ∈ namedKeys n, (v.stream k).present = false) → Replies (.resampleReset p) s c stNoChange [] u))) ∧
    (∀ (leg : Nat) (given : List (List Byte)) (ids : List Nat), Admitted 0x0701 p s u c → leg = paramNat c.params 0x40 0 →
      given = paramAll c.params 1 → ids = (given.filter (fun b => b != [])).map beNat → ([] ∈ given → given.length = 1) →
      (∀ i ∈ ids, u.holdsKind i .detector = true ∧ (u.tableKind i).map (·.2) = some (v.rate * 1000)) →
      (paramHas c.params 2 = true → ∀ i, i < 21 →
        u.holdsKind ((paramNat? c.params 2).getD (eventToneBase v.accepted v.wide leg) + i) .generator = true) →
      (given ≠ [] → ids.length + (detectorIds v.accepted v.wide (1 - leg)).length ≤ 4) →
      Replies (.toneDetectSet p) s c stOk [] (u.acceptSettings c.id
        (settingsOf .tone leg (c.params.filter (fun q => q.typ != 1)) ++
          (if given = [] then [] else [(setKey .tone leg 1, (ids.map uintV).flatten)])))) ∧
    (∀ leg id rate n w, Admitted 0x0702 p s u c → leg = paramNat c.params 0x40 0 → id = paramNat c.params 0x41 0 →
      u.tableKind id = some (.generator, rate) → n = playerUnits v.accepted v leg (rate / 1000) →
      u.unitsFit v.block (v.reservedAt (2 + leg)) n = true → w = v.reserve (2 + leg) n →
      Replies (.tonePlay p) s c stOk [] ((u.setChannel c.id (w.setLegMedia leg
          { w.legMedia leg with toneWanted := true, toneRate := rate / 1000 })).postCommand c.id
        (.tone leg id (paramNat c.params 0x42 0) ((paramInt? c.params 0x43).getD 0)))) ∧
    (∀ leg, Admitted 0x0703 p s u c → leg = paramNat c.params 0x40 0 →
      ((v.legMedia leg).toneWanted = true → Replies (.toneStop p) s c stOk []
        ((u.setChannel c.id (v.setLegMedia leg { v.legMedia leg with toneWanted := false })).postCommand c.id (.stopTone leg))) ∧
      ((v.legMedia leg).toneWanted = false → Replies (.toneStop p) s c stNoChange [] u)) ∧
    (Admitted 0x0704 p s u c →
      (∀ e ∈ [(3, TableKind.gainCurve), (4, TableKind.gainCurve), (5, TableKind.agc), (6, TableKind.agc)], ∀ i,
        paramNat? c.params e.1 = some i → i = noneValue ∨ u.holdsKind i e.2 = true) →
      Replies (.gainSet p) s c stOk [] (u.acceptSettings c.id (settingsOf .gain (paramNat c.params 0x40 0) c.params))) ∧
    (∀ (leg : Nat) (ids rates : List Nat) (queue : Bool) (n : Nat) (m : LegMedia), Admitted 0x0722 p s u c →
      leg = paramNat c.params 0x40 0 → ids = (paramAll c.params 0x41).map beNat → queue = paramFlag c.params 0x46 false →
      m = v.legMedia leg → (∀ i ∈ ids, (tabFind? u.store.prompts i).isSome = true) → (queue = true → m.playsWanted < 5) →
      rates = (if queue then m.playRates else []) ++
        ids.map (fun i => match tabFind? u.store.prompts i with | some q => q.rate / 1000 | none => v.rate) →
      n = promptUnits v.accepted v leg rates → u.unitsFit v.block (v.reservedAt (4 + leg)) n = true →
      Replies (.promptPlay p) s c stOk [] ((u.setChannel c.id ((v.reserve (4 + leg) n).setLegMedia leg
          { m with playsWanted := if queue then m.playsWanted + 1 else 1, playRates := rates })).postCommand c.id
        (.play leg ids (paramNat c.params 0x42 1) (paramNat c.params 0x43 0) ((paramInt? c.params 0x44).getD 0)
          (paramFlag c.params 0x45 true) queue))) ∧
    (∀ leg, Admitted 0x0723 p s u c → leg = paramNat c.params 0x40 0 →
      ((v.legMedia leg).playsWanted ≠ 0 → Replies (.promptStop p) s c stOk []
        ((u.setChannel c.id (v.setLegMedia leg { v.legMedia leg with playsWanted := 0 })).postCommand c.id (.stopPlay leg))) ∧
      ((v.legMedia leg).playsWanted = 0 → Replies (.promptStop p) s c stNoChange [] u)) ∧
    (∀ l, Admitted 0x0C21 p s u c → l = c.params.map (fun q => (setKey .hook 0 q.typ, q.val)) →
      (∀ t ∈ [0x40, 0x41], ∀ i, paramNat? c.params t = some i → i = noneValue ∨ i < u.kernelEntries) →
      u.admitChange v (chargeOf v.wide (mergeSettings v.accepted l) v.legA v.legB) = none →
      Replies (.userHookSet p) s c stOk [] (u.acceptSettings c.id l))

/-- The stores, from any source, once admitted. TABLE_LOAD, from chunks or from the window, of an ID from 0x100 with an image that fits and
at most 16 loads waiting, is ACCEPTED: it waits, or is handed to an engine at once where none is under way (R285). TABLE_DELETE and
PROMPT_DELETE of what nothing uses; PROMPT_LOAD, from the window, of a prompt whose header and pieces agree, that no leg plays and that the store
has room for (R289, R291); PROMPT_STORE_CONFIG and TRACE_CONFIG where the areas fit and no job reaches into them (R568), the former with
an empty store; TRACE_DUMP with a chain in the window; USER_KERNEL_LOAD of a kernel of a fit length with no hook set (R347). -/
def Obligations.StoreCommandsComplete : Prop :=
  ∀ (p : Packet) (s u : State) (c : Ctx),
    (∀ id chunks q v, Admitted 0x0710 p s u c → hasRoom u c → paramNat? c.params 0x40 = some id → chunks = paramAll c.params 0x43 →
      ((chunks ≠ [] ∧ (∀ e ∈ c.params, e.typ ≠ 0x41 ∧ e.typ ≠ 0x42) ∧ q = .bytes chunks.flatten) ∨
       (chunks = [] ∧ paramHas c.params 0x41 = true ∧ paramHas c.params 0x42 = true ∧
         u.inSight (paramNat c.params 0x41 0) (paramNat c.params 0x42 0) = true ∧
         q = .dram (paramNat c.params 0x41 0) (paramNat c.params 0x42 0))) →
      0x100 ≤ id → originalOver (u.sourceBytes q) 65536 = false → u.store.loads.length ≤ 16 →
      v = { u with store := { u.store with loads := u.store.loads ++ [{ ref := c.ref, id := id, source := q }] } } →
      Becomes (.tableLoad p) s (acceptedOver c (if u.store.loads = [] then v.runLoad else v))) ∧
    (∀ id, Admitted 0x0711 p s u c → paramNat? c.params 0x40 = some id → (u.tableImage id).isSome = true → 0x100 ≤ id → u.tableUses id = 0 →
      Replies (.tableDelete p) s c stOk [] { u with store := { u.store with tables := tabDrop u.store.tables id } }) ∧
    (∀ id a k, Admitted 0x0720 p s u c → hasRoom u c → id = paramNat c.params 0x40 0 → a = paramNat c.params 0x41 0 →
      k = paramNat c.params 0x42 0 → u.inSight a k = true → promptHeaderOk (memRead u.store.dram a k) = true →
      promptPiecesOk (memRead u.store.dram a k) = true → u.playing id = 0 →
      u.promptBytes + u.promptsComing + k - u.promptSize id ≤ u.store.storeSize →
      Becomes (.promptLoad p) s (acceptedOver c (u.queueJob (newJob u c (.prompt id) (.dram a k) none)))) ∧
    (∀ id, Admitted 0x0721 p s u c → paramNat? c.params 0x40 = some id → (tabFind? u.store.prompts id).isSome = true → u.playing id = 0 →
      Replies (.promptDelete p) s c stOk [] { u with store := { u.store with
        prompts := tabDrop u.store.prompts id, cache := u.store.cache.filter (fun e => e.prompt != id),
        badPieces := u.store.badPieces.filter (fun e => e.1 != id) } }) ∧
    (∀ a b, Admitted 0x0725 p s u c → a = paramNat c.params 0x40 u.store.storeSize → b = paramNat c.params 0x41 u.store.cacheSize →
      a ≤ 1073741824 → a % mib = 0 → 4 * mib ≤ b → b ≤ 256 * mib → u.resizeRefusal a b u.store.traceSize = none → u.store.prompts = [] →
      Replies (.promptStoreConfig p) s c stOk [] (u.resized a b u.store.traceSize)) ∧
    (∀ size, Admitted 0x0E02 p s u c → size = (match paramNat? c.params 0x42 with | some n => n * mib | none => u.store.traceSize) →
      u.resizeRefusal u.store.storeSize u.store.cacheSize size = none →
      ∃ v, Replies (.traceConfig p) s c stOk [] v ∧ v.store.traceOn = paramFlag c.params 0x40 u.store.traceOn ∧
        v.store.traceMask = paramNat c.params 0x41 u.store.traceMask ∧ v.store.traceSize = size ∧
        v.store.storeSize = u.store.storeSize ∧ v.store.cacheSize = u.store.cacheSize ∧ v.channels = u.channels) ∧
    (∀ a, Admitted 0x0E03 p s u c → hasRoom u c → paramHas c.params 0x43 = true → a = paramNat c.params 0x43 0 → a % 16 = 0 →
      u.inSight a 16 = true →
      Becomes (.traceDump p) s (acceptedOver c (u.drawn.queueJob (newJob u c .traceDump (.bytes u.traceBytes) (some a))))) ∧
    (∀ a k, Admitted 0x0C20 p s u c → hasRoom u c → a = paramNat c.params 0x41 0 → k = paramNat c.params 0x42 0 → u.inSight a k = true →
      originalOver (memRead u.store.dram a k) 16448 = false → u.hookedChannels = 0 →
      Becomes (.userKernelLoad p) s (acceptedOver c (u.queueJob (newJob u c .kernel (.dram a k) none))))

/-! ## Fylos commands, 0x08xx and 0x09xx (R301 to R312, R126 to R140, R451) -/

/-- From any source, once admitted. TDM_GROUP_CONFIG sets a group, which frames anew where a setting other than the alignment changes, a new
master only while the TDM domain runs (R305); TDM_HIGHWAY_CONFIG sets a highway, its mode only with no slot bound (R308); TDM_LOOPBACK of a
highway or of a slot that the mode has (R312).

The time commands: on a device that is the time root TIME_CONFIG keeps or changes the owner of PTP, TIME_SET and TIME_STEP fall due as steps
(a step of 0 is NO_CHANGE), SERVO_SAMPLE is a sample while HOST owns PTP (R128, R131); SERVO_CONFIG holds its settings, on a follower without
MODE and QUARANTINE, and MODE sets the servo (R132); PORT_TS_CONFIG holds what it gives; PTP_SEND queues its frame while HOST owns PTP, the
frame fits the port, and ONE_STEP asks for a Sync (R118). -/
def Obligations.TdmAndTimeCommandsComplete : Prop :=
  ∀ (p : Packet) (s u : State) (c : Ctx),
    (∀ g, Admitted 0x0801 p s u c → g = u.carryM (u.group c.id) (groupWith c.params (u.group c.id)) →
      (g.master = true → (u.group c.id).master = true ∨ (u.powerDomain 62).mode = .run) →
      Replies (.tdmGroupConfig p) s c stOk [] (if reframes (u.group c.id) g then
        (u.setGroup c.id (reframe g)).groupNotice c.id .search .config else u.setGroup c.id (shiftGrid (u.group c.id) g))) ∧
    (∀ h m, Admitted 0x0802 p s u c → h = u.highway c.id → m = (match paramNat? c.params 1 with | some n => hwModeOf n | none => h.mode) →
      (m = h.mode ∨ (u.highwayBound c.id = false ∧ (m = .disabled ∨ (u.powerDomain 62).mode = .run))) →
      Replies (.tdmHighwayConfig p) s c stOk [] (u.setHighway c.id
        { h with mode := m, bitOffset := paramNat c.params 2 h.bitOffset,
                 unusedIdle := match paramNat? c.params 3 with | some n => n == 0 | none => h.unusedIdle,
                 idleCode := BitVec.ofNat 8 (paramNat c.params 4 h.idleCode.toNat) })) ∧
    (∀ m, Admitted 0x0803 p s u c → m = loopModeOf (paramNat c.params 0x40 0) →
      (paramNat? c.params 0x41 = none →
        Replies (.tdmLoopback p) s c stOk [] (u.setHighway c.id { u.highway c.id with loop := m })) ∧
      (∀ n, paramNat? c.params 0x41 = some n → (u.highway c.id).beyond n = false →
        Replies (.tdmLoopback p) s c stOk [] (u.setTdmSlot (slotKey c.id n) { u.tdmSlot (slotKey c.id n) with loop := m }))) ∧
    (Admitted 0x0901 p s u c → u.isFollower = false →
      ((paramNat? c.params 1 = none ∨ ∃ k, paramNat? c.params 1 = some k ∧ u.time.hostOwner = (k == 1)) →
        Replies (.timeConfig p) s c stOk [] u) ∧
      (∀ k v, paramNat? c.params 1 = some k → u.time.hostOwner ≠ (k == 1) → v = [0, 1, 2, 3].foldl (fun t i => t.flushSheet i) u →
        Replies (.timeConfig p) s c stOk [] (State.servoMode { v with time := { v.time with hostOwner := k == 1 } } .hold))) ∧
    (Admitted 0x0902 p s u c → u.isFollower = false → Replies (.timeSet p) s c stOk [] (u.commandStep
      (.set (paramNat c.params 0x40 0) (paramNat c.params 0x41 0) (paramNat c.params 0x42 0)))) ∧
    (∀ a, Admitted 0x0903 p s u c → u.isFollower = false → paramInt? c.params 0x40 = some a →
      (a ≠ 0 → Replies (.timeStep p) s c stOk [] (u.commandStep (.command a))) ∧
      (a = 0 → Replies (.timeStep p) s c stNoChange [] u)) ∧
    (∀ v, Admitted 0x0905 p s u c → (u.isFollower = true → paramNat? c.params 1 = none ∧ paramNat? c.params 11 = none) →
      v = { u with time := { u.time with
        kp := paramNat c.params 2 u.time.kp, ki := paramNat c.params 3 u.time.ki,
        sampleLog2 := (paramInt? c.params 4).getD u.time.sampleLog2, manualFreq := (paramInt? c.params 5).getD u.time.manualFreq,
        lockCount := paramNat c.params 6 u.time.lockCount, stepThreshold := paramNat c.params 7 u.time.stepThreshold,
        slewRate := paramNat c.params 8 u.time.slewRate, backwardStep := paramFlag c.params 9 u.time.backwardStep,
        suspectThreshold := paramNat c.params 10 u.time.suspectThreshold,
        quarantineLimit := paramNat c.params 11 u.time.quarantineLimit } } →
      (paramNat? c.params 1 = none → Replies (.servoConfig p) s c stOk [] { v with time := followManual v.time }) ∧
      (∀ k w, paramNat? c.params 1 = some k →
        w = State.servoMode { v with stack := { v.stack with holdUntil := false } } (if k = 0 then .off else if k = 1 then .run else .hold) →
        Replies (.servoConfig p) s c stOk [] { w with time := followManual w.time })) ∧
    (Admitted 0x0906 p s u c → u.isFollower = false → u.time.hostOwner = true →
      Replies (.servoSample p) s c stOk [] (u.ownerSample ((paramInt? c.params 0x40).getD 0) (paramFlag c.params 0x41 false))) ∧
    (Admitted 0x0907 p s u c → Replies (.portTsConfig p) s c stOk [] (u.setPort c.id { u.port c.id with
      boardTx := (paramInt? c.params 1).getD (u.port c.id).boardTx, boardRx := (paramInt? c.params 2).getD (u.port c.id).boardRx,
      asymmetry := (paramInt? c.params 3).getD (u.port c.id).asymmetry })) ∧
    (∀ f, Admitted 0x0908 p s u c → paramBytes? c.params 0x40 = some f → f.length + 4 ≤ u.frameLimit c.id → u.time.hostOwner = true →
      (paramFlag c.params 0x42 false = true → isSync f = true) →
      Replies (.ptpSend p) s c stOk [] (u.queuePtp c.id f (paramFlag c.params 0x41 false) (paramFlag c.params 0x42 false)
        (paramNat c.params 0x43 0)))

/-! ## Fylos commands, 0x0Axx to 0x0Exx (R63 to R104, R452, R453, R472, R483 to R499, R511, R535, R546, R550) -/

/-- From any source, once admitted. PORT_CONFIG holds its settings, a changed MODE taking the link down (R104), where they agree, the port is in
no pair or goes DISABLED, and its domain runs for a mode other than DISABLED (R96, R99); SHUTTER_LOAD makes a good schedule the pending one and
completes the one it replaces (R80); PORT_PAIR on an even port forms a pair of ports of one MODE, changes one, dissolves one, or answers
NO_CHANGE (R94, R98).

CLOCK_CONFIG takes an order without repeats that names a qualified reference, or any in Frost, and acts on it by the state of the
controller (R472); DOMAIN_GATE and POWER_SET queue their change where the domain can take it, and a POWER_SET that changes no mode completes at
once (R487, R489, R496); CLKOUT_SET and TCLK_OUT_SET hold their outputs, with the slew step of R593 (R488, R490). -/
def Obligations.PortAndClockCommandsComplete : Prop :=
  ∀ (p : Packet) (s u : State) (c : Ctx),
    (∀ o q m v w, Admitted 0x0A01 p s u c → o = (u.port c.id).settle u.now10 → q = portWith c.params o →
      m = (match paramNat? c.params 1 with | some n => portModeOf n | none => o.mode) →
      fieldAt ((paramBytes? c.params 2).getD [0]) 0 1 % 2 = 0 → q.bulkPfcMask.testBit q.mediaPcp = false →
      (m = o.mode ∨ m = .disabled ∨ ((u.pair (c.id / 2)).joined = false ∧ (u.powerDomain (56 + c.id)).mode = .run)) →
      v = u.setPort c.id (if q.preempt ≠ o.preempt ∧ o.up = true then q.applyPreempt u.time.powered else q) →
      w = (if m ≠ o.mode then v.changeMode c.id m else v) →
      Replies (.portConfig p) s c stOk [] ((w.gateStep c.id).dropTooLong c.id)) ∧
    (∀ b g v, Admitted 0x0A02 p s u c → hasRoom u c → paramBytes? c.params 0x43 = some b →
      g = { cycle := paramNat c.params 0x40 0, baseSeconds := paramNat c.params 0x41 0, baseNs := paramNat c.params 0x42 0,
            list := listWords 16384 b } →
      scheduleFault g b.length = none →
      v = (match (u.port c.id).pendingSchedule with
        | some k => (u.bumpPort c.id .shutterReplaced).complete k.ref stShutterReplaced []
        | none => u) →
      Becomes (.shutterLoad p) s (acceptedOver c (v.modPort c.id (fun q =>
        { q with pendingSchedule := some { schedule := g, ref := c.ref, notBefore := u.count10 } })))) ∧
    (∀ k o q, Admitted 0x0A04 p s u c → c.id % 2 = 0 → k = c.id / 2 → o = u.pair k →
      q = { o with joined := true, revert := paramFlag c.params 0x41 o.revert, revertHold := paramNat c.params 0x42 o.revertHold } →
      (paramFlag c.params 0x40 false = false → o.joined = true → Replies (.portPair p) s c stOk [] ((u.setPair k {}).pairNotice k none 5)) ∧
      (paramFlag c.params 0x40 false = false → o.joined = false → Replies (.portPair p) s c stNoChange [] u) ∧
      (paramFlag c.params 0x40 false = true → (u.port c.id).mode = (u.port (c.id + 1)).mode →
        (o.joined = true → q = o → Replies (.portPair p) s c stNoChange [] u) ∧
        (o.joined = true → q ≠ o → Replies (.portPair p) s c stOk [] (u.setPair k q)) ∧
        (∀ a, o.joined = false →
          a = (if (u.port c.id).up then some c.id else if (u.port (c.id + 1)).up then some (c.id + 1) else none) →
          Replies (.portPair p) s c stOk [] ((u.setPair k { q with active := a }).pairNotice k a 0)))) ∧
    (∀ codes v, Admitted 0x0D01 p s u c → repeatedParam c.params [] = none → codes = c.params.map (fun q => beNat q.val) →
      (u.clocks.frost = true ∨ codes.any (fun k => u.clocks.qualified.contains k) = true) →
      v = { u with clocks := { u.clocks with order := codes } } →
      (u.clocks.ctrl = .start ∨ u.clocks.ctrl = .coast → Replies (.clockConfig p) s c stOk [] v) ∧
      (u.clocks.ctrl = .frost → Replies (.clockConfig p) s c stOk [] v.acquire) ∧
      (u.clocks.ctrl = .hold ∨ u.clocks.ctrl = .acquire ∨ u.clocks.ctrl = .ramp →
        Replies (.clockConfig p) s c stOk [] { v with clocks := { v.clocks with recheck := true } }) ∧
      (u.clocks.ctrl = .locked → Replies (.clockConfig p) s c stOk [] (match v.clocks.best with
        | some b => if u.clocks.selected = some b then v else v.beginSwitch b
        | none => v))) ∧
    (∀ d m, Admitted 0x0D03 p s u c → hasRoom u c → d = paramNat c.params 0x40 0 → m = paramNat c.params 0x41 0 → ungated d = false →
      (48 ≤ d ∨ m.testBit 0 = true ∨ u.holdsChannels (d % 16) = false) →
      Becomes (.domainGate p) s (acceptedOver c (u.addGate { ref := some c.ref, use := .enables d m, touches := [d] })).runGates) ∧
    (∀ d n, Admitted 0x0D04 p s u c → paramNat? c.params 0x40 ≠ some 98 →
      d = (match paramNat? c.params 0x40 with | some d => some d | none => u.clocks.clkoutDomain) →
      n = paramNat c.params 0x42 u.clocks.clkoutDivide →
      (∀ k, d = some k → 24 ≤ divisorOf k * n → Replies (.clkoutSet p) s c stOk [] { u with clocks := { u.clocks with
        clkoutDomain := some k, clkoutDivide := n, clkoutOn := paramFlag c.params 0x43 u.clocks.clkoutOn,
        clkoutSlew := clockSlew 3000000000 (divisorOf k * n) } }) ∧
      (d = none → paramFlag c.params 0x43 u.clocks.clkoutOn = false →
        Replies (.clkoutSet p) s c stOk [] { u with clocks := { u.clocks with clkoutDivide := n } })) ∧
    (∀ f on k, Admitted 0x0D05 p s u c → f = paramNat c.params 0x40 u.clocks.tclkFreq → on = paramFlag c.params 0x41 u.clocks.tclkOn →
      k = { u.clocks with tclkFreq := f, tclkOn := on, tclkSlew := clockSlew f 1 } →
      Replies (.tclkOutSet p) s c stOk [] { u with clocks := if f ≠ u.clocks.tclkFreq ∨ (on = true ∧ u.clocks.tclkOn = false) then
        { k with tclkStarted := false, tclkPhase := 0, tclkError := 0, tclkAligns := false } else k }) ∧
    (∀ d v, Admitted 0x0D06 p s u c → hasRoom u c → d = paramNat c.params 0x40 0 → (paramHas c.params 0x42 = true → d < 16) →
      v = (match paramNat? c.params 0x42 with | some n => u.setPower d { u.powerDomain d with auto := n != 0 } | none => u) →
      (paramNat? c.params 0x41 = none → Becomes (.powerSet p) s (completedOver c v)) ∧
      (∀ n m, paramNat? c.params 0x41 = some n → m = powerModeOf n → u.depthKept d m = true → (m = .run ∨ u.mustRun d = false) →
        Becomes (.powerSet p) s (if u.plannedMode d = m ∧ (u.powerDomain d).mode = m ∧ (u.powerDomain d).changing = none then
          completedOver c v
        else (acceptedOver c (v.addGate { ref := some c.ref, use := .power [d] m, touches := powerClocks d })).runGates)))

/-- From any source, once admitted. STACK_CONFIG with links that fit the topology and are powered and with no channel open is ACCEPTED, and
completes at once where number, topology and links stay or the topology is NONE; else the device leaves its stack and joins anew (R535).
BLOCK_EVACUATE begins, to this device or to one it can reach (R546). FW_LOAD of a slot that nothing runs; FW_ACTIVATE of a slot that holds an
image writes the selector copy not in use (R511); FW_BLOCK_ACTIVATE resets an empty block onto a slot, and switches Damium where it runs
another (R550). IMAGE_ENLARGE and IMAGE_REDUCE with source and chain in the window (R460, R461). A command for another member that can be
reached is sent to it and noted, for every row (R411). -/
def Obligations.StackAndFirmwareCommandsComplete : Prop :=
  ∀ (p : Packet) (s u : State) (c : Ctx),
    (∀ n t m v w, Admitted 0x0B01 p s u c → hasRoom u c → n = paramNat c.params 0x40 u.stack.number →
      t = (match paramNat? c.params 0x41 with | some k => topologyOf k | none => u.stack.topology) →
      m = paramNat c.params 0x42 u.stack.links → linksAgree t m = true → u.channels.any (fun e => e.2.state != .idle) = false →
      u.linksPowered m = true → v = (if u.stack.joining.isSome then u.failJoin else u.leaveStack) →
      w = { v with stack := { v.stack with
        number := n, members := [n], topology := t, links := m, ptpForward := paramFlag c.params 0x43 u.stack.ptpForward } } →
      Becomes (.stackConfig p) s
        (if n = u.stack.number ∧ t = u.stack.topology ∧ m = u.stack.links then
          completedOver c { u with stack := { u.stack with ptpForward := paramFlag c.params 0x43 u.stack.ptpForward } }
        else if t = .none then completedOver c w
        else acceptedOver c { w with stack := { w.stack with
          joining := some { ref := c.ref, since := u.time.powered, tableCopied := false } } })) ∧
    (∀ d, Admitted 0x0B03 p s u c → hasRoom u c → d = paramNat c.params 0x40 u.stack.number →
      (d = u.stack.number ∨ u.canReach d = true) →
      Becomes (.blockEvacuate p) s ((acceptedOver c (u.modBlock c.id (fun k =>
        { k with evacuating := true, evacuation := k.evacuation ++ [c.ref], evacuateTo := d }))).evacuate c.id)) ∧
    (∀ k a n, Admitted 0x0C01 p s u c → hasRoom u c → k = paramNat c.params 0x40 0 → a = paramNat c.params 0x41 0 →
      n = paramNat c.params 0x42 0 → u.inSight a n = true → u.slotRuns k = false →
      Becomes (.fwLoad p) s (acceptedOver c (u.queueJob (newJob u c (.firmware k) (.dram a n) none)))) ∧
    (∀ k, Admitted 0x0C02 p s u c → k = paramNat c.params 0x40 0 → (u.fwSlot k).held = true →
      Replies (.fwActivate p) s c stOk [] { u with life := (match u.life.selectorInUse with
        | some 0 => { u.life with selector1 := { valid := true, slot := k, generation := u.life.selector0.generation + 1 } }
        | some _ => { u.life with selector0 := { valid := true, slot := k, generation := u.life.selector1.generation + 1 } }
        | none => { u.life with selector0 := { valid := true, slot := k, generation := 1 } }) }) ∧
    (∀ k v w, Admitted 0x0C04 p s u c → hasRoom u c → k = paramNat c.params 0x40 0 → u.holdsChannels c.id = false →
      (u.fwSlot k).held = true → (u.region (blockRegion c.id)).underReset = false → u.activateRefused c.id k = false →
      v = acceptedOver c (u.awaitReset 2 c.id c.ref) →
      w = ((v.wakeForReset (blockDomains c.id)).wipeBlock c.id).modBlock c.id (fun b => { b with activate := some k }) →
      Becomes (.fwBlockActivate p) s (if v.life.management = k then w else
        { w with fylos := { w.fylos with switching := true }, life := { w.life with switchTo := some k } })) ∧
    (∀ a n d, a = paramNat c.params 0x41 0 → n = paramNat c.params 0x42 0 → d = paramNat c.params 0x43 0 → hasRoom u c →
      u.inSight a n = true → d % 16 = 0 → u.inSight d 16 = true →
      (Admitted 0x0C05 p s u c →
        Becomes (.imageEnlarge p) s (acceptedOver c (u.queueJob (newJob u c .imageEnlarge (.dram a n) (some d))))) ∧
      (Admitted 0x0C06 p s u c →
        Becomes (.imageReduce p) s (acceptedOver c (u.queueJob (newJob u c .imageReduce (.dram a n) (some d)))))) ∧
    (∀ (i : Instr) (op : Nat) (o : OpSpec) (b : Bool) (d : Nat), fylosRow i = some (op, p) → Reaches op p s u b → opSpec? op = some o →
      headerRefusal u op (some o) (readAt p) = none → deviceHere u (readAt p) = false → d = packetDevice (readAt p) →
      u.canReach d = true → (u.mayAccept o = false ∨ outstandingOf u p.source < 1024) →
      ∃ t, exec i s = .next t ∧
        t.stack.forwarded = u.stack.forwarded ++ [{ device := d, ref := refOf op (readAt p) b }] ∧ t.channels = u.channels ∧
        t.flows = u.flows ∧ t.life = u.life)

/-! ## Queries (R17, R193, R428, R436) -/

/-- From any source, once admitted, every query of the reference answers OK with what its entry names, read on the machine as it stands, and
changes nothing; with CLEAR it clears the counters it has reported, and no more (R17, R193). A version 3 reply that would not fit one part
is REPLY_TOO_LARGE instead (R428). FLOW_QUERY, SRTP_QUERY, TABLE_QUERY, TABLE_READ and PROMPT_QUERY of an ID need the entry that it names;
CODEC_QUERY needs an RTP leg, ECHO_COEF_READ partitions that the canceller has outside IDLE, TDM_QUERY one of GROUP and HIGHWAY with SLOT only
beside the latter, RS_ROM_READ words that the table has. SENSOR_QUERY and the age in a TIME_QUERY without a sample draw the model's free
values (log entry 1). -/
def Obligations.QueriesReportAndChangeNothing : Prop :=
  ∀ (p : Packet) (s u : State) (c : Ctx) (v : Channel), v = u.channel c.id →
    (Admitted 0x0104 p s u c →
      Reports (.devQuery p) s u c u.deviceTlvs (if c.clear then { u with fylos := { u.fylos with counts := [] } } else u)) ∧
    (Admitted 0x0111 p s u c → Reports (.blockQuery p) s u c (u.blockTlvs c.id)
      (if c.clear then u.modBlock c.id (fun k => { k with counts := [] }) else u)) ∧
    (Admitted 0x020A p s u c → Reports (.chQuery p) s u c (u.channelTlvs v) u) ∧
    (∀ e, Admitted 0x0304 p s u c → flowById u.flows (paramNat c.params 1 0) = some e → Reports (.flowQuery p) s u c (u.flowTlvs e)
      (if c.clear then { u with flows := flowUpdate u.flows (paramNat c.params 1 0) (fun e => { e with counts := [] }) } else u)) ∧
    (∀ i k d, Admitted 0x0307 p s u c → i = paramNat c.params 0x40 0 → tabFind? u.flows.contexts i = some k → d = { k with counts := [] } →
      Reports (.srtpQuery p) s u c (srtpTlvs k)
        (if c.clear then { u with flows := { u.flows with contexts := tabPut u.flows.contexts i d } } else u)) ∧
    (Admitted 0x030B p s u c → Reports (.peCounters p) s u c u.peCounterTlvs (if c.clear then u.clearPe else u)) ∧
    (Admitted 0x0402 p s u c →
      (v.state = .idle → Reports (.echoQuery p) s u c echoIdleTlvs u) ∧
      (v.state ≠ .idle → Reports (.echoQuery p) s u c (echoTlvs v) (if c.clear then
        u.setChannel c.id { v with media := { v.media with echo := { v.media.echo with counts := [] } } } else u))) ∧
    (∀ f k, Admitted 0x0403 p s u c → f = paramNat c.params 0x40 0 → k = paramNat c.params 0x41 1 → v.state ≠ .idle → 0 < k →
      f + k ≤ partitions v.accepted v.wide →
      Reports (.echoCoefRead p) s u c ((List.range k).map (fun i =>
        [instanceTlv 8 (f + i), { typ := 0x400, val := partitionBytes v.media.echo (f + i) }])).flatten u) ∧
    (Admitted 0x0502 p s u c → Reports (.playoutQuery p) s u c (playoutTlvs v c.fixedOnly)
      (if c.clear then u.setChannel c.id (playoutCleared v) else u)) ∧
    (∀ l, Admitted 0x0602 p s u c → l = queriedLegs v c.params → (∀ i ∈ l, (v.leg i).kind = .rtp) →
      Reports (.codecQuery p) s u c (l.map (codecLegTlvs v c.fixedOnly)).flatten
        (if c.clear then u.setChannel c.id (codecCleared v l) else u)) ∧
    (∀ l, Admitted 0x0605 p s u c → l = queriedKeys v c.params →
      Reports (.resampleQuery p) s u c (l.map (streamTlvs u v)).flatten (if c.clear then u.setChannel c.id (streamsCleared v l) else u)) ∧
    (Admitted 0x0712 p s u c →
      (paramNat? c.params 0x40 = none → Reports (.tableQuery p) s u c (u.tableIds.map u.tableTlvs).flatten u) ∧
      (∀ i, paramNat? c.params 0x40 = some i → (u.tableImage i).isSome = true → Reports (.tableQuery p) s u c (u.tableTlvs i) u)) ∧
    (∀ g, Admitted 0x0713 p s u c → u.tableImage (paramNat c.params 0x40 0) = some g →
      Reports (.tableRead p) s u c (imageTlvs 0x400 65 g) u) ∧
    (∀ tail t, Admitted 0x0724 p s u c → tail = [rep 0x404 8 u.promptBytes, rep 0x405 8 (cacheBytes u.store.cache)] ++
        counterTlvs 0x800 3 u.store.promptCounts →
      t = (if c.clear then { u with store := { u.store with promptCounts := [] } } else u) →
      (paramNat? c.params 0x40 = none →
        Reports (.promptQuery p) s u c ((u.store.prompts.map (fun e => u.promptTlvs e.1 e.2)).flatten ++ tail) t) ∧
      (∀ i q, paramNat? c.params 0x40 = some i → tabFind? u.store.prompts i = some q →
        Reports (.promptQuery p) s u c (u.promptTlvs i q ++ tail) t)) ∧
    (Admitted 0x0804 p s u c →
      (∀ g, paramNat? c.params 0x40 = some g → paramNat? c.params 0x41 = none → paramHas c.params 0x42 = false →
        Reports (.tdmQuery p) s u c (groupTlvs u (u.group g)) (if c.clear then u.setGroup g { u.group g with counts := [] } else u)) ∧
      (∀ h n, paramNat? c.params 0x40 = none → paramNat? c.params 0x41 = some h → paramNat? c.params 0x42 = some n →
        (u.highway h).beyond n = false →
        Reports (.tdmQuery p) s u c (highwayTlvs (u.highway h) ++ slotTlvs (u.tdmSlot (slotKey h n)))
          (if c.clear then clearSlots u [slotKey h n] else u)) ∧
      (∀ h, paramNat? c.params 0x40 = none → paramNat? c.params 0x41 = some h → paramNat? c.params 0x42 = none →
        Reports (.tdmQuery p) s u c (highwayTlvs (u.highway h) ++ rep 0x400 1 (u.highway h).loop.ctorIdx ::
            ((u.reportSlots h).map (fun k => instanceTlv 5 (k % 128) :: slotTlvs (u.tdmSlot k))).flatten)
          (if c.clear then clearSlots u (u.reportSlots h) else u))) ∧
    (∀ t, Admitted 0x0904 p s u c → t = (if u.time.lastSample.isNone then u.drawn else u) →
      Reports (.timeQuery p) s u c u.timeTlvs (if c.clear then { t with time := { t.time with counts := [] } } else t)) ∧
    (Admitted 0x0A03 p s u c → Reports (.shutterQuery p) s u c (u.shutterTlvs c.id) u) ∧
    (∀ q, Admitted 0x0A05 p s u c → q = (u.port c.id).settle u.now10 →
      Reports (.portCounters p) s u c (counterTlvs 0x800 26 q.counts ++ [rep 0x400 1 (boolNat q.up)])
        (u.setPort c.id (if c.clear then { q with counts := [] } else q))) ∧
    (Admitted 0x0B02 p s u c → Reports (.stackQuery p) s u c u.memberStackTlvs (if c.clear then u.clearStack else u)) ∧
    (Admitted 0x0C03 p s u c → Reports (.fwQuery p) s u c u.firmwareTlvs u) ∧
    (Admitted 0x0C22 p s u c → Reports (.userKernelQuery p) s u c [rep 0x400 1 u.kernelEntries,
      rep 0x401 2 (if u.store.kernel = [] then 0 else u16 u.store.kernel 8), rep 0x402 4 u.hookedChannels] u) ∧
    (Admitted 0x0D02 p s u c →
      Reports (.clockQuery p) s u c u.clockTlvs (if c.clear then { u with clocks := { u.clocks with counts := [] } } else u)) ∧
    (Admitted 0x0D07 p s u c → Reports (.powerQuery p) s u c u.allPowerTlvs (if c.clear then u.clearPower else u)) ∧
    (Admitted 0x0E01 p s u c →
      Reports (.errorLogRead p) s u c (logTlvs u.log (paramNat c.params 0x40 u.log.oldest) (paramNat c.params 0x41 256))
        (if c.clear then { u with log := { u.log with corrected := 0, uncorrected := 0, fatal := 0 } } else u)) ∧
    (Admitted 0x0E04 p s u c → Reports (.sensorQuery p) s u c u.sensorTlvs u.drawn) ∧
    (∀ e f k, Admitted 0x0E10 p s u c → paramHas c.params 0x40 = true → e = paramNat c.params 0x40 0 → f = paramNat c.params 0x41 0 →
      k = paramNat c.params 0x42 (romWords e - f) → f < romWords e → f + k ≤ romWords e →
      Reports (.rsRomRead p) s u c (imageTlvs 0x400 65 ((List.range k).map (fun i => beInt 4 (romWord e (f + i)))).flatten) u)

/-! ## What every Fylos command passes (R400 to R432) -/

/-- The row of an opcode runs that opcode's own rules, whichever source the command comes from.

A VERSION other than 3 and 4 is refused with VERSION_UNSUPPORTED, which carries the versions that are (R428), for every row.

A command is refused whole with no effect: where the header or the parameters are refused, the machine changes by the one reply alone
(R404), for every row. -/
def Obligations.RefusalsHaveNoEffect : Prop :=
  (∀ (i : Instr) (op : Nat) (p : Packet) (s : State), fylosRow i = some (op, p) → exec i s = .next (fylosRun op (bodyOf op) p s)) ∧
  (∀ (i : Instr) (op n : Nat) (p : Packet) (s : State), fylosRow i = some (op, p) → Delivered n p s → p.version ≠ 3 → p.version ≠ 4 →
     exec i s = .next (s.reply (refOf op (ringPacket p) false) stVersionUnsupported [supportedVersions] .none)) ∧
  (∀ (i : Instr) (op n : Nat) (p : Packet) (s : State), fylosRow i = some (op, p) → Delivered n p s →
     (∀ st l, headerRefusal s op (opSpec? op) (ringPacket p) = some (st, l) →
       exec i s = .next (s.reply (refOf op (ringPacket p) false) st l .none)) ∧
     (∀ o st l, headerRefusal s op (opSpec? op) (ringPacket p) = none → deviceHere s (ringPacket p) = true → opSpec? op = some o →
       admitCommand s op o (ringPacket p) false = .inl (st, l) →
       exec i s = .next (s.reply (refOf op (ringPacket p) false) st l .none)))

/-- An opcode that the reference does not list is refused with UNKNOWN_OPCODE, and the refusal changes nothing (R432, R404). -/
def Obligations.UnlistedOpcodeRefused : Prop :=
  ∀ (op : BitVec 16) (n : Nat) (p : Packet) (s : State), Delivered n p s → opSpec? op.toNat = none →
    (p.version = 3 ∨ p.version = 4) → badHeader (ringPacket p) = false →
    exec (.unknownOpcode op p) s = .next (s.reply (refOf op.toNat (ringPacket p) false) stUnknownOpcode [] .none)

/-- A command that would be answered ACCEPTED while its source has 1,024 completions outstanding is refused with PENDING_LIMIT and has no
effect (R409): every row runs rules of its own, and at the limit an answer of ACCEPTED is this refusal; so no source comes to hold more
than 1,024. -/
def Obligations.PendingLimitHolds : Prop :=
  (∀ (i : Instr) (op : Nat) (p : Packet), fylosRow i = some (op, p) → ∃ rules : Body,
    (∀ (n : Nat) (s : State) (c : Ctx), Taken op n p s c → exec i s = .next (giveAnswer s c.ref (rules c s))) ∧
    (∀ (n : Nat) (s : State) (c : Ctx), Taken op n p s c → 1024 ≤ outstandingOf s (.ring n) →
      ((∃ t f, rules c s = .accepted t f) ∨ (∃ st l t, rules c s = .completed st l t)) →
      exec i s = .next (s.reply c.ref stPendingLimit [] .none))) ∧
  (∀ (s t : State) (c : CmdRef) (l : List Tlv) (st : Nat), t.fylos.outstanding = s.fylos.outstanding → outstandingOf s c.source ≤ 1024 →
    outstandingOf (giveAnswer s c (.accepted t id)) c.source ≤ 1024 ∧
    outstandingOf (giveAnswer s c (.completed st l t)) c.source ≤ 1024) ∧
  (∀ (n : Nat) (p : Packet) (s : State) (c : Ctx), Taken 0x0112 n p s c → s.holdsChannels c.id = false →
    (s.region (blockRegion c.id)).underReset = false → 1024 ≤ outstandingOf s (.ring n) →
    exec (.blockReset p) s = .next (s.reply c.ref stPendingLimit [] .none))

/-- A bad MAGIC on a ring: the command is discarded without reply, intake on the pair stops at the entry, and
CMD_ERROR, ERR_CAUSE and ERR_INDEX record it (R401, R415), for every row; the other pairs keep their state but for a notice.

While Damium takes no command, or an item of the pair waits for room, a ring command waits at its source and changes nothing else
(R416, R578). A datagram that comes during a reset or a firmware switch is discarded (R550, R554); one that comes while Damium is halted
waits, as a command from the stack does. -/
def Obligations.IntakeStopsAndWaits : Prop :=
  ∀ (i : Instr) (op : Nat) (p : Packet) (s : State), fylosRow i = some (op, p) →
    (∀ n, p.source = .ring n → s.damiumTakes = true → (s.ring n).held = [] → (s.ring n).replyWait = false → p.magic ≠ 0x4659 →
      ∃ t, exec i s = .next t ∧ (t.ring n).cmdError = true ∧ (t.ring n).errCause = 1 ∧ (t.ring n).errIndex = (s.ring n).cmdHead ∧
        (t.ring n).stopped = true ∧ (t.ring n).cmdHead = (s.ring n).cmdHead ∧ t.channels = s.channels ∧ t.flows = s.flows ∧
        t.life = s.life ∧ ∀ m, m ≠ n → (t.ring m).cmdError = (s.ring m).cmdError) ∧
    (∀ n, p.source = .ring n → (s.damiumTakes = false ∨ (s.ring n).replyWait = true ∨ (s.ring n).held ≠ []) →
      exec i s = .next (s.modRing n (fun r => { r with held := r.held ++ [(op, p)] }))) ∧
    (∀ a q e, p.source = .udp a q e → (s.fylos.switching = true ∨ s.fylos.ready = false) → exec i s = .next s) ∧
    (∀ a q e, p.source = .udp a q e → s.fylos.switching = false → s.fylos.ready = true → s.fylos.halted = true →
      exec i s = .next { s with fylos := { s.fylos with heldUdp := s.fylos.heldUdp ++ [(op, p)] } }) ∧
    (∀ a q e, p.source = .udp a q e → s.damiumTakes = true → p.magic ≠ 0x4659 → exec i s = .next (s.bumpFylos .badMagic)) ∧
    (∀ d k, p.source = .stack d k → s.fylos.ready = false → exec i s = .next s) ∧
    (∀ d k, p.source = .stack d k → s.fylos.ready = true → (s.fylos.switching = true ∨ s.fylos.halted = true) →
      exec i s = .next { s with fylos := { s.fylos with heldUdp := s.fylos.heldUdp ++ [(op, p)] } })

/-- Without a UDP key of the present life-cycle state a UDP command other than an untagged DEV_HELLO gets one answer, NO_UDP_KEY, and is not run; with a key an untagged one
is answered AUTH_REQUIRED; both only within 100 answers in a second, and discarded and counted beyond them; a wrong tag is discarded and counted (R420, R421, R423). In
DECOMMISSIONED every one is discarded and counted, and one whose length is not that of R419 anywhere. -/
def Obligations.UdpNeedsAKey : Prop :=
  ∀ (i : Instr) (op : Nat) (p : Packet) (a : List Byte) (q e : Nat) (s t : State) (live : List Nat), fylosRow i = some (op, p) → p.source = .udp a q e →
    s.damiumTakes = true → p.magic = 0x4659 →
    live = s.fylos.hellos.filter (fun t => s.time.powered < t + oneSecond) →
    t = { s with fylos := { s.fylos with hellos := live ++ [s.time.powered] } } →
    ((p.params.length ≠ p.paramLen.toNat ∨ p.tag.length ≠ (if packetAuth p then 16 else 0) ∨ p.rsvd.length ≠ 7) →
      exec i s = .next (s.bumpFylos .badLength)) ∧
    (p.params.length = p.paramLen.toNat → p.tag.length = (if packetAuth p then 16 else 0) → p.rsvd.length = 7 →
      (s.life.lifeCycle = 3 → exec i s = .next (s.bumpFylos .badStateDiscard)) ∧
      (s.life.lifeCycle ≠ 3 → (op ≠ 0x0101 ∨ packetAuth p = true) →
        (s.udpKey? = none → live.length < 100 → exec i s = .next (t.reply (refOf op p false) stNoUdpKey [] .none)) ∧
        (∀ k, s.udpKey? = some k → packetAuth p = false → live.length < 100 →
          exec i s = .next (t.reply (refOf op p false) stAuthRequired [] .none)) ∧
        ((s.udpKey? = none ∨ packetAuth p = false) → 100 ≤ live.length → exec i s = .next (s.bumpFylos .helloDiscard)) ∧
        (∀ k, s.udpKey? = some k → packetAuth p = true → p.tag ≠ wantedTag s k op p → exec i s = .next (s.bumpFylos .authFail))) ∧
      (s.life.lifeCycle ≠ 3 → op = 0x0101 → packetAuth p = false → 100 ≤ live.length → exec i s = .next (s.bumpFylos .helloDiscard)))

/-- A tagged UDP command whose SEQUENCE has been accepted already is never executed again: a duplicate of a cached command gets its cached
packets once more, and only the count of duplicates and the packets on their way out change (R425); one whose header or parameters differ
from the cached is refused with DUPLICATE_MISMATCH, and one that is cached no more, or 1,024 or more behind, with AUTH_REPLAY (R424, R425).
Nothing but a packet on its way out changes there. -/
def Obligations.DuplicateNotExecuted : Prop :=
  ∀ (i : Instr) (op : Nat) (p : Packet) (a : List Byte) (q e : Nat) (s : State) (k : List Byte) (back : Nat),
    fylosRow i = some (op, p) → p.source = .udp a q e → s.damiumTakes = true → p.magic = 0x4659 →
    p.params.length = p.paramLen.toNat → packetAuth p = true → p.tag.length = 16 → p.rsvd.length = 7 → s.life.lifeCycle ≠ 3 →
    s.udpKey? = some k → p.tag = wantedTag s k op p → s.fylos.first = false →
    back = (s.fylos.highest - p.sequence).toNat →
    (∀ h, back < 1024 → s.fylos.window.contains back = true → s.fylos.cache.find? (fun c => c.sequence == p.sequence.toNat) = some h →
      (h.header = headerKey op p → h.params = p.params →
        exec i s = .next ((s.send p.source (h.replies ++ h.completions)).bumpFylos .duplicates)) ∧
      ((h.header ≠ headerKey op p ∨ h.params ≠ p.params) →
        exec i s = .next (s.send p.source (partsOf (answer .reply (refOf op p true) s.stack.number stDuplicateMismatch [] .none) (s.partLimit p.source))))) ∧
    (((back < 1024 ∧ s.fylos.window.contains back = true ∧ s.fylos.cache.find? (fun c => c.sequence == p.sequence.toNat) = none) ∨
        (1024 ≤ back ∧ back ≤ 0x80000000)) →
      exec i s = .next (s.send p.source (partsOf (answer .reply (refOf op p true) s.stack.number stAuthReplay [] .none) (s.partLimit p.source))))

/-- With CLEAR, DEV_QUERY, BLOCK_QUERY, CLOCK_QUERY and ERROR_LOG_READ carry the counters as they stood and clear them (R17, R193). -/
def Obligations.ClearClearsCounters : Prop :=
  ∀ (n : Nat) (p : Packet) (s : State) (c : Ctx), c.clear = true →
    (Taken 0x0104 n p s c → ∃ l, (∀ x ∈ counterTlvs 0x800 9 s.fylos.counts, x ∈ l) ∧
      (fits c l → Replies (.devQuery p) s c stOk l { s with fylos := { s.fylos with counts := [] } })) ∧
    (Taken 0x0111 n p s c → ∃ l, (∀ x ∈ counterTlvs 0x800 13 (s.block c.id).counts, x ∈ l) ∧
      (fits c l → Replies (.blockQuery p) s c stOk l (s.modBlock c.id (fun k => { k with counts := [] })))) ∧
    (Taken 0x0D02 n p s c → ∃ l, (∀ x ∈ counterTlvs 0x800 15 s.clocks.counts, x ∈ l) ∧
      (fits c l → Replies (.clockQuery p) s c stOk l { s with clocks := { s.clocks with counts := [] } })) ∧
    (Taken 0x0E01 n p s c → ∃ l, (∀ x ∈ logTotals s.log, x ∈ l) ∧
      (fits c l → Replies (.errorLogRead p) s c stOk l { s with log := { s.log with corrected := 0, uncorrected := 0, fatal := 0 } }))

/-! ## Host rings and registers (R14 to R16, R112, R122, R126, R412 to R417, R500, R504, R560 to R569, R575, R581) -/

/-- Ring pairs, form by form. While the endpoint takes no memory requests none of the four writes does anything (R502). Otherwise enabling a
disabled pair zeroes its four indices and begins intake, and an enabled one stays as it is; a doorbell sets CMD_TAIL and, where the pair
takes commands, covers the entries up to it; a write of RPL_HEAD moves the head and frees what the host has consumed; disabling stops
intake and keeps the replies owed (R412, R414, R416). What Damium can then take it takes, which `service` names.

A part is written only where the reply ring has room for the whole of it, and RPL_TAIL then moves by its entries; a write that fails stops
the pair with DMA_ERROR, cause 4 (R415, R416). The vector is signalled when COAL_COUNT entries are not yet signalled, or once COAL_TIME has
passed since the first of them (R417). -/
def Obligations.RingCommandsAndRepliesComplete : Prop :=
  (∀ (n : Nat) (s : State) (tail head : BitVec 12) (l : List (List Byte)), s.hostOpen = false →
     exec (.cmdTailDoorbell n tail l) s = .next s ∧ exec (.rplHeadWrite n head) s = .next s ∧ exec (.ringEnable n) s = .next s ∧
     exec (.ringDisable n) s = .next s) ∧
  (∀ (n : Nat) (s : State) (r : Ring), r = s.ring n → s.hostOpen = true → n < 4 →
     (r.enable = true → exec (.ringEnable n) s = .next s) ∧
     (r.enable = false → ∃ t, exec (.ringEnable n) s = .next (State.service t) ∧ (t.ring n).enable = true ∧
       (t.ring n).cmdTail = 0 ∧ (t.ring n).cmdHead = 0 ∧ (t.ring n).rplHead = 0 ∧ (t.ring n).rplTail = 0 ∧ (t.ring n).covered = [] ∧
       (t.ring n).stopped = false ∧ t.channels = s.channels) ∧
     (∀ tail l w, w = { r with cmdTail := tail, covered := r.covered ++ (if r.enable ∧ ¬ r.stopped then newEntries r.cmdTail tail l else []) } →
       exec (.cmdTailDoorbell n tail l) s = .next (State.service (s.modRing n (fun _ => w)))) ∧
     (∀ head w, w = { r with rplHead := head, written := unconsumed (r.rplTail - head).toNat r.written } →
       exec (.rplHeadWrite n head) s = .next (State.service (s.modRing n (fun _ => w)))) ∧
     exec (.ringDisable n) s = .next (s.modRing n (fun r => { r with enable := false, covered := [] }))) ∧
  (∀ (n : Nat) (s : State) (r : Ring), r = s.ring n →
     (∀ ok, r.waiting = [] → exec (.replyWrite n ok) s = .next s) ∧
     (∀ q l ok, r.waiting = q :: l → r.room < partEntries q → exec (.replyWrite n ok) s = .next s) ∧
     (∀ q l, r.waiting = q :: l → partEntries q ≤ r.room → ∃ t, exec (.replyWrite n false) s = .next t ∧
       (n < 4 → (t.ring n).dmaError = true ∧ (t.ring n).errCause = 4 ∧ (t.ring n).errIndex = r.rplTail ∧ (t.ring n).stopped = true ∧
         (t.ring n).covered = [] ∧ (t.ring n).waiting = []) ∧ t.channels = s.channels ∧ ∀ m, m ≠ n → t.ring m = s.ring m) ∧
     (∀ q l k w v, r.waiting = q :: l → k = partEntries q → k ≤ r.room →
       w = { r with waiting := l, written := r.written ++ [q], rplTail := r.rplTail + BitVec.ofNat 12 k, unsignalled := r.unsignalled + k,
                    coalSince := if r.unsignalled = 0 then s.time.powered else r.coalSince } →
       v = s.modRing n (fun _ => w) →
       exec (.replyWrite n true) s = .next (State.service (State.partLeft
         (if r.coalCount.toNat ≤ r.unsignalled + k then (v.modRing n (fun x => { x with unsignalled := 0 })).signal (v.ring n).vector.toNat
          else v) q))) ∧
     ((r.coalTime = 0 ∨ r.unsignalled = 0 ∨ s.time.powered < r.coalSince + r.coalTime.toNat * 1000) → exec (.coalTimeExpiry n) s = .next s) ∧
     (r.coalTime ≠ 0 → r.unsignalled ≠ 0 → r.coalSince + r.coalTime.toNat * 1000 ≤ s.time.powered →
       exec (.coalTimeExpiry n) s = .next ((s.modRing n (fun x => { x with unsignalled := 0 })).signal r.vector.toNat)))

/-- The registers of BAR0 and BAR2, form by form. A snapshot takes the running time (R112). POP, FLUSH and a read of the lost total act on a
contact sheet for the owner of PTP alone, through BAR0 for HOST and Damium's own view for DAMIUM; the host's read answers 0 while Damium
owns it (R122, R126). A write that does not cover its dword is discarded and counted, one to the MSI-X table or the pending bits apart
(R561); SCRATCH, RST_COUNT and the boot registers keep what is written, the last while the boot waits for the host; the bits written as 1
of a RW1C register clear; an offset that the map does not assign takes none (R14, R15). The RC counters read and clear. BAR2 reads and
writes DRAM below HOST_END, and an access beyond it is counted; BASE takes a value inside the host area alone (R569). A PCIe link reset
and D3hot disable the pairs (R500, R560). Nothing of this, the snapshot and the sheets apart, is done while the endpoint takes no memory
requests.

BOOT_GO in WAIT_HOST: an image that passes the checks runs in every block and becomes Damium's; one that fails leaves the device waiting,
with the error that BOOT_STATUS reports (R573 to R575). -/
def Obligations.RegisterAndBootCommandsComplete : Prop :=
  (∀ (s : State),
     exec .tsSnap s = .next { s with time := { s.time with snapValid := true, snapshot :=
       { seconds := s.time.seconds, ns := s.time.ns, frac := s.time.frac32, epoch := s.time.epoch, powered := s.time.powered } } } ∧
     (∀ p inner, s.time.hostOwner = inner →
       exec (.csPop ⟨p, inner⟩) s = .next s ∧ exec (.csFlush ⟨p, inner⟩) s = .next s) ∧
     (∀ p inner, s.time.hostOwner ≠ inner →
       ((s.sheet p).entries = [] → exec (.csPop ⟨p, inner⟩) s = .next s) ∧
       (∀ e r, (s.sheet p).entries = e :: r → exec (.csPop ⟨p, inner⟩) s = .next (State.gapIfLost (s.setSheet p { s.sheet p with entries := r }) p)) ∧
       exec (.csFlush ⟨p, inner⟩) s = .next (State.gapIfLost (s.setSheet p { s.sheet p with entries := [] }) p)) ∧
     (∀ p v, v = s.setSheet p { s.sheet p with lostTotal := 0 } →
       exec (.csLostTotalRead ⟨p, false⟩) s = .next (if s.time.hostOwner
         then { v with board := { v.board with readData := leBytes 4 (s.sheet p).lostTotal } }
         else { s with board := { s.board with readData := leBytes 4 0 } }) ∧
       exec (.csLostTotalRead ⟨p, true⟩) s = .next (if s.time.hostOwner then s else v))) ∧
  (∀ (s : State), s.hostOpen = false → (∀ o v be, exec (.registerWrite o v be) s = .next s) ∧ exec .diagBar0PartialRead s = .next s ∧
     exec .diagBar2OutsideRead s = .next s ∧ (∀ o d k e, exec (.bar2Access o d k e) s = .next s) ∧
     (∀ hi v, exec (.bar2BaseWrite hi v) s = .next s) ∧ exec .bootGo s = .next s) ∧
  (∀ (s : State), s.hostOpen = true →
     (∀ (o : BitVec 24) v be, (o.toNat < 0xF00000 ∨ 0xF00400 ≤ o.toNat) → (o.toNat < 0xF00800 ∨ 0xF00808 ≤ o.toNat) → be ≠ 0xF →
       exec (.registerWrite o v be) s = .next { s with board := { s.board with barPartial := satAdd 32 s.board.barPartial 1 } }) ∧
     (∀ (o : BitVec 24) v be, 0xF00800 ≤ o.toNat → o.toNat < 0xF00808 → exec (.registerWrite o v be) s = .next s) ∧
     (∀ v, exec (.registerWrite 0x3030C v 0xF) s = .next { s with life := { s.life with scratch := v } }) ∧
     (∀ v : BitVec 32, exec (.registerWrite 0x30304 v 0xF) s =
       .next { s with life := { s.life with warmResets := v.toNat % 65536, watchdogResets := v.toNat / 65536 } }) ∧
     (∀ v : BitVec 32, exec (.registerWrite 0x48 v 0xF) s =
       .next { s with board := { s.board with devIrq := s.board.devIrq &&& ~~~(v.setWidth 3) } }) ∧
     (∀ v : BitVec 32, exec (.registerWrite 0x4C v 0xF) s = .next { s with board := { s.board with devIrqMask := v.setWidth 3 } }) ∧
     (∀ v : BitVec 32, exec (.registerWrite 0x50140 v 0xF) s =
       .next { s with board := { s.board with debugDenied := s.board.debugDenied && !v.getLsbD 2 } }) ∧
     (∀ v : BitVec 32, exec (.registerWrite 0x20004 v 0xF) s = .next { s with time := { s.time with
       stepped := s.time.stepped && !v.getLsbD 7, suspect := s.time.suspect && !v.getLsbD 8 } }) ∧
     (∀ v, exec (.registerWrite 0x24 v 0xF) s = .next (if s.waitsHost then { s with board := { s.board with bootAddrLo := v } } else s)) ∧
     (∀ v, exec (.registerWrite 0x28 v 0xF) s = .next (if s.waitsHost then { s with board := { s.board with bootAddrHi := v } } else s)) ∧
     (∀ v : BitVec 32, exec (.registerWrite 0x2C v 0xF) s =
       .next (if s.waitsHost then { s with board := { s.board with bootLen := v.setWidth 25 } } else s)) ∧
     (∀ (o : BitVec 24) v, 0x40000 ≤ o.toNat → o.toNat < 0x50000 → exec (.registerWrite o v 0xF) s = .next s) ∧
     exec .diagBar0PartialRead s = .next { s with board := { s.board with readData := leBytes 4 s.board.barPartial, barPartial := 0 } } ∧
     exec .diagBar2OutsideRead s = .next { s with board := { s.board with readData := leBytes 4 s.board.barOutside, barOutside := 0 } } ∧
     (∀ (hi : Bool) (v : BitVec 32) b, b = (if hi then s.store.bar2Base % 2 ^ 32 + v.toNat % 4 * 2 ^ 32
         else s.store.bar2Base / 2 ^ 32 * 2 ^ 32 + v.toNat / 2 ^ 20 * 2 ^ 20) →
       exec (.bar2BaseWrite hi v) s = .next (if hostStart ≤ b ∧ b + 2 ^ 20 ≤ s.hostEnd then { s with store := { s.store with bar2Base := b } } else s))) ∧
  (∀ (s : State) (o : BitVec 30) (a : Nat), a = s.store.bar2Base + o.toNat → s.hostOpen = true →
     (s.board.bootPhase ≠ .failed ∨ s.board.bootError ≠ .dram) →
     (∀ d k e, d ≠ [] → a + d.length ≤ s.hostEnd →
       exec (.bar2Access o (some d) k e) s = .next { s with store := { s.store with dram := memWrite s.store.dram a d } }) ∧
     (∀ k, 0 < k → a + k ≤ s.hostEnd → exec (.bar2Access o none k .clean) s =
       .next { s with board := { s.board with readData := (List.range k).map (fun i => memByte s.store.dram (a + i)) } }) ∧
     (∀ k, 0 < k → a + k ≤ s.hostEnd → ∃ t, exec (.bar2Access o none k .corrected) s = .next t ∧
       t.board.readData = (List.range k).map (fun i => memByte s.store.dram (a + i)) ∧
       t.log.corrected = satAdd 32 s.log.corrected 1 ∧ t.store = s.store) ∧
     (∀ k, 0 < k → a + k ≤ s.hostEnd → ∃ t, exec (.bar2Access o none k .uncorrectable) s = .next t ∧ t.board.readData = [] ∧
       t.log.uncorrected = satAdd 32 s.log.uncorrected 1 ∧ t.store = s.store) ∧
     (∀ d k e, 0 < (match d with | some l => l.length | none => k) → s.hostEnd < a + (match d with | some l => l.length | none => k) →
       ∃ t, exec (.bar2Access o d k e) s = .next t ∧ t.board.barOutside = satAdd 32 s.board.barOutside 1 ∧
         ∀ b, s.hostEnd ≤ b → memByte t.store.dram b = memByte s.store.dram b)) ∧
  (∀ (s : State),
     (∀ e, ∃ t, exec (.d3hot e) s = .next t ∧ t.board.memorySpace = (!e) ∧ t.channels = s.channels ∧ t.flows = s.flows ∧
       (e = false → t.rings = s.rings) ∧ (e = true → ∀ n, n < 4 → (t.ring n).enable = false)) ∧
     (∃ t, exec .pcieLinkReset s = .next t ∧ t.board.memorySpace = true ∧ t.channels = s.channels ∧ t.flows = s.flows ∧
       ∀ n, n < 4 → (t.ring n).enable = false)) ∧
  (∀ (s : State) (a k e : Nat), s.hostOpen = true → s.waitsHost = true → a = s.board.bootAddrLo.toNat + s.board.bootAddrHi.toNat * 2 ^ 32 →
     k = s.board.bootLen.toNat → e = (if s.inHostArea a k then firmwareError s.life (memRead s.store.dram a k) (min k (16 * mib)) else 8) →
     ∃ t, exec .bootGo s = .next t ∧ t.channels = s.channels ∧
       (if e = 0 then
          t.life.management = 2 ∧ t.life.fwSource = 3 ∧ t.life.progress = 8 ∧ t.fylos.ready = true ∧ t.board.bootPhase = .running
        else t.life = s.life ∧ t.fylos = s.fylos ∧ t.blocks = s.blocks ∧ t.board.bootPhase = .waitHost ∧ t.board.bootError = bootErrorOf e)) ∧
  (∀ (s : State), s.waitsHost = false → exec .bootGo s = .next s)

/-- The test port: each instruction is in force with its data register, the boundary instructions hold the balls and the others do not;
TAP_RESET returns to IDCODE, and device function goes on (R576).

DEBUG, DEBUG_UNLOCK and FUSE_PROG as the life cycle allows them: in MANUFACTURE they act; in PROVISIONED DEBUG needs the unlock, which a
signature that verifies under the key of the fuses gives, and three that do not verify end the tries; in DEPLOYED and DECOMMISSIONED they
are denied: BYPASS is in force and DEBUG_DENIED set (R577 to R579). Each of DEBUG's operations does what it names; a read of a BAR0 counter
that clears on reading clears it. FUSE_PROG burns each field where it is blank, and leaves the one that is not. -/
def Obligations.TestPortAndFuseCommandsComplete : Prop :=
  (∀ (s : State) (k : List Bool),
     exec .idcode s = .next (s.tapLoad .idcode false (beBytes 4 0x14B169A7)) ∧
     exec (.samplePreload k) s = .next { s with board := { s.board with
       tap := .samplePreload, ballsHeld := false, dataRegister := [], boundary := k } } ∧
     exec .extest s = .next (s.tapLoad .extest true []) ∧ exec .extestPulse s = .next (s.tapLoad .extestPulse true []) ∧
     exec .extestTrain s = .next (s.tapLoad .extestTrain true []) ∧ exec .clamp s = .next (s.tapLoad .clamp true [0]) ∧
     exec .highz s = .next (s.tapLoad .highz true [0]) ∧ exec .bypass s = .next (s.tapLoad .bypass false [0]) ∧
     exec .tapReset s = .next (s.tapLoad .idcode false (beBytes 4 0x14B169A7)) ∧
     (s.tapLoad .extest true []).board.ballsHeld = true ∧ (s.tapLoad .bypass false [0]).board.ballsHeld = false) ∧
  (∀ (s d u : State), d = s.tapLoad .debug false [] →
     u = { s with board := { s.board with tap := .bypass, ballsHeld := false, dataRegister := [0], debugDenied := true } } →
     ((s.life.lifeCycle = 0 ∨ (s.life.lifeCycle = 1 ∧ s.board.debugUnlocked = true)) →
       exec (.debug .halt) s = .next { d with fylos := { d.fylos with halted := true } } ∧
       exec (.debug .resume) s = .next (State.service { d with fylos := { d.fylos with halted := false } }) ∧
       (∀ a k, ∃ t, exec (.debug (.readDamium a k)) s = .next t ∧ t.board.readData = d.damiumBytes a k ∧ t.life = s.life ∧ t.fylos = s.fylos) ∧
       (∀ a b, exec (.debug (.writeDamium a b)) s = .next { d with board := { d.board with damium := damiumPut d.board.damium a b } }) ∧
       (∀ n p a k, exec (.debug (.readCell n p a k)) s = .next { d with board := { d.board with readData := cellBytes (s.cell n) p a k } }) ∧
       (∀ (o : BitVec 24) a, a = o.toNat / 4 * 4 → ∃ t, exec (.debug (.readBar0 o)) s = .next t ∧ t.board.readData = leBytes 4 (d.barRead a) ∧
         t.board.barPartial = (if a = 0x200000 then 0 else s.board.barPartial) ∧
         t.board.barOutside = (if a = 0x200004 then 0 else s.board.barOutside) ∧ t.life = s.life ∧ t.fylos = s.fylos)) ∧
     ((2 ≤ s.life.lifeCycle ∨ (s.life.lifeCycle = 1 ∧ s.board.debugUnlocked = false)) → ∀ op, exec (.debug op) s = .next u) ∧
     (∀ key sig, s.life.lifeCycle = 0 → exec (.debugUnlock key sig) s = .next (s.tapLoad .debugUnlock false s.challenge)) ∧
     (∀ key sig t b, s.life.lifeCycle = 1 → s.board.unlockFails < 3 → t = s.tapLoad .debugUnlock false s.challenge →
       b = (if Config.sha384 key = s.life.keyHash ∧ Config.ecdsaVerifies key sig s.challenge = true then { t.board with debugUnlocked := true }
         else { t.board with unlockFails := t.board.unlockFails + 1 }) →
       exec (.debugUnlock key sig) s = .next { t with board := b }) ∧
     (∀ key sig, (2 ≤ s.life.lifeCycle ∨ (s.life.lifeCycle = 1 ∧ 3 ≤ s.board.unlockFails)) → exec (.debugUnlock key sig) s = .next u) ∧
     (∀ f t l, s.life.lifeCycle = 0 → t = s.tapLoad .fuseProg false [] →
       l = (match f with
         | .keyHash h => if s.life.keyBlank ∧ h.length = 48 ∧ ¬ allZero h then { s.life with keyHash := h, keyBlank := false } else s.life
         | .subsystem v => if s.life.subsystem = 0 then { s.life with subsystem := v.toNat } else s.life
         | .macBase v => if s.life.macBase = 0 then { s.life with macBase := v.toNat } else s.life
         | .serial v => if s.life.serial = 0 then { s.life with serial := v.toNat } else s.life) →
       exec (.fuseProg f) s = .next { t with life := l }) ∧
     (∀ f, s.life.lifeCycle ≠ 0 → exec (.fuseProg f) s = .next u))

/-! ## The vector engine (chapters 12 and 13) -/

/-- The complex multiplies and multiply-accumulates carry their word out: accumulators get twice the products, vectors the shifted and
saturated products (Table 13.5, R325 to R327, R363).

The real lane operations carry their word out: products, sums, differences, shifts and butterflies in each of the eight lanes
(Table 13.5, R325, R327).

The operations that place, narrow and compare vectors and accumulators carry their word out (Table 13.5, R328, R353). -/
def Obligations.VectorWordsIssue : Prop :=
  (∀ (i : Issue) (r : CompRest) (s : State), let v := viewOf i s
     (∀ k a b cja neg clr, Computes (.cmac4 i k a b cja neg clr r) i (.cmac4 k a b cja neg clr) r s
       (accumulate k (if clr then (0, 0) else v.acc k .accumulate) neg
         (2 * (((v.complex a).zip (v.complex b)).map (fun p => (prod30 cja p).1)).sum,
          2 * (((v.complex a).zip (v.complex b)).map (fun p => (prod30 cja p).2)).sum))) ∧
     (∀ hi a b cja neg clr, Computes (.cmac4v i hi a b cja neg clr r) i (.cmac4v hi a b cja neg clr) r s
       (joinGo ((((v.complex a).zip (v.complex b)).zipIdx).map (fun q =>
         accumulate ((if hi then 4 else 0) + q.2) (if clr then (0, 0) else v.acc ((if hi then 4 else 0) + q.2) .accumulate) neg
           (2 * (prod30 cja q.1).1, 2 * (prod30 cja q.1).2))))) ∧
     (∀ d a b cja sh, Computes (.cmul4 i d a b cja sh r) i (.cmul4 d a b cja sh) r s
       (satVector d ((flatten (((v.complex a).zip (v.complex b)).map (prod30 cja))).map (fun x => rne x (15 + sh))))) ∧
     (∀ d c a b cja sh, Computes (.vcmac4 i d c a b cja sh r) i (.vcmac4 d c a b cja sh) r s
       (satVector d (((v.lanes c).zip (flatten (((v.complex a).zip (v.complex b)).map (prod30 cja)))).map
         (fun p => p.1 + rne p.2 (15 + v.d sh % 32)))))) ∧
  (∀ (i : Issue) (r : CompRest) (s : State), let v := viewOf i s
     (∀ k a b neg clr, Computes (.rmac8 i k a b neg clr r) i (.rmac8 k a b neg clr) r s
       (accumulate k (if clr then (0, 0) else v.acc k .accumulate) neg
         (2 * (((v.lanes a).zip (v.lanes b)).map (fun p => p.1 * p.2)).sum, 0))) ∧
     (∀ d a b sh, Computes (.vmul8 i d a b sh r) i (.vmul8 d a b sh) r s
       (satVector d (((v.lanes a).zip (v.lanes b)).map (fun p => rne (p.1 * p.2) (15 + sh))))) ∧
     (∀ dh a b sh, Computes (.bfly i dh a b sh r) i (.bfly dh a b sh) r s
       (let x := ((v.lanes a).zip (v.lanes b)).map (fun p => rne (p.1 + p.2) sh)
        let y := ((v.lanes a).zip (v.lanes b)).map (fun p => rne (p.1 - p.2) sh)
        [toV (2 * dh.val) (x.map sat16), toV (2 * dh.val + 1) (y.map sat16)] ++ setSat (x.any saturates || y.any saturates))) ∧
     (∀ d a b sh satm, Computes (.vadd i d a b sh satm r) i (.vadd d a b sh satm) r s
       (let x := ((v.lanes a).zip (v.lanes b)).map (fun p => rne (p.1 + p.2) sh)
        if satm then toV d (x.map sat16) :: setSat (x.any saturates) else [toV d x])) ∧
     (∀ d a b sh satm, Computes (.vsub i d a b sh satm r) i (.vsub d a b sh satm) r s
       (let x := ((v.lanes a).zip (v.lanes b)).map (fun p => rne (p.1 - p.2) sh)
        if satm then toV d (x.map sat16) :: setSat (x.any saturates) else [toV d x])) ∧
     (∀ d a sh, Computes (.vshr i d a sh r) i (.vshr d a sh) r s [toV d ((v.lanes a).map (fun x => rne x sh))]) ∧
     (∀ d a sh, Computes (.vshl i d a sh r) i (.vshl d a sh) r s (satVector d ((v.lanes a).map (fun x => x * 2 ^ sh.val))))) ∧
  (∀ (i : Issue) (r : CompRest) (s : State), let v := viewOf i s
     (∀ dh a b, Computes (.czip i dh a b r) i (.czip dh a b) r s
       [toV (2 * dh.val) (flatten [lane (v.complex a) 0, lane (v.complex b) 0, lane (v.complex a) 1, lane (v.complex b) 1]),
        toV (2 * dh.val + 1) (flatten [lane (v.complex a) 2, lane (v.complex b) 2, lane (v.complex a) 3, lane (v.complex b) 3])]) ∧
     (∀ dh a b, Computes (.cunzip i dh a b r) i (.cunzip dh a b) r s
       [toV (2 * dh.val) (flatten [lane (v.complex a) 0, lane (v.complex a) 2, lane (v.complex b) 0, lane (v.complex b) 2]),
        toV (2 * dh.val + 1) (flatten [lane (v.complex a) 1, lane (v.complex a) 3, lane (v.complex b) 1, lane (v.complex b) 3])]) ∧
     (∀ d a, Computes (.vmov i d a r) i (.vmov d a) r s [toV d (v.lanes a)]) ∧
     (∀ d a, Computes (.vbcast i d a r) i (.vbcast d a) r s
       [wrote .compute (rV d) (v.d a * (1 + 2 ^ 32 + 2 ^ 64 + 2 ^ 96))]) ∧
     (∀ d a pair, Computes (.vmaxa i d a pair r) i (.vmaxa d a pair) r s
       [wrote .vmaxa (rD d) (((v.lanes a ++ if pair then v.lanes (a + 1) else []).map Int.natAbs).foldl max (v.nat (rD d) .vmaxa))]) ∧
     (∀ d hi sh, Computes (.pack i d hi sh r) i (.pack d hi sh) r s
       (let halves := flatten ((List.range 4).map (fun j => v.acc ((if hi then 4 else 0) + j) .operand))
        toV d (halves.map (fun h => sat16 (rne h (16 + sh)))) :: setSat (halves.any (fun h => clamps16 h sh)))) ∧
     (∀ k sh, Computes (.acshr i k sh r) i (.acshr k sh) r s
       [toAcc k (rne (v.acc k .operand).1 sh, rne (v.acc k .operand).2 sh)]) ∧
     (∀ d e, Computes (.acadd i d e r) i (.acadd d e) r s (accumulate d (v.acc d .accumulate) false (v.acc e .operand))) ∧
     (∀ d k sh, Computes (.actod i d k sh r) i (.actod d k sh) r s
       (toD d (patternOf 32 (sat32 (rne (v.acc k .operand).1 sh))) :: setSat (clamps32 (v.acc k .operand).1 sh))) ∧
     (∀ k a, Computes (.dtoac i k a r) i (.dtoac k a) r s [toAcc k (v.dInt a, 0)]))

/-- The scalar sums, differences, products and comparisons carry their word out with their result and the flags of Table 13.6, in a compute
field and as SCALAR_IMM (Tables 13.5, 13.6 and 13.8, R361, R363, R365).

The logic, placing, choosing and shift operations carry their word out with their result and flags, in a compute field and as SCALAR_IMM
(Tables 13.5, 13.6 and 13.8, R365). -/
def Obligations.ScalarWordsIssue : Prop :=
  (∀ (i : Issue) (r : CompRest) (m : TwoMoves) (s : State), let v := viewOf i s
     let sum := fun (x y : Nat) => signedOf 32 x + signedOf 32 y
     let dif := fun (x y : Nat) => signedOf 32 x - signedOf 32 y
     let wrapped := fun (d : Fin 16) (x : Int) (c : Bool) =>
       [toD d (patternOf 32 x), setFlags (packFlags (patternOf 32 x) c (leaves32 x))]
     let clamped := fun (d : Fin 16) (x : Int) (c : Bool) =>
       [toD d (patternOf 32 (sat32 x)), setFlags (packFlags (patternOf 32 (sat32 x)) c (leaves32 x))] ++ setSat (leaves32 x)
     (∀ d a b, Computes (.add i d a b r) i (.add d a b) r s (wrapped d (sum (v.d a) (v.d b)) (decide (2 ^ 32 ≤ v.d a + v.d b)))) ∧
     (∀ d a b, Computes (.sub i d a b r) i (.sub d a b) r s (wrapped d (dif (v.d a) (v.d b)) (decide (v.d a < v.d b)))) ∧
     (∀ d a b, Computes (.adds i d a b r) i (.adds d a b) r s (clamped d (sum (v.d a) (v.d b)) (decide (2 ^ 32 ≤ v.d a + v.d b)))) ∧
     (∀ d a b, Computes (.subs i d a b r) i (.subs d a b) r s (clamped d (dif (v.d a) (v.d b)) (decide (v.d a < v.d b)))) ∧
     (∀ a b, Computes (.cmp i a b r) i (.cmp a b) r s
       [setFlags (packFlags (patternOf 32 (dif (v.d a) (v.d b))) (decide (v.d a < v.d b)) (leaves32 (dif (v.d a) (v.d b))))]) ∧
     (∀ d a, Computes (.neg i d a r) i (.neg d a) r s (wrapped d (dif 0 (v.d a)) (decide (0 < v.d a)))) ∧
     (∀ d a, Computes (.abs i d a r) i (.abs d a) r s
       (let x := patternOf 32 ((v.dInt a).natAbs : Int)
        [toD d x, setFlags (packFlags x false (v.d a == 2 ^ 31))])) ∧
     (∀ d a b, Computes (.mul i d a b r) i (.mul d a b) r s
       (let p := v.dInt a * v.dInt b
        [toD d (patternOf 32 p), setFlags (packFlags (patternOf 32 p) false (leaves32 p))])) ∧
     (∀ d a b, Computes (.mpy15 i d a b r) i (.mpy15 d a b) r s
       (let p := rne (signedOf 16 (v.d a) * signedOf 16 (v.d b)) 15
        [toD d (patternOf 32 (sat16 p)), setFlags (plainFlags (patternOf 32 (sat16 p)))] ++ setSat (saturates p))) ∧
     (∀ d a b, Computes (.mpy31 i d a b r) i (.mpy31 d a b) r s
       (let p := rne (v.dInt a * v.dInt b) 31
        later ([toD d (patternOf 32 (sat32 p)), setFlags (plainFlags (patternOf 32 (sat32 p)))] ++ setSat (leaves32 p)))) ∧
     (∀ k a b, Computes (.mac31 i k a b r) i (.mac31 k a b) r s
       (let x := (v.acc k .accumulate).1 + rne (v.dInt a * v.dInt b) 31
        later (toAcc k (wrap40 x, (v.acc k .accumulate).2) :: setGo (leaves40 x)))) ∧
     (∀ d a imm, Issues i (simmWord (.addi d a imm) m) s → Writes (.addi i d a imm m) i (simmWord (.addi d a imm) m) s
       (wrapped d (sum (v.d a) (sext16 imm)) (decide (2 ^ 32 ≤ v.d a + sext16 imm)))) ∧
     (∀ a imm, Issues i (simmWord (.cmpi a imm) m) s → Writes (.cmpi i a imm m) i (simmWord (.cmpi a imm) m) s
       [setFlags (packFlags (patternOf 32 (dif (v.d a) (sext16 imm))) (decide (v.d a < sext16 imm)) (leaves32 (dif (v.d a) (sext16 imm))))])) ∧
  (∀ (i : Issue) (r : CompRest) (m : TwoMoves) (s : State), let v := viewOf i s
     let c := (settled i s).cell i.cell
     let plain := fun (d : Fin 16) (x : Nat) => [toD d x, setFlags (packFlags x false false)]
     (∀ d a b, Computes (.and i d a b r) i (.and d a b) r s (plain d (v.d a &&& v.d b))) ∧
     (∀ d a b, Computes (.or i d a b r) i (.or d a b) r s (plain d (v.d a ||| v.d b))) ∧
     (∀ d a b, Computes (.xor i d a b r) i (.xor d a b) r s (plain d (v.d a ^^^ v.d b))) ∧
     (∀ d a, Computes (.mov i d a r) i (.mov d a) r s (plain d (v.d a))) ∧
     (∀ d a b, Computes (.min i d a b r) i (.min d a b) r s (plain d (if v.dInt a ≤ v.dInt b then v.d a else v.d b))) ∧
     (∀ d a b, Computes (.max i d a b r) i (.max d a b) r s (plain d (if v.dInt a ≤ v.dInt b then v.d b else v.d a))) ∧
     (∀ d a n, Computes (.shl i d a n r) i (.shl d a n) r s
       (let x := v.d a * 2 ^ n.val % 2 ^ 32
        [toD d x, setFlags (packFlags x (n.val != 0 && (v.d a).testBit (32 - n)) (signedOf 32 x / 2 ^ n.val != v.dInt a))])) ∧
     (∀ d a n, Computes (.asr i d a n r) i (.asr d a n) r s
       (let x := patternOf 32 (v.dInt a / 2 ^ n.val)
        [toD d x, setFlags (packFlags x (n.val != 0 && (v.d a).testBit (n - 1)) false)])) ∧
     (∀ d a n, Computes (.lsr i d a n r) i (.lsr d a n) r s
       (let x := v.d a / 2 ^ n.val
        [toD d x, setFlags (packFlags x (n.val != 0 && (v.d a).testBit (n - 1)) false)])) ∧
     (∀ d a, Computes (.norm i d a r) i (.norm d a) r s (plain d (signBits 31 (v.d a)))) ∧
     (∀ d lc, Computes (.mfs i d lc r) i (.mfs d lc) r s (plain d (if lc then v.nat rLC .operand else v.sr c.bank (0 < c.rep)))) ∧
     (∀ d a imm, Issues i (simmWord (.andi d a imm) m) s → Writes (.andi i d a imm m) i (simmWord (.andi d a imm) m) s (plain d (v.d a &&& imm.toNat))) ∧
     (∀ d a imm, Issues i (simmWord (.ori d a imm) m) s → Writes (.ori i d a imm m) i (simmWord (.ori d a imm) m) s (plain d (v.d a ||| imm.toNat))) ∧
     (∀ d a imm, Issues i (simmWord (.xori d a imm) m) s → Writes (.xori i d a imm m) i (simmWord (.xori d a imm) m) s (plain d (v.d a ^^^ imm.toNat))) ∧
     (∀ d imm, Issues i (simmWord (.movi d imm) m) s → Writes (.movi i d imm m) i (simmWord (.movi d imm) m) s (plain d (sext16 imm))) ∧
     (∀ d a imm, Issues i (simmWord (.movhi d a imm) m) s → Writes (.movhi i d a imm m) i (simmWord (.movhi d a imm) m) s
       (plain d (imm.toNat * 65536 + v.d a % 65536))))

/-- The loads carry their word out: the registers get the bytes read at the address the mode forms, and a pointer that the mode updates gets its
next value (Table 13.3, R329, R330, R356).

The stores carry their word out: the bytes of the register go to the address the mode forms, ST.AC narrows and tells a clamp in SAT
(Table 13.3, R328, R355, R356). -/
def Obligations.MoveWordsIssue : Prop :=
  (∀ (i : Issue) (r : MoveRest) (s : State) (p : Fin 8) (a : AMode), let v := viewOf i s
     let y := sideOf r
     let read := fun (m : Move) (width : Nat) => (beforeMove i m r s).loadBytes i.cell v.now (accessAt v y p a width false)
     (∀ reg, Moves (.ldQ i reg p a r) i (.ldQ reg p a) r s (beforeMove i (.ldQ reg p a) r s)
       (pointerWrite v y p a 16 ++ [wrote .load (rV reg) (leNat (read (.ldQ reg p a) 16))])) ∧
     (∀ reg, Moves (.ldW i reg p a r) i (.ldW reg p a) r s (beforeMove i (.ldW reg p a) r s)
       (pointerWrite v y p a 4 ++ [wrote .load (rD reg) (leNat (read (.ldW reg p a) 4))])) ∧
     (∀ reg, Moves (.ldH i reg p a r) i (.ldH reg p a) r s (beforeMove i (.ldH reg p a) r s)
       (pointerWrite v y p a 2 ++ [wrote .load (rD reg) (patternOf 32 (signedOf 16 (leNat (read (.ldH reg p a) 2))))])) ∧
     (∀ cls idx, Moves (.ldA i cls idx p a r) i (.ldA cls idx p a) r s (beforeMove i (.ldA cls idx p a) r s)
       (pointerWrite v y p a 4 ++ [wrote .load (rClass cls idx) (leNat (read (.ldA cls idx p a) 4) % (match cls with | .m => 2 ^ 17 | _ => 2 ^ 24))])) ∧
     (∀ half, Moves (.ldL i half p a r) i (.ldL half p a) r s (beforeMove i (.ldL half p a) r s)
       (pointerWrite v y p a 8 ++
         [wrote .load (rD (2 * half.val)) (leNat ((read (.ldL half p a) 8).take 4)),
          wrote .load (rD (2 * half.val + 1)) (leNat ((read (.ldL half p a) 8).drop 4))]))) ∧
  (∀ (i : Issue) (r : MoveRest) (s : State) (p : Fin 8) (a : AMode), let v := viewOf i s
     let y := sideOf r
     let put := fun (m : Move) (mode : AMode) (width : Nat) (l : List Byte) =>
       (beforeMove i m r s).storeBytes i.cell v.now (accessAt v y p mode width true) l
     (∀ reg, Moves (.stQ i reg p a r) i (.stQ reg p a) r s (put (.stQ reg p a) a 16 (leBytes 16 (v.nat (rV reg) .storeData)))
       (pointerWrite v y p a 16)) ∧
     (∀ reg, Moves (.stW i reg p a r) i (.stW reg p a) r s (put (.stW reg p a) a 4 (leBytes 4 (v.nat (rD reg) .storeData)))
       (pointerWrite v y p a 4)) ∧
     (∀ reg, Moves (.stH i reg p a r) i (.stH reg p a) r s (put (.stH reg p a) a 2 (leBytes 2 (v.nat (rD reg) .storeData % 65536)))
       (pointerWrite v y p a 2)) ∧
     (∀ half, Moves (.stL i half p a r) i (.stL half p a) r s
       (put (.stL half p a) a 8 (leBytes 4 (v.nat (rD (2 * half.val)) .storeData) ++ leBytes 4 (v.nat (rD (2 * half.val + 1)) .storeData)))
       (pointerWrite v y p a 8)) ∧
     (∀ (k sh : Fin 8) (form : Bool), let h := v.acc k .narrow
       Moves (.stAc i k sh p form r) i (.stAC k sh p form) r s
         (put (.stAC k sh p form) .postInc 4
           (if form then leBytes 4 (patternOf 32 (sat32 (rne h.1 sh)))
            else leBytes 2 (patternOf 16 (sat16 (rne h.1 (16 + sh)))) ++ leBytes 2 (patternOf 16 (sat16 (rne h.2 (16 + sh))))))
         (pointerWrite v y p .postInc 4 ++ setSat (if form then clamps32 h.1 sh else clamps16 h.1 sh || clamps16 h.2 sh))))

/-- The slot operations and IMMEDIATE words carry their word out (Tables 13.4 and 13.7, R335, R357). REP and REPLC write nothing: they set
how often the next word issues, 0 meaning that it is passed over.

The control operations carry their word out and take effect after two delay words: a branch on its condition, BRLC on LC, CALL with its
link in D15, CALLU and RETU between the kernel's memory and the firmware's, DONE at the end of the run (Table 13.9, R366, R367, R369). TRAP
traps at D with its code.

A word of no meaning traps with ILLEGAL_WORD at its address (R353); one that has a meaning is issued as what it spells. -/
def Obligations.SequenceWordsIssue : Prop :=
  (∀ (i : Issue) (r : SlotRest) (s : State), let v := viewOf i s
     (∀ q k imm, SlotWrites (.aadd i q k imm r) i (.aadd q k imm) r s
       [wrote .addr (if q then rQ k else rP k) (nextPtr (v.ptr q k) imm.toInt (v.m k))]) ∧
     (∀ dst di src si, SlotWrites (.amov i dst di src si r) i (.amov dst di src si) r s
       [wrote .addr (rClass dst di) (v.nat (rClass src si) .address % (match dst with | .m => 2 ^ 17 | _ => 2 ^ 24))]) ∧
     (∀ cls idx d, SlotWrites (.xfer i false cls idx d r) i (.xferIn cls idx d) r s
       [wrote .addr (rClass cls idx) (v.d d % (match cls with | .m => 2 ^ 17 | _ => 2 ^ 24))]) ∧
     (∀ cls idx d, SlotWrites (.xfer i true cls idx d r) i (.xferOut cls idx d) r s
       [wrote .compute (rD d) (match cls with
         | .n => patternOf 32 (signedOf 24 (v.nat (rClass cls idx) .address))
         | _ => v.nat (rClass cls idx) .address)]) ∧
     (∀ n1, SlotWrites (.rep i n1 r) i (.rep n1) r s []) ∧
     SlotWrites (.replc i r) i .replc r s [] ∧
     (∀ imm, SlotWrites (.lci i imm r) i (.lci imm) r s [wrote .control rLC imm.toNat]) ∧
     (∀ n1, repAsked v (slotWord (.rep n1) r) = some (n1.toNat + 1)) ∧
     repAsked v (slotWord .replc r) = some (v.nat rLC .loop) ∧
     (∀ c dest, Issues i (.immediate c dest) s → Writes (.immediate i c dest) i (.immediate c dest) s
       (compute v ((settled i s).cell i.cell).bank (0 < ((settled i s).cell i.cell).rep) c ++ immWrites dest)) ∧
     (Issues i (.parallel .nop .nop .nop .nop) s → Writes (.nop i) i (.parallel .nop .nop .nop .nop) s [])) ∧
  (∀ (i : Issue) (m : TwoMoves) (s : State), let v := viewOf i s
     let kernel := (settled i s).store.kernel
     (∀ cond target, Issues i (ctlWord (.br cond target) m) s →
       Controls (.br i cond target m) i (ctlWord (.br cond target) m) s [] (if v.holds cond then .jump target else .fall)) ∧
     (∀ target, Issues i (ctlWord (.brlc target) m) s →
       Controls (.brlc i target m) i (ctlWord (.brlc target) m) s
         (if v.nat rLC .loop = 0 then [] else [wrote .control rLC (v.nat rLC .loop - 1)])
         (if 1 < v.nat rLC .loop then .jump target else .fall)) ∧
     (∀ cond target, Issues i (ctlWord (.call cond target) m) s →
       Controls (.call i cond target m) i (ctlWord (.call cond target) m) s
         (if v.holds cond then [wrote .compute (rD 15) ((v.bank.pc.toNat + 3) % 8192)] else [])
         (if v.holds cond then .jump target else .fall)) ∧
     (∀ cond k, Issues i (ctlWord (.jmpr cond k) m) s →
       Controls (.jmpr i cond k m) i (ctlWord (.jmpr cond k) m) s []
         (if v.holds cond then .jump (BitVec.ofNat 13 (v.nat (rD k) .jump)) else .fall)) ∧
     (∀ entry, Issues i (ctlWord (.callu entry) m) s →
       Controls (.callu i entry m) i (ctlWord (.callu entry) m) s [] (.enterUser (BitVec.ofNat 13 (0x1800 + kernelEntry kernel entry)))) ∧
     (Issues i (ctlWord .retu m) s → Controls (.retu i m) i (ctlWord .retu m) s [] .leaveUser) ∧
     (∀ commit, Issues i (ctlWord (.done commit) m) s →
       Controls (.done i commit m) i (ctlWord (.done commit) m) s [] (.endRun commit)) ∧
     (∀ code, s.cellIssues i.cell = true → i.fetch = .clean →
       wordTrap ((settled i s).cell i.cell) v s.kernelEntries (ctlWord (.trap code) m) = some .trapOp →
       exec (.trap i code m) s = .next ((settled i s).trap i.cell .trapOp code.toNat 6 (s.cell i.cell).active.pc.toNat))) ∧
  (∀ (i : Issue) (w : BitVec 64) (s : State), s.cellIssues i.cell = true → i.fetch = .clean →
     ((s.cell i.cell).active.user = true → 0x1800 ≤ (s.cell i.cell).active.pc.toNat) →
     (decodeWord w = none →
       exec (.illegalWord i w) s = .next (s.trap i.cell .illegalWord 0 6 (s.cell i.cell).active.pc.toNat)) ∧
     (∀ x, decodeWord w = some x → exec (.illegalWord i w) s = .next (issueStep i x s)))

/-- A cell that does not issue, for it is out of service, idle or in a block that does not run, leaves the machine as it is, whatever the word;
a fetch from the firmware's memory in user mode traps; an uncorrectable fetch traps the cell (R320, R350, R367).

What a word may not be or do traps at D with the cause the tables give: an illegal word, an operation user mode may not use, a control
operation in a delay place, work beside a Q31 product, a repeated control operation, and the reach of REPLC, RETU and CALLU (R334, R335, R350,
R353, R354, R361, R369, R370). -/
def Obligations.WordsAreCheckedAtD : Prop :=
  (∀ (i : Issue) (w : VeWord) (s : State), let b := (s.cell i.cell).active
     (s.cellIssues i.cell = false → issueStep i w s = s) ∧
     (s.cellIssues i.cell = true → b.user = true → b.pc.toNat < 0x1800 →
       issueStep i w s = s.trap i.cell .privilege 0 6 b.pc.toNat) ∧
     (s.cellIssues i.cell = true → (b.user = true → 0x1800 ≤ b.pc.toNat) → i.fetch = .uncorrectable →
       issueStep i w s = s.cellTrap i.cell .uncorrectableI 0 2 (8 * b.pc.toNat))) ∧
  (∀ (i : Issue) (w : VeWord) (s : State), s.cellIssues i.cell = true → i.fetch = .clean →
     ((s.cell i.cell).active.user = true → 0x1800 ≤ (s.cell i.cell).active.pc.toNat) →
     let c := (settled i s).cell i.cell
     let trapped := fun (k : TrapCause) => issueStep i w s = (settled i s).trap i.cell k 0 6 c.active.pc.toNat
     (legalWord w = false → trapped .illegalWord) ∧
     (legalWord w = true → c.active.user = true → userForbids w = true → trapped .privilege) ∧
     (legalWord w = true → (c.active.user = true → userForbids w = false) → c.delay.isSome = true → branchClass w = true → trapped .illegalSequence) ∧
     (legalWord w = true → (c.active.user = true → userForbids w = false) → branchClass w = false → c.mpyShadow = true → computes w = true →
       trapped .illegalSequence) ∧
     (legalWord w = true → (c.active.user = true → userForbids w = false) → c.delay = none → c.mpyShadow = false → 0 < c.rep → controlOp w = true →
       trapped .illegalSequence) ∧
     (∀ m, w = ctlWord .retu m → legalWord w = true → c.active.user = false → trapped .illegalSequence) ∧
     (∀ e m, w = ctlWord (.callu e) m → legalWord w = true → c.active.user = false → s.kernelEntries ≤ e.val → trapped .illegalSequence) ∧
     (∀ x ∈ (accessesOf (viewOf i s) w).head?, ∀ k, wordTrap c (viewOf i s) s.kernelEntries w = none →
       accessTrap c.bank c.active.user (0 < c.rep) x = some k → trapped k))

/-- What a word carried out leaves of its cell: the settled registers are as they were, its writes are in flight with those before it, the PC
stands one further and the counts have gone on; every other cell, the channels and the blocks are as they were (R331, R332, R344). Said of a
word without moves that is neither repeated nor in a delay place, in firmware, on a cell where no staged thread waits. -/
def Obligations.CarriedOutWordMovesOn : Prop :=
  ∀ (i : Issue) (w : VeWord) (l : List WriteReq) (s : State), wordX w = .nop → wordY w = .nop →
    (∀ n, wordSlot w ≠ .rep n) → wordSlot w ≠ .replc → (∀ e, w ≠ .control (.callu e) .nop .nop) →
    (s.cell i.cell).rep = 0 → (s.cell i.cell).delay = none → (s.cell i.cell).shadow = none → (s.cell i.cell).active.user = false →
    let t := (settled i s).carryOut i.cell (viewOf i s) w l none
    let b := (viewOf i s).bank
    let c := t.cell i.cell
    c.active.regs = b.regs ∧ c.active.pc = b.pc + 1 ∧ c.active.flight = (addWrites b (viewOf i s).now l).flight ∧
    c.active.user = false ∧ c.issued = (s.cell i.cell).issued + 1 ∧ c.cycle = (s.cell i.cell).cycle + 1 ∧
    c.stall = (s.cell i.cell).stall ∧ (∀ m, m ≠ i.cell → t.cell m = s.cell m) ∧ t.channels = s.channels ∧ t.blocks = s.blocks

/-- How words follow one another: a repeated word stays until its last repetition, REP gives the next word its count and a count of 0 passes it
over, a control operation acts when two more words have issued, and then the PC is its target, user mode begins or ends, or the run ends
(R335, R336, R366, R369). -/
def Obligations.WordsFollowOneAnother : Prop :=
  (∀ (c : Cell) (v : View) (w : VeWord) (d : Option Delayed), 1 < c.rep →
    (stepPc c v w d).rep = c.rep - 1 ∧ (stepPc c v w d).active.pc = c.active.pc) ∧
  (∀ (c : Cell) (v : View) (w : VeWord) (d : Option Delayed), c.rep = 1 →
    (stepPc c v w d).rep = 0 ∧ (stepPc c v w d).active.pc = c.active.pc + 1) ∧
  (∀ (c : Cell) (v : View) (w : VeWord) (d : Option Delayed), c.rep = 0 →
    (∀ k, repAsked v w = some (k + 1) → (stepPc c v w d).rep = k + 1 ∧ (stepPc c v w d).active.pc = c.active.pc + 1) ∧
    (repAsked v w = some 0 → (stepPc c v w d).rep = 0 ∧ (stepPc c v w d).active.pc = c.active.pc + 2) ∧
    (repAsked v w = none → (stepPc c v w d).rep = 0 ∧ (stepPc c v w d).active.pc = c.active.pc + 1)) ∧
  (∀ (c : Cell) (v : View) (w : VeWord) (d : Delayed), (stepPc c v w (some d)).delay = some (2, d)) ∧
  (∀ (c : Cell) (v : View) (w : VeWord) (d : Delayed), c.delay = some (2, d) → (stepPc c v w none).delay = some (1, d)) ∧
  (∀ (n : Nat) (s : State) (k : Nat) (t : BitVec 13), (s.cell n).delay = some (k, .jump t) →
    ((s.afterDelay n).cell n).active.pc = t ∧ ((s.afterDelay n).cell n).delay = none) ∧
  (∀ (n : Nat) (s : State) (k : Nat) (t : BitVec 13), (s.cell n).delay = some (k, .enterUser t) →
    ((s.afterDelay n).cell n).active.pc = t ∧ ((s.afterDelay n).cell n).active.user = true) ∧
  (∀ (n : Nat) (s : State) (k : Nat), (s.cell n).delay = some (k, .leaveUser) →
    ((s.afterDelay n).cell n).active.pc = 8 ∧ ((s.afterDelay n).cell n).active.user = false) ∧
  (∀ (n : Nat) (s : State) (k : Nat) (commit : Bool), (s.cell n).delay = some (k, .endRun commit) →
    s.afterDelay n = (s.setCell n { s.cell n with delay := none }).threadDone n commit)

/-- Every data access is 2, 4, 8 or 16 bytes wide, and one whose address is no multiple of its width raises an ALIGNMENT trap; in a repeated word, one past the cell's own
pages is ILLEGAL_SEQUENCE by R336 instead (R317). -/
def Obligations.MisalignedAccessTraps : Prop :=
  (∀ (v : View) (y : Bool) (m : Move) (x : Access) (z : Option WriteReq), moveAccess v y m = some (x, z) →
    x.width = 2 ∨ x.width = 4 ∨ x.width = 8 ∨ x.width = 16) ∧
  (∀ (bank user rep : Bool) (x : Access), x.addr % x.width ≠ 0 →
    (rep = false ∨ x.addr < 0xC000 ∨ (0x10000 ≤ x.addr ∧ x.addr < 0x18000)) → accessTrap bank user rep x = some .alignment) ∧
  (∀ (i : Issue) (w : VeWord) (s : State) (x : Access), s.cellIssues i.cell = true → i.fetch = .clean →
    ((s.cell i.cell).active.user = true → 0x1800 ≤ (s.cell i.cell).active.pc.toNat) →
    let c := (settled i s).cell i.cell
    wordTrap c (viewOf i s) s.kernelEntries w = none → (accessesOf (viewOf i s) w).head? = some x → x.addr % x.width ≠ 0 →
    (c.rep = 0 ∨ x.addr < 0xC000 ∨ (0x10000 ≤ x.addr ∧ x.addr < 0x18000)) →
    issueStep i w s = (settled i s).trap i.cell .alignment 0 6 c.active.pc.toNat)

/-- Where an access leads decides what it may do: alignment everywhere, no access of a repeated word past the cell's own memories, none of user
mode past its pages, no store to the status page or the dispatcher's areas, and nothing at a reserved address (R315 to R318, R336, R343, R344,
R350, R396). -/
def Obligations.AccessesAreChecked : Prop :=
  ∀ (bank user rep : Bool) (x : Access), let t := accessTrap bank user rep x
    (x.addr < 0xC000 → t = if x.addr % x.width ≠ 0 then some .alignment
      else if user = true ∧ x.addr < 0x8000 then some .privilege else none) ∧
    (0x10000 ≤ x.addr → x.addr < 0x18000 → t = if x.addr % x.width ≠ 0 then some .alignment
      else if user = true ∧ x.store = true then some .privilege else none) ∧
    (x.yside = false → 0x200000 ≤ x.addr → x.addr < 0x400000 → t =
      if rep then some .illegalSequence
      else if x.addr % x.width ≠ 0 then some .alignment
      else if user then some .privilege
      else if x.store = true ∧ 0x3B0000 ≤ x.addr ∧ x.addr < 0x3E4000 then some .address else none) ∧
    (x.yside = true → 0x400000 ≤ x.addr → x.addr < 0x400500 → t =
      if rep then some .illegalSequence
      else if x.addr % x.width ≠ 0 then some .alignment
      else if user then some .privilege else none) ∧
    (x.yside = true → 0x401000 ≤ x.addr → x.addr < 0x401100 → t =
      if rep then some .illegalSequence
      else if x.addr % x.width ≠ 0 then some .alignment
      else if user then some .privilege
      else if x.store then some .address else none) ∧
    (x.yside = true → 0x200000 ≤ x.addr → x.addr < 0x400000 → rep = false → x.addr % x.width = 0 → t = some .address) ∧
    (0x401100 ≤ x.addr → rep = false → x.addr % x.width = 0 → t = some .address)

/-! ## Cells and block dispatchers (chapters 12 and 14) -/

/-- WATCHDOG, USER_BUDGET and CELL_RETURN: a thread that has run 3,000,000 cycles since its cell's last swap traps its cell; a run over its user
budget leaves user mode at word 0x0008 with its hooks gone; a trapped cell that is not retired comes back reset, its instruction memory and common
pages filled, 10 ms after its trap and not before (R324, R345, R351, R521).

BLOCK_ISOLATION: every channel of the block faults with CAUSE BLOCK_ISOLATED, then the block stands isolated with no thread and no event, its
cells stopped, and the error is logged; a block isolated already stays as it is (R522). -/
def Obligations.CellAndBlockFaultEventsComplete : Prop :=
  (∀ (n : Nat) (s : State), let c := s.cell n
     (s.blockRuns (cellBlock n) = true → cellInService c = true → c.running.isSome = true → c.sinceSwap ≤ 3000000 →
       Becomes (.watchdog n) s ((s.setCell n { c with sinceSwap := 3000000,
                                                      cycle := c.cycle + BitVec.ofNat 64 (3000000 - c.sinceSwap) }).cellTrap n .watchdog 0 6 c.active.pc.toNat)) ∧
     (∀ ch, s.blockRuns (cellBlock n) = true → cellInService c = true → s.runningChannel n = some ch → c.active.user = true → c.rep = 0 →
       1000 * settingNat (s.channel ch).applied .hook 0 0x42 0 < c.active.userCycles →
       ∃ u : State, Becomes (.userBudget n) s (u.notify4 .media 0x0F06 4 ch [beBytes 1 c.userHook, beBytes 1 0x0A]) ∧
         (u.cell n).active.pc = 8 ∧ (u.cell n).active.user = false ∧ (u.cell n).userStatus = 0x0A ∧ (u.cell n).stores = [] ∧
         (u.cell n).running = c.running ∧
         settingNat (u.channel ch).accepted .hook 0 0x40 0 = noneValue ∧ settingNat (u.channel ch).accepted .hook 0 0x41 0 = noneValue) ∧
     (∀ t page, n < 128 → c.trap = some t → t.since + 10000000 ≤ s.time.powered → c.retired = false → c.underReset = false →
       page = fillCommon (sectionOf (s.blockImage (cellBlock n)) 3) [] →
       ∃ u : State, Becomes (.cellReturn n) s u ∧
         u.cell n = { imem := s.refilled (cellBlock n), xmem := page, ymem := page, memTraps := c.memTraps } ∧
         (∀ m, m ≠ n → u.cell m = s.cell m) ∧
         ((s.block (cellBlock n)).reserve = none → (u.block (cellBlock n)).reserve = some (cellLocal n))) ∧
     (c.retired = true → Becomes (.cellReturn n) s s) ∧
     (∀ t, c.trap = some t → s.time.powered < t.since + 10000000 → Becomes (.cellReturn n) s s)) ∧
  (∀ (b address : Nat) (hs : Bool) (s : State),
     ((s.block b).isolated = true → Becomes (.blockIsolation b hs address) s s) ∧
     ((s.block b).isolated = false → ∃ u : State, Becomes (.blockIsolation b hs address) s
         (u.logError 0x21 2 4 b 0xFFFF 0 (if hs then 6 else 3) (if hs then 0 else address)) ∧
       (u.block b).isolated = true ∧ (u.block b).threads = [] ∧ (u.block b).fifo = [] ∧ (u.block b).records = [] ∧
       (∀ i, i < 8 → (u.cell (8 * b + i)).running = none ∧ (u.cell (8 * b + i)).shadow = none ∧ (u.cell (8 * b + i)).stores = []) ∧
       (∀ c, c ∈ s.channelsOf b → (s.channel c).block = b → (s.channel c).state ≠ .idle → (u.channel c).state = .faulted)))

/-- What a trap that halts a cell leaves of it: the cause and code, nothing in flight, no record open, no thread, and RETIRED by a second memory
error within a day (R343, R346, R521).

A tick release sets TICK_PEND, the tick and the deadline, makes a WAITING thread READY and counts a skip where the thread's last tick was not
taken; the end of a run makes it READY again where work was released meanwhile and WAITING otherwise (R374, R391). -/
def Obligations.TrapsReleasesAndEndsOfRuns : Prop :=
  (∀ (k : TrapCause) (code now : Nat) (c : Cell), let d := haltCell k code now c
     d.trap = some { cause := k, code := code, since := now } ∧ d.bank0.flight = [] ∧ d.bank1.flight = [] ∧ d.bank0.regs = c.bank0.regs ∧
     d.bank1.regs = c.bank1.regs ∧ d.stores = [] ∧ d.open_ = [] ∧ d.running = none ∧ d.shadow = none ∧ cellInService d = false ∧
     d.xmem = c.xmem ∧ d.ymem = c.ymem ∧ d.imem = c.imem ∧
     (4 ≤ trapCode k → d.retired = c.retired) ∧
     (trapCode k ≤ 3 → (∀ t ∈ c.memTraps, t + 86400000000000 ≤ now) → d.retired = c.retired) ∧
     (trapCode k ≤ 3 → (∃ t ∈ c.memTraps, now < t + 86400000000000) → d.retired = true)) ∧
  ((∀ (p : Nat) (t : Thread), let u := tickRelease p t
     u.tickPend = true ∧ u.tick = p / 80 ∧ u.deadline = 125000 * p + 1000 * t.budget ∧ u.missed = false ∧
     (t.state = .waiting → u.state = .ready) ∧ (t.state ≠ .waiting → u.state = t.state) ∧
     (t.tickPend = true → u.skips = t.skips + 1) ∧ (t.tickPend = false → u.skips = t.skips) ∧
     u.pending = t.pending ∧ u.taken = t.taken ∧ u.channel = t.channel ∧ u.cell = t.cell) ∧
   (∀ (t : Thread), let u := endedRun t
     ((t.tickPend = true ∨ t.tdmPend = true ∨ t.eventPend = true) → u.state = .ready) ∧
     (t.tickPend = false → t.tdmPend = false → t.eventPend = false → u.state = .waiting) ∧
     u.taken = [] ∧ u.pending = t.pending ∧ u.runs = t.runs + 1 ∧ u.restart = false) ∧
   (∀ (t : Thread), let u := beginRun t
     u.state = .running ∧ u.taken = t.pending ∧ u.pending = [] ∧ u.tickPend = false ∧ u.tdmPend = false ∧ u.eventPend = false))

/-- PHASE_BOUNDARY, STAGING_START, STAGING_COMPLETE and SUSPEND_SAVE: once a phase its threads are released and the displacements decided; the
candidate goes into a free shadow as STAGING, then STAGED; the thread suspended in the shadow goes into its record
once another is to be staged there (R374, R379, R382 to R384, R387).

COMMIT_COMPLETE, DEADLINE_MISS, SIGNAL_RECORD and CONTEXT_REBUILT: the oldest copy ends in DRAM and its run is committed; a late run is counted
once, apart while Frost drives; a closed record enters the event FIFO once; a rebuilt thread can be staged with its first-run mark (R343, R377, R378, R388,
R390, R392, R519).

NOTICE_RECORD: Damium takes the oldest closed record and sends its notice in its group (R343, R426). -/
def Obligations.ThreadEventsComplete : Prop :=
  ((∀ (b : Nat) (s : State), s.blockRuns b = true → (s.block b).lastPhase ≠ some s.absPhase →
     Becomes (.phaseBoundary b) s (let s0 := s.modBlock b (fun k => { k with lastPhase := some s.absPhase })
       (List.range 8).foldl (fun s i => s.decideCell b i) ((s0.releasedSlots b s.absPhase).foldl (fun s e => s.releaseOne b s.absPhase e) s0))) ∧
   (∀ (n i : Nat) (t : Thread) (s : State), s.blockRuns (cellBlock n) = true → cellInService (s.cell n) = true → (s.cell n).shadow = none →
     s.copiesLeft n = [] → (s.cell n).running ≠ some i → s.thread (cellBlock n) i = t → candidate (s.absPhase + 1) s.mayRun (s.block (cellBlock n)) (cellLocal n) = some (i, t) →
     t.state ≠ .suspended → (i < 1024 → (s.channel t.channel).slotBad = false) →
     ∃ u : State, Becomes (.stagingStart n .clean) s u ∧ (u.cell n).shadow = some i ∧ (u.thread (cellBlock n) i).state = .staging ∧
       (u.cell n).running = (s.cell n).running ∧ u.channels = s.channels) ∧
   (∀ (n t : Nat) (s : State), (s.cell n).shadow = some t → (s.thread (cellBlock n) t).state = .staging →
     Becomes (.stagingComplete n) s ((s.modThread (cellBlock n) t (fun k => { k with state := .staged })).swapIfDue n)) ∧
   (∀ (n t r : Nat) (s : State), (s.cell n).shadow = some t → (s.thread (cellBlock n) t).state = .suspended →
     (s.thread (cellBlock n) t).suspendRec = some r → s.staysNext n t = false →
     ∃ u : State, Becomes (.suspendSave n) s u ∧ (u.cell n).shadow = none ∧ (u.thread (cellBlock n) t).state = .suspended ∧
       (u.thread (cellBlock n) t).suspendRec = some r ∧
       (tabFind? (u.block (cellBlock n)).saves r).map (·.bank) =
         some (drainBank (if (s.cell n).bank then (s.cell n).bank0 else (s.cell n).bank1)))) ∧
  ((∀ (b : Nat) (k : CommitCopy) (r : List CommitCopy) (o : OpenRun) (l : List OpenRun) (s : State), (s.block b).commits = k :: r → k.slot < 1024 →
     (s.thread b k.slot).state ≠ .free → tabGet s.openRuns (s.thread b k.slot).channel [] = o :: l → o.ended = true →
     let s1 := s.modBlock b (fun q => { q with commits := r })
     let c := (s.thread b k.slot).channel
     Becomes (.commitComplete b .clean) s
       ((({ s1 with openRuns := tabSet s.openRuns c l [] }.modChannel c
         (fun v => if v.state = ChState.idle then v else { v with format := s1.commitFormat b })).payOwed
           (owedBy (entryEvents o.entries))).contextLeaves c k.tick)) ∧
   (∀ (b t : Nat) (s : State), let k := s.thread b t
     (k.state = .running ∨ k.state = .suspended) → k.missed = false → k.deadline ≤ s.clocks.mediaNs →
     ∃ u : State, Becomes (.deadlineMiss b t) s u ∧ (u.thread b t).missed = true ∧ (u.thread b t).state = k.state ∧
       (u.thread b t).misses = (if s.clocks.frost then k.misses else k.misses + 1)) ∧
   (∀ (b sender seq t value : Nat) (s : State), s.blockRuns b = true → (s.block b).fifo.length < fifoSize →
     (s.block b).taken.contains (sender, (s.thread b sender).tick, 4, seq) = false →
     ∃ u : State, Becomes (.signalRecord b sender seq t value) s u ∧ (u.block b).fifo = (s.block b).fifo ++ [(t, .signal value sender)] ∧
       (u.block b).threads = (s.block b).threads ∧ ∀ d, d ≠ b → u.block d = s.block d) ∧
   (∀ (b sender seq t value : Nat) (s : State), s.blockRuns b = true → (s.block b).fifo.length < fifoSize →
     (s.block b).taken.contains (sender, (s.thread b sender).tick, 4, seq) = true →
     Becomes (.signalRecord b sender seq t value) s (s.bumpBlock b .signalDiscard)) ∧
   (∀ (c t : Nat) (s : State), (s.channel c).slot = some t → (s.thread (s.channel c).block t).rebuild = true →
     ∃ u : State, Becomes (.contextRebuilt c) s u ∧ (u.thread (s.channel c).block t).rebuild = false ∧
       (u.thread (s.channel c).block t).restart = true ∧ (u.thread (s.channel c).block t).first = true ∧
       (u.channel c).applied = (s.channel c).accepted ∧ (u.channel c).state = (s.channel c).state ∧
       ∀ d, d ≠ c → u.channel d = s.channel d)) ∧
  (∀ (b : Nat) (k : NoticeRec) (r : List NoticeRec) (g : Group) (s : State), (s.block b).notices = k :: r →
     [Group.system, .channel, .tone, .media, .flow, .time, .port, .tdm, .clockPower, .fault, .stack][k.group]? = some g →
     Becomes (.noticeRecord b) s ((s.modBlock b (fun q => { q with notices := r })).notice g k.v4 k.opcode k.target k.tlvs))

/-- EVENT_FIFO_ENTRY gives the head of the FIFO to its thread: packets and signals join a list with room or are counted as discarded, a command
always joins; an entry that the thread wakes on makes it READY. While the pool is full nothing moves (R377, R389, Table 14.4). -/
def Obligations.FifoEntryReachesItsThread : Prop :=
  ∀ (b t : Nat) (e : PendEntry) (r : List (Nat × PendEntry)) (s : State), (s.block b).fifo = (t, e) :: r → s.blockRuns b = true →
    let q := s.thread b t
    (8192 ≤ poolUsed (s.block b) → Becomes (.eventFifoEntry b) s s) ∧
    (poolUsed (s.block b) < 8192 → q.state ≠ .free → ((∀ c, e ≠ .command c) → q.pending.length < 64) →
      ∃ u : State, Becomes (.eventFifoEntry b) s u ∧ (u.thread b t).pending = q.pending ++ [e] ∧ (∀ d, d ≠ t → u.thread b d = s.thread b d) ∧
        (u.block b).fifo = (refillFifo { s.block b with fifo := r }).fifo ∧
        (∀ c, e = .command c → q.wakeCommand = true → q.state = .waiting → (u.thread b t).state = .ready ∧ (u.thread b t).eventPend = true) ∧
        (∀ p, e = .packet p → (u.thread b t).state = q.state ∧ (u.thread b t).eventPend = q.eventPend)) ∧
    (∀ p, poolUsed (s.block b) < 8192 → e = .packet p → (q.state = .free ∨ 64 ≤ q.pending.length) →
      Becomes (.eventFifoEntry b) s ((s.modBlock b (fun k => refillFifo { k with fifo := r })).bumpBlock b .pendingDiscard)) ∧
    (∀ v w, poolUsed (s.block b) < 8192 → e = .signal v w → (q.state = .free ∨ 64 ≤ q.pending.length) →
      Becomes (.eventFifoEntry b) s ((s.modBlock b (fun k => refillFifo { k with fifo := r })).bumpBlock b .signalDiscard)) ∧
    (∀ c, poolUsed (s.block b) < 8192 → e = .command c → q.state = .free →
      Becomes (.eventFifoEntry b) s (s.modBlock b (fun k => refillFifo { k with fifo := r })))

/-! ## Channels and their media (chapters 2 and 6 to 10) -/

/-- TICK_RUN: a thread that waits or is ready is taken through a whole run, one that RUNS works on what it took; in HOLD and OPENED every packet is freed with
STATE_DISCARD; while Frost drives, a run that had media is counted in FROST_DISCARD alone; a channel in IDLE or FAULTED does not run (R29, R31, R42, R43, R480).

Command events take effect in the run that takes them: a channel's run state follows ACTIVATE, HOLD, RESUME and DRAIN, a play joins its queue or
takes the leg, a generator starts and stops (R38, R42 to R44, R292). The run ends by releasing what ended plays had reserved (R220). -/
def Obligations.RunsAndCommandsTakeEffect : Prop :=
  (∀ (c : Nat) (s : State), let v := s.channel c
     (v.state = .idle ∨ v.state = .faulted → Becomes (.tickRun c) s s) ∧
     (∀ t, v.slot = some t → v.state ≠ .idle → v.state ≠ .faulted → v.runsIn s.tick = true → (s.thread v.block t).state = .running →
       Becomes (.tickRun c) s (s.cellRun c (s.thread v.block t).taken).sendLegBlocks) ∧
     (∀ t, v.slot = some t → v.state ≠ .idle → v.state ≠ .faulted → v.runsIn s.tick = true →
       ((s.thread v.block t).state = .waiting ∨ (s.thread v.block t).state = .ready) →
       Becomes (.tickRun c) s (s.wholeRun c v.block t (s.thread v.block t).pending).sendLegBlocks) ∧
     (∀ l, let s1 := s.drawn.runStep1 c (entryEvents l)
       ((s1.channel c).runState = .hold ∨ (s1.channel c).runState = .opened) →
       let clear := fun (w : Channel) (k : Nat) => let x := w.stream k
         w.setStream k { x with out := [] }
       s.channelRun c l = (((entryPackets l).foldl State.dropPacket s1).modChannel c
         (fun w => clear (clear w (tdmInKey 0)) (tdmInKey 1))).modChannel c releasePlayers) ∧
     (∀ l, let s1 := s.drawn.runStep1 c (entryEvents l)
       s1.clocks.frost = true → (s1.channel c).runState = .active → (s1.channel c).media.frosted = true →
       let n := countAdd s1.clocks.counts ClockCount.frostDiscard.ctorIdx (entryPackets l).length
       s.channelRun c l = { s1 with clocks := { s1.clocks with counts := n } }.modChannel c releasePlayers)) ∧
  (∀ (c : Nat) (s : State),
     (((s.takeEvent c .activate).channel c).runState = .active) ∧
     (((s.takeEvent c .hold).channel c).runState = .hold) ∧
     (((s.takeEvent c .drain).channel c).runState = .draining) ∧
     (((s.takeEvent c .resume).channel c).runState = .active) ∧
     (∀ r st, s.takeEvent c (.complete r st) = s) ∧
     (∀ leg table mode off, leg < 2 → (((s.takeEvent c (.tone leg table mode off)).channel c).legMedia leg).generator =
       some { table := table, image := (s.tableImage table).getD [], replace := mode == 1, level := off }) ∧
     (∀ leg, leg < 2 → (((s.takeEvent c (.stopTone leg)).channel c).legMedia leg).generator = none) ∧
     (∀ leg, leg < 2 → (((s.takeEvent c (.stopPlay leg)).channel c).legMedia leg).prompt = none ∧
       (((s.takeEvent c (.stopPlay leg)).channel c).legMedia leg).queue = []) ∧
     (∀ leg ids rp mode level n, leg < 2 → ((s.channel c).legMedia leg).prompt ≠ none →
       (((s.takeEvent c (.play leg ids rp mode level n true)).channel c).legMedia leg).queue = ((s.channel c).legMedia leg).queue ++
         [{ prompts := ids, repeats := rp, replace := mode == 1, level := level, notify := n }] ∧
       (((s.takeEvent c (.play leg ids rp mode level n true)).channel c).legMedia leg).prompt = ((s.channel c).legMedia leg).prompt))

/-- SSRC_ADOPTION, EVENT_EXTEND_TIMEOUT and CONTEXT_CLEARED: a third packet of a new SSRC makes it the leg's (R176); an event that has run
EVENT_EXTEND past its last duration ends, by TIMEOUT where it was reported (R280); a zeroed slot no longer clears, and the opening that
waited for it is applied (R48).

The canceller's timers and declarations: hang-overs end their state; a path change and a divergence put it back to converging, the latter halving
its coefficients; 20 or 40 adapting blocks of good ERLE make it converged; 250 ms of quiet end a disabling tone (R256 to R260, R263, Table 9.4). -/
def Obligations.ChannelEventsComplete : Prop :=
  (∀ (c leg : Nat) (s : State), leg < 2 → let v := s.channel c
     (∀ x k, (v.legMedia leg).play.candidate = some (x, k) → 3 ≤ k →
       ∃ u : State, Becomes (.ssrcAdoption c leg) s u ∧ ((u.channel c).legMedia leg).play.ssrc = x ∧
         ((u.channel c).legMedia leg).play.stale = some (v.legMedia leg).play.ssrc ∧
         ((u.channel c).legMedia leg).play.candidate = none ∧ ((u.channel c).legMedia leg).play.adopted = true ∧
         (u.channel c).legMedia (1 - leg) = v.legMedia (1 - leg) ∧ (u.channel c).applied = v.applied ∧ ∀ d, d ≠ c → u.channel d = s.channel d) ∧
     (∀ e, (v.legMedia leg).play.events.find? (fun e => !e.ended && decide (extendLen v leg ≤ e.extended)) = some e → e.reported = none →
       Becomes (.eventExtendTimeout c leg) s (s.modLeg c leg (fun m => { m with play := { m.play with
         events := m.play.events.map (fun z => if z = e then { z with ended := true } else z) } }))) ∧
     (∀ e id u, (v.legMedia leg).play.events.find? (fun e => !e.ended && decide (extendLen v leg ≤ e.extended)) = some e → e.reported = some id →
       u = s.modLeg c leg (fun m => { m with play := { m.play with
         events := m.play.events.map (fun z => if z = e then { z with ended := true } else z) } }) →
       Becomes (.eventExtendTimeout c leg) s ((u.toneEvent c leg id 4 (if e.event ≤ 16 then 1 else 6) e.event e.pos e.pos
         (e.duration / v.rate) 2 noneValue (-(e.volume : Int))).stopEvent c (1 - leg) e.event
           (channelPos v leg (e.pos + (e.duration + e.extended : Nat))))) ∧
     ((v.legMedia leg).play.events.find? (fun e => !e.ended && decide (extendLen v leg ≤ e.extended)) = none →
       Becomes (.eventExtendTimeout c leg) s s) ∧
     (∃ u : State, Becomes (.contextCleared c) s u ∧ (u.channel c).clearing = false ∧ (u.channel c).openWaits = false ∧
       (u.channel c).state = v.state ∧ (∀ d, d ≠ c → u.channel d = s.channel d) ∧
       (∀ t, v.openWaits = true → v.slot = some t → (u.thread v.block t).wakeTick = true))) ∧
  (∀ (c : Nat) (s : State), let e := (s.channel c).media.echo
     let echo := fun (u : State) => (u.channel c).media.echo
     (e.hang = 0 → ∃ u : State, Becomes (.dtHangEnd c) s u ∧ echo u = { e with doubleTalk := false }) ∧
     (e.nlpHang = 0 → ∃ u : State, Becomes (.nlpHangEnd c) s u ∧ echo u = { e with nlp := false }) ∧
     (500 ≤ e.energyMs → ∃ u : State, Becomes (.pathChange c) s u ∧ (echo u).doubleTalk = false ∧ (echo u).state = .converging ∧
       (echo u).energyMs = 0 ∧ (echo u).counts = countAdd e.counts EchoCount.pathChange.ctorIdx 1 ∧ (echo u).align = e.align) ∧
     (4 ≤ e.divergeRun → adapting e.state = true → ∃ u : State, Becomes (.divergence c) s u ∧ (echo u).state = .converging ∧
       (echo u).parts = (List.range (partitions (s.channel c).applied (s.channel c).wide)).map (fun i => halvePart (e.part i)) ∧ (echo u).divergeRun = 0 ∧ (echo u).counts = countAdd e.counts EchoCount.divergence.ctorIdx 1) ∧
     (e.state = .converging → (if (s.channel c).wide then 40 else 20) ≤ e.convergeRun →
       ∃ u : State, Becomes (.converged c) s u ∧ (echo u).state = .converged ∧ (echo u).delay = e.delay) ∧
     (250 ≤ e.quietMs → ∃ u : State, Becomes (.toneDisableEnd c) s u ∧ (echo u).nlpDisabled = false ∧
       (echo u).state = (if e.state = .toneDisabled then e.before else e.state)))

/-- RS_IN_RECORD, DISSOLVE_END, SETTLE_END and FILL_MEASUREMENT: a block goes to its stream once a tick; a finished cross-fade drops the old chain and
begins what was held; the
ratio change applies when the flagged outputs are out; the first measurement sets the target, a later one within 4 samples the trim, and one
beyond asks for a realignment, once a tick (R221, R233, R237, R239, R240).

TICK_ORIGIN acts once a tick, in order: staged tables commit, schedules and spare policies apply, moves complete, reserves rebind, evacuations go on
(R289, R381, R397, R545). -/
def Obligations.StreamAndTickEventsComplete : Prop :=
  (∀ (c k : Nat) (s : State), let v := s.channel c
     let st := v.stream k
     let after := fun (u : State) => (u.channel c).stream k
     (∀ tick l, s.arrayRuns v.block = true → mediaRuns v.runState = true →
       (st.present = false → ∃ u : State, Becomes (.rsInRecord c k tick l) s u ∧ after u = st) ∧
       (st.present = true → st.lastTick = some tick →
         ∃ u : State, Becomes (.rsInRecord c k tick l) s u ∧ after u = countStream st .dupBlock 1) ∧
       (∀ x, st.present = true → st.lastTick ≠ some tick → x = streamPush { st with lastTick := some tick } (l.map BitVec.toInt) →
         ∃ u : State, Becomes (.rsInRecord c k tick l) s u ∧
           (crossing k = true → after u = { x with last := [] }) ∧
           (∀ y, crossing k = false → y = streamTake (s.drift v k) (dissolveLen v k) (settlePass v k) (x.chain.fout * 10) x →
             after u = { y.2 with last := y.1 }))) ∧
     (∀ d, st.dissolve = some d →
       (d.count < settleCount st.chain + dissolveLen v k → ∃ u : State, Becomes (.dissolveEnd c k) s u ∧ after u = st) ∧
       (settleCount st.chain + dissolveLen v k ≤ d.count → ∃ u : State, Becomes (.dissolveEnd c k) s u ∧ after u =
         if st.held then startDissolve { st with dissolve := none } (streamChain v k st.inRate st.chain.fout) st.heldZeros st.heldMove
         else { st with dissolve := none })) ∧
     (st.settle = 0 → ∃ u : State, Becomes (.settleEnd c k) s u ∧ after u = { st with settling := false }) ∧
     (st.settle ≠ 0 → ∃ u : State, Becomes (.settleEnd c k) s u ∧ after u = st) ∧
     (∀ fill now, crossing k = true → st.present = true → fill = st.chain.newest - st.chain.pos →
       now = { st with fill := fill, measured := some s.tick } →
       ∃ u : State, Becomes (.fillMeasurement c k) s u ∧
         (st.measured = some s.tick → after u = st) ∧
         (st.measured ≠ some s.tick → st.target = none → after u = { now with target := some fill }) ∧
         (∀ t, st.measured ≠ some s.tick → st.target = some t →
           ((fill - t).natAbs ≤ 4 → after u = { now with trim := trimOf (fill - t) }) ∧
           (4 < (fill - t).natAbs → st.held = true → st.heldMove ≠ 0 → after u = now) ∧
           (4 < (fill - t).natAbs → (st.held = false ∨ st.heldMove = 0) →
             after u = requestDissolve now (streamChain v k st.inRate st.chain.fout) (marginOf k) false (fill - t))))) ∧
  (∀ (s : State),
     (s.clocks.lastOrigin = some s.tick → Becomes .tickOrigin s s) ∧
     (s.clocks.lastOrigin ≠ some s.tick →
       let s0 := { s with clocks := { s.clocks with lastOrigin := some s.tick },
                          stack := { s.stack with commitFormat := s.stack.equinox.map (fun (e : Equinox) => e.format) } }
       Becomes .tickOrigin s ((((((((s0.commitTables).eachBlock State.applySchedule).eachBlock State.applySpare).eachMoving
         State.completeMove).eachMoving State.lateContext).eachBlock State.rebind).eachBlock State.evacuate))))

/-! ## Packets and Ethernet ports (chapters 3 and 5) -/

/-- FRAME_RECEIVED on a port whose MAC runs: an express frame on a port that is up is discarded and counted for want of room in the ingress
buffer, an uncorrectable error there, its length, its FCS or its address, in that order, and else counted and taken as MAC control or
examined with the stamp of its SFD; on a port that is down it is counted in RX_NOT_UP alone (R26, R64, R66, R89, R113, R605). An express
frame where a fragment was expected discards what was partial first.

Fragments of a preempted frame are put together: a first one begins, and drops a frame that was partial; one in order joins, the last
completes the frame, one out of order or with a bad mCRC discards it with REASSEMBLY_ERROR (R88). With PREEMPT OFF fragments are no frames
(R84). -/
def Obligations.ReceivedFramesAreChecked : Prop :=
  (∀ (f : RxFrame) (s : State) (i n : Nat) (p : Port), i = f.port → p = s.port i → n = f.bytes.length + 4 → f.framing = .express → i < 4 →
     s.macReceives i = true →
     (p.up = false → Becomes (.frameReceived f) s ((s.setPort i { p with reassembly := none, fragmentDue := false }).bumpPort i .rxNotUp)) ∧
     (∀ u, p.up = true → u = s.setPort i p.expressBeforeFragment →
       (p.ingressRoom f.bytes.length f.room = false → Becomes (.frameReceived f) s (u.bumpPort i .rxBufferDiscard)) ∧
       (p.ingressRoom f.bytes.length f.room = true → f.ecc = .uncorrectable →
         Becomes (.frameReceived f) s ((u.bumpPort i .rxBufferDiscard).drawn.logError 0x41 4 8 i 0xFFFF 0 5 u.freeValue)) ∧
       (∀ w v, p.ingressRoom f.bytes.length f.room = true → f.ecc ≠ .uncorrectable →
         w = (if f.ecc = .corrected then u.drawn.correctable 0x13 4 i 5 u.freeValue 5 0 else u) → v = w.bumpPort i .rxFrames →
         ((n < 64 ∨ (u.port i).maxFrame < n) → Becomes (.frameReceived f) s (w.bumpPort i .rxLengthError)) ∧
         (64 ≤ n → n ≤ (u.port i).maxFrame → f.fcsGood = false → Becomes (.frameReceived f) s (w.bumpPort i .rxFcsError)) ∧
         (64 ≤ n → n ≤ (u.port i).maxFrame → f.fcsGood = true → w.accepts i f.bytes = false →
           Becomes (.frameReceived f) s (w.bumpPort i .rxAddrDiscard)) ∧
         (64 ≤ n → n ≤ (u.port i).maxFrame → f.fcsGood = true → w.accepts i f.bytes = true → v.takesControl i f.bytes = true →
           Becomes (.frameReceived f) s (v.modPort i (Port.control v.now10 f.bytes))) ∧
         (64 ≤ n → n ≤ (u.port i).maxFrame → f.fcsGood = true → w.accepts i f.bytes = true → v.takesControl i f.bytes = false →
           Becomes (.frameReceived f) s (v.examine i f.bytes (s.ingressStamp p f.bytes.length f.vary)
             (s.ingressPowered p f.bytes.length f.vary) f.lookup))))) ∧
  (∀ (f : RxFrame) (s : State) (i : Nat) (p : Port) (x : Reassembly), i = f.port → p = s.port i → i < 4 → s.macReceives i = true → p.up = true →
     p.preempt ≠ 0 → x = { bytes := f.bytes, next := 0, stamp := s.ingressStamp p f.bytes.length f.vary,
                           powered := s.ingressPowered p f.bytes.length f.vary } →
     (∀ q, q = (if p.reassembly.isSome then p.dropPartial false else p) →
       (f.framing = .first true → Becomes (.frameReceived f) s (s.setPort i { q with fragmentDue := false, reassembly := some x })) ∧
       (f.framing = .first false → Becomes (.frameReceived f) s (s.setPort i (q.dropPartial true)))) ∧
     (∀ k good last, p.reassembly = none → f.framing = .continuation k good last →
       Becomes (.frameReceived f) s (if last then s.setPort i { p with fragmentDue := false } else s)) ∧
     (∀ r y, p.reassembly = some r → f.framing = .continuation r.next true false →
       y = { r with bytes := r.bytes ++ f.bytes, next := (r.next + 1) % 4 } →
       Becomes (.frameReceived f) s (s.setPort i { p with reassembly := some y })) ∧
     (∀ r q good, p.reassembly = some r → f.framing = .continuation r.next good true → q = { p with reassembly := none } →
       Becomes (.frameReceived f) s ((s.setPort i q).wholeFrame i (r.bytes ++ f.bytes) f.fcsGood
         (q.ingressRoom (r.bytes.length + f.bytes.length) f.room) r.stamp r.powered f.ecc f.lookup)) ∧
     (∀ r k good last, p.reassembly = some r → f.framing = .continuation k good last → (k ≠ r.next ∨ (last = false ∧ good = false)) →
       Becomes (.frameReceived f) s (s.setPort i (p.dropPartial (!last))))) ∧
  (∀ (f : RxFrame) (s : State), f.framing ≠ .express → (s.port f.port).up = true → (s.port f.port).preempt = 0 →
     Becomes (.frameReceived f) s s)

/-- A matched datagram is counted in RX_PACKETS and RX_BYTES and taken by its own device, sent to the reachable member that owns it, or counted as
unreachable (R145, R146).

HELD_PACKET_POST, PE_DESCRIPTOR, FORWARDED_PACKET and FORWARDED_FYLOS: the oldest held packet goes to its channel once there is room, and stays
while there is none (R161, R162); the oldest descriptor is assembled on its template, a UDPTL one without SRTP, unless the egress queue of its
port lacks room, and is gone with nothing sent where its template is not there (R164, R166); a member's packet is handled as if it had arrived
here, its frame queued under the port's own identification, its command run as one of the stack, its reply, completion or notice passed on
(R146, R411, R539). -/
def Obligations.PacketsReachTheirDevice : Prop :=
  (∀ (a : Arrival) (s u : State) (f : Flows), f = flowCount (flowCount s.flows a.flow.id .rxPackets 1) a.flow.id .rxBytes (a.frame.length + 4) →
     u = { s with flows := f } →
     (a.flow.device = s.stack.number → s.matched a = u.takeDatagram a) ∧
     (a.flow.device ≠ s.stack.number → u.canReach a.flow.device = true →
       s.matched a = (u.bumpStack .forwardedPackets).sendMessage a.flow.device 0x01 (arrivalContent a)) ∧
     (a.flow.device ≠ s.stack.number → u.canReach a.flow.device = false → s.matched a = u.bumpStack .unreachableDiscard)) ∧
  (∀ (b : Nat) (s : State) (k : Block), k = s.block b →
     (k.packetHold = [] → Becomes (.heldPacketPost b) s s) ∧
     (∀ a r, k.packetHold = a :: r → canPost k a.payload.length = true →
       Becomes (.heldPacketPost b) s
         ((s.setBlock b { k with packetHold := r }).cryptoPacket a (rxKindOf (flowActionOf a.flow.action) a.payload))) ∧
     (∀ a r, k.packetHold = a :: r → canPost k a.payload.length = false → Becomes (.heldPacketPost b) s s)) ∧
  (∀ (r : Nat) (s u : State) (e d : Descriptor) (l : List Descriptor), (s.region r).descriptors = e :: l → d = plainUdptl e →
     u = s.setRegion r { s.region r with descriptors := l } →
     (tabFind? s.flows.templates d.record.template = none → Becomes (.peDescriptor r) s u) ∧
     (∀ t n, tabFind? s.flows.templates d.record.template = some t → udpEnd t.bytes = some n →
       (s.clockRuns (52 + r) = false → Becomes (.peDescriptor r) s s) ∧
       (∀ k, s.clockRuns (52 + r) = true → egressDevice d.record.egress = s.stack.number → k = s.egressKey (egressPort d.record.egress) →
         (egressRoom < (s.region r).queued k + s.frameLength d t n → Becomes (.peDescriptor r) s s) ∧
         ((s.region r).queued k + s.frameLength d t n ≤ egressRoom → Becomes (.peDescriptor r) s (u.assemble r k d t n))) ∧
       (s.clockRuns (52 + r) = true → egressDevice d.record.egress ≠ s.stack.number →
         Becomes (.peDescriptor r) s (u.assemble r (egressPort d.record.egress) d t n)))) ∧
  (∀ (s : State) (dev : Nat),
     (∀ f port frame stamp n, udpOffset frame = some n →
       Becomes (.forwardedPacket dev (.flow f port frame stamp)) s ((s.takeMessage dev 0x01).takeDatagram (arrivalOf f port frame n stamp))) ∧
     (∀ f port frame stamp, udpOffset frame = none → Becomes (.forwardedPacket dev (.flow f port frame stamp)) s (s.takeMessage dev 0x01)) ∧
     (∀ frame stamp powered, Becomes (.forwardedPacket dev (.ptp frame stamp powered)) s
       ((s.takeMessage dev 0x03).forwardPtp none frame stamp powered)) ∧
     (∀ region port frame k n f, k = s.egressKey port → n = (s.takeMessage dev (Config.messageKind 1)).nextId k → f = numbered n.2 frame →
       Becomes (.forwardedPacket dev (.egress region port frame)) s
         (n.1.queueEgress region k { media := true, length := wireLength f, content := .other f })) ∧
     (∀ k op (p : Packet), Becomes (.forwardedFylos dev (.command k op p)) s
       (fylosRun op.toNat (bodyOf op.toNat) { p with source := .stack k (isRing p.source) } (s.takeMessage dev 0x10))) ∧
     (∀ k r st l u, u = s.takeMessage dev 0x10 →
       (({ device := k, ref := r } : Forwarded) ∉ u.stack.forwarded → Becomes (.forwardedFylos dev (.reply k r st l)) s u) ∧
       (∀ e w, e = ({ device := k, ref := r } : Forwarded) → e ∈ u.stack.forwarded →
         w = { u with stack := { u.stack with forwarded := u.stack.forwarded.erase e },
                      fylos := { u.fylos with outstanding := if st = stAccepted then u.fylos.outstanding ++ [r] else u.fylos.outstanding } } →
         Becomes (.forwardedFylos dev (.reply k r st l)) s (State.relay w .reply k r st l)) ∧
       (r ∉ u.fylos.outstanding → Becomes (.forwardedFylos dev (.completion k r st l)) s u) ∧
       (∀ w, r ∈ u.fylos.outstanding → w = { u with fylos := { u.fylos with outstanding := u.fylos.outstanding.erase r } } →
         Becomes (.forwardedFylos dev (.completion k r st l)) s
           (if State.deliverable w r.source then State.relay w .completion k r st l else State.bumpFylos w .droppedCompletions))) ∧
     (∀ k g v4 op target l, Becomes (.forwardedFylos dev (.notice k g v4 op target l)) s
       ((s.takeMessage dev 0x10).relayNotice k (groupOf g) v4 op target l)))

/-- EGRESS_PARTITION_ACCEPT, form by form: a port that does not send for its pair, or whose MAC stands, takes nothing; else the head of a
region's egress queue enters its partition once it has room and stays at its source while it has none, as does a frame of Damium, of its PTP
engine, which sends while Damium owns PTP, and a datagram of Fylos (R65, R97, R128). FRAME_COMMIT commits the frame that may start, or asks
for a cut of the bulk frame on the wire (R71, R76, R85, R607). The SFD puts the first frame committed in transmission, and records its
stamp where that was asked for (R121). -/
def Obligations.EgressEventsComplete : Prop :=
  ∀ (i vary : Nat) (s : State),
    (∀ src, (s.senderOf i ≠ some i ∨ s.macRuns i = false) → Becomes (.egressPartitionAccept i src) s s) ∧
    (∀ k u, s.senderOf i = some i → s.macRuns i = true → k = s.egressKey i →
      u = (s.modPort i (fun p => p.settle s.now10)).modPort k (fun w => w.withoutOwn i) →
      (∀ r, tabGet (u.region r).egress k [] = [] → Becomes (.egressPartitionAccept i (.region r)) s u) ∧
      (∀ r f l, tabGet (u.region r).egress k [] = f :: l → (u.port i).roomFor f = true →
        Becomes (.egressPartitionAccept i (.region r)) s ((u.modRegion r (fun g => { g with egress := tabSet g.egress k l [] })).acceptFrame i f)) ∧
      (∀ r f l, tabGet (u.region r).egress k [] = f :: l → (u.port i).roomFor f = false → Becomes (.egressPartitionAccept i (.region r)) s u) ∧
      ((u.port i).nextWaiting (u.port (u.egressKey i)) = none → Becomes (.egressPartitionAccept i .damium) s u) ∧
      (∀ f, (u.port i).nextWaiting (u.port (u.egressKey i)) = some f → Becomes (.egressPartitionAccept i .damium) s
        ((u.modPort (u.egressKey i) (fun p => { p with waiting := p.waiting.erase f })).acceptFrame i f)) ∧
      (∀ f ts one id, (s.time.hostOwner = true ∨ u.frameLimit i < f.length + 4 ∨ (one = true ∧ isSync f = false)) →
        Becomes (.egressPartitionAccept i (.ptpEngine f ts one id)) s u) ∧
      (∀ f ts one id, s.time.hostOwner = false → f.length + 4 ≤ u.frameLimit i → (one = true → isSync f = true) →
        Becomes (.egressPartitionAccept i (.ptpEngine f ts one id)) s ((u.queuePtp i f ts one id).acceptWaiting i)) ∧
      (u.nextDatagram i = none → Becomes (.egressPartitionAccept i .fylos) s u) ∧
      (∀ d l f w, u.nextDatagram i = some (d, l) → f = { media := false, length := datagramLength d, content := .fylos d } →
        w = { u with fylos := { u.fylos with udpOut := l } } →
        Becomes (.egressPartitionAccept i .fylos) s
          (if (u.port i).roomFor f then (State.acceptFrame w i f).fenceLeft d.part.fence else u))) ∧
    (∀ u p, u = (s.modPort i (fun p => p.settle s.now10)).dropTooLong i → p = u.port i →
      ((p.up = false ∨ u.senderOf i ≠ some i ∨ u.macRuns i = false) → Becomes (.frameCommit i vary) s u) ∧
      (p.up = true → u.senderOf i = some i → u.macRuns i = true →
        (u.startOf p = .nothing → Becomes (.frameCommit i vary) s u) ∧
        (u.startOf p = .cut → Becomes (.frameCommit i vary) s (u.setPort i (p.requestCut s.now10))) ∧
        (∀ f q, u.startOf p = .media f → q = { p with media := p.media.drop 1 } →
          Becomes (.frameCommit i vary) s ((u.setPort i (Port.guardEnds q)).commitFrame i vary f 0)) ∧
        (∀ f, u.startOf p = .bulk f → Becomes (.frameCommit i vary) s ((u.setPort i { p with bulk := p.bulk.drop 1 }).commitFrame i vary f 0)) ∧
        (∀ r, u.startOf p = .rest r →
          Becomes (.frameCommit i vary) s ((u.setPort i { p with remainder := none }).commitFrame i vary r.frame r.from_)))) ∧
    (∀ p, p = (s.port i).settle s.now10 →
      ((p.committed = [] ∨ p.flight.isSome = true) → Becomes (.frameSfdTx i vary) s (s.setPort i p)) ∧
      (∀ f l q u t, p.committed = f :: l → p.flight = none → q = { p with committed := l, flight := some { f with sfdAt := s.now10 } } →
        u = s.setPort i (if f.from_ ≠ 0 then bumpPortCount q .fragmentsTx else q) → t = counterAt {} ((s.counter48 : Int) + p.txCorrection vary) →
        Becomes (.frameSfdTx i vary) s (if f.frame.tsReq = true ∧ f.from_ = 0 then
          u.record i { kind := .stamp, epoch := s.time.epoch.toNat, frameId := f.frame.frameId, seconds := t.seconds, ns := t.ns, frac := t.frac32 }
        else u)))

/-- SHUTTER_INTERVAL, SHUTTER_CYCLE_BOUNDARY, GUARD_BAND_START and PAUSE_TIMER_EXPIRY: an interval sets the gate; at its boundary a pending
schedule runs and its command completes, and before it the running one goes on; the guard band holds bulk back where media that is not paused
waits for an opening within G; a timer that has run out is zero (R73, R80, R82, R87, R90, R93).

VERIFY_RESPONSE and VERIFY_TIMEOUT: a response makes preemption active; 10 ms without one send another of three requests, then preemption
stays off and VERIFY_FAILED counts (R84). -/
def Obligations.ShutterPauseAndVerifyEventsComplete : Prop :=
  (∀ (i : Nat) (s : State) (p : Port), p = (s.port i).settle s.now10 →
     Becomes (.shutterInterval i) s ((s.modPort i (fun p => p.settle s.now10)).gateStep i) ∧
     (∀ k, p.pendingSchedule = some k → k.due s.count10 = true →
       Becomes (.shutterCycleBoundary i) s
         (((s.setPort i { p with schedule := some k.schedule, pendingSchedule := none, stepHold := false }).gateStep i).complete k.ref stOk [])) ∧
     ((∀ k, p.pendingSchedule = some k → k.due s.count10 = false) →
       (p.schedule = none → Becomes (.shutterCycleBoundary i) s ((s.setPort i p).gateStep i)) ∧
       (∀ c, p.schedule = some c → Becomes (.shutterCycleBoundary i) s
         ((s.setPort i (if p.holdFrom ≤ c.lastBoundary s.count10 then { p with stepHold := false } else p)).gateStep i))) ∧
     (p.media = [] → Becomes (.guardBandStart i) s (s.setPort i p)) ∧
     (∀ f l q, p.media = f :: l → q = p.asOf f →
       ((q.mediaPaused = true ∨ within (q.opensIn s.count10) (p.guardNs * 100) = false) → Becomes (.guardBandStart i) s (s.setPort i p)) ∧
       (q.mediaPaused = false → within (q.opensIn s.count10) (p.guardNs * 100) = true →
         Becomes (.guardBandStart i) s (s.setPort i { p.requestCut s.now10 with guard := true }))) ∧
     ((s.port i).pauseTimer ≤ s.now10 → ∃ u : State, Becomes (.pauseTimerExpiry i none) s u ∧ (u.port i).pauseTimer = 0 ∧
       (u.port i).pfcTimers = (s.port i).pfcTimers ∧ ∀ j, j ≠ i → u.port j = s.port j) ∧
     (s.now10 < (s.port i).pauseTimer → ∃ u : State, Becomes (.pauseTimerExpiry i none) s u ∧ u.port i = s.port i) ∧
     (∀ k, tabGet (s.port i).pfcTimers k 0 ≤ s.now10 → ∃ u : State, Becomes (.pauseTimerExpiry i (some k)) s u ∧
       tabGet (u.port i).pfcTimers k 0 = 0 ∧ (∀ j, j ≠ k → tabGet (u.port i).pfcTimers j 0 = tabGet (s.port i).pfcTimers j 0) ∧
       (u.port i).pauseTimer = (s.port i).pauseTimer) ∧
     (∀ k, s.now10 < tabGet (s.port i).pfcTimers k 0 → ∃ u : State, Becomes (.pauseTimerExpiry i (some k)) s u ∧ u.port i = s.port i)) ∧
  (∀ (i t : Nat) (s : State), (s.port i).verifying = some t →
     (∃ u : State, Becomes (.verifyResponse i) s u ∧ (u.port i).preemptActive = true ∧ (u.port i).verifying = none) ∧
     (s.time.powered < t + 10000000 → ∃ u : State, Becomes (.verifyTimeout i) s u ∧ u.port i = s.port i) ∧
     (t + 10000000 ≤ s.time.powered → (s.port i).verifyAttempts < 3 →
       ∃ u : State, Becomes (.verifyTimeout i) s u ∧ (u.port i).verifyAttempts = (s.port i).verifyAttempts + 1 ∧
         (u.port i).verifying = some s.time.powered ∧ (u.port i).preemptActive = (s.port i).preemptActive) ∧
     (t + 10000000 ≤ s.time.powered → 3 ≤ (s.port i).verifyAttempts →
       ∃ u : State, Becomes (.verifyTimeout i) s u ∧ (u.port i).verifying = none ∧ (u.port i).preemptActive = (s.port i).preemptActive ∧
         (u.port i).counts = bump (s.port i).counts PortCount.verifyFailed.ctorIdx)) ∧
  (∀ (i : Nat) (s : State), (s.port i).verifying = none →
     (∃ u : State, Becomes (.verifyResponse i) s u ∧ u.port i = s.port i) ∧
     (∃ u : State, Becomes (.verifyTimeout i) s u ∧ u.port i = s.port i))

/-- The links: a condition lost for 100 µs takes the link down and one in which all have held for 100 µs comes up, each with its notice; a shorter
interruption is counted in RX_PCS_INTERRUPT; a pair reverts to its lower member when the hold has passed, and stays with the other before
(R63, R97, R98, R604).

A link taken down aborts what is on the wire, a frame whose preamble has begun among it, drops a remainder, and ends preemption; a frame
committed and not begun is back at the head of its partition as it was (R604). -/
def Obligations.LinksComeAndGo : Prop :=
  (∀ (i : Nat) (s : State), let p := s.port i
     (∀ c, p.mode ≠ .disabled → (p.failed.any (fun e => e.1 == c)) = false → (c = .fecLock → p.mode.fec = true) →
       Becomes (.pcsConditionLost i c) s (s.setPort i { p with failed := p.failed ++ [(c, s.time.powered)] })) ∧
     (∀ c, (p.mode = .disabled ∨ p.failed.any (fun e => e.1 == c) = true ∨ (c = .fecLock ∧ p.mode.fec = false)) →
       Becomes (.pcsConditionLost i c) s (s.setPort i p)) ∧
     (∀ c l, p.failed.any (fun e => e.1 == c) = true → l = p.failed.filter (fun e => e.1 != c) →
       ∃ u : State, Becomes (.pcsConditionRegained i c) s u ∧ (u.port i).failed = l ∧
         (u.port i).regained = some (latestRegained p.regained c s.time.powered) ∧
         (u.port i).counts = (if l = [] ∧ p.up = true then bump p.counts PortCount.rxPcsInterrupt.ctorIdx else p.counts)) ∧
     (∀ c, p.failed.any (fun e => e.1 == c) = false → Becomes (.pcsConditionRegained i c) s (s.setPort i p)) ∧
     (∀ c t l, p.failed = (c, t) :: l → p.up = true → t + 100000 ≤ s.time.powered →
       Becomes (.linkDown i) s (s.takeDown i c.ctorIdx)) ∧
     (∀ c t l, p.failed = (c, t) :: l → s.time.powered < t + 100000 → Becomes (.linkDown i) s s) ∧
     (p.failed = [] → Becomes (.linkDown i) s s) ∧
     (p.up = false → Becomes (.linkDown i) s s) ∧
     (∀ c t, p.regained = some (c, t) → p.up = false → p.mode ≠ .disabled → p.failed = [] → t + 100000 ≤ s.time.powered →
       Becomes (.linkUp i) s (((s.setPort i ({ p with up := true, upSince := s.time.powered }.applyPreempt s.time.powered)).linkNotice i 1
         c.ctorIdx).pairUp i)) ∧
     ((p.regained = none ∨ p.up = true ∨ p.mode = .disabled ∨ p.failed ≠ []) → Becomes (.linkUp i) s s) ∧
     ((s.pair i).joined = true → (s.pair i).revert = true → (s.port (2 * i)).up = true → (s.pair i).active = some (2 * i + 1) →
       (s.port (2 * i)).upSince + (s.pair i).revertHold ≤ s.time.powered →
       Becomes (.revertHoldExpiry i) s (s.switchPair i (2 * i + 1) (2 * i) 2)) ∧
     (((s.pair i).joined = false ∨ (s.pair i).revert = false ∨ (s.port (2 * i)).up = false ∨ (s.pair i).active ≠ some (2 * i + 1) ∨
         s.time.powered < (s.port (2 * i)).upSince + (s.pair i).revertHold) → Becomes (.revertHoldExpiry i) s s)) ∧
  (∀ (i lead : Nat) (s t : State) (p : Port), t = s.abortPort i → p = (s.port i).settle s.now10 → lead = preambleBytes * p.mode.byteTime →
     (t.port i).up = false ∧ (t.port i).flight = none ∧ (t.port i).committed = [] ∧ (t.port i).remainder = none ∧
     (t.port i).preemptActive = false ∧ (t.port i).verifying = none ∧
     (∀ j, j ≠ i → t.port j = s.port j) ∧
     (∀ back, back = p.committed.filter (fun f => !decide (f.sfdAt ≤ s.now10 + lead) && f.from_ == 0) →
       (t.port i).media = (back.filter (fun f => f.frame.media)).map (·.frame) ++ p.media ∧
       (t.port i).bulk = (back.filter (fun f => !f.frame.media)).map (·.frame) ++ p.bulk ∧
       (t.port i).counts = countAdd p.counts PortCount.txAborted.ctorIdx
         (p.flight.toList.length + p.remainder.toList.length + (p.committed.length - back.length))))

/-! ## Time and TDM (chapters 4 and 11) -/

/-- How a sample in RUN is handled: below minus the step threshold the counter is stepped, above it and up to 10 ms slewed, beyond 10 ms stepped
or slewed as BACKWARD_STEP says, and between given to the PI; during a slew it is discarded; a sample far from the last accepted one while
LOCKED begins a quarantine unless the master has just changed or a clock event has come, and in a quarantine a far one becomes its latest and
a near one ends it. Each counts toward the lock (R131, R132, R134, R137).

OFFSET_SAMPLE, QUARANTINE_END, SLEW_END, STEP_APPLY and PPS_EDGE: Damium's sample is handled while Damium owns PTP, and ends the HOLD of a
new root; a quarantine that has lasted accepts its latest sample; a slew ends; a pending step is applied once no commitment is left; an edge
that has lasted 50 cycles of the time domain, 25 in Frost, is stamped with its filter's delay removed, and raises vector 9 for a host that
owns PTP; a shorter high has no effect (R117, R120, R128, R134, R137, R538, R594). -/
def Obligations.TimeEventsAndSamples : Prop :=
  (∀ (x thr : Int) (s u : State) (t : TimeUnit), t = s.time → thr = q32 t.stepThreshold → u = { s with time := lockStep t x } →
     (x < -thr → s.classify x = s.stepDue (.sample (-x))) ∧
     (-thr ≤ x → x ≤ thr → x ≤ q32 10000000 → s.classify x = s.pi x) ∧
     (-thr ≤ x → thr < x → x ≤ q32 10000000 → s.classify x = s.startSlew x) ∧
     (-thr ≤ x → q32 10000000 < x → s.classify x = if t.backwardStep then s.stepDue (.sample (-x)) else s.startSlew x) ∧
     (∀ b e, t.slew ≠ none → s.runSample x b e = u.bumpTime TimeCount.samplesDiscarded.ctorIdx) ∧
     (∀ far, far = decide (q32 t.suspectThreshold < (x - t.lastAccepted).natAbs) → t.slew = none →
       (∀ q b e, t.quarantine = some q → far = true → s.runSample x b e = { u with time := { u.time with quarantine := some { q with latest := x } } }) ∧
       (∀ q b e, t.quarantine = some q → far = false → s.runSample x b e = (u.endQuarantine 0).classify x) ∧
       (t.quarantine = none → t.state = .locked → 0 < t.quarantineLimit → far = true → s.runSample x false false = s.beginQuarantine x) ∧
       (∀ b e, t.quarantine = none → (t.state ≠ .locked ∨ t.quarantineLimit = 0 ∨ far = false ∨ b = true ∨ e = true) →
         s.runSample x b e = u.classify x))) ∧
  (∀ (s : State),
     (∀ x b, (s.time.hostOwner = true ∨ s.isFollower = true) → Becomes (.offsetSample x b) s s) ∧
     (∀ x b, s.time.hostOwner = false → s.isFollower = false → s.stack.holdUntil = false → Becomes (.offsetSample x b) s (s.sample x b)) ∧
     (∀ x b u, s.time.hostOwner = false → s.isFollower = false → s.stack.holdUntil = true →
       u = { s with stack := { s.stack with holdUntil := false }, time := { s.time with mode := .run } } →
       Becomes (.offsetSample x b) s (State.sample u x b)) ∧
     (∀ x b u, u = { s with time := { s.time with clockEvent := false, lastSample := some s.time.powered } } →
       s.sample x b = if s.time.mode = .run then State.runSample u x b s.time.clockEvent
         else State.bumpTime u TimeCount.samplesDiscarded.ctorIdx) ∧
     (∀ q, s.time.quarantine = some q → q.since + s.time.quarantineLimit ≤ s.time.powered →
       Becomes .quarantineEnd s ((s.endQuarantine 1).classify q.latest)) ∧
     (∀ q, s.time.quarantine = some q → s.time.powered < q.since + s.time.quarantineLimit → Becomes .quarantineEnd s s) ∧
     (s.time.quarantine = none → Becomes .quarantineEnd s s) ∧
     (s.time.slew = some 0 → ∃ u : State, Becomes .slewEnd s u ∧ u.time.slew = none ∧ u.time.lastAccepted = 0 ∧
       u.time.seconds = s.time.seconds ∧ u.time.ns = s.time.ns ∧ u.channels = s.channels) ∧
     (s.time.slew ≠ some 0 → Becomes .slewEnd s s) ∧
     (∀ k r, s.time.steps = k :: r → s.holdsCommitment = false →
       Becomes .stepApply s (({ s with time := { s.time with steps := r } } : State).applyStep k)) ∧
     ((s.time.steps = [] ∨ s.holdsCommitment = true) → Becomes .stepApply s s) ∧
     (∀ high, high < (if s.clocks.frost then 25 else 50) → Becomes (.ppsEdge high) s s) ∧
     (∀ high t n u p, (if s.clocks.frost then 25 else 50) ≤ high → t = counterAt {} (s.counterAgo 10000).1 → n = s.time.pps.count + 1 →
       p = { seconds := t.seconds, ns := t.ns, epoch := (s.counterAgo 10000).2, count := n } →
       u = { s with time := { s.time with pps := p } } →
       Becomes (.ppsEdge high) s (if s.time.hostOwner then State.signal u 9 else u)))

/-- The PI computation: the integral grows by KI, the correction is minus the sum of both parts, and both are clamped to 1,000 ppm (R129).

A step puts the counter on by its amount, sets STEPPED, gives the epoch of its kind and leaves LOCKED; powered time, CORR and every channel stay
(R120, R133). -/
def Obligations.ServoAndSteps : Prop :=
  (∀ (kp ki : Nat) (log2 integ x : Int), let r := piStep kp ki log2 integ x
     r.1 ≤ freqMax ∧ -freqMax ≤ r.1 ∧ -freqMax ≤ r.2.1 ∧ r.2.1 ≤ freqMax ∧
     (r.2.2 = false → r.2.1 = -(wrap64 ((kp * ((x * 2 ^ 16).tdiv (sampleNs log2))) / 2 ^ 16) + r.1)) ∧
     (r.2.2 = false → r.1 = integ + wrap64 ((ki * ((x * 2 ^ 16).tdiv (sampleNs log2))) / 2 ^ 16))) ∧
  (∀ (k : StepKind) (s : State), s.stacked = false → let u := s.applyStep k
     u.time.stepped = true ∧ u.time.epoch = stepEpoch s.time.epoch k ∧ u.time.state ≠ .locked ∧ u.time.lastAccepted = 0 ∧
     u.time.seconds = (counterAt s.time (s.counter48 + s.stepAmount k)).seconds ∧ u.time.ns = (counterAt s.time (s.counter48 + s.stepAmount k)).ns ∧
     u.time.powered = s.time.powered ∧ u.time.corr = s.time.corr ∧ u.time.integ = s.time.integ ∧ u.channels = s.channels ∧ u.blocks = s.blocks)

/-- The TDM events: a slave group is FRAMED after 16 good FS in a row and LOST after 3 errors, without CLK or when m leaves its range; m is the
fit over the last 8,000 frames, once 80 have passed; a new master's first frame starts the group on its grid (R300, R302 to R304). Where its
condition does not hold the event changes nothing.

TDM_FRAME: FS is judged and stamped, a running group counts the frame and takes its share of TRACK, each of its slots has its frame, and the
threads that the group's frames wake have TDM_PEND in the blocks that run; in Frost the frames are counted apart (R301, R302, R376). Without
its clock nothing moves. -/
def Obligations.TdmGroupEventsComplete : Prop :=
  (∀ (g : Nat) (s : State) (v : TdmGroup), v = s.group g →
     (∀ x w u, v.master = false → v.framing = .search → 16 ≤ v.fsRun →
       x = { v with framing := .framed, fsRun := 0, fsMissed := 0, framesIn := 0, stamps := [], ever := true } →
       w = (if v.ever then bumpGroup x .reframes else x) → u = (s.setGroup g w).groupNotice g .framed .fs →
       Becomes (.tdmFramed g) s ((u.groupLegs g).foldl resetTdmLeg u)) ∧
     ((v.master = true ∨ v.framing ≠ .search ∨ v.fsRun < 16) → Becomes (.tdmFramed g) s s) ∧
     (v.master = false → v.framing = .framed → Becomes (.tdmGroupLost g true) s (loseGroup g .clk s)) ∧
     (v.master = false → v.framing = .framed → 3 ≤ v.fsMissed → Becomes (.tdmGroupLost g false) s (loseGroup g .fs s)) ∧
     (v.fsMissed < 3 → Becomes (.tdmGroupLost g false) s s) ∧
     (∀ clk, (v.master = true ∨ v.framing ≠ .framed) → Becomes (.tdmGroupLost g clk) s s) ∧
     (∀ fit up, v.master = false → v.framing = .framed → 80 ≤ v.framesIn → 2 ≤ v.stamps.length → fit = frameOffset up v.stamps →
       (fit.natAbs ≤ 281474976711 → Becomes (.tdmMUpdate g up) s (s.setGroup g { v with m := fit })) ∧
       (281474976711 < fit.natAbs → Becomes (.tdmMUpdate g up) s (loseGroup g .range s))) ∧
     (∀ up, (v.master = true ∨ v.framing ≠ .framed ∨ v.framesIn < 80 ∨ v.stamps.length < 2) → Becomes (.tdmMUpdate g up) s s) ∧
     (∀ u, v.master = true → v.started = false → s.onGrid v = true →
       u = s.setGroup g { v with started := true, phaseError := 0, m := 0, slewing := false } →
       Becomes (.tdmMasterStart g) s ((u.groupLegs g).foldl resetTdmLeg u)) ∧
     ((v.master = false ∨ v.started = true ∨ s.onGrid v = false) → Becomes (.tdmMasterStart g) s s) ∧
     (∀ r w, w = loseGroup g r s →
       (w.group g).framing = .search ∧ (w.group g).fsRun = 0 ∧ (w.group g).m = v.m ∧ (∀ h, h ≠ g → w.group h = s.group h))) ∧
  (∀ (g : Nat) (good : Bool) (rx : Tab (List Byte)) (s : State),
     (s.clockRuns 89 = false → Becomes (.tdmFrame g good rx) s s) ∧
     (∀ v w x u t b, s.clockRuns 89 = true →
       v = fsStep (s.group g) good (s.time.powered * 65536 + s.time.poweredFrac / 2 ^ 32 : Nat) →
       w = trackStep (if groupRuns v then bumpGroup v .frames else v) →
       x = (if s.clocks.frost = true ∧ groupRuns v = true then bumpGroup w .frostFrames else w) → u = s.setGroup g x →
       t = (u.groupSlots g).foldl (slotFrame rx s.clocks.frost (groupRuns v)) u →
       b = t.blocks.map (fun e => (e.1,
         if s.arrayRuns e.1 = true ∧ s.clockRuns (16 + e.1) = true then wakeByFrame g s.clocks.mediaNs e.2 else e.2)) →
       Becomes (.tdmFrame g good rx) s { t with blocks := b }))

/-! ## Clocks and power (chapters 18 and 19) -/

/-- REFERENCE_TRIP, REFERENCE_QUALIFIED and REFERENCE_LOCK: a trip clears the count and qualification and, of the selected source, loses the
reference; a source that qualifies is listed, and starts the controller in START, ends Frost's wait in FROST, and is told of in every other
state; lock to a new source ends a switch (R471 to R473, R477, R482). What is qualified already, or no candidate, changes nothing.

COAST_END, ACQUIRE_LOCK and RAMP_END: from COAST the controller comes to FROST and acquires the best source; at lock it ramps; at full speed
Frost ends, media resumes and the servo is told (R478, R482). In any other state, or before its time, the event changes nothing. -/
def Obligations.ReferenceAndFrostEventsComplete : Prop :=
  (∀ (src : Nat) (s : State), let k := s.clocks
     (7 ≤ src → Becomes (.referenceTrip src) s s) ∧
     (∀ x, src < 7 → x = { k with counts := if k.qualified.contains src then bump k.counts src else k.counts, qualified := k.qualified.filter (· ≠ src) } →
       (k.selected = some src → Becomes (.referenceTrip src) s (({ s with clocks := x } : State).lossOfReference src)) ∧
       (k.selected ≠ some src → Becomes (.referenceTrip src) s { s with clocks := x })) ∧
     ((s.candidateSource src = false ∨ k.qualified.contains src = true) → Becomes (.referenceQualified src) s s) ∧
     (∀ q u, s.candidateSource src = true → k.qualified.contains src = false →
       q = (List.range 7).filter (fun i => i == src || k.qualified.contains i) →
       u = ({ s with clocks := { k with qualified := q } } : State).countClock .qualifications 1 →
       (∀ b, k.ctrl = .start → u.clocks.best = some b → Becomes (.referenceQualified src) s
         (({ u with clocks := { u.clocks with selected := some b }, time := { u.time with phase := 0 } } : State).lockReached)) ∧
       (k.ctrl = .start → u.clocks.best = none → Becomes (.referenceQualified src) s u) ∧
       (k.ctrl = .frost → Becomes (.referenceQualified src) s (u.clockNotice .qualified src).acquire) ∧
       (k.ctrl ≠ .start → k.ctrl ≠ .frost → Becomes (.referenceQualified src) s (u.clockNotice .qualified src))) ∧
     (k.ctrl = .hold →
       Becomes .referenceLock s ((((s.countClock .switches 1).clockNotice .switched (k.selected.getD 0)).markClockEvent).lockReached)) ∧
     (k.ctrl ≠ .hold → Becomes .referenceLock s s)) ∧
  (∀ (s : State), let k := s.clocks
     (k.ctrl = .coast → (64 - k.level) * 15625 ≤ 10 * (s.time.powered - k.since) → Becomes .coastEnd s (s.ctrl .frost).acquire) ∧
     (k.ctrl = .coast → 10 * (s.time.powered - k.since) < (64 - k.level) * 15625 → Becomes .coastEnd s s) ∧
     (k.ctrl = .acquire → ∃ u : State, Becomes .acquireLock s u ∧ u.clocks.ctrl = .ramp ∧ u.clocks.since = s.time.powered ∧
       u.clocks.selected = k.selected ∧ u.clocks.frost = k.frost) ∧
     (k.ctrl = .ramp → 100000 ≤ s.time.powered - k.since → k.recheck = false →
       ∃ u : State, Becomes .rampEnd s u ∧ u.clocks.ctrl = .locked ∧ u.clocks.frost = false ∧ u.clocks.selected = k.selected ∧
         u.time.clockEvent = true ∧ u.time.phase = 0 ∧ u.channels.map (fun e => e.2.state) = s.channels.map (fun e => e.2.state)) ∧
     (∀ u, k.ctrl = .ramp → 100000 ≤ s.time.powered - k.since → u = s.countClock .frostNs (s.time.powered - k.frostSince) →
       Becomes .rampEnd s ((((({ u with clocks := { u.clocks with frost := false }, time := { u.time with phase := 0 } } : State).resumeMedia).clockNotice
         .frostExited (k.selected.getD 0)).markClockEvent).lockReached)) ∧
     (k.ctrl = .ramp → s.time.powered - k.since < 100000 → Becomes .rampEnd s s) ∧
     (k.ctrl ≠ .ramp → Becomes .rampEnd s s) ∧ (k.ctrl ≠ .acquire → Becomes .acquireLock s s) ∧ (k.ctrl ≠ .coast → Becomes .coastEnd s s))

/-- The events of gates and power modes: the last port of a job to go idle stops its clocks, a busy one ends it GATE_BUSY; a domain whose supply,
clock and dependences are ready returns to RUN, with its state as after reset where it was in DEEP_SLEEP, and one whose dependences are not
waits; an entry ends in DEEP_SLEEP; a block empty for 10 s asks for it (R485, R486, R494, R495, R498). Where no such change is under way the
event changes nothing. -/
def Obligations.PowerEventsComplete : Prop :=
  ∀ (d : Nat) (s : State) (p : PowerDomain), p = s.powerDomain d →
    (gateOf s d = none → Becomes (.gateQuiesced d) s s ∧ Becomes (.gateTimeout d) s s) ∧
    (∀ j, gateOf s d = some j → j.waiting.erase d ≠ [] →
      Becomes (.gateQuiesced d) s (s.setGates (beginJob j (j.waiting.erase d) s.clocks.gates))) ∧
    (∀ j, gateOf s d = some j → j.waiting.erase d = [] →
      Becomes (.gateQuiesced d) s
        ((((s.setGates (s.clocks.gates.erase j)).countClock .gateOps (s.jobStops j).length).finishGate j).runGates)) ∧
    (∀ j, gateOf s d = some j →
      Becomes (.gateTimeout d) s
        ((((s.setGates (s.clocks.gates.erase j)).countClock .gateBusy 1).powerBusy j).completeOpt j.ref stGateBusy).runGates) ∧
    (∀ r u c, p.changing = some (.run, r) → (powerNeeds d).all (fun q => (s.powerDomain q).mode == .run) = true →
      u = (if p.mode = .deepSleep then s.revive d else s) →
      c = countMax (bump p.counts PowerCount.wakes.ctorIdx) PowerCount.wakeNsMax.ctorIdx (s.time.powered - p.changeSince) →
      Becomes (.powerWakeDone d) s ((powerBlocks d).foldl State.payWakes
        (((u.setPower d { p with mode := .run, changing := none, counts := c }).powerNotice d .run (if r.isSome then 0 else 2)).completeOpt r stOk))) ∧
    ((powerNeeds d).all (fun q => (s.powerDomain q).mode == .run) = false → Becomes (.powerWakeDone d) s s) ∧
    (∀ r, p.changing = some (.deepSleep, r) →
      Becomes (.deepSleepEntered d) s (((s.setPower d ({ p with changing := none }.count .deepEntries)).powerNotice d .deepSleep
        (if r.isSome then 0 else 1)).completeOpt r stOk)) ∧
    (p.changing = none → Becomes (.powerWakeDone d) s s ∧ Becomes (.deepSleepEntered d) s s) ∧
    (∀ l t, l = [d, 16 + d, 32 + d] → t = l.flatMap powerClocks →
      (d < 16 → p.auto = true → s.holdsChannels d = false → (s.block d).emptySince + 10000000000 ≤ s.time.powered →
        l.all (fun p => (s.powerDomain p).mode == .run && (s.powerDomain p).changing.isNone) = true →
        s.clocks.gates.any (fun j => j.touches.any t.contains) = false →
        Becomes (.autoDeepSleep d) s (s.addGate { ref := none, use := .power l .deepSleep, touches := t }).runGates) ∧
      ((p.auto = false ∨ s.holdsChannels d = true ∨ s.time.powered < (s.block d).emptySince + 10000000000) →
        Becomes (.autoDeepSleep d) s s))

/-! ## Resets, boot and errors (chapters 19, 20 and 23) -/

/-- The reset sources: power-on begins a reset unless it holds the device already, RESET_N and PERST_N unless a source that covers them does; each holds the device
until it is released, and the straps are sampled as power-on ends (R499, R502, R592).

DEVICE_RESET_SEQUENCE: a DEV_RESET whose reply left 100 µs ago begins its reset first; a device that a source holds, or whose sequence has gone further, stays; one
without a reference waits in step 2; untrained or unpopulated memory ends the boot FAILED with DRAM before any wipe; with both it boots, after a transition that was
cut has been completed (R439, R502, R508, R566, R574). -/
def Obligations.ResetSourcesAndSequence : Prop :=
  (∀ (s : State), let l := s.life.held
     (∀ straps, l.contains .powerOn = false → Becomes (.powerOnReset true straps) s ((s.beginReset .powerOn).withHeld (l ++ [.powerOn]))) ∧
     (∀ straps, l.contains .powerOn = true → Becomes (.powerOnReset true straps) s s) ∧
     (∀ straps, l.contains .powerOn = true → ∃ u : State, Becomes (.powerOnReset false straps) s u ∧
       u.life.held = l.filter (· ≠ .powerOn) ∧ u.board.bootSel = straps.toNat % 4 ∧ u.clocks.refFreq = straps.getLsbD 2 ∧
       u.board.tdmVsel = straps.getLsbD 3 ∧ u.store = s.store ∧ u.channels = s.channels) ∧
     (∀ straps, l.contains .powerOn = false → Becomes (.powerOnReset false straps) s s) ∧
     (l.contains .resetN = true → Becomes (.resetN true) s s) ∧
     (l.contains .resetN = false → l.contains .powerOn = true → Becomes (.resetN true) s (s.withHeld (l ++ [.resetN]))) ∧
     (l.contains .resetN = false → l.contains .powerOn = false → Becomes (.resetN true) s ((s.beginReset .resetN).withHeld (l ++ [.resetN]))) ∧
     (l.contains .pcie = true → Becomes (.perstN true) s s) ∧
     (l.contains .pcie = false → (l.contains .powerOn = true ∨ l.contains .resetN = true) → Becomes (.perstN true) s (s.withHeld (l ++ [.pcie]))) ∧
     (l.contains .pcie = false → l.contains .powerOn = false → l.contains .resetN = false →
       Becomes (.perstN true) s ((s.beginReset .pcie).withHeld (l ++ [.pcie]))) ∧
     Becomes (.resetN false) s (s.withHeld (l.filter (· ≠ .resetN))) ∧
     Becomes (.perstN false) s (s.withHeld (l.filter (· ≠ .pcie)))) ∧
  (∀ (f : BootFacts) (s x : State),
     ((∃ t, s.life.resetAt = some t ∧ t + 100000 ≤ s.time.powered ∧ x = s.beginReset .command) ∨
      (x = s ∧ ∀ t, s.life.resetAt = some t → s.time.powered < t + 100000)) →
     ((2 ≤ x.life.progress ∨ x.life.held ≠ []) → Becomes (.deviceResetSequence f) s x) ∧
     (x.life.progress < 2 → x.life.held = [] →
       (x.clocks.ctrl = .start → Becomes (.deviceResetSequence f) s (x.atStep 1)) ∧
       (x.clocks.ctrl ≠ .start → (f.trained ≠ 0xF ∨ f.gib ∉ [2, 4, 8, 16]) →
         ∃ u : State, Becomes (.deviceResetSequence f) s u ∧ u.board.bootPhase = .failed ∧ u.board.bootError = .dram ∧ u.life.progress = 5 ∧
           u.board.dramTrain = f.trained.toNat ∧ u.life.wipe = x.life.wipe ∧ u.log.entries = x.log.entries) ∧
       (∀ due y, x.clocks.ctrl ≠ .start → f.trained = 0xF → f.gib ∈ [2, 4, 8, 16] → due = pendingTransitions x.life →
         y = due.foldl (fun l k => l.burnWipe k 4) { due.foldl (fun l k => l.lockBelow k) { x.life with lifeCycle := fusedState x.life } with
           warmResets := if due = [] then x.life.warmResets else 0, watchdogResets := if due = [] then x.life.watchdogResets else 0,
           scratch := if due = [] then x.life.scratch else 0, wipeResumed := if due = [] then x.life.wipeResumed else true } →
         Becomes (.deviceResetSequence f) s (State.boot f { x with
           life := { y with progress := 7 }, board := { x.board with dramTrain := 15 }, store := { x.store with populatedGib := f.gib },
           log := if due = [] then x.log else {} }))))

/-- What a device reset leaves: no channel, flow, SRTP context or ring, no cell memory and no DRAM, the table store as after
reset; fuses stay; the cause is recorded, WARM_RESETS and, for the watchdog, WATCHDOG_RESETS count it with SCRATCH and powered time as they were, and after power-on
the log and the RWS fields are clear too (R501, R502, R517). -/
def Obligations.DeviceResetWipes : Prop :=
  ∀ (c : ResetCause) (s : State), let u := s.beginReset c
    u.channels = State.reset.channels ∧ u.flows = State.reset.flows ∧ u.blocks = State.reset.blocks ∧ u.cells = State.reset.cells ∧
    u.rings = State.reset.rings ∧ u.ports = State.reset.ports ∧ u.tdm = State.reset.tdm ∧
    u.store.dram = [] ∧ u.store.tables = State.reset.store.tables ∧ u.store.kernel = [] ∧
    u.life.trans = s.life.trans ∧ u.life.wipe = s.life.wipe ∧ u.life.locked = s.life.locked ∧ u.life.lifeCycle = s.life.lifeCycle ∧
    u.life.cause = c ∧ u.pending = s.pending ∧ u.board.bootPhase = .reset ∧ u.fylos.ready = false ∧
    (c = .powerOn → u.log = {} ∧ u.time.powered = 0 ∧ u.life.warmResets = 0 ∧ u.life.watchdogResets = 0 ∧ u.life.scratch = 0) ∧
    (c ≠ .powerOn → u.life.warmResets = satAdd 16 s.life.warmResets 1 ∧ u.life.scratch = s.life.scratch ∧ u.time.powered = s.time.powered) ∧
    (c = .watchdog → u.life.watchdogResets = satAdd 16 s.life.watchdogResets 1) ∧
    (c ≠ .watchdog → c ≠ .powerOn → u.life.watchdogResets = s.life.watchdogResets)

/-- LIFE_CYCLE_TRANSITION: 100 µs after its reply TRANS_k is burned, keys, memories and the log are wiped, WIPE_k is burned and the device resets, which may log a loss of reference (0x30); cut before its
end it leaves what it had done; before the time, or with no transition due, nothing happens (R506 to R508).

Life-cycle fuses are only ever burned: burning one never clears a bit, and the state that the fuses spell never goes back (R506). -/
def Obligations.LifeCycleOnlyGoesOn : Prop :=
  (∀ (e : TransitionEnd) (s : State), s.life.transitionAt = none → Becomes (.lifeCycleTransition e) s s) ∧
  (∀ (k t : Nat) (s : State), s.life.transitionAt = some (k, t) →
     (∀ e, s.time.powered < t + 100000 → Becomes (.lifeCycleTransition e) s s) ∧
     (t + 100000 ≤ s.time.powered → ∃ u : State, Becomes (.lifeCycleTransition .whole) s u ∧ 4 ≤ tabGet u.life.trans k 0 ∧
       4 ≤ tabGet u.life.wipe k 0 ∧ u.life.cause = .lifeCycle ∧ u.life.transitionAt = none ∧ u.channels = State.reset.channels ∧
       u.cells = [] ∧ u.store.dram = [] ∧ (∀ e ∈ u.log.entries, e.cause = 0x30) ∧ u.life.scratch = 0 ∧ (∀ i, i < k → i < 3 → i ∈ u.life.locked)) ∧
     (t + 100000 ≤ s.time.powered → ∃ u : State, Becomes (.lifeCycleTransition .cutWiping) s u ∧ 4 ≤ tabGet u.life.trans k 0 ∧
       tabGet u.life.wipe k 0 = tabGet s.life.wipe k 0 ∧ u.life.transitionAt = none ∧ u.store.dram = [] ∧ u.log.entries = []) ∧
     (∀ b : Fin 5, t + 100000 ≤ s.time.powered → ∃ u : State, Becomes (.lifeCycleTransition (.cutWipe b)) s u ∧ 4 ≤ tabGet u.life.trans k 0 ∧
       tabGet u.life.wipe k 0 = max (tabGet s.life.wipe k 0) b.val ∧ u.life.transitionAt = none ∧ u.store.dram = [] ∧ u.log.entries = []) ∧
     (∀ b : Fin 5, t + 100000 ≤ s.time.powered → ∃ u : State, Becomes (.lifeCycleTransition (.cutTrans b)) s u ∧
       tabGet u.life.trans k 0 = max (tabGet s.life.trans k 0) b.val ∧ u.life.wipe = s.life.wipe ∧
       u.life.locked = s.life.locked ∧ u.channels = s.channels ∧ u.store = s.store)) ∧
  (∀ (l : Life) (k bits j : Nat), tabGet l.trans j 0 ≤ tabGet (l.burnTrans k bits).trans j 0 ∧ fusedState l ≤ (l.burnTrans k bits).lifeCycle ∧
     tabGet l.wipe j 0 ≤ tabGet (l.burnWipe k bits).wipe j 0 ∧ (l.burnWipe k bits).trans = l.trans ∧ (l.burnTrans k bits).wipe = l.wipe ∧
     (l.burnTrans k bits).lifeCycle ≤ 3)

/-- Fatal errors: CHIP_WATCHDOG once Damium runs and is not halted, and DAMIUM_LOCKSTEP_MISMATCH, write their entry and reset the device at once (R512, R523).

PATROL_SCRUB: a corrected error of any place is counted there, and an uncorrectable one does what Table 20.1 says of its place: a cell's memory traps the cell, a
packet area loses the entries that name it, a stream resets, a dispatcher's error isolates its block and a region's its region, a context slot is marked, a table, flow
or SRTP context is lost with both its copies, a buffered frame or sample is spoiled or dropped and counted, Damium's memory and the fabric reset the device; sleeping
memory is passed over (R515 to R517, R222). -/
def Obligations.FatalErrorsAndScrubs : Prop :=
  (∀ (s : State),
     (s.board.bootPhase = .running → s.fylos.halted = false →
       Becomes .chipWatchdog s ((s.logError 0x45 4 7 0 0xFFFF 0 6 0).beginReset .watchdog)) ∧
     (s.fylos.halted = true → Becomes .chipWatchdog s s) ∧
     (s.board.bootPhase ≠ .running → Becomes .chipWatchdog s s) ∧
     Becomes .damiumLockstepMismatch s ((s.logError 0x42 4 7 0 0xFFFF 0 6 0).beginReset .watchdog)) ∧
  (∀ (a : Nat) (s : State),
     (∀ p, (match scrubDomain p with | some d => (s.powerDomain d).mode ≠ .deepSleep | none => True) →
       Becomes (.patrolScrub p a false) s (s.scrubCorrected p a)) ∧
     (∀ p d, scrubDomain p = some d → (s.powerDomain d).mode = .deepSleep → ∀ b, Becomes (.patrolScrub p a b) s s) ∧
     (∀ n m, (s.powerDomain (cellBlock n)).mode ≠ .deepSleep →
       Becomes (.patrolScrub (.cell n m) a true) s
         (s.cellTrap n (if m = 0 then .uncorrectableX else if m = 1 then .uncorrectableY else .uncorrectableI) 0 m a)) ∧
     (∀ b, (s.powerDomain (16 + b)).mode ≠ .deepSleep →
       (∀ l, Becomes (.patrolScrub (.packetArea b l) a true) s ((s.dropPending b l).logError 0x20 2 8 b 0xFFFF 0 3 a)) ∧
       (∀ c key, Becomes (.patrolScrub (.streamStore b c key) a true) s ((s.spoilStream b c key).logError 0x20 2 8 b c 0 3 a)) ∧
       Becomes (.patrolScrub (.commitBuffer b) a true) s (commitCompleteStep b .uncorrectable s) ∧
       Becomes (.patrolScrub (.dispatcher b) a true) s (isolationStep b false a s) ∧
       ((s.block b).isolated = true → Becomes (.patrolScrub (.dispatcher b) a true) s s)) ∧
     (∀ r, (s.powerDomain (48 + r)).mode ≠ .deepSleep →
       Becomes (.patrolScrub (.regionControl r) a true) s (s.isolateRegion r a) ∧
       ∀ b n, Becomes (.patrolScrub (.regionIngress r b n) a true) s ((s.dropHeldPacket r b n).logError 0x41 3 8 r 0xFFFF 0 5 a)) ∧
     (∀ i, (s.powerDomain (56 + i)).mode ≠ .deepSleep →
       Becomes (.patrolScrub (.portIngress i) a true) s ((s.bumpPort i .rxBufferDiscard).logError 0x41 4 8 i 0xFFFF 0 5 a) ∧
       ∀ m n, Becomes (.patrolScrub (.portEgress i m n) a true) s ((s.spoilEgress i m n).logError 0x41 4 8 i 0xFFFF 0 5 a)) ∧
     (∀ h n, (s.powerDomain 62).mode ≠ .deepSleep → Becomes (.patrolScrub (.tdmBuffer h n) a true) s ((s.spoilSlot h n).logError 0x41 4 8 h 0xFFFF 0 5 a)) ∧
     (∀ c, (s.channel c).slot.isSome = true → ∃ u : State, Becomes (.patrolScrub (.contextSlot c) a true) s u ∧
       (u.channel c).slotBad = true ∧ (u.channel c).state = (s.channel c).state ∧ ∀ d, d ≠ c → u.channel d = s.channel d) ∧
     (∀ c, (s.channel c).slot = none → Becomes (.patrolScrub (.contextSlot c) a true) s s) ∧
     (∀ b t, Becomes (.patrolScrub (.suspendRecord b t) a true) s (s.loseRecord b t a)) ∧
     (∀ id both, both = true ∧ tabHas s.store.tables id = true →
       Becomes (.patrolScrub (.tableStore id both) a true) s ((s.loseTable id).logError 0x23 4 3 0 0xFFFF 0 4 a)) ∧
     (∀ id both, both = false ∨ tabHas s.store.tables id = false →
       Becomes (.patrolScrub (.tableStore id both) a true) s (s.logError 0x23 4 0 0 0xFFFF 0 4 a)) ∧
     (∀ i, Becomes (.patrolScrub (.srtpContext i true) a true) s (s.loseContext i a) ∧
       Becomes (.patrolScrub (.srtpContext i false) a true) s (s.logError 0x23 4 0 0 0xFFFF 0 4 a)) ∧
     (∀ i, Becomes (.patrolScrub (.flowCopy i true) a true) s ({ s with flows := flowRemove s.flows i }.logError 0x23 4 3 0 0xFFFF 0 4 a) ∧
       Becomes (.patrolScrub (.flowCopy i false) a true) s (s.logError 0x23 4 0 0 0xFFFF 0 4 a)) ∧
     (∀ i k, Becomes (.patrolScrub (.promptStore i k) a true) s
       ({ s with store := { s.store with badPieces := s.store.badPieces.filter (· ≠ (i, k)) ++ [(i, k)] } }.logError 0x24 4 8 0 0xFFFF 0 4 a)) ∧
     (∀ r, Becomes (.patrolScrub (.jobData r true) a true) s (reducerJobEndStep r .source s) ∧
       Becomes (.patrolScrub (.jobData r false) a true) s (enlargerJobEndStep r .source s)) ∧
     Becomes (.patrolScrub .window a true) s (s.logError 0x24 4 8 0 0xFFFF 0 4 a) ∧
     Becomes (.patrolScrub .dramLink a true) s s ∧
     (∀ r, Becomes (.patrolScrub (.flowTable r) a true) s (s.logError 0x40 4 0 0 0xFFFF 0 5 a)) ∧
     Becomes (.patrolScrub .damiumSram a true) s ((s.logError 0x43 4 7 0 0xFFFF 0 5 a).beginReset .watchdog) ∧
     Becomes (.patrolScrub .fabric a true) s ((s.logError 0x44 4 7 0 0xFFFF 0 6 0).beginReset .watchdog))

/-- SCOPE_RESET_COMPLETE and MANAGEMENT_FIRMWARE_SWITCHED: a scope whose wipe is done comes back and the commands that wait for it complete; one that is not under reset,
or whose greater scope or memory is not back, waits, and so does every scope while the management firmware changes; Damium then runs its new slot and takes the
commands that wait (R440, R550). -/
def Obligations.ScopeEventsComplete : Prop :=
  (∀ (scope id : Nat) (s : State), (s.fylos.switching = true ∨ (scope ≠ 1 ∧ scope ≠ 2 ∧ scope ≠ 3)) → Becomes (.scopeResetComplete scope id) s s) ∧
  (∀ (id : Nat) (s : State), s.fylos.switching = false →
    ((s.cell id).underReset = true → (s.block (cellBlock id)).underReset = false → s.blockAwake (cellBlock id) = true →
      Becomes (.scopeResetComplete 3 id) s ((s.returnCell id).payReset 3 id)) ∧
    (((s.cell id).underReset = false ∨ (s.block (cellBlock id)).underReset = true ∨ s.blockAwake (cellBlock id) = false) →
      Becomes (.scopeResetComplete 3 id) s s) ∧
    ((s.block id).underReset = true → (s.region (blockRegion id)).underReset = false → s.blockAwake id = true →
      Becomes (.scopeResetComplete 2 id) s ((List.range 8).foldl (fun s i => s.payReset 3 (8 * id + i)) ((s.endBlockReset id).payReset 2 id))) ∧
    (((s.block id).underReset = false ∨ (s.region (blockRegion id)).underReset = true ∨ s.blockAwake id = false) →
      Becomes (.scopeResetComplete 2 id) s s) ∧
    ((s.region id).underReset = true → (s.engine id).reducer.running = none → (s.engine id).enlarger.running = none →
      (regionBlocks id).all s.blockAwake = true →
      Becomes (.scopeResetComplete 1 id) s ((regionBlocks id).foldl (fun s b => s.payReset 2 b)
        (((regionBlocks id).foldl State.endBlockReset (s.modRegion id (fun g => { g with underReset := false }))).payReset 1 id))) ∧
    (((s.region id).underReset = false ∨ (s.engine id).reducer.running ≠ none ∨ (s.engine id).enlarger.running ≠ none ∨
        (regionBlocks id).all s.blockAwake = false) → Becomes (.scopeResetComplete 1 id) s s)) ∧
  (∀ (s : State),
    (s.life.switchTo = none → Becomes .managementFirmwareSwitched s s.service) ∧
    (∀ k v, s.life.switchTo = some k → v = s.fwSlot k →
      Becomes .managementFirmwareSwitched s (({ s with
        fylos := { s.fylos with switching := false },
        life := { s.life with switchTo := none, management := k, fwSource := k + 1, fwVersion := v.version, fwFormat := v.format } } : State).service)))
/-! ## Engines and the stack (chapters 17 and 21) -/

/-- JOB_START, ENLARGER_JOB_END and REDUCER_JOB_END: an idle half whose domain runs takes its next job, migration first, and marks its chain UNCONFIRMED; a busy half, one
with nothing queued, and one whose region sleeps or resets do nothing; a job that ends leaves its half and commits or reports what its use says, each of Table 17.3;
with no job, or its clock stopped, the event changes nothing (R460, R461, R465 to R468). -/
def Obligations.EngineEventsComplete : Prop :=
  ∀ (r : Nat) (s : State),
    (∀ red j, (engineHalf (s.engine r) red).running = none → s.domainRuns (engineDomain r) = true → (s.region r).underReset = false →
      nextJob (engineHalf (s.engine r) red).queue = some j →
      ∃ u : State, Becomes (.jobStart r red) s u ∧ (engineHalf (u.engine r) red).running = some j ∧
        (engineHalf (u.engine r) red).queue = (engineHalf (s.engine r) red).queue.erase j ∧
        (engineHalf (u.engine r) (!red)) = (engineHalf (s.engine r) (!red)) ∧
        u.store.dram = (match j.chain with | some a => chainState s.store.dram a 1 | none => s.store.dram)) ∧
    (∀ red, ((engineHalf (s.engine r) red).running ≠ none ∨ s.domainRuns (engineDomain r) = false ∨ (s.region r).underReset = true ∨
      (engineHalf (s.engine r) red).queue = []) → Becomes (.jobStart r red) s s) ∧
    (∀ (l : List Job) (j : Job), nextJob l = some j → j ∈ l ∧ (∀ k ∈ l, k.cls = 0 → j.cls = 0) ∧ (j.cls ≠ 0 → ∀ k ∈ l, k.cls = 1 → j.cls = 1)) ∧
    (∀ err, ((s.engine r).enlarger.running = none ∨ s.clockRuns (engineClock r) = false) → Becomes (.enlargerJobEnd r err) s s) ∧
    (∀ err, ((s.engine r).reducer.running = none ∨ s.clockRuns (engineClock r) = false) → Becomes (.reducerJobEnd r err) s s) ∧
    (∀ err j u, (s.engine r).enlarger.running = some j → s.clockRuns (engineClock r) = true → u = (s.logJobError err).dropRunning r false →
      (∀ k, j.use = .firmware k → Becomes (.enlargerJobEnd r err) s (u.endFirmware j k err)) ∧
      (∀ id, j.use = .table id → Becomes (.enlargerJobEnd r err) s (u.endTable j id err)) ∧
      (j.use = .kernel → Becomes (.enlargerJobEnd r err) s (u.endKernel j err)) ∧
      (∀ id, j.use = .prompt id → Becomes (.enlargerJobEnd r err) s (u.endPrompt j id err)) ∧
      (∀ p i, j.use = .piece p i → Becomes (.enlargerJobEnd r err) s (u.endPiece j (p, i) err)) ∧
      (∀ c, j.use = .contextIn c → Becomes (.enlargerJobEnd r err) s (u.endContextIn j c err)) ∧
      (j.use = .imageEnlarge → Becomes (.enlargerJobEnd r err) s (u.endEnlarge j (j.chain.getD 0) err)) ∧
      (isReducer j.use = true → Becomes (.enlargerJobEnd r err) s u)) ∧
    (∀ err j u, (s.engine r).reducer.running = some j → s.clockRuns (engineClock r) = true → u = (s.logJobError err).dropRunning r true →
      (∀ c, j.use = .contextOut c → Becomes (.reducerJobEnd r err) s (u.endContextOut j c err)) ∧
      ((j.use = .imageReduce ∨ j.use = .traceDump) → Becomes (.reducerJobEnd r err) s (u.endReduce j (j.chain.getD 0) err)) ∧
      (isReducer j.use = false → Becomes (.reducerJobEnd r err) s u))

/-- The links: a lane lost leaves three and the replay resent, the next or a whole loss takes the link down and moves its flits; a lane trained comes back, and one that is
not named, not clocked or whole does not; a flit resent eight times retrains; a flit with a bad CRC or header is counted and answered by NAK, and one that arrives while
the link is down is not taken (R528, R529, R532, R534).

A link sends what waits in class order while fewer than 512 flits are outstanding, numbers each and keeps it for replay (R529, R530). -/
def Obligations.StackLinksCarryFlits : Prop :=
  (∀ (p : Nat) (s : State), let v := s.bgPort p
     (v.lanes = 4 → Becomes (.laneLost p) s
       ((((s.setBgPort p ((BgPort.resend { v with lanes := 3 }).bump .lanesLost 1)).logError 0x33 4 6 p 0xFFFF 0 6 0).stackNotice s.stack.number 4 p 3).advertise)) ∧
     (v.lanes ≠ 0 → v.lanes ≠ 4 → Becomes (.laneLost p) s ((s.setBgPort p (v.bump .lanesLost 1)).loseLink p)) ∧
     (v.lanes = 0 → Becomes (.laneLost p) s s) ∧
     (v.lanes ≠ 0 → Becomes (.stackLinkLost p) s (s.loseLink p)) ∧ (v.lanes = 0 → Becomes (.stackLinkLost p) s s) ∧
     (s.linkConfigured p = true → s.linkClock p = true → v.lanes = 0 → Becomes (.laneRetrained p) s
       ((s.setBgPort p (BgPort.pump v.waiting.length { v with lanes := 4 })).stackNotice s.stack.number 2 p 4)) ∧
     (s.linkConfigured p = true → s.linkClock p = true → v.lanes = 3 → Becomes (.laneRetrained p) s ((s.setBgPort p { v with lanes := 4 }).advertise)) ∧
     ((s.linkConfigured p = false ∨ s.linkClock p = false ∨ (v.lanes ≠ 0 ∧ v.lanes ≠ 3)) → Becomes (.laneRetrained p) s s) ∧
     ((v.replay.any (fun f => decide (8 ≤ f.resends))) = true → ∃ u : State, Becomes (.linkRetrain p) s u ∧
       (u.bgPort p).replay = v.replay.map (fun f => { f with resends := 1 }) ∧ (u.bgPort p).waiting = v.waiting ∧ ∀ q, q ≠ p → u.bgPort q = s.bgPort q) ∧
     ((v.replay.any (fun f => decide (8 ≤ f.resends))) = false → Becomes (.linkRetrain p) s s) ∧
     (∀ flit, v.lanes ≠ 0 → s.linkClock p = true → (crcFinal (flit.take 0xFC) ≠ fieldAt flit 0xFC 4 ∨ flitLegal (fieldAt flit 0 8) = false) →
       Becomes (.flitReceived p flit) s (s.setBgPort p ((v.bump .crcErrors 1).bump .naksTx 1))) ∧
     (∀ flit, v.lanes ≠ 0 → s.linkClock p = true → ((s.flitIn p flit).bgPort p).peer = v.peer → Becomes (.flitReceived p flit) s (s.flitIn p flit)) ∧
     (∀ flit, v.lanes ≠ 0 → s.linkClock p = true → ((s.flitIn p flit).bgPort p).peer ≠ v.peer →
       Becomes (.flitReceived p flit) s ((s.flitIn p flit).advertise.settleRoot.joinStep)) ∧
     (∀ flit, (v.lanes = 0 ∨ s.linkClock p = false) → Becomes (.flitReceived p flit) s s)) ∧
  ((∀ (v : BgPort) (f : Flit) (r : List Flit), v.lanes ≠ 0 → v.replay.length < 512 → nextFlit v.waiting = some (f, r) → r = [] →
     let w := BgPort.pump v.waiting.length v
     w.waiting = [] ∧ w.txSeq = (v.txSeq + 1) % 4096 ∧ w.replay = v.replay ++ [{ seq := v.txSeq, flit := f, resends := 0 }]) ∧
   (∀ (n : Nat) (v : BgPort), v.replay.length ≤ 512 → (BgPort.pump n v).replay.length ≤ 512 ∧ v.replay <+: (BgPort.pump n v).replay) ∧
   (∀ (l : List Flit) (f : Flit) (r : List Flit), nextFlit l = some (f, r) → f ∈ l ∧ (∀ g ∈ l, g.cls ≤ 2 → f.cls ≤ g.cls) ∧ r.length + 1 = l.length))

/-- Joining and time: an advertisement takes a fitting member in, one with this device's own number or that does not fit ends a join, and an end puts the member out; a
join fails after 10 s; the sequencer's table is copied entry by entry and its end moves the media clock of a member; a member takes its samples from the path to the root
and applies the root's steps with their epoch (R375, R535 to R538).

What other members send of channels and flows: a block for a STACK leg enters it, the context of a moving channel goes to the Enlarger, and each turn over a
change of the flow table is taken; a change is complete once every member has applied it (R540, R543 to R545). -/
def Obligations.StackEventsComplete : Prop :=
  (∀ (s : State), (∀ d i, s.stacked = false → Becomes (.advertisement d i) s s) ∧
     (∀ d i s0, s.stacked = true → s0 = s.takeMessage d 0x12 →
       (d = s0.stack.number → Becomes (.advertisement d (some i)) s s0.failJoin) ∧
       (d ≠ s0.stack.number → s0.memberFits d i = true → Becomes (.advertisement d (some i)) s (s0.takeMember d i)) ∧
       (d ≠ s0.stack.number → s0.memberFits d i = false → s0.stack.joining.isSome = true → Becomes (.advertisement d (some i)) s s0.failJoin) ∧
       (d ≠ s0.stack.number → s0.memberFits d i = false → s0.stack.joining = none → Becomes (.advertisement d (some i)) s s0)) ∧
     (∀ d s0, s.stacked = true → s0 = s.takeMessage d 0x12 →
       (tabHas s0.stack.infos d = false → Becomes (.advertisement d none) s s0) ∧
       (tabHas s0.stack.infos d = true → Becomes (.advertisement d none) s
         ((((({ s0 with stack := { s0.stack with infos := tabDrop s0.stack.infos d, members := s0.stack.members.filter (· ≠ d) } } : State).stackNotice
           d 1 0 0).settleEquinox).settleRoot).dropMoves.settleChanges))) ∧
     (∀ j, s.stack.joining = some j → j.since + 10 * oneSecond ≤ s.time.powered →
       Becomes .stackJoinTimeout s ((s.leaveStack).complete j.ref stStackUnreachable [])) ∧
     (∀ j, s.stack.joining = some j → s.time.powered < j.since + 10 * oneSecond → Becomes .stackJoinTimeout s s) ∧
     (s.stack.joining = none → Becomes .stackJoinTimeout s s ∧ ∀ e n, Becomes (.flowTableCopy e n) s s) ∧
     (∀ j f n s0, s.stack.joining = some j → s0 = s.takeMessage s.stackRoot 0x21 →
       Becomes (.flowTableCopy (some f) n) s { s0 with flows := (applyChange s0.flows (.insert f)).1 }) ∧
     (∀ j n s0 s1, s.stack.joining = some j → s0 = s.takeMessage s.stackRoot 0x21 →
       s1 = { s0 with stack := { s0.stack with joining := some { j with tableCopied := true } } } →
       (s1.isFollower = true → Becomes (.flowTableCopy none n) s (s1.moveOrigin n).joinStep) ∧
       (s1.isFollower = false → Becomes (.flowTableCopy none n) s s1.joinStep)) ∧
     (∀ p t1 t2 t3 t4, s.isFollower = true → s.pathPort s.stackRoot = some p →
       Becomes (.timeFlitExchange p t1 t2 t3 t4) s ((s.sample (exchangeOffset t1 t2 t3 t4) false).joinStep)) ∧
     (∀ p t1 t2 t3 t4, (s.isFollower = false ∨ s.pathPort s.stackRoot ≠ some p) → Becomes (.timeFlitExchange p t1 t2 t3 t4) s s) ∧
     (∀ a e, s.isFollower = true →
       Becomes (.stackStepRelay a e) s ((s.takeMessage s.stackRoot (Config.messageKind 0)).stepDue (.relayed a e))) ∧
     (∀ a e, s.isFollower = false → Becomes (.stackStepRelay a e) s s)) ∧
  (∀ (s : State),
     (∀ d c leg tick l s0 k, s0 = s.takeMessage d 0x02 → k = (s0.channel c).runLeg leg →
       (k.kind = .stack → k.peerDevice = d → Becomes (.stackLegBlock d c leg tick l) s
         (s0.modLeg c leg (takeStackBlock tick (l.map (fun x => (signedOf 16 x.1.toNat, x.2)))))) ∧
       ((k.kind ≠ .stack ∨ k.peerDevice ≠ d) → Becomes (.stackLegBlock d c leg tick l) s s0)) ∧
     (∀ d c cut held frame s0, s0 = s.takeMessage d 0x20 →
       ((s0.channel c).move = none → Becomes (.contextFrameReceived d c cut held frame) s s0) ∧
       (∀ m, (s0.channel c).move = some m → (m.inbound = false ∨ m.device ≠ d ∨ m.sent = true) →
         Becomes (.contextFrameReceived d c cut held frame) s s0) ∧
       (∀ m, (s0.channel c).move = some m → m.inbound = true → m.device = d → m.sent = false → originalOver frame 65536 = true →
         Becomes (.contextFrameReceived d c cut held frame) s
           ((s0.sendClass d 1 (Config.messageKind 3) [beBytes 2 c, beBytes 2 stCheckFailed]).dropMove c stCheckFailed)) ∧
       (∀ m, (s0.channel c).move = some m → m.inbound = true → m.device = d → m.sent = false → originalOver frame 65536 = false →
         Becomes (.contextFrameReceived d c cut held frame) s
           ((s0.modChannel c (fun v => { v with move := some { m with from_ := moveStateOf held, cut := some cut, sent := true } })).queueJobAt
             (blockRegion (s0.channel c).block)
             { ref := none, use := .contextIn c, cls := 0, order := 0, source := .bytes frame, chain := none, base := 0 }))) ∧
     (∀ t, s.stacked = false → Becomes (.stackFlowChange t) s s) ∧
     (s.stacked = true → s.isFollower = false →
       (∀ c votes, Becomes (.stackFlowChange (.sequence (some c) votes)) s (s.sequenceChange c votes)) ∧
       (∀ r c l votes, s.stack.changes = (r, c) :: l → Becomes (.stackFlowChange (.sequence none votes)) s (s.sequenceChange c votes)) ∧
       (∀ votes, s.stack.changes = [] → Becomes (.stackFlowChange (.sequence none votes)) s s) ∧
       (∀ d c, Becomes (.stackFlowChange (.applied d c)) s ((s.takeMessage d 0x11).appliedBy d c).settleChanges) ∧
       (∀ c, Becomes (.stackFlowChange (.vote c)) s s ∧ Becomes (.stackFlowChange (.commit c)) s s ∧ Becomes (.stackFlowChange (.finished c)) s s ∧
         ∀ st d, Becomes (.stackFlowChange (.abandon c st d)) s s)) ∧
     (∀ s0, s.stacked = true → s.isFollower = true → s0 = s.takeMessage s.stackRoot 0x11 →
       (∀ c votes, Becomes (.stackFlowChange (.sequence c votes)) s s) ∧
       (∀ d c, Becomes (.stackFlowChange (.applied d c)) s s) ∧
       (∀ c, Becomes (.stackFlowChange (.vote c)) s ((s0.countFailedWalk c).sendMessage s.stackRoot 0x11 [beBytes 2 (s.changeVote c).1])) ∧
       (∀ c, Becomes (.stackFlowChange (.commit c)) s ((s0.commitChange c).sendMessage s.stackRoot 0x11 (changeContent c))) ∧
       (∀ c st d, Becomes (.stackFlowChange (.abandon c st d)) s (s0.abandonChange c st d)) ∧
       (∀ c, Becomes (.stackFlowChange (.finished c)) s ((s0.takeChange c).1.completeOpt (s0.takeChange c).2 stOk))))
/-! ## Whole-machine rules -/

/-- What the end of the reset sequence leaves: every channel IDLE and without a slot, every ring pair disabled, the flow table, the SRTP contexts and the templates empty, cell
memories and DRAM 0, no cell trapped or running, the error log empty with SEQ 1 next, CAUSE POWER_ON, the RWS fields 0, STEP 8, the life cycle that the fuses spell, PHASE RUNNING
with BOOT and READY risen, every power domain in RUN (R39, R324, R493, R501 to R503, R506, R524, R574; Tables 15.5, 19.5, 19.6 and 23.3). That State.reset stands at the end of that
sequence, and that the queue is empty, is the model's choice (log entry 4). -/
def Obligations.ResetLeavesTheStatedValues : Prop :=
  let s := State.reset
  (∀ c, (s.channel c).state = .idle ∧ (s.channel c).slot = none) ∧ (∀ n, (s.ring n).enable = false ∧ (s.ring n).held = []) ∧
  s.flows.way0 = [] ∧ s.flows.way1 = [] ∧ s.flows.cam = [] ∧ s.flows.contexts = [] ∧ s.flows.templates = [] ∧
  (∀ n a, memByte (s.cell n).xmem a = 0 ∧ memByte (s.cell n).ymem a = 0) ∧ (∀ a, memByte s.store.dram a = 0) ∧
  (∀ n, (s.cell n).trap = none ∧ (s.cell n).running = none) ∧
  s.log.entries = [] ∧ s.log.next = 1 ∧ s.log.corrected = 0 ∧ s.log.uncorrected = 0 ∧ s.log.fatal = 0 ∧
  s.life.cause = .powerOn ∧ s.life.warmResets = 0 ∧ s.life.watchdogResets = 0 ∧ s.life.scratch = 0 ∧ s.life.progress = 8 ∧
  s.life.lifeCycle = fusedState s.life ∧ s.board.bootPhase = .running ∧ s.board.devIrq = 3 ∧ s.board.devIrqMask = 0 ∧
  (∀ d, (s.powerDomain d).mode = .run) ∧ s.fylos.ready = true ∧ s.pending = []

/-- The state after reset is legal: the premise of the invariant holds where every run begins. -/
def Obligations.ResetIsLegal : Prop :=
  Legal State.reset

/-- Every step keeps the machine legal: the life-cycle state is what the fuses spell, the error log holds at most 256 entries and DRAM keeps its canonical form; and no
step unburns a fuse, takes the life cycle back or touches the queue beyond the command it carries out (R506, R524). -/
def Obligations.EveryStepKeepsFusesLogAndQueue : Prop :=
  ∀ (s t : State), step s = .next t →
    t.pending = s.pending.tail ∧
    (Legal s → Legal t ∧ s.life.lifeCycle ≤ t.life.lifeCycle) ∧
    (∀ k, tabGet s.life.trans k 0 ≤ tabGet t.life.trans k 0 ∧ tabGet s.life.wipe k 0 ≤ tabGet t.life.wipe k 0)

/-- A memory answers the bytes last stored in it, every other byte as before, and its canonical form stays: cell memories, block memory and DRAM are all of this
form (R317, R318, R324, R372). -/
def Obligations.MemoriesHoldWhatIsStored : Prop :=
  ∀ (m : List Host.Cell) (a : Nat) (l : List Byte), memoryWf m = true →
    memoryWf (memWrite m a l) = true ∧ memRead (memWrite m a l) a l.length = l ∧
    (∀ b, b < a ∨ a + l.length ≤ b → memByte (memWrite m a l) b = memByte m b) ∧
    (∀ n, memoryWf (memWipe m a n) = true ∧ memRead (memWipe m a n) a n = zeroBytes n ∧
      ∀ b, b < a ∨ a + n ≤ b → memByte (memWipe m a n) b = memByte m b)

/-- The words of the voice engine and their 64 bits answer each other: every word whose pair index is even decodes from its encoding as itself, and every 64-bit pattern that
is a word is the encoding of it, so no bit is dropped and no reserved bit is taken (R352, R353, Tables 13.1 to 13.10). -/
def Obligations.WordsDecodeAsTheyEncode : Prop :=
  (∀ x : VeWord, compFits (wordComp x) = true → decodeWord (encodeWord x) = some x) ∧
  (∀ (w : BitVec 64) (x : VeWord), decodeWord w = some x → encodeWord x = w)
end

