-- ==== Sys2Proof/Laws/Tables.lean ====
section
/-! SUPPORT. What tables and memories answer after an update, and that every memory operation keeps the canonical form. -/

namespace Sys2Proof.Machine

/-! ## Reading after an update -/

@[simp] theorem tabGet_tabPut_same {α : Type} (t : Tab α) (k : Nat) (v d : α) : tabGet (tabPut t k v) k d = v := by
  induction t with
  | nil => simp [tabPut, tabGet]
  | cons e r ih =>
    obtain ⟨j, w⟩ := e
    simp only [tabPut]
    split
    · simp [tabGet]
    · split
      · simp [tabGet]
      · rename_i h
        simp [tabGet, Ne.symm h, ih]

theorem tabGet_tabPut_ne {α : Type} (t : Tab α) (k i : Nat) (v d : α) (h : i ≠ k) :
    tabGet (tabPut t k v) i d = tabGet t i d := by
  induction t with
  | nil => simp [tabPut, tabGet, Ne.symm h]
  | cons e r ih =>
    obtain ⟨j, w⟩ := e
    simp only [tabPut]
    split
    · simp [tabGet, Ne.symm h]
    · split
      · rename_i h2
        subst h2
        simp [tabGet, Ne.symm h]
      · simp [tabGet, ih]

@[simp] theorem tabGet_tabDrop_same {α : Type} (t : Tab α) (k : Nat) (d : α) : tabGet (tabDrop t k) k d = d := by
  induction t with
  | nil => rfl
  | cons e r ih =>
    obtain ⟨j, w⟩ := e
    by_cases h : j = k
    · simpa [tabDrop, h] using ih
    · simpa [tabDrop, h, tabGet] using ih

theorem tabGet_tabDrop_ne {α : Type} (t : Tab α) (k i : Nat) (d : α) (h : i ≠ k) :
    tabGet (tabDrop t k) i d = tabGet t i d := by
  induction t with
  | nil => rfl
  | cons e r ih =>
    obtain ⟨j, w⟩ := e
    by_cases hj : j = k
    · subst hj
      simpa [tabDrop, tabGet, Ne.symm h] using ih
    · by_cases hi : j = i
      · simp [tabDrop, tabGet, hi]
        simp [hi] at hj
        simp [hj, tabGet]
      · simpa [tabDrop, hj, tabGet, hi] using ih

/-- A table answers what was put at a key. -/
@[simp] theorem tabGet_tabSet_same {α : Type} [DecidableEq α] (t : Tab α) (k : Nat) (v d : α) :
    tabGet (tabSet t k v d) k d = v := by
  unfold tabSet
  split
  · rename_i h
    simp [h]
  · simp

/-- A table answers at every other key what it answered before. -/
theorem tabGet_tabSet_ne {α : Type} [DecidableEq α] (t : Tab α) (k i : Nat) (v d e : α) (h : i ≠ k) :
    tabGet (tabSet t k v d) i e = tabGet t i e := by
  unfold tabSet
  split
  · exact tabGet_tabDrop_ne t k i e h
  · exact tabGet_tabPut_ne t k i v e h

/-! ## The canonical form -/

/-- Keys strictly rise above a bound. -/
def risesFrom {α : Type} (n : Nat) : Tab α → Prop
  | [] => True
  | (k, _) :: r => n ≤ k ∧ risesFrom (k + 1) r

theorem risesFrom_mono {α : Type} {m n : Nat} {t : Tab α} (h : risesFrom n t) (hm : m ≤ n) : risesFrom m t := by
  cases t with
  | nil => trivial
  | cons e r => exact ⟨Nat.le_trans hm h.1, h.2⟩

theorem risesFrom_tabPut {α : Type} {n : Nat} {t : Tab α} {k : Nat} {v : α} (h : risesFrom n t) (hk : n ≤ k) :
    risesFrom n (tabPut t k v) := by
  induction t generalizing n with
  | nil => exact ⟨hk, trivial⟩
  | cons e r ih =>
    obtain ⟨j, w⟩ := e
    obtain ⟨hj, hr⟩ := h
    simp only [tabPut]
    split
    · rename_i hlt
      exact ⟨hk, hlt, hr⟩
    · split
      · rename_i he
        subst he
        exact ⟨hk, hr⟩
      · exact ⟨hj, ih hr (by omega)⟩

theorem risesFrom_filter {α : Type} {n : Nat} {t : Tab α} (p : Nat × α → Bool) (h : risesFrom n t) :
    risesFrom n (t.filter p) := by
  induction t generalizing n with
  | nil => trivial
  | cons e r ih =>
    obtain ⟨j, w⟩ := e
    obtain ⟨hj, hr⟩ := h
    by_cases hp : p (j, w)
    · rw [List.filter_cons_of_pos hp]
      exact ⟨hj, ih hr⟩
    · rw [List.filter_cons_of_neg hp]
      exact ih (risesFrom_mono hr (by omega))

theorem mem_tabPut {α : Type} {t : Tab α} {k : Nat} {v : α} {e : Nat × α} (h : e ∈ tabPut t k v) : e = (k, v) ∨ e ∈ t := by
  induction t with
  | nil => simpa [tabPut] using h
  | cons f r ih =>
    obtain ⟨j, w⟩ := f
    simp only [tabPut] at h
    split at h
    · simpa using h
    · split at h
      · rcases List.mem_cons.mp h with h | h
        · exact .inl h
        · exact .inr (List.mem_cons_of_mem _ h)
      · rcases List.mem_cons.mp h with h | h
        · exact .inr (h ▸ List.mem_cons_self)
        · rcases ih h with h | h
          · exact .inl h
          · exact .inr (List.mem_cons_of_mem _ h)

/-- The canonical form as rising keys and no byte of zero. -/
theorem memoryWf_iff (m : List Host.Cell) : memoryWf m = true ↔ risesFrom 0 m ∧ ∀ c ∈ m, c.2 ≠ 0 := by
  have key : ∀ (m : List Host.Cell), memoryWf m = true ↔
      ((match m with | [] => True | (a, _) :: r => risesFrom (a + 1) r) ∧ ∀ c ∈ m, c.2 ≠ 0) := by
    intro m
    induction m with
    | nil => simp [memoryWf]
    | cons e r ih =>
      obtain ⟨a, b⟩ := e
      cases r with
      | nil => simp [memoryWf, risesFrom]
      | cons f q =>
        obtain ⟨a', b'⟩ := f
        simp only [memoryWf, Bool.and_eq_true, decide_eq_true_eq, bne_iff_ne, ih, risesFrom, List.mem_cons, forall_eq_or_imp]
        constructor
        · rintro ⟨⟨h1, h2⟩, h3, h4⟩
          exact ⟨⟨h2, h3⟩, h1, h4⟩
        · rintro ⟨⟨h2, h3⟩, h1, h4⟩
          exact ⟨⟨h1, h2⟩, h3, h4⟩
  rw [key]
  cases m with
  | nil => simp [risesFrom]
  | cons e r => obtain ⟨a, b⟩ := e; simp [risesFrom]

theorem memoryWf_nil : memoryWf [] = true := rfl

theorem memoryWf_filter {m : List Host.Cell} (p : Host.Cell → Bool) (h : memoryWf m = true) : memoryWf (m.filter p) = true := by
  rw [memoryWf_iff] at h ⊢
  exact ⟨risesFrom_filter p h.1, fun c hc => h.2 c ((List.mem_filter.mp hc).1)⟩

/-- Writing one byte keeps the canonical form. -/
theorem memoryWf_memSet {m : List Host.Cell} (a : Nat) (b : Byte) (h : memoryWf m = true) : memoryWf (memSet m a b) = true := by
  unfold memSet tabSet
  split
  · exact memoryWf_filter _ h
  · rename_i hb
    rw [memoryWf_iff] at h ⊢
    refine ⟨risesFrom_tabPut h.1 (Nat.zero_le a), fun c hc => ?_⟩
    rcases mem_tabPut hc with hc | hc
    · exact hc ▸ hb
    · exact h.2 c hc

/-- Writing bytes keeps the canonical form. -/
theorem memoryWf_memWrite {m : List Host.Cell} (a : Nat) (l : List Byte) (h : memoryWf m = true) :
    memoryWf (memWrite m a l) = true := by
  induction l generalizing m a with
  | nil => exact h
  | cons b r ih => exact ih (a + 1) (memoryWf_memSet a b h)

/-- Wiping a range keeps the canonical form. -/
theorem memoryWf_memWipe {m : List Host.Cell} (a n : Nat) (h : memoryWf m = true) : memoryWf (memWipe m a n) = true :=
  memoryWf_filter _ h

/-! ## Memories -/

@[simp] theorem memByte_memSet_same (m : List Host.Cell) (a : Nat) (b : Byte) : memByte (memSet m a b) a = b := by
  simp [memByte, memSet]

theorem memByte_memSet_ne (m : List Host.Cell) (a i : Nat) (b : Byte) (h : i ≠ a) : memByte (memSet m a b) i = memByte m i :=
  tabGet_tabSet_ne m a i b 0 0 h

/-- Bytes outside what is written stay. -/
theorem memByte_memWrite_out (l : List Byte) (m : List Host.Cell) (a i : Nat) (h : i < a ∨ a + l.length ≤ i) :
    memByte (memWrite m a l) i = memByte m i := by
  induction l generalizing m a with
  | nil => rfl
  | cons b r ih =>
    simp only [List.length_cons] at h
    rw [memWrite, ih _ _ (by omega), memByte_memSet_ne _ _ _ _ (by omega)]

/-- What is written reads back. -/
theorem memByte_memWrite_in (l : List Byte) (m : List Host.Cell) (a i : Nat) (h : i < l.length) :
    memByte (memWrite m a l) (a + i) = l[i] := by
  induction l generalizing m a i with
  | nil => simp at h
  | cons b r ih =>
    cases i with
    | zero => rw [memWrite, memByte_memWrite_out _ _ _ _ (by omega)]; simp
    | succ i =>
      have := ih (memSet m a b) (a + 1) i (by simpa using h)
      rw [memWrite, ← Nat.add_assoc, Nat.add_right_comm, this]
      rfl

end Sys2Proof.Machine
end

