-- ==== Sys2Proof/Laws/State.lean ====
section
/-! SUPPORT. One lemma for every field and every named update of the state: what an update leaves alone, and what it reads back. -/

namespace Sys2Proof.Machine

@[simp] theorem State.setRing_pending (s : State) (n : Nat) (r : Ring) : (s.setRing n r).pending = s.pending := rfl
@[simp] theorem State.setRing_draws (s : State) (n : Nat) (r : Ring) : (s.setRing n r).draws = s.draws := rfl
@[simp] theorem State.setRing_fylos (s : State) (n : Nat) (r : Ring) : (s.setRing n r).fylos = s.fylos := rfl
@[simp] theorem State.setRing_log (s : State) (n : Nat) (r : Ring) : (s.setRing n r).log = s.log := rfl
@[simp] theorem State.setRing_channels (s : State) (n : Nat) (r : Ring) : (s.setRing n r).channels = s.channels := rfl
@[simp] theorem State.setRing_openRuns (s : State) (n : Nat) (r : Ring) : (s.setRing n r).openRuns = s.openRuns := rfl
@[simp] theorem State.setRing_blocks (s : State) (n : Nat) (r : Ring) : (s.setRing n r).blocks = s.blocks := rfl
@[simp] theorem State.setRing_cells (s : State) (n : Nat) (r : Ring) : (s.setRing n r).cells = s.cells := rfl
@[simp] theorem State.setRing_ports (s : State) (n : Nat) (r : Ring) : (s.setRing n r).ports = s.ports := rfl
@[simp] theorem State.setRing_pairs (s : State) (n : Nat) (r : Ring) : (s.setRing n r).pairs = s.pairs := rfl
@[simp] theorem State.setRing_regions (s : State) (n : Nat) (r : Ring) : (s.setRing n r).regions = s.regions := rfl
@[simp] theorem State.setRing_flows (s : State) (n : Nat) (r : Ring) : (s.setRing n r).flows = s.flows := rfl
@[simp] theorem State.setRing_time (s : State) (n : Nat) (r : Ring) : (s.setRing n r).time = s.time := rfl
@[simp] theorem State.setRing_tdm (s : State) (n : Nat) (r : Ring) : (s.setRing n r).tdm = s.tdm := rfl
@[simp] theorem State.setRing_store (s : State) (n : Nat) (r : Ring) : (s.setRing n r).store = s.store := rfl
@[simp] theorem State.setRing_clocks (s : State) (n : Nat) (r : Ring) : (s.setRing n r).clocks = s.clocks := rfl
@[simp] theorem State.setRing_life (s : State) (n : Nat) (r : Ring) : (s.setRing n r).life = s.life := rfl
@[simp] theorem State.setRing_stack (s : State) (n : Nat) (r : Ring) : (s.setRing n r).stack = s.stack := rfl
@[simp] theorem State.setRing_board (s : State) (n : Nat) (r : Ring) : (s.setRing n r).board = s.board := rfl

@[simp] theorem State.modRing_pending (s : State) (n : Nat) (f : Ring → Ring) : (s.modRing n f).pending = s.pending := rfl
@[simp] theorem State.modRing_draws (s : State) (n : Nat) (f : Ring → Ring) : (s.modRing n f).draws = s.draws := rfl
@[simp] theorem State.modRing_fylos (s : State) (n : Nat) (f : Ring → Ring) : (s.modRing n f).fylos = s.fylos := rfl
@[simp] theorem State.modRing_log (s : State) (n : Nat) (f : Ring → Ring) : (s.modRing n f).log = s.log := rfl
@[simp] theorem State.modRing_channels (s : State) (n : Nat) (f : Ring → Ring) : (s.modRing n f).channels = s.channels := rfl
@[simp] theorem State.modRing_openRuns (s : State) (n : Nat) (f : Ring → Ring) : (s.modRing n f).openRuns = s.openRuns := rfl
@[simp] theorem State.modRing_blocks (s : State) (n : Nat) (f : Ring → Ring) : (s.modRing n f).blocks = s.blocks := rfl
@[simp] theorem State.modRing_cells (s : State) (n : Nat) (f : Ring → Ring) : (s.modRing n f).cells = s.cells := rfl
@[simp] theorem State.modRing_ports (s : State) (n : Nat) (f : Ring → Ring) : (s.modRing n f).ports = s.ports := rfl
@[simp] theorem State.modRing_pairs (s : State) (n : Nat) (f : Ring → Ring) : (s.modRing n f).pairs = s.pairs := rfl
@[simp] theorem State.modRing_regions (s : State) (n : Nat) (f : Ring → Ring) : (s.modRing n f).regions = s.regions := rfl
@[simp] theorem State.modRing_flows (s : State) (n : Nat) (f : Ring → Ring) : (s.modRing n f).flows = s.flows := rfl
@[simp] theorem State.modRing_time (s : State) (n : Nat) (f : Ring → Ring) : (s.modRing n f).time = s.time := rfl
@[simp] theorem State.modRing_tdm (s : State) (n : Nat) (f : Ring → Ring) : (s.modRing n f).tdm = s.tdm := rfl
@[simp] theorem State.modRing_store (s : State) (n : Nat) (f : Ring → Ring) : (s.modRing n f).store = s.store := rfl
@[simp] theorem State.modRing_clocks (s : State) (n : Nat) (f : Ring → Ring) : (s.modRing n f).clocks = s.clocks := rfl
@[simp] theorem State.modRing_life (s : State) (n : Nat) (f : Ring → Ring) : (s.modRing n f).life = s.life := rfl
@[simp] theorem State.modRing_stack (s : State) (n : Nat) (f : Ring → Ring) : (s.modRing n f).stack = s.stack := rfl
@[simp] theorem State.modRing_board (s : State) (n : Nat) (f : Ring → Ring) : (s.modRing n f).board = s.board := rfl

@[simp] theorem State.setChannel_pending (s : State) (c : Nat) (v : Channel) : (s.setChannel c v).pending = s.pending := rfl
@[simp] theorem State.setChannel_draws (s : State) (c : Nat) (v : Channel) : (s.setChannel c v).draws = s.draws := rfl
@[simp] theorem State.setChannel_rings (s : State) (c : Nat) (v : Channel) : (s.setChannel c v).rings = s.rings := rfl
@[simp] theorem State.setChannel_fylos (s : State) (c : Nat) (v : Channel) : (s.setChannel c v).fylos = s.fylos := rfl
@[simp] theorem State.setChannel_log (s : State) (c : Nat) (v : Channel) : (s.setChannel c v).log = s.log := rfl
@[simp] theorem State.setChannel_openRuns (s : State) (c : Nat) (v : Channel) : (s.setChannel c v).openRuns = s.openRuns := rfl
@[simp] theorem State.setChannel_blocks (s : State) (c : Nat) (v : Channel) : (s.setChannel c v).blocks = s.blocks := rfl
@[simp] theorem State.setChannel_cells (s : State) (c : Nat) (v : Channel) : (s.setChannel c v).cells = s.cells := rfl
@[simp] theorem State.setChannel_ports (s : State) (c : Nat) (v : Channel) : (s.setChannel c v).ports = s.ports := rfl
@[simp] theorem State.setChannel_pairs (s : State) (c : Nat) (v : Channel) : (s.setChannel c v).pairs = s.pairs := rfl
@[simp] theorem State.setChannel_regions (s : State) (c : Nat) (v : Channel) : (s.setChannel c v).regions = s.regions := rfl
@[simp] theorem State.setChannel_flows (s : State) (c : Nat) (v : Channel) : (s.setChannel c v).flows = s.flows := rfl
@[simp] theorem State.setChannel_time (s : State) (c : Nat) (v : Channel) : (s.setChannel c v).time = s.time := rfl
@[simp] theorem State.setChannel_tdm (s : State) (c : Nat) (v : Channel) : (s.setChannel c v).tdm = s.tdm := rfl
@[simp] theorem State.setChannel_store (s : State) (c : Nat) (v : Channel) : (s.setChannel c v).store = s.store := rfl
@[simp] theorem State.setChannel_clocks (s : State) (c : Nat) (v : Channel) : (s.setChannel c v).clocks = s.clocks := rfl
@[simp] theorem State.setChannel_life (s : State) (c : Nat) (v : Channel) : (s.setChannel c v).life = s.life := rfl
@[simp] theorem State.setChannel_stack (s : State) (c : Nat) (v : Channel) : (s.setChannel c v).stack = s.stack := rfl
@[simp] theorem State.setChannel_board (s : State) (c : Nat) (v : Channel) : (s.setChannel c v).board = s.board := rfl

@[simp] theorem State.modChannel_pending (s : State) (c : Nat) (f : Channel → Channel) : (s.modChannel c f).pending = s.pending := rfl
@[simp] theorem State.modChannel_draws (s : State) (c : Nat) (f : Channel → Channel) : (s.modChannel c f).draws = s.draws := rfl
@[simp] theorem State.modChannel_rings (s : State) (c : Nat) (f : Channel → Channel) : (s.modChannel c f).rings = s.rings := rfl
@[simp] theorem State.modChannel_fylos (s : State) (c : Nat) (f : Channel → Channel) : (s.modChannel c f).fylos = s.fylos := rfl
@[simp] theorem State.modChannel_log (s : State) (c : Nat) (f : Channel → Channel) : (s.modChannel c f).log = s.log := rfl
@[simp] theorem State.modChannel_openRuns (s : State) (c : Nat) (f : Channel → Channel) : (s.modChannel c f).openRuns = s.openRuns := rfl
@[simp] theorem State.modChannel_blocks (s : State) (c : Nat) (f : Channel → Channel) : (s.modChannel c f).blocks = s.blocks := rfl
@[simp] theorem State.modChannel_cells (s : State) (c : Nat) (f : Channel → Channel) : (s.modChannel c f).cells = s.cells := rfl
@[simp] theorem State.modChannel_ports (s : State) (c : Nat) (f : Channel → Channel) : (s.modChannel c f).ports = s.ports := rfl
@[simp] theorem State.modChannel_pairs (s : State) (c : Nat) (f : Channel → Channel) : (s.modChannel c f).pairs = s.pairs := rfl
@[simp] theorem State.modChannel_regions (s : State) (c : Nat) (f : Channel → Channel) : (s.modChannel c f).regions = s.regions := rfl
@[simp] theorem State.modChannel_flows (s : State) (c : Nat) (f : Channel → Channel) : (s.modChannel c f).flows = s.flows := rfl
@[simp] theorem State.modChannel_time (s : State) (c : Nat) (f : Channel → Channel) : (s.modChannel c f).time = s.time := rfl
@[simp] theorem State.modChannel_tdm (s : State) (c : Nat) (f : Channel → Channel) : (s.modChannel c f).tdm = s.tdm := rfl
@[simp] theorem State.modChannel_store (s : State) (c : Nat) (f : Channel → Channel) : (s.modChannel c f).store = s.store := rfl
@[simp] theorem State.modChannel_clocks (s : State) (c : Nat) (f : Channel → Channel) : (s.modChannel c f).clocks = s.clocks := rfl
@[simp] theorem State.modChannel_life (s : State) (c : Nat) (f : Channel → Channel) : (s.modChannel c f).life = s.life := rfl
@[simp] theorem State.modChannel_stack (s : State) (c : Nat) (f : Channel → Channel) : (s.modChannel c f).stack = s.stack := rfl
@[simp] theorem State.modChannel_board (s : State) (c : Nat) (f : Channel → Channel) : (s.modChannel c f).board = s.board := rfl

@[simp] theorem State.setBlock_pending (s : State) (b : Nat) (v : Block) : (s.setBlock b v).pending = s.pending := rfl
@[simp] theorem State.setBlock_draws (s : State) (b : Nat) (v : Block) : (s.setBlock b v).draws = s.draws := rfl
@[simp] theorem State.setBlock_rings (s : State) (b : Nat) (v : Block) : (s.setBlock b v).rings = s.rings := rfl
@[simp] theorem State.setBlock_fylos (s : State) (b : Nat) (v : Block) : (s.setBlock b v).fylos = s.fylos := rfl
@[simp] theorem State.setBlock_log (s : State) (b : Nat) (v : Block) : (s.setBlock b v).log = s.log := rfl
@[simp] theorem State.setBlock_channels (s : State) (b : Nat) (v : Block) : (s.setBlock b v).channels = s.channels := rfl
@[simp] theorem State.setBlock_openRuns (s : State) (b : Nat) (v : Block) : (s.setBlock b v).openRuns = s.openRuns := rfl
@[simp] theorem State.setBlock_cells (s : State) (b : Nat) (v : Block) : (s.setBlock b v).cells = s.cells := rfl
@[simp] theorem State.setBlock_ports (s : State) (b : Nat) (v : Block) : (s.setBlock b v).ports = s.ports := rfl
@[simp] theorem State.setBlock_pairs (s : State) (b : Nat) (v : Block) : (s.setBlock b v).pairs = s.pairs := rfl
@[simp] theorem State.setBlock_regions (s : State) (b : Nat) (v : Block) : (s.setBlock b v).regions = s.regions := rfl
@[simp] theorem State.setBlock_flows (s : State) (b : Nat) (v : Block) : (s.setBlock b v).flows = s.flows := rfl
@[simp] theorem State.setBlock_time (s : State) (b : Nat) (v : Block) : (s.setBlock b v).time = s.time := rfl
@[simp] theorem State.setBlock_tdm (s : State) (b : Nat) (v : Block) : (s.setBlock b v).tdm = s.tdm := rfl
@[simp] theorem State.setBlock_store (s : State) (b : Nat) (v : Block) : (s.setBlock b v).store = s.store := rfl
@[simp] theorem State.setBlock_clocks (s : State) (b : Nat) (v : Block) : (s.setBlock b v).clocks = s.clocks := rfl
@[simp] theorem State.setBlock_life (s : State) (b : Nat) (v : Block) : (s.setBlock b v).life = s.life := rfl
@[simp] theorem State.setBlock_stack (s : State) (b : Nat) (v : Block) : (s.setBlock b v).stack = s.stack := rfl
@[simp] theorem State.setBlock_board (s : State) (b : Nat) (v : Block) : (s.setBlock b v).board = s.board := rfl

@[simp] theorem State.modBlock_pending (s : State) (b : Nat) (f : Block → Block) : (s.modBlock b f).pending = s.pending := rfl
@[simp] theorem State.modBlock_draws (s : State) (b : Nat) (f : Block → Block) : (s.modBlock b f).draws = s.draws := rfl
@[simp] theorem State.modBlock_rings (s : State) (b : Nat) (f : Block → Block) : (s.modBlock b f).rings = s.rings := rfl
@[simp] theorem State.modBlock_fylos (s : State) (b : Nat) (f : Block → Block) : (s.modBlock b f).fylos = s.fylos := rfl
@[simp] theorem State.modBlock_log (s : State) (b : Nat) (f : Block → Block) : (s.modBlock b f).log = s.log := rfl
@[simp] theorem State.modBlock_channels (s : State) (b : Nat) (f : Block → Block) : (s.modBlock b f).channels = s.channels := rfl
@[simp] theorem State.modBlock_openRuns (s : State) (b : Nat) (f : Block → Block) : (s.modBlock b f).openRuns = s.openRuns := rfl
@[simp] theorem State.modBlock_cells (s : State) (b : Nat) (f : Block → Block) : (s.modBlock b f).cells = s.cells := rfl
@[simp] theorem State.modBlock_ports (s : State) (b : Nat) (f : Block → Block) : (s.modBlock b f).ports = s.ports := rfl
@[simp] theorem State.modBlock_pairs (s : State) (b : Nat) (f : Block → Block) : (s.modBlock b f).pairs = s.pairs := rfl
@[simp] theorem State.modBlock_regions (s : State) (b : Nat) (f : Block → Block) : (s.modBlock b f).regions = s.regions := rfl
@[simp] theorem State.modBlock_flows (s : State) (b : Nat) (f : Block → Block) : (s.modBlock b f).flows = s.flows := rfl
@[simp] theorem State.modBlock_time (s : State) (b : Nat) (f : Block → Block) : (s.modBlock b f).time = s.time := rfl
@[simp] theorem State.modBlock_tdm (s : State) (b : Nat) (f : Block → Block) : (s.modBlock b f).tdm = s.tdm := rfl
@[simp] theorem State.modBlock_store (s : State) (b : Nat) (f : Block → Block) : (s.modBlock b f).store = s.store := rfl
@[simp] theorem State.modBlock_clocks (s : State) (b : Nat) (f : Block → Block) : (s.modBlock b f).clocks = s.clocks := rfl
@[simp] theorem State.modBlock_life (s : State) (b : Nat) (f : Block → Block) : (s.modBlock b f).life = s.life := rfl
@[simp] theorem State.modBlock_stack (s : State) (b : Nat) (f : Block → Block) : (s.modBlock b f).stack = s.stack := rfl
@[simp] theorem State.modBlock_board (s : State) (b : Nat) (f : Block → Block) : (s.modBlock b f).board = s.board := rfl

@[simp] theorem State.modThread_pending (s : State) (b t : Nat) (f : Thread → Thread) : (s.modThread b t f).pending = s.pending := rfl
@[simp] theorem State.modThread_draws (s : State) (b t : Nat) (f : Thread → Thread) : (s.modThread b t f).draws = s.draws := rfl
@[simp] theorem State.modThread_rings (s : State) (b t : Nat) (f : Thread → Thread) : (s.modThread b t f).rings = s.rings := rfl
@[simp] theorem State.modThread_fylos (s : State) (b t : Nat) (f : Thread → Thread) : (s.modThread b t f).fylos = s.fylos := rfl
@[simp] theorem State.modThread_log (s : State) (b t : Nat) (f : Thread → Thread) : (s.modThread b t f).log = s.log := rfl
@[simp] theorem State.modThread_channels (s : State) (b t : Nat) (f : Thread → Thread) : (s.modThread b t f).channels = s.channels := rfl
@[simp] theorem State.modThread_openRuns (s : State) (b t : Nat) (f : Thread → Thread) : (s.modThread b t f).openRuns = s.openRuns := rfl
@[simp] theorem State.modThread_cells (s : State) (b t : Nat) (f : Thread → Thread) : (s.modThread b t f).cells = s.cells := rfl
@[simp] theorem State.modThread_ports (s : State) (b t : Nat) (f : Thread → Thread) : (s.modThread b t f).ports = s.ports := rfl
@[simp] theorem State.modThread_pairs (s : State) (b t : Nat) (f : Thread → Thread) : (s.modThread b t f).pairs = s.pairs := rfl
@[simp] theorem State.modThread_regions (s : State) (b t : Nat) (f : Thread → Thread) : (s.modThread b t f).regions = s.regions := rfl
@[simp] theorem State.modThread_flows (s : State) (b t : Nat) (f : Thread → Thread) : (s.modThread b t f).flows = s.flows := rfl
@[simp] theorem State.modThread_time (s : State) (b t : Nat) (f : Thread → Thread) : (s.modThread b t f).time = s.time := rfl
@[simp] theorem State.modThread_tdm (s : State) (b t : Nat) (f : Thread → Thread) : (s.modThread b t f).tdm = s.tdm := rfl
@[simp] theorem State.modThread_store (s : State) (b t : Nat) (f : Thread → Thread) : (s.modThread b t f).store = s.store := rfl
@[simp] theorem State.modThread_clocks (s : State) (b t : Nat) (f : Thread → Thread) : (s.modThread b t f).clocks = s.clocks := rfl
@[simp] theorem State.modThread_life (s : State) (b t : Nat) (f : Thread → Thread) : (s.modThread b t f).life = s.life := rfl
@[simp] theorem State.modThread_stack (s : State) (b t : Nat) (f : Thread → Thread) : (s.modThread b t f).stack = s.stack := rfl
@[simp] theorem State.modThread_board (s : State) (b t : Nat) (f : Thread → Thread) : (s.modThread b t f).board = s.board := rfl

@[simp] theorem State.setCell_pending (s : State) (n : Nat) (v : Cell) : (s.setCell n v).pending = s.pending := rfl
@[simp] theorem State.setCell_draws (s : State) (n : Nat) (v : Cell) : (s.setCell n v).draws = s.draws := rfl
@[simp] theorem State.setCell_rings (s : State) (n : Nat) (v : Cell) : (s.setCell n v).rings = s.rings := rfl
@[simp] theorem State.setCell_fylos (s : State) (n : Nat) (v : Cell) : (s.setCell n v).fylos = s.fylos := rfl
@[simp] theorem State.setCell_log (s : State) (n : Nat) (v : Cell) : (s.setCell n v).log = s.log := rfl
@[simp] theorem State.setCell_channels (s : State) (n : Nat) (v : Cell) : (s.setCell n v).channels = s.channels := rfl
@[simp] theorem State.setCell_openRuns (s : State) (n : Nat) (v : Cell) : (s.setCell n v).openRuns = s.openRuns := rfl
@[simp] theorem State.setCell_blocks (s : State) (n : Nat) (v : Cell) : (s.setCell n v).blocks = s.blocks := rfl
@[simp] theorem State.setCell_ports (s : State) (n : Nat) (v : Cell) : (s.setCell n v).ports = s.ports := rfl
@[simp] theorem State.setCell_pairs (s : State) (n : Nat) (v : Cell) : (s.setCell n v).pairs = s.pairs := rfl
@[simp] theorem State.setCell_regions (s : State) (n : Nat) (v : Cell) : (s.setCell n v).regions = s.regions := rfl
@[simp] theorem State.setCell_flows (s : State) (n : Nat) (v : Cell) : (s.setCell n v).flows = s.flows := rfl
@[simp] theorem State.setCell_time (s : State) (n : Nat) (v : Cell) : (s.setCell n v).time = s.time := rfl
@[simp] theorem State.setCell_tdm (s : State) (n : Nat) (v : Cell) : (s.setCell n v).tdm = s.tdm := rfl
@[simp] theorem State.setCell_store (s : State) (n : Nat) (v : Cell) : (s.setCell n v).store = s.store := rfl
@[simp] theorem State.setCell_clocks (s : State) (n : Nat) (v : Cell) : (s.setCell n v).clocks = s.clocks := rfl
@[simp] theorem State.setCell_life (s : State) (n : Nat) (v : Cell) : (s.setCell n v).life = s.life := rfl
@[simp] theorem State.setCell_stack (s : State) (n : Nat) (v : Cell) : (s.setCell n v).stack = s.stack := rfl
@[simp] theorem State.setCell_board (s : State) (n : Nat) (v : Cell) : (s.setCell n v).board = s.board := rfl

@[simp] theorem State.modCell_pending (s : State) (n : Nat) (f : Cell → Cell) : (s.modCell n f).pending = s.pending := rfl
@[simp] theorem State.modCell_draws (s : State) (n : Nat) (f : Cell → Cell) : (s.modCell n f).draws = s.draws := rfl
@[simp] theorem State.modCell_rings (s : State) (n : Nat) (f : Cell → Cell) : (s.modCell n f).rings = s.rings := rfl
@[simp] theorem State.modCell_fylos (s : State) (n : Nat) (f : Cell → Cell) : (s.modCell n f).fylos = s.fylos := rfl
@[simp] theorem State.modCell_log (s : State) (n : Nat) (f : Cell → Cell) : (s.modCell n f).log = s.log := rfl
@[simp] theorem State.modCell_channels (s : State) (n : Nat) (f : Cell → Cell) : (s.modCell n f).channels = s.channels := rfl
@[simp] theorem State.modCell_openRuns (s : State) (n : Nat) (f : Cell → Cell) : (s.modCell n f).openRuns = s.openRuns := rfl
@[simp] theorem State.modCell_blocks (s : State) (n : Nat) (f : Cell → Cell) : (s.modCell n f).blocks = s.blocks := rfl
@[simp] theorem State.modCell_ports (s : State) (n : Nat) (f : Cell → Cell) : (s.modCell n f).ports = s.ports := rfl
@[simp] theorem State.modCell_pairs (s : State) (n : Nat) (f : Cell → Cell) : (s.modCell n f).pairs = s.pairs := rfl
@[simp] theorem State.modCell_regions (s : State) (n : Nat) (f : Cell → Cell) : (s.modCell n f).regions = s.regions := rfl
@[simp] theorem State.modCell_flows (s : State) (n : Nat) (f : Cell → Cell) : (s.modCell n f).flows = s.flows := rfl
@[simp] theorem State.modCell_time (s : State) (n : Nat) (f : Cell → Cell) : (s.modCell n f).time = s.time := rfl
@[simp] theorem State.modCell_tdm (s : State) (n : Nat) (f : Cell → Cell) : (s.modCell n f).tdm = s.tdm := rfl
@[simp] theorem State.modCell_store (s : State) (n : Nat) (f : Cell → Cell) : (s.modCell n f).store = s.store := rfl
@[simp] theorem State.modCell_clocks (s : State) (n : Nat) (f : Cell → Cell) : (s.modCell n f).clocks = s.clocks := rfl
@[simp] theorem State.modCell_life (s : State) (n : Nat) (f : Cell → Cell) : (s.modCell n f).life = s.life := rfl
@[simp] theorem State.modCell_stack (s : State) (n : Nat) (f : Cell → Cell) : (s.modCell n f).stack = s.stack := rfl
@[simp] theorem State.modCell_board (s : State) (n : Nat) (f : Cell → Cell) : (s.modCell n f).board = s.board := rfl

@[simp] theorem State.setPort_pending (s : State) (i : Nat) (v : Port) : (s.setPort i v).pending = s.pending := rfl
@[simp] theorem State.setPort_draws (s : State) (i : Nat) (v : Port) : (s.setPort i v).draws = s.draws := rfl
@[simp] theorem State.setPort_rings (s : State) (i : Nat) (v : Port) : (s.setPort i v).rings = s.rings := rfl
@[simp] theorem State.setPort_fylos (s : State) (i : Nat) (v : Port) : (s.setPort i v).fylos = s.fylos := rfl
@[simp] theorem State.setPort_log (s : State) (i : Nat) (v : Port) : (s.setPort i v).log = s.log := rfl
@[simp] theorem State.setPort_channels (s : State) (i : Nat) (v : Port) : (s.setPort i v).channels = s.channels := rfl
@[simp] theorem State.setPort_openRuns (s : State) (i : Nat) (v : Port) : (s.setPort i v).openRuns = s.openRuns := rfl
@[simp] theorem State.setPort_blocks (s : State) (i : Nat) (v : Port) : (s.setPort i v).blocks = s.blocks := rfl
@[simp] theorem State.setPort_cells (s : State) (i : Nat) (v : Port) : (s.setPort i v).cells = s.cells := rfl
@[simp] theorem State.setPort_pairs (s : State) (i : Nat) (v : Port) : (s.setPort i v).pairs = s.pairs := rfl
@[simp] theorem State.setPort_regions (s : State) (i : Nat) (v : Port) : (s.setPort i v).regions = s.regions := rfl
@[simp] theorem State.setPort_flows (s : State) (i : Nat) (v : Port) : (s.setPort i v).flows = s.flows := rfl
@[simp] theorem State.setPort_time (s : State) (i : Nat) (v : Port) : (s.setPort i v).time = s.time := rfl
@[simp] theorem State.setPort_tdm (s : State) (i : Nat) (v : Port) : (s.setPort i v).tdm = s.tdm := rfl
@[simp] theorem State.setPort_store (s : State) (i : Nat) (v : Port) : (s.setPort i v).store = s.store := rfl
@[simp] theorem State.setPort_clocks (s : State) (i : Nat) (v : Port) : (s.setPort i v).clocks = s.clocks := rfl
@[simp] theorem State.setPort_life (s : State) (i : Nat) (v : Port) : (s.setPort i v).life = s.life := rfl
@[simp] theorem State.setPort_stack (s : State) (i : Nat) (v : Port) : (s.setPort i v).stack = s.stack := rfl
@[simp] theorem State.setPort_board (s : State) (i : Nat) (v : Port) : (s.setPort i v).board = s.board := rfl

@[simp] theorem State.modPort_pending (s : State) (i : Nat) (f : Port → Port) : (s.modPort i f).pending = s.pending := rfl
@[simp] theorem State.modPort_draws (s : State) (i : Nat) (f : Port → Port) : (s.modPort i f).draws = s.draws := rfl
@[simp] theorem State.modPort_rings (s : State) (i : Nat) (f : Port → Port) : (s.modPort i f).rings = s.rings := rfl
@[simp] theorem State.modPort_fylos (s : State) (i : Nat) (f : Port → Port) : (s.modPort i f).fylos = s.fylos := rfl
@[simp] theorem State.modPort_log (s : State) (i : Nat) (f : Port → Port) : (s.modPort i f).log = s.log := rfl
@[simp] theorem State.modPort_channels (s : State) (i : Nat) (f : Port → Port) : (s.modPort i f).channels = s.channels := rfl
@[simp] theorem State.modPort_openRuns (s : State) (i : Nat) (f : Port → Port) : (s.modPort i f).openRuns = s.openRuns := rfl
@[simp] theorem State.modPort_blocks (s : State) (i : Nat) (f : Port → Port) : (s.modPort i f).blocks = s.blocks := rfl
@[simp] theorem State.modPort_cells (s : State) (i : Nat) (f : Port → Port) : (s.modPort i f).cells = s.cells := rfl
@[simp] theorem State.modPort_pairs (s : State) (i : Nat) (f : Port → Port) : (s.modPort i f).pairs = s.pairs := rfl
@[simp] theorem State.modPort_regions (s : State) (i : Nat) (f : Port → Port) : (s.modPort i f).regions = s.regions := rfl
@[simp] theorem State.modPort_flows (s : State) (i : Nat) (f : Port → Port) : (s.modPort i f).flows = s.flows := rfl
@[simp] theorem State.modPort_time (s : State) (i : Nat) (f : Port → Port) : (s.modPort i f).time = s.time := rfl
@[simp] theorem State.modPort_tdm (s : State) (i : Nat) (f : Port → Port) : (s.modPort i f).tdm = s.tdm := rfl
@[simp] theorem State.modPort_store (s : State) (i : Nat) (f : Port → Port) : (s.modPort i f).store = s.store := rfl
@[simp] theorem State.modPort_clocks (s : State) (i : Nat) (f : Port → Port) : (s.modPort i f).clocks = s.clocks := rfl
@[simp] theorem State.modPort_life (s : State) (i : Nat) (f : Port → Port) : (s.modPort i f).life = s.life := rfl
@[simp] theorem State.modPort_stack (s : State) (i : Nat) (f : Port → Port) : (s.modPort i f).stack = s.stack := rfl
@[simp] theorem State.modPort_board (s : State) (i : Nat) (f : Port → Port) : (s.modPort i f).board = s.board := rfl

@[simp] theorem State.setPair_pending (s : State) (i : Nat) (v : Pair) : (s.setPair i v).pending = s.pending := rfl
@[simp] theorem State.setPair_draws (s : State) (i : Nat) (v : Pair) : (s.setPair i v).draws = s.draws := rfl
@[simp] theorem State.setPair_rings (s : State) (i : Nat) (v : Pair) : (s.setPair i v).rings = s.rings := rfl
@[simp] theorem State.setPair_fylos (s : State) (i : Nat) (v : Pair) : (s.setPair i v).fylos = s.fylos := rfl
@[simp] theorem State.setPair_log (s : State) (i : Nat) (v : Pair) : (s.setPair i v).log = s.log := rfl
@[simp] theorem State.setPair_channels (s : State) (i : Nat) (v : Pair) : (s.setPair i v).channels = s.channels := rfl
@[simp] theorem State.setPair_openRuns (s : State) (i : Nat) (v : Pair) : (s.setPair i v).openRuns = s.openRuns := rfl
@[simp] theorem State.setPair_blocks (s : State) (i : Nat) (v : Pair) : (s.setPair i v).blocks = s.blocks := rfl
@[simp] theorem State.setPair_cells (s : State) (i : Nat) (v : Pair) : (s.setPair i v).cells = s.cells := rfl
@[simp] theorem State.setPair_ports (s : State) (i : Nat) (v : Pair) : (s.setPair i v).ports = s.ports := rfl
@[simp] theorem State.setPair_regions (s : State) (i : Nat) (v : Pair) : (s.setPair i v).regions = s.regions := rfl
@[simp] theorem State.setPair_flows (s : State) (i : Nat) (v : Pair) : (s.setPair i v).flows = s.flows := rfl
@[simp] theorem State.setPair_time (s : State) (i : Nat) (v : Pair) : (s.setPair i v).time = s.time := rfl
@[simp] theorem State.setPair_tdm (s : State) (i : Nat) (v : Pair) : (s.setPair i v).tdm = s.tdm := rfl
@[simp] theorem State.setPair_store (s : State) (i : Nat) (v : Pair) : (s.setPair i v).store = s.store := rfl
@[simp] theorem State.setPair_clocks (s : State) (i : Nat) (v : Pair) : (s.setPair i v).clocks = s.clocks := rfl
@[simp] theorem State.setPair_life (s : State) (i : Nat) (v : Pair) : (s.setPair i v).life = s.life := rfl
@[simp] theorem State.setPair_stack (s : State) (i : Nat) (v : Pair) : (s.setPair i v).stack = s.stack := rfl
@[simp] theorem State.setPair_board (s : State) (i : Nat) (v : Pair) : (s.setPair i v).board = s.board := rfl

@[simp] theorem State.setRegion_pending (s : State) (r : Nat) (v : Region) : (s.setRegion r v).pending = s.pending := rfl
@[simp] theorem State.setRegion_draws (s : State) (r : Nat) (v : Region) : (s.setRegion r v).draws = s.draws := rfl
@[simp] theorem State.setRegion_rings (s : State) (r : Nat) (v : Region) : (s.setRegion r v).rings = s.rings := rfl
@[simp] theorem State.setRegion_fylos (s : State) (r : Nat) (v : Region) : (s.setRegion r v).fylos = s.fylos := rfl
@[simp] theorem State.setRegion_log (s : State) (r : Nat) (v : Region) : (s.setRegion r v).log = s.log := rfl
@[simp] theorem State.setRegion_channels (s : State) (r : Nat) (v : Region) : (s.setRegion r v).channels = s.channels := rfl
@[simp] theorem State.setRegion_openRuns (s : State) (r : Nat) (v : Region) : (s.setRegion r v).openRuns = s.openRuns := rfl
@[simp] theorem State.setRegion_blocks (s : State) (r : Nat) (v : Region) : (s.setRegion r v).blocks = s.blocks := rfl
@[simp] theorem State.setRegion_cells (s : State) (r : Nat) (v : Region) : (s.setRegion r v).cells = s.cells := rfl
@[simp] theorem State.setRegion_ports (s : State) (r : Nat) (v : Region) : (s.setRegion r v).ports = s.ports := rfl
@[simp] theorem State.setRegion_pairs (s : State) (r : Nat) (v : Region) : (s.setRegion r v).pairs = s.pairs := rfl
@[simp] theorem State.setRegion_flows (s : State) (r : Nat) (v : Region) : (s.setRegion r v).flows = s.flows := rfl
@[simp] theorem State.setRegion_time (s : State) (r : Nat) (v : Region) : (s.setRegion r v).time = s.time := rfl
@[simp] theorem State.setRegion_tdm (s : State) (r : Nat) (v : Region) : (s.setRegion r v).tdm = s.tdm := rfl
@[simp] theorem State.setRegion_store (s : State) (r : Nat) (v : Region) : (s.setRegion r v).store = s.store := rfl
@[simp] theorem State.setRegion_clocks (s : State) (r : Nat) (v : Region) : (s.setRegion r v).clocks = s.clocks := rfl
@[simp] theorem State.setRegion_life (s : State) (r : Nat) (v : Region) : (s.setRegion r v).life = s.life := rfl
@[simp] theorem State.setRegion_stack (s : State) (r : Nat) (v : Region) : (s.setRegion r v).stack = s.stack := rfl
@[simp] theorem State.setRegion_board (s : State) (r : Nat) (v : Region) : (s.setRegion r v).board = s.board := rfl

@[simp] theorem State.modRegion_pending (s : State) (r : Nat) (f : Region → Region) : (s.modRegion r f).pending = s.pending := rfl
@[simp] theorem State.modRegion_draws (s : State) (r : Nat) (f : Region → Region) : (s.modRegion r f).draws = s.draws := rfl
@[simp] theorem State.modRegion_rings (s : State) (r : Nat) (f : Region → Region) : (s.modRegion r f).rings = s.rings := rfl
@[simp] theorem State.modRegion_fylos (s : State) (r : Nat) (f : Region → Region) : (s.modRegion r f).fylos = s.fylos := rfl
@[simp] theorem State.modRegion_log (s : State) (r : Nat) (f : Region → Region) : (s.modRegion r f).log = s.log := rfl
@[simp] theorem State.modRegion_channels (s : State) (r : Nat) (f : Region → Region) : (s.modRegion r f).channels = s.channels := rfl
@[simp] theorem State.modRegion_openRuns (s : State) (r : Nat) (f : Region → Region) : (s.modRegion r f).openRuns = s.openRuns := rfl
@[simp] theorem State.modRegion_blocks (s : State) (r : Nat) (f : Region → Region) : (s.modRegion r f).blocks = s.blocks := rfl
@[simp] theorem State.modRegion_cells (s : State) (r : Nat) (f : Region → Region) : (s.modRegion r f).cells = s.cells := rfl
@[simp] theorem State.modRegion_ports (s : State) (r : Nat) (f : Region → Region) : (s.modRegion r f).ports = s.ports := rfl
@[simp] theorem State.modRegion_pairs (s : State) (r : Nat) (f : Region → Region) : (s.modRegion r f).pairs = s.pairs := rfl
@[simp] theorem State.modRegion_flows (s : State) (r : Nat) (f : Region → Region) : (s.modRegion r f).flows = s.flows := rfl
@[simp] theorem State.modRegion_time (s : State) (r : Nat) (f : Region → Region) : (s.modRegion r f).time = s.time := rfl
@[simp] theorem State.modRegion_tdm (s : State) (r : Nat) (f : Region → Region) : (s.modRegion r f).tdm = s.tdm := rfl
@[simp] theorem State.modRegion_store (s : State) (r : Nat) (f : Region → Region) : (s.modRegion r f).store = s.store := rfl
@[simp] theorem State.modRegion_clocks (s : State) (r : Nat) (f : Region → Region) : (s.modRegion r f).clocks = s.clocks := rfl
@[simp] theorem State.modRegion_life (s : State) (r : Nat) (f : Region → Region) : (s.modRegion r f).life = s.life := rfl
@[simp] theorem State.modRegion_stack (s : State) (r : Nat) (f : Region → Region) : (s.modRegion r f).stack = s.stack := rfl
@[simp] theorem State.modRegion_board (s : State) (r : Nat) (f : Region → Region) : (s.modRegion r f).board = s.board := rfl

@[simp] theorem State.setDest_pending (s : State) (d : Nat) (v : NoticeDest) : (s.setDest d v).pending = s.pending := rfl
@[simp] theorem State.setDest_draws (s : State) (d : Nat) (v : NoticeDest) : (s.setDest d v).draws = s.draws := rfl
@[simp] theorem State.setDest_rings (s : State) (d : Nat) (v : NoticeDest) : (s.setDest d v).rings = s.rings := rfl
@[simp] theorem State.setDest_log (s : State) (d : Nat) (v : NoticeDest) : (s.setDest d v).log = s.log := rfl
@[simp] theorem State.setDest_channels (s : State) (d : Nat) (v : NoticeDest) : (s.setDest d v).channels = s.channels := rfl
@[simp] theorem State.setDest_openRuns (s : State) (d : Nat) (v : NoticeDest) : (s.setDest d v).openRuns = s.openRuns := rfl
@[simp] theorem State.setDest_blocks (s : State) (d : Nat) (v : NoticeDest) : (s.setDest d v).blocks = s.blocks := rfl
@[simp] theorem State.setDest_cells (s : State) (d : Nat) (v : NoticeDest) : (s.setDest d v).cells = s.cells := rfl
@[simp] theorem State.setDest_ports (s : State) (d : Nat) (v : NoticeDest) : (s.setDest d v).ports = s.ports := rfl
@[simp] theorem State.setDest_pairs (s : State) (d : Nat) (v : NoticeDest) : (s.setDest d v).pairs = s.pairs := rfl
@[simp] theorem State.setDest_regions (s : State) (d : Nat) (v : NoticeDest) : (s.setDest d v).regions = s.regions := rfl
@[simp] theorem State.setDest_flows (s : State) (d : Nat) (v : NoticeDest) : (s.setDest d v).flows = s.flows := rfl
@[simp] theorem State.setDest_time (s : State) (d : Nat) (v : NoticeDest) : (s.setDest d v).time = s.time := rfl
@[simp] theorem State.setDest_tdm (s : State) (d : Nat) (v : NoticeDest) : (s.setDest d v).tdm = s.tdm := rfl
@[simp] theorem State.setDest_store (s : State) (d : Nat) (v : NoticeDest) : (s.setDest d v).store = s.store := rfl
@[simp] theorem State.setDest_clocks (s : State) (d : Nat) (v : NoticeDest) : (s.setDest d v).clocks = s.clocks := rfl
@[simp] theorem State.setDest_life (s : State) (d : Nat) (v : NoticeDest) : (s.setDest d v).life = s.life := rfl
@[simp] theorem State.setDest_stack (s : State) (d : Nat) (v : NoticeDest) : (s.setDest d v).stack = s.stack := rfl
@[simp] theorem State.setDest_board (s : State) (d : Nat) (v : NoticeDest) : (s.setDest d v).board = s.board := rfl

@[simp] theorem State.bumpFylos_pending (s : State) (c : FylosCount) : (s.bumpFylos c).pending = s.pending := rfl
@[simp] theorem State.bumpFylos_draws (s : State) (c : FylosCount) : (s.bumpFylos c).draws = s.draws := rfl
@[simp] theorem State.bumpFylos_rings (s : State) (c : FylosCount) : (s.bumpFylos c).rings = s.rings := rfl
@[simp] theorem State.bumpFylos_log (s : State) (c : FylosCount) : (s.bumpFylos c).log = s.log := rfl
@[simp] theorem State.bumpFylos_channels (s : State) (c : FylosCount) : (s.bumpFylos c).channels = s.channels := rfl
@[simp] theorem State.bumpFylos_openRuns (s : State) (c : FylosCount) : (s.bumpFylos c).openRuns = s.openRuns := rfl
@[simp] theorem State.bumpFylos_blocks (s : State) (c : FylosCount) : (s.bumpFylos c).blocks = s.blocks := rfl
@[simp] theorem State.bumpFylos_cells (s : State) (c : FylosCount) : (s.bumpFylos c).cells = s.cells := rfl
@[simp] theorem State.bumpFylos_ports (s : State) (c : FylosCount) : (s.bumpFylos c).ports = s.ports := rfl
@[simp] theorem State.bumpFylos_pairs (s : State) (c : FylosCount) : (s.bumpFylos c).pairs = s.pairs := rfl
@[simp] theorem State.bumpFylos_regions (s : State) (c : FylosCount) : (s.bumpFylos c).regions = s.regions := rfl
@[simp] theorem State.bumpFylos_flows (s : State) (c : FylosCount) : (s.bumpFylos c).flows = s.flows := rfl
@[simp] theorem State.bumpFylos_time (s : State) (c : FylosCount) : (s.bumpFylos c).time = s.time := rfl
@[simp] theorem State.bumpFylos_tdm (s : State) (c : FylosCount) : (s.bumpFylos c).tdm = s.tdm := rfl
@[simp] theorem State.bumpFylos_store (s : State) (c : FylosCount) : (s.bumpFylos c).store = s.store := rfl
@[simp] theorem State.bumpFylos_clocks (s : State) (c : FylosCount) : (s.bumpFylos c).clocks = s.clocks := rfl
@[simp] theorem State.bumpFylos_life (s : State) (c : FylosCount) : (s.bumpFylos c).life = s.life := rfl
@[simp] theorem State.bumpFylos_stack (s : State) (c : FylosCount) : (s.bumpFylos c).stack = s.stack := rfl
@[simp] theorem State.bumpFylos_board (s : State) (c : FylosCount) : (s.bumpFylos c).board = s.board := rfl

@[simp] theorem State.bumpPort_pending (s : State) (i : Nat) (c : PortCount) : (s.bumpPort i c).pending = s.pending := rfl
@[simp] theorem State.bumpPort_draws (s : State) (i : Nat) (c : PortCount) : (s.bumpPort i c).draws = s.draws := rfl
@[simp] theorem State.bumpPort_rings (s : State) (i : Nat) (c : PortCount) : (s.bumpPort i c).rings = s.rings := rfl
@[simp] theorem State.bumpPort_fylos (s : State) (i : Nat) (c : PortCount) : (s.bumpPort i c).fylos = s.fylos := rfl
@[simp] theorem State.bumpPort_log (s : State) (i : Nat) (c : PortCount) : (s.bumpPort i c).log = s.log := rfl
@[simp] theorem State.bumpPort_channels (s : State) (i : Nat) (c : PortCount) : (s.bumpPort i c).channels = s.channels := rfl
@[simp] theorem State.bumpPort_openRuns (s : State) (i : Nat) (c : PortCount) : (s.bumpPort i c).openRuns = s.openRuns := rfl
@[simp] theorem State.bumpPort_blocks (s : State) (i : Nat) (c : PortCount) : (s.bumpPort i c).blocks = s.blocks := rfl
@[simp] theorem State.bumpPort_cells (s : State) (i : Nat) (c : PortCount) : (s.bumpPort i c).cells = s.cells := rfl
@[simp] theorem State.bumpPort_pairs (s : State) (i : Nat) (c : PortCount) : (s.bumpPort i c).pairs = s.pairs := rfl
@[simp] theorem State.bumpPort_regions (s : State) (i : Nat) (c : PortCount) : (s.bumpPort i c).regions = s.regions := rfl
@[simp] theorem State.bumpPort_flows (s : State) (i : Nat) (c : PortCount) : (s.bumpPort i c).flows = s.flows := rfl
@[simp] theorem State.bumpPort_time (s : State) (i : Nat) (c : PortCount) : (s.bumpPort i c).time = s.time := rfl
@[simp] theorem State.bumpPort_tdm (s : State) (i : Nat) (c : PortCount) : (s.bumpPort i c).tdm = s.tdm := rfl
@[simp] theorem State.bumpPort_store (s : State) (i : Nat) (c : PortCount) : (s.bumpPort i c).store = s.store := rfl
@[simp] theorem State.bumpPort_clocks (s : State) (i : Nat) (c : PortCount) : (s.bumpPort i c).clocks = s.clocks := rfl
@[simp] theorem State.bumpPort_life (s : State) (i : Nat) (c : PortCount) : (s.bumpPort i c).life = s.life := rfl
@[simp] theorem State.bumpPort_stack (s : State) (i : Nat) (c : PortCount) : (s.bumpPort i c).stack = s.stack := rfl
@[simp] theorem State.bumpPort_board (s : State) (i : Nat) (c : PortCount) : (s.bumpPort i c).board = s.board := rfl

@[simp] theorem State.bumpBlock_pending (s : State) (b : Nat) (c : BlockCount) : (s.bumpBlock b c).pending = s.pending := rfl
@[simp] theorem State.bumpBlock_draws (s : State) (b : Nat) (c : BlockCount) : (s.bumpBlock b c).draws = s.draws := rfl
@[simp] theorem State.bumpBlock_rings (s : State) (b : Nat) (c : BlockCount) : (s.bumpBlock b c).rings = s.rings := rfl
@[simp] theorem State.bumpBlock_fylos (s : State) (b : Nat) (c : BlockCount) : (s.bumpBlock b c).fylos = s.fylos := rfl
@[simp] theorem State.bumpBlock_log (s : State) (b : Nat) (c : BlockCount) : (s.bumpBlock b c).log = s.log := rfl
@[simp] theorem State.bumpBlock_channels (s : State) (b : Nat) (c : BlockCount) : (s.bumpBlock b c).channels = s.channels := rfl
@[simp] theorem State.bumpBlock_openRuns (s : State) (b : Nat) (c : BlockCount) : (s.bumpBlock b c).openRuns = s.openRuns := rfl
@[simp] theorem State.bumpBlock_cells (s : State) (b : Nat) (c : BlockCount) : (s.bumpBlock b c).cells = s.cells := rfl
@[simp] theorem State.bumpBlock_ports (s : State) (b : Nat) (c : BlockCount) : (s.bumpBlock b c).ports = s.ports := rfl
@[simp] theorem State.bumpBlock_pairs (s : State) (b : Nat) (c : BlockCount) : (s.bumpBlock b c).pairs = s.pairs := rfl
@[simp] theorem State.bumpBlock_regions (s : State) (b : Nat) (c : BlockCount) : (s.bumpBlock b c).regions = s.regions := rfl
@[simp] theorem State.bumpBlock_flows (s : State) (b : Nat) (c : BlockCount) : (s.bumpBlock b c).flows = s.flows := rfl
@[simp] theorem State.bumpBlock_time (s : State) (b : Nat) (c : BlockCount) : (s.bumpBlock b c).time = s.time := rfl
@[simp] theorem State.bumpBlock_tdm (s : State) (b : Nat) (c : BlockCount) : (s.bumpBlock b c).tdm = s.tdm := rfl
@[simp] theorem State.bumpBlock_store (s : State) (b : Nat) (c : BlockCount) : (s.bumpBlock b c).store = s.store := rfl
@[simp] theorem State.bumpBlock_clocks (s : State) (b : Nat) (c : BlockCount) : (s.bumpBlock b c).clocks = s.clocks := rfl
@[simp] theorem State.bumpBlock_life (s : State) (b : Nat) (c : BlockCount) : (s.bumpBlock b c).life = s.life := rfl
@[simp] theorem State.bumpBlock_stack (s : State) (b : Nat) (c : BlockCount) : (s.bumpBlock b c).stack = s.stack := rfl
@[simp] theorem State.bumpBlock_board (s : State) (b : Nat) (c : BlockCount) : (s.bumpBlock b c).board = s.board := rfl

@[simp] theorem State.bumpRegion_pending (s : State) (r : Nat) (c : RegionCount) : (s.bumpRegion r c).pending = s.pending := rfl
@[simp] theorem State.bumpRegion_draws (s : State) (r : Nat) (c : RegionCount) : (s.bumpRegion r c).draws = s.draws := rfl
@[simp] theorem State.bumpRegion_rings (s : State) (r : Nat) (c : RegionCount) : (s.bumpRegion r c).rings = s.rings := rfl
@[simp] theorem State.bumpRegion_fylos (s : State) (r : Nat) (c : RegionCount) : (s.bumpRegion r c).fylos = s.fylos := rfl
@[simp] theorem State.bumpRegion_log (s : State) (r : Nat) (c : RegionCount) : (s.bumpRegion r c).log = s.log := rfl
@[simp] theorem State.bumpRegion_channels (s : State) (r : Nat) (c : RegionCount) : (s.bumpRegion r c).channels = s.channels := rfl
@[simp] theorem State.bumpRegion_openRuns (s : State) (r : Nat) (c : RegionCount) : (s.bumpRegion r c).openRuns = s.openRuns := rfl
@[simp] theorem State.bumpRegion_blocks (s : State) (r : Nat) (c : RegionCount) : (s.bumpRegion r c).blocks = s.blocks := rfl
@[simp] theorem State.bumpRegion_cells (s : State) (r : Nat) (c : RegionCount) : (s.bumpRegion r c).cells = s.cells := rfl
@[simp] theorem State.bumpRegion_ports (s : State) (r : Nat) (c : RegionCount) : (s.bumpRegion r c).ports = s.ports := rfl
@[simp] theorem State.bumpRegion_pairs (s : State) (r : Nat) (c : RegionCount) : (s.bumpRegion r c).pairs = s.pairs := rfl
@[simp] theorem State.bumpRegion_flows (s : State) (r : Nat) (c : RegionCount) : (s.bumpRegion r c).flows = s.flows := rfl
@[simp] theorem State.bumpRegion_time (s : State) (r : Nat) (c : RegionCount) : (s.bumpRegion r c).time = s.time := rfl
@[simp] theorem State.bumpRegion_tdm (s : State) (r : Nat) (c : RegionCount) : (s.bumpRegion r c).tdm = s.tdm := rfl
@[simp] theorem State.bumpRegion_store (s : State) (r : Nat) (c : RegionCount) : (s.bumpRegion r c).store = s.store := rfl
@[simp] theorem State.bumpRegion_clocks (s : State) (r : Nat) (c : RegionCount) : (s.bumpRegion r c).clocks = s.clocks := rfl
@[simp] theorem State.bumpRegion_life (s : State) (r : Nat) (c : RegionCount) : (s.bumpRegion r c).life = s.life := rfl
@[simp] theorem State.bumpRegion_stack (s : State) (r : Nat) (c : RegionCount) : (s.bumpRegion r c).stack = s.stack := rfl
@[simp] theorem State.bumpRegion_board (s : State) (r : Nat) (c : RegionCount) : (s.bumpRegion r c).board = s.board := rfl

@[simp] theorem State.setBgPort_pending (s : State) (p : Nat) (v : BgPort) : (s.setBgPort p v).pending = s.pending := rfl
@[simp] theorem State.setBgPort_draws (s : State) (p : Nat) (v : BgPort) : (s.setBgPort p v).draws = s.draws := rfl
@[simp] theorem State.setBgPort_rings (s : State) (p : Nat) (v : BgPort) : (s.setBgPort p v).rings = s.rings := rfl
@[simp] theorem State.setBgPort_fylos (s : State) (p : Nat) (v : BgPort) : (s.setBgPort p v).fylos = s.fylos := rfl
@[simp] theorem State.setBgPort_log (s : State) (p : Nat) (v : BgPort) : (s.setBgPort p v).log = s.log := rfl
@[simp] theorem State.setBgPort_channels (s : State) (p : Nat) (v : BgPort) : (s.setBgPort p v).channels = s.channels := rfl
@[simp] theorem State.setBgPort_openRuns (s : State) (p : Nat) (v : BgPort) : (s.setBgPort p v).openRuns = s.openRuns := rfl
@[simp] theorem State.setBgPort_blocks (s : State) (p : Nat) (v : BgPort) : (s.setBgPort p v).blocks = s.blocks := rfl
@[simp] theorem State.setBgPort_cells (s : State) (p : Nat) (v : BgPort) : (s.setBgPort p v).cells = s.cells := rfl
@[simp] theorem State.setBgPort_ports (s : State) (p : Nat) (v : BgPort) : (s.setBgPort p v).ports = s.ports := rfl
@[simp] theorem State.setBgPort_pairs (s : State) (p : Nat) (v : BgPort) : (s.setBgPort p v).pairs = s.pairs := rfl
@[simp] theorem State.setBgPort_regions (s : State) (p : Nat) (v : BgPort) : (s.setBgPort p v).regions = s.regions := rfl
@[simp] theorem State.setBgPort_flows (s : State) (p : Nat) (v : BgPort) : (s.setBgPort p v).flows = s.flows := rfl
@[simp] theorem State.setBgPort_time (s : State) (p : Nat) (v : BgPort) : (s.setBgPort p v).time = s.time := rfl
@[simp] theorem State.setBgPort_tdm (s : State) (p : Nat) (v : BgPort) : (s.setBgPort p v).tdm = s.tdm := rfl
@[simp] theorem State.setBgPort_store (s : State) (p : Nat) (v : BgPort) : (s.setBgPort p v).store = s.store := rfl
@[simp] theorem State.setBgPort_clocks (s : State) (p : Nat) (v : BgPort) : (s.setBgPort p v).clocks = s.clocks := rfl
@[simp] theorem State.setBgPort_life (s : State) (p : Nat) (v : BgPort) : (s.setBgPort p v).life = s.life := rfl
@[simp] theorem State.setBgPort_board (s : State) (p : Nat) (v : BgPort) : (s.setBgPort p v).board = s.board := rfl

@[simp] theorem State.modBgPort_pending (s : State) (p : Nat) (f : BgPort → BgPort) : (s.modBgPort p f).pending = s.pending := rfl
@[simp] theorem State.modBgPort_draws (s : State) (p : Nat) (f : BgPort → BgPort) : (s.modBgPort p f).draws = s.draws := rfl
@[simp] theorem State.modBgPort_rings (s : State) (p : Nat) (f : BgPort → BgPort) : (s.modBgPort p f).rings = s.rings := rfl
@[simp] theorem State.modBgPort_fylos (s : State) (p : Nat) (f : BgPort → BgPort) : (s.modBgPort p f).fylos = s.fylos := rfl
@[simp] theorem State.modBgPort_log (s : State) (p : Nat) (f : BgPort → BgPort) : (s.modBgPort p f).log = s.log := rfl
@[simp] theorem State.modBgPort_channels (s : State) (p : Nat) (f : BgPort → BgPort) : (s.modBgPort p f).channels = s.channels := rfl
@[simp] theorem State.modBgPort_openRuns (s : State) (p : Nat) (f : BgPort → BgPort) : (s.modBgPort p f).openRuns = s.openRuns := rfl
@[simp] theorem State.modBgPort_blocks (s : State) (p : Nat) (f : BgPort → BgPort) : (s.modBgPort p f).blocks = s.blocks := rfl
@[simp] theorem State.modBgPort_cells (s : State) (p : Nat) (f : BgPort → BgPort) : (s.modBgPort p f).cells = s.cells := rfl
@[simp] theorem State.modBgPort_ports (s : State) (p : Nat) (f : BgPort → BgPort) : (s.modBgPort p f).ports = s.ports := rfl
@[simp] theorem State.modBgPort_pairs (s : State) (p : Nat) (f : BgPort → BgPort) : (s.modBgPort p f).pairs = s.pairs := rfl
@[simp] theorem State.modBgPort_regions (s : State) (p : Nat) (f : BgPort → BgPort) : (s.modBgPort p f).regions = s.regions := rfl
@[simp] theorem State.modBgPort_flows (s : State) (p : Nat) (f : BgPort → BgPort) : (s.modBgPort p f).flows = s.flows := rfl
@[simp] theorem State.modBgPort_time (s : State) (p : Nat) (f : BgPort → BgPort) : (s.modBgPort p f).time = s.time := rfl
@[simp] theorem State.modBgPort_tdm (s : State) (p : Nat) (f : BgPort → BgPort) : (s.modBgPort p f).tdm = s.tdm := rfl
@[simp] theorem State.modBgPort_store (s : State) (p : Nat) (f : BgPort → BgPort) : (s.modBgPort p f).store = s.store := rfl
@[simp] theorem State.modBgPort_clocks (s : State) (p : Nat) (f : BgPort → BgPort) : (s.modBgPort p f).clocks = s.clocks := rfl
@[simp] theorem State.modBgPort_life (s : State) (p : Nat) (f : BgPort → BgPort) : (s.modBgPort p f).life = s.life := rfl
@[simp] theorem State.modBgPort_board (s : State) (p : Nat) (f : BgPort → BgPort) : (s.modBgPort p f).board = s.board := rfl

@[simp] theorem State.bumpStack_pending (s : State) (c : StackCount) : (s.bumpStack c).pending = s.pending := rfl
@[simp] theorem State.bumpStack_draws (s : State) (c : StackCount) : (s.bumpStack c).draws = s.draws := rfl
@[simp] theorem State.bumpStack_rings (s : State) (c : StackCount) : (s.bumpStack c).rings = s.rings := rfl
@[simp] theorem State.bumpStack_fylos (s : State) (c : StackCount) : (s.bumpStack c).fylos = s.fylos := rfl
@[simp] theorem State.bumpStack_log (s : State) (c : StackCount) : (s.bumpStack c).log = s.log := rfl
@[simp] theorem State.bumpStack_channels (s : State) (c : StackCount) : (s.bumpStack c).channels = s.channels := rfl
@[simp] theorem State.bumpStack_openRuns (s : State) (c : StackCount) : (s.bumpStack c).openRuns = s.openRuns := rfl
@[simp] theorem State.bumpStack_blocks (s : State) (c : StackCount) : (s.bumpStack c).blocks = s.blocks := rfl
@[simp] theorem State.bumpStack_cells (s : State) (c : StackCount) : (s.bumpStack c).cells = s.cells := rfl
@[simp] theorem State.bumpStack_ports (s : State) (c : StackCount) : (s.bumpStack c).ports = s.ports := rfl
@[simp] theorem State.bumpStack_pairs (s : State) (c : StackCount) : (s.bumpStack c).pairs = s.pairs := rfl
@[simp] theorem State.bumpStack_regions (s : State) (c : StackCount) : (s.bumpStack c).regions = s.regions := rfl
@[simp] theorem State.bumpStack_flows (s : State) (c : StackCount) : (s.bumpStack c).flows = s.flows := rfl
@[simp] theorem State.bumpStack_time (s : State) (c : StackCount) : (s.bumpStack c).time = s.time := rfl
@[simp] theorem State.bumpStack_tdm (s : State) (c : StackCount) : (s.bumpStack c).tdm = s.tdm := rfl
@[simp] theorem State.bumpStack_store (s : State) (c : StackCount) : (s.bumpStack c).store = s.store := rfl
@[simp] theorem State.bumpStack_clocks (s : State) (c : StackCount) : (s.bumpStack c).clocks = s.clocks := rfl
@[simp] theorem State.bumpStack_life (s : State) (c : StackCount) : (s.bumpStack c).life = s.life := rfl
@[simp] theorem State.bumpStack_board (s : State) (c : StackCount) : (s.bumpStack c).board = s.board := rfl

@[simp] theorem State.drawn_pending (s : State) : (s.drawn).pending = s.pending := rfl
@[simp] theorem State.drawn_rings (s : State) : (s.drawn).rings = s.rings := rfl
@[simp] theorem State.drawn_fylos (s : State) : (s.drawn).fylos = s.fylos := rfl
@[simp] theorem State.drawn_log (s : State) : (s.drawn).log = s.log := rfl
@[simp] theorem State.drawn_channels (s : State) : (s.drawn).channels = s.channels := rfl
@[simp] theorem State.drawn_openRuns (s : State) : (s.drawn).openRuns = s.openRuns := rfl
@[simp] theorem State.drawn_blocks (s : State) : (s.drawn).blocks = s.blocks := rfl
@[simp] theorem State.drawn_cells (s : State) : (s.drawn).cells = s.cells := rfl
@[simp] theorem State.drawn_ports (s : State) : (s.drawn).ports = s.ports := rfl
@[simp] theorem State.drawn_pairs (s : State) : (s.drawn).pairs = s.pairs := rfl
@[simp] theorem State.drawn_regions (s : State) : (s.drawn).regions = s.regions := rfl
@[simp] theorem State.drawn_flows (s : State) : (s.drawn).flows = s.flows := rfl
@[simp] theorem State.drawn_time (s : State) : (s.drawn).time = s.time := rfl
@[simp] theorem State.drawn_tdm (s : State) : (s.drawn).tdm = s.tdm := rfl
@[simp] theorem State.drawn_store (s : State) : (s.drawn).store = s.store := rfl
@[simp] theorem State.drawn_clocks (s : State) : (s.drawn).clocks = s.clocks := rfl
@[simp] theorem State.drawn_life (s : State) : (s.drawn).life = s.life := rfl
@[simp] theorem State.drawn_stack (s : State) : (s.drawn).stack = s.stack := rfl
@[simp] theorem State.drawn_board (s : State) : (s.drawn).board = s.board := rfl

/-! ## Reading a unit back -/

@[simp] theorem State.setRing_ring_same (s : State) (n : Nat) (v : Ring) : (s.setRing n v).ring n = v := by
  simp [State.setRing, State.ring]
theorem State.setRing_ring_ne (s : State) (n m : Nat) (v : Ring) (h : m ≠ n) : (s.setRing n v).ring m = s.ring m := by
  simp [State.setRing, State.ring, tabGet_tabSet_ne _ _ _ _ _ _ h]
@[simp] theorem State.modRing_ring_same (s : State) (n : Nat) (f : Ring → Ring) : (s.modRing n f).ring n = f (s.ring n) := by
  simp [State.modRing]
theorem State.modRing_ring_ne (s : State) (n m : Nat) (f : Ring → Ring) (h : m ≠ n) : (s.modRing n f).ring m = s.ring m :=
  State.setRing_ring_ne s n m _ h

@[simp] theorem State.setChannel_channel_same (s : State) (n : Nat) (v : Channel) : (s.setChannel n v).channel n = v := by
  simp [State.setChannel, State.channel]
theorem State.setChannel_channel_ne (s : State) (n m : Nat) (v : Channel) (h : m ≠ n) : (s.setChannel n v).channel m = s.channel m := by
  simp [State.setChannel, State.channel, tabGet_tabSet_ne _ _ _ _ _ _ h]
@[simp] theorem State.modChannel_channel_same (s : State) (n : Nat) (f : Channel → Channel) : (s.modChannel n f).channel n = f (s.channel n) := by
  simp [State.modChannel]
theorem State.modChannel_channel_ne (s : State) (n m : Nat) (f : Channel → Channel) (h : m ≠ n) : (s.modChannel n f).channel m = s.channel m :=
  State.setChannel_channel_ne s n m _ h

@[simp] theorem State.setBlock_block_same (s : State) (n : Nat) (v : Block) : (s.setBlock n v).block n = v := by
  simp [State.setBlock, State.block]
theorem State.setBlock_block_ne (s : State) (n m : Nat) (v : Block) (h : m ≠ n) : (s.setBlock n v).block m = s.block m := by
  simp [State.setBlock, State.block, tabGet_tabSet_ne _ _ _ _ _ _ h]
@[simp] theorem State.modBlock_block_same (s : State) (n : Nat) (f : Block → Block) : (s.modBlock n f).block n = f (s.block n) := by
  simp [State.modBlock]
theorem State.modBlock_block_ne (s : State) (n m : Nat) (f : Block → Block) (h : m ≠ n) : (s.modBlock n f).block m = s.block m :=
  State.setBlock_block_ne s n m _ h

@[simp] theorem State.setCell_cell_same (s : State) (n : Nat) (v : Cell) : (s.setCell n v).cell n = v := by
  simp [State.setCell, State.cell]
theorem State.setCell_cell_ne (s : State) (n m : Nat) (v : Cell) (h : m ≠ n) : (s.setCell n v).cell m = s.cell m := by
  simp [State.setCell, State.cell, tabGet_tabSet_ne _ _ _ _ _ _ h]
@[simp] theorem State.modCell_cell_same (s : State) (n : Nat) (f : Cell → Cell) : (s.modCell n f).cell n = f (s.cell n) := by
  simp [State.modCell]
theorem State.modCell_cell_ne (s : State) (n m : Nat) (f : Cell → Cell) (h : m ≠ n) : (s.modCell n f).cell m = s.cell m :=
  State.setCell_cell_ne s n m _ h

@[simp] theorem State.setPort_port_same (s : State) (n : Nat) (v : Port) : (s.setPort n v).port n = v := by
  simp [State.setPort, State.port]
theorem State.setPort_port_ne (s : State) (n m : Nat) (v : Port) (h : m ≠ n) : (s.setPort n v).port m = s.port m := by
  simp [State.setPort, State.port, tabGet_tabSet_ne _ _ _ _ _ _ h]
@[simp] theorem State.modPort_port_same (s : State) (n : Nat) (f : Port → Port) : (s.modPort n f).port n = f (s.port n) := by
  simp [State.modPort]
theorem State.modPort_port_ne (s : State) (n m : Nat) (f : Port → Port) (h : m ≠ n) : (s.modPort n f).port m = s.port m :=
  State.setPort_port_ne s n m _ h

@[simp] theorem State.setRegion_region_same (s : State) (n : Nat) (v : Region) : (s.setRegion n v).region n = v := by
  simp [State.setRegion, State.region]
theorem State.setRegion_region_ne (s : State) (n m : Nat) (v : Region) (h : m ≠ n) : (s.setRegion n v).region m = s.region m := by
  simp [State.setRegion, State.region, tabGet_tabSet_ne _ _ _ _ _ _ h]
@[simp] theorem State.modRegion_region_same (s : State) (n : Nat) (f : Region → Region) : (s.modRegion n f).region n = f (s.region n) := by
  simp [State.modRegion]
theorem State.modRegion_region_ne (s : State) (n m : Nat) (f : Region → Region) (h : m ≠ n) : (s.modRegion n f).region m = s.region m :=
  State.setRegion_region_ne s n m _ h

@[simp] theorem State.setPair_pair_same (s : State) (n : Nat) (v : Pair) : (s.setPair n v).pair n = v := by
  simp [State.setPair, State.pair]
theorem State.setPair_pair_ne (s : State) (n m : Nat) (v : Pair) (h : m ≠ n) : (s.setPair n v).pair m = s.pair m := by
  simp [State.setPair, State.pair, tabGet_tabSet_ne _ _ _ _ _ _ h]

@[simp] theorem State.setDest_dest_same (s : State) (n : Nat) (v : NoticeDest) : (s.setDest n v).dest n = v := by
  simp [State.setDest, State.dest]
theorem State.setDest_dest_ne (s : State) (n m : Nat) (v : NoticeDest) (h : m ≠ n) : (s.setDest n v).dest m = s.dest m := by
  simp [State.setDest, State.dest, tabGet_tabSet_ne _ _ _ _ _ _ h]

/-! ## A unit under an update of something else -/

@[simp] theorem State.setRing_at_channel (s : State) (n : Nat) (r : Ring) (k : Nat) : (s.setRing n r).channel k = s.channel k := rfl
@[simp] theorem State.setRing_at_block (s : State) (n : Nat) (r : Ring) (k : Nat) : (s.setRing n r).block k = s.block k := rfl
@[simp] theorem State.setRing_at_cell (s : State) (n : Nat) (r : Ring) (k : Nat) : (s.setRing n r).cell k = s.cell k := rfl
@[simp] theorem State.setRing_at_port (s : State) (n : Nat) (r : Ring) (k : Nat) : (s.setRing n r).port k = s.port k := rfl
@[simp] theorem State.setRing_at_region (s : State) (n : Nat) (r : Ring) (k : Nat) : (s.setRing n r).region k = s.region k := rfl
@[simp] theorem State.setRing_at_pair (s : State) (n : Nat) (r : Ring) (k : Nat) : (s.setRing n r).pair k = s.pair k := rfl
@[simp] theorem State.modRing_at_channel (s : State) (n : Nat) (f : Ring → Ring) (k : Nat) : (s.modRing n f).channel k = s.channel k := rfl
@[simp] theorem State.modRing_at_block (s : State) (n : Nat) (f : Ring → Ring) (k : Nat) : (s.modRing n f).block k = s.block k := rfl
@[simp] theorem State.modRing_at_cell (s : State) (n : Nat) (f : Ring → Ring) (k : Nat) : (s.modRing n f).cell k = s.cell k := rfl
@[simp] theorem State.modRing_at_port (s : State) (n : Nat) (f : Ring → Ring) (k : Nat) : (s.modRing n f).port k = s.port k := rfl
@[simp] theorem State.modRing_at_region (s : State) (n : Nat) (f : Ring → Ring) (k : Nat) : (s.modRing n f).region k = s.region k := rfl
@[simp] theorem State.modRing_at_pair (s : State) (n : Nat) (f : Ring → Ring) (k : Nat) : (s.modRing n f).pair k = s.pair k := rfl
@[simp] theorem State.setChannel_at_ring (s : State) (c : Nat) (v : Channel) (k : Nat) : (s.setChannel c v).ring k = s.ring k := rfl
@[simp] theorem State.setChannel_at_block (s : State) (c : Nat) (v : Channel) (k : Nat) : (s.setChannel c v).block k = s.block k := rfl
@[simp] theorem State.setChannel_at_cell (s : State) (c : Nat) (v : Channel) (k : Nat) : (s.setChannel c v).cell k = s.cell k := rfl
@[simp] theorem State.setChannel_at_port (s : State) (c : Nat) (v : Channel) (k : Nat) : (s.setChannel c v).port k = s.port k := rfl
@[simp] theorem State.setChannel_at_region (s : State) (c : Nat) (v : Channel) (k : Nat) : (s.setChannel c v).region k = s.region k := rfl
@[simp] theorem State.setChannel_at_pair (s : State) (c : Nat) (v : Channel) (k : Nat) : (s.setChannel c v).pair k = s.pair k := rfl
@[simp] theorem State.modChannel_at_ring (s : State) (c : Nat) (f : Channel → Channel) (k : Nat) : (s.modChannel c f).ring k = s.ring k := rfl
@[simp] theorem State.modChannel_at_block (s : State) (c : Nat) (f : Channel → Channel) (k : Nat) : (s.modChannel c f).block k = s.block k := rfl
@[simp] theorem State.modChannel_at_cell (s : State) (c : Nat) (f : Channel → Channel) (k : Nat) : (s.modChannel c f).cell k = s.cell k := rfl
@[simp] theorem State.modChannel_at_port (s : State) (c : Nat) (f : Channel → Channel) (k : Nat) : (s.modChannel c f).port k = s.port k := rfl
@[simp] theorem State.modChannel_at_region (s : State) (c : Nat) (f : Channel → Channel) (k : Nat) : (s.modChannel c f).region k = s.region k := rfl
@[simp] theorem State.modChannel_at_pair (s : State) (c : Nat) (f : Channel → Channel) (k : Nat) : (s.modChannel c f).pair k = s.pair k := rfl
@[simp] theorem State.setBlock_at_ring (s : State) (b : Nat) (v : Block) (k : Nat) : (s.setBlock b v).ring k = s.ring k := rfl
@[simp] theorem State.setBlock_at_channel (s : State) (b : Nat) (v : Block) (k : Nat) : (s.setBlock b v).channel k = s.channel k := rfl
@[simp] theorem State.setBlock_at_cell (s : State) (b : Nat) (v : Block) (k : Nat) : (s.setBlock b v).cell k = s.cell k := rfl
@[simp] theorem State.setBlock_at_port (s : State) (b : Nat) (v : Block) (k : Nat) : (s.setBlock b v).port k = s.port k := rfl
@[simp] theorem State.setBlock_at_region (s : State) (b : Nat) (v : Block) (k : Nat) : (s.setBlock b v).region k = s.region k := rfl
@[simp] theorem State.setBlock_at_pair (s : State) (b : Nat) (v : Block) (k : Nat) : (s.setBlock b v).pair k = s.pair k := rfl
@[simp] theorem State.modBlock_at_ring (s : State) (b : Nat) (f : Block → Block) (k : Nat) : (s.modBlock b f).ring k = s.ring k := rfl
@[simp] theorem State.modBlock_at_channel (s : State) (b : Nat) (f : Block → Block) (k : Nat) : (s.modBlock b f).channel k = s.channel k := rfl
@[simp] theorem State.modBlock_at_cell (s : State) (b : Nat) (f : Block → Block) (k : Nat) : (s.modBlock b f).cell k = s.cell k := rfl
@[simp] theorem State.modBlock_at_port (s : State) (b : Nat) (f : Block → Block) (k : Nat) : (s.modBlock b f).port k = s.port k := rfl
@[simp] theorem State.modBlock_at_region (s : State) (b : Nat) (f : Block → Block) (k : Nat) : (s.modBlock b f).region k = s.region k := rfl
@[simp] theorem State.modBlock_at_pair (s : State) (b : Nat) (f : Block → Block) (k : Nat) : (s.modBlock b f).pair k = s.pair k := rfl
@[simp] theorem State.modThread_at_ring (s : State) (b t : Nat) (f : Thread → Thread) (k : Nat) : (s.modThread b t f).ring k = s.ring k := rfl
@[simp] theorem State.modThread_at_channel (s : State) (b t : Nat) (f : Thread → Thread) (k : Nat) : (s.modThread b t f).channel k = s.channel k := rfl
@[simp] theorem State.modThread_at_cell (s : State) (b t : Nat) (f : Thread → Thread) (k : Nat) : (s.modThread b t f).cell k = s.cell k := rfl
@[simp] theorem State.modThread_at_port (s : State) (b t : Nat) (f : Thread → Thread) (k : Nat) : (s.modThread b t f).port k = s.port k := rfl
@[simp] theorem State.modThread_at_region (s : State) (b t : Nat) (f : Thread → Thread) (k : Nat) : (s.modThread b t f).region k = s.region k := rfl
@[simp] theorem State.modThread_at_pair (s : State) (b t : Nat) (f : Thread → Thread) (k : Nat) : (s.modThread b t f).pair k = s.pair k := rfl
@[simp] theorem State.setCell_at_ring (s : State) (n : Nat) (v : Cell) (k : Nat) : (s.setCell n v).ring k = s.ring k := rfl
@[simp] theorem State.setCell_at_channel (s : State) (n : Nat) (v : Cell) (k : Nat) : (s.setCell n v).channel k = s.channel k := rfl
@[simp] theorem State.setCell_at_block (s : State) (n : Nat) (v : Cell) (k : Nat) : (s.setCell n v).block k = s.block k := rfl
@[simp] theorem State.setCell_at_port (s : State) (n : Nat) (v : Cell) (k : Nat) : (s.setCell n v).port k = s.port k := rfl
@[simp] theorem State.setCell_at_region (s : State) (n : Nat) (v : Cell) (k : Nat) : (s.setCell n v).region k = s.region k := rfl
@[simp] theorem State.setCell_at_pair (s : State) (n : Nat) (v : Cell) (k : Nat) : (s.setCell n v).pair k = s.pair k := rfl
@[simp] theorem State.modCell_at_ring (s : State) (n : Nat) (f : Cell → Cell) (k : Nat) : (s.modCell n f).ring k = s.ring k := rfl
@[simp] theorem State.modCell_at_channel (s : State) (n : Nat) (f : Cell → Cell) (k : Nat) : (s.modCell n f).channel k = s.channel k := rfl
@[simp] theorem State.modCell_at_block (s : State) (n : Nat) (f : Cell → Cell) (k : Nat) : (s.modCell n f).block k = s.block k := rfl
@[simp] theorem State.modCell_at_port (s : State) (n : Nat) (f : Cell → Cell) (k : Nat) : (s.modCell n f).port k = s.port k := rfl
@[simp] theorem State.modCell_at_region (s : State) (n : Nat) (f : Cell → Cell) (k : Nat) : (s.modCell n f).region k = s.region k := rfl
@[simp] theorem State.modCell_at_pair (s : State) (n : Nat) (f : Cell → Cell) (k : Nat) : (s.modCell n f).pair k = s.pair k := rfl
@[simp] theorem State.setPort_at_ring (s : State) (i : Nat) (v : Port) (k : Nat) : (s.setPort i v).ring k = s.ring k := rfl
@[simp] theorem State.setPort_at_channel (s : State) (i : Nat) (v : Port) (k : Nat) : (s.setPort i v).channel k = s.channel k := rfl
@[simp] theorem State.setPort_at_block (s : State) (i : Nat) (v : Port) (k : Nat) : (s.setPort i v).block k = s.block k := rfl
@[simp] theorem State.setPort_at_cell (s : State) (i : Nat) (v : Port) (k : Nat) : (s.setPort i v).cell k = s.cell k := rfl
@[simp] theorem State.setPort_at_region (s : State) (i : Nat) (v : Port) (k : Nat) : (s.setPort i v).region k = s.region k := rfl
@[simp] theorem State.setPort_at_pair (s : State) (i : Nat) (v : Port) (k : Nat) : (s.setPort i v).pair k = s.pair k := rfl
@[simp] theorem State.modPort_at_ring (s : State) (i : Nat) (f : Port → Port) (k : Nat) : (s.modPort i f).ring k = s.ring k := rfl
@[simp] theorem State.modPort_at_channel (s : State) (i : Nat) (f : Port → Port) (k : Nat) : (s.modPort i f).channel k = s.channel k := rfl
@[simp] theorem State.modPort_at_block (s : State) (i : Nat) (f : Port → Port) (k : Nat) : (s.modPort i f).block k = s.block k := rfl
@[simp] theorem State.modPort_at_cell (s : State) (i : Nat) (f : Port → Port) (k : Nat) : (s.modPort i f).cell k = s.cell k := rfl
@[simp] theorem State.modPort_at_region (s : State) (i : Nat) (f : Port → Port) (k : Nat) : (s.modPort i f).region k = s.region k := rfl
@[simp] theorem State.modPort_at_pair (s : State) (i : Nat) (f : Port → Port) (k : Nat) : (s.modPort i f).pair k = s.pair k := rfl
@[simp] theorem State.setPair_at_ring (s : State) (i : Nat) (v : Pair) (k : Nat) : (s.setPair i v).ring k = s.ring k := rfl
@[simp] theorem State.setPair_at_channel (s : State) (i : Nat) (v : Pair) (k : Nat) : (s.setPair i v).channel k = s.channel k := rfl
@[simp] theorem State.setPair_at_block (s : State) (i : Nat) (v : Pair) (k : Nat) : (s.setPair i v).block k = s.block k := rfl
@[simp] theorem State.setPair_at_cell (s : State) (i : Nat) (v : Pair) (k : Nat) : (s.setPair i v).cell k = s.cell k := rfl
@[simp] theorem State.setPair_at_port (s : State) (i : Nat) (v : Pair) (k : Nat) : (s.setPair i v).port k = s.port k := rfl
@[simp] theorem State.setPair_at_region (s : State) (i : Nat) (v : Pair) (k : Nat) : (s.setPair i v).region k = s.region k := rfl
@[simp] theorem State.setRegion_at_ring (s : State) (r : Nat) (v : Region) (k : Nat) : (s.setRegion r v).ring k = s.ring k := rfl
@[simp] theorem State.setRegion_at_channel (s : State) (r : Nat) (v : Region) (k : Nat) : (s.setRegion r v).channel k = s.channel k := rfl
@[simp] theorem State.setRegion_at_block (s : State) (r : Nat) (v : Region) (k : Nat) : (s.setRegion r v).block k = s.block k := rfl
@[simp] theorem State.setRegion_at_cell (s : State) (r : Nat) (v : Region) (k : Nat) : (s.setRegion r v).cell k = s.cell k := rfl
@[simp] theorem State.setRegion_at_port (s : State) (r : Nat) (v : Region) (k : Nat) : (s.setRegion r v).port k = s.port k := rfl
@[simp] theorem State.setRegion_at_pair (s : State) (r : Nat) (v : Region) (k : Nat) : (s.setRegion r v).pair k = s.pair k := rfl
@[simp] theorem State.modRegion_at_ring (s : State) (r : Nat) (f : Region → Region) (k : Nat) : (s.modRegion r f).ring k = s.ring k := rfl
@[simp] theorem State.modRegion_at_channel (s : State) (r : Nat) (f : Region → Region) (k : Nat) : (s.modRegion r f).channel k = s.channel k := rfl
@[simp] theorem State.modRegion_at_block (s : State) (r : Nat) (f : Region → Region) (k : Nat) : (s.modRegion r f).block k = s.block k := rfl
@[simp] theorem State.modRegion_at_cell (s : State) (r : Nat) (f : Region → Region) (k : Nat) : (s.modRegion r f).cell k = s.cell k := rfl
@[simp] theorem State.modRegion_at_port (s : State) (r : Nat) (f : Region → Region) (k : Nat) : (s.modRegion r f).port k = s.port k := rfl
@[simp] theorem State.modRegion_at_pair (s : State) (r : Nat) (f : Region → Region) (k : Nat) : (s.modRegion r f).pair k = s.pair k := rfl
@[simp] theorem State.setDest_at_ring (s : State) (d : Nat) (v : NoticeDest) (k : Nat) : (s.setDest d v).ring k = s.ring k := rfl
@[simp] theorem State.setDest_at_channel (s : State) (d : Nat) (v : NoticeDest) (k : Nat) : (s.setDest d v).channel k = s.channel k := rfl
@[simp] theorem State.setDest_at_block (s : State) (d : Nat) (v : NoticeDest) (k : Nat) : (s.setDest d v).block k = s.block k := rfl
@[simp] theorem State.setDest_at_cell (s : State) (d : Nat) (v : NoticeDest) (k : Nat) : (s.setDest d v).cell k = s.cell k := rfl
@[simp] theorem State.setDest_at_port (s : State) (d : Nat) (v : NoticeDest) (k : Nat) : (s.setDest d v).port k = s.port k := rfl
@[simp] theorem State.setDest_at_region (s : State) (d : Nat) (v : NoticeDest) (k : Nat) : (s.setDest d v).region k = s.region k := rfl
@[simp] theorem State.setDest_at_pair (s : State) (d : Nat) (v : NoticeDest) (k : Nat) : (s.setDest d v).pair k = s.pair k := rfl
@[simp] theorem State.bumpFylos_at_ring (s : State) (c : FylosCount) (k : Nat) : (s.bumpFylos c).ring k = s.ring k := rfl
@[simp] theorem State.bumpFylos_at_channel (s : State) (c : FylosCount) (k : Nat) : (s.bumpFylos c).channel k = s.channel k := rfl
@[simp] theorem State.bumpFylos_at_block (s : State) (c : FylosCount) (k : Nat) : (s.bumpFylos c).block k = s.block k := rfl
@[simp] theorem State.bumpFylos_at_cell (s : State) (c : FylosCount) (k : Nat) : (s.bumpFylos c).cell k = s.cell k := rfl
@[simp] theorem State.bumpFylos_at_port (s : State) (c : FylosCount) (k : Nat) : (s.bumpFylos c).port k = s.port k := rfl
@[simp] theorem State.bumpFylos_at_region (s : State) (c : FylosCount) (k : Nat) : (s.bumpFylos c).region k = s.region k := rfl
@[simp] theorem State.bumpFylos_at_pair (s : State) (c : FylosCount) (k : Nat) : (s.bumpFylos c).pair k = s.pair k := rfl
@[simp] theorem State.bumpPort_at_ring (s : State) (i : Nat) (c : PortCount) (k : Nat) : (s.bumpPort i c).ring k = s.ring k := rfl
@[simp] theorem State.bumpPort_at_channel (s : State) (i : Nat) (c : PortCount) (k : Nat) : (s.bumpPort i c).channel k = s.channel k := rfl
@[simp] theorem State.bumpPort_at_block (s : State) (i : Nat) (c : PortCount) (k : Nat) : (s.bumpPort i c).block k = s.block k := rfl
@[simp] theorem State.bumpPort_at_cell (s : State) (i : Nat) (c : PortCount) (k : Nat) : (s.bumpPort i c).cell k = s.cell k := rfl
@[simp] theorem State.bumpPort_at_region (s : State) (i : Nat) (c : PortCount) (k : Nat) : (s.bumpPort i c).region k = s.region k := rfl
@[simp] theorem State.bumpPort_at_pair (s : State) (i : Nat) (c : PortCount) (k : Nat) : (s.bumpPort i c).pair k = s.pair k := rfl
@[simp] theorem State.bumpBlock_at_ring (s : State) (b : Nat) (c : BlockCount) (k : Nat) : (s.bumpBlock b c).ring k = s.ring k := rfl
@[simp] theorem State.bumpBlock_at_channel (s : State) (b : Nat) (c : BlockCount) (k : Nat) : (s.bumpBlock b c).channel k = s.channel k := rfl
@[simp] theorem State.bumpBlock_at_cell (s : State) (b : Nat) (c : BlockCount) (k : Nat) : (s.bumpBlock b c).cell k = s.cell k := rfl
@[simp] theorem State.bumpBlock_at_port (s : State) (b : Nat) (c : BlockCount) (k : Nat) : (s.bumpBlock b c).port k = s.port k := rfl
@[simp] theorem State.bumpBlock_at_region (s : State) (b : Nat) (c : BlockCount) (k : Nat) : (s.bumpBlock b c).region k = s.region k := rfl
@[simp] theorem State.bumpBlock_at_pair (s : State) (b : Nat) (c : BlockCount) (k : Nat) : (s.bumpBlock b c).pair k = s.pair k := rfl
@[simp] theorem State.bumpRegion_at_ring (s : State) (r : Nat) (c : RegionCount) (k : Nat) : (s.bumpRegion r c).ring k = s.ring k := rfl
@[simp] theorem State.bumpRegion_at_channel (s : State) (r : Nat) (c : RegionCount) (k : Nat) : (s.bumpRegion r c).channel k = s.channel k := rfl
@[simp] theorem State.bumpRegion_at_block (s : State) (r : Nat) (c : RegionCount) (k : Nat) : (s.bumpRegion r c).block k = s.block k := rfl
@[simp] theorem State.bumpRegion_at_cell (s : State) (r : Nat) (c : RegionCount) (k : Nat) : (s.bumpRegion r c).cell k = s.cell k := rfl
@[simp] theorem State.bumpRegion_at_port (s : State) (r : Nat) (c : RegionCount) (k : Nat) : (s.bumpRegion r c).port k = s.port k := rfl
@[simp] theorem State.bumpRegion_at_pair (s : State) (r : Nat) (c : RegionCount) (k : Nat) : (s.bumpRegion r c).pair k = s.pair k := rfl
@[simp] theorem State.setBgPort_at_ring (s : State) (p : Nat) (v : BgPort) (k : Nat) : (s.setBgPort p v).ring k = s.ring k := rfl
@[simp] theorem State.setBgPort_at_channel (s : State) (p : Nat) (v : BgPort) (k : Nat) : (s.setBgPort p v).channel k = s.channel k := rfl
@[simp] theorem State.setBgPort_at_block (s : State) (p : Nat) (v : BgPort) (k : Nat) : (s.setBgPort p v).block k = s.block k := rfl
@[simp] theorem State.setBgPort_at_cell (s : State) (p : Nat) (v : BgPort) (k : Nat) : (s.setBgPort p v).cell k = s.cell k := rfl
@[simp] theorem State.setBgPort_at_port (s : State) (p : Nat) (v : BgPort) (k : Nat) : (s.setBgPort p v).port k = s.port k := rfl
@[simp] theorem State.setBgPort_at_region (s : State) (p : Nat) (v : BgPort) (k : Nat) : (s.setBgPort p v).region k = s.region k := rfl
@[simp] theorem State.setBgPort_at_pair (s : State) (p : Nat) (v : BgPort) (k : Nat) : (s.setBgPort p v).pair k = s.pair k := rfl
@[simp] theorem State.modBgPort_at_ring (s : State) (p : Nat) (f : BgPort → BgPort) (k : Nat) : (s.modBgPort p f).ring k = s.ring k := rfl
@[simp] theorem State.modBgPort_at_channel (s : State) (p : Nat) (f : BgPort → BgPort) (k : Nat) : (s.modBgPort p f).channel k = s.channel k := rfl
@[simp] theorem State.modBgPort_at_block (s : State) (p : Nat) (f : BgPort → BgPort) (k : Nat) : (s.modBgPort p f).block k = s.block k := rfl
@[simp] theorem State.modBgPort_at_cell (s : State) (p : Nat) (f : BgPort → BgPort) (k : Nat) : (s.modBgPort p f).cell k = s.cell k := rfl
@[simp] theorem State.modBgPort_at_port (s : State) (p : Nat) (f : BgPort → BgPort) (k : Nat) : (s.modBgPort p f).port k = s.port k := rfl
@[simp] theorem State.modBgPort_at_region (s : State) (p : Nat) (f : BgPort → BgPort) (k : Nat) : (s.modBgPort p f).region k = s.region k := rfl
@[simp] theorem State.modBgPort_at_pair (s : State) (p : Nat) (f : BgPort → BgPort) (k : Nat) : (s.modBgPort p f).pair k = s.pair k := rfl
@[simp] theorem State.bumpStack_at_ring (s : State) (c : StackCount) (k : Nat) : (s.bumpStack c).ring k = s.ring k := rfl
@[simp] theorem State.bumpStack_at_channel (s : State) (c : StackCount) (k : Nat) : (s.bumpStack c).channel k = s.channel k := rfl
@[simp] theorem State.bumpStack_at_block (s : State) (c : StackCount) (k : Nat) : (s.bumpStack c).block k = s.block k := rfl
@[simp] theorem State.bumpStack_at_cell (s : State) (c : StackCount) (k : Nat) : (s.bumpStack c).cell k = s.cell k := rfl
@[simp] theorem State.bumpStack_at_port (s : State) (c : StackCount) (k : Nat) : (s.bumpStack c).port k = s.port k := rfl
@[simp] theorem State.bumpStack_at_region (s : State) (c : StackCount) (k : Nat) : (s.bumpStack c).region k = s.region k := rfl
@[simp] theorem State.bumpStack_at_pair (s : State) (c : StackCount) (k : Nat) : (s.bumpStack c).pair k = s.pair k := rfl
@[simp] theorem State.drawn_at_ring (s : State) (k : Nat) : (s.drawn).ring k = s.ring k := rfl
@[simp] theorem State.drawn_at_channel (s : State) (k : Nat) : (s.drawn).channel k = s.channel k := rfl
@[simp] theorem State.drawn_at_block (s : State) (k : Nat) : (s.drawn).block k = s.block k := rfl
@[simp] theorem State.drawn_at_cell (s : State) (k : Nat) : (s.drawn).cell k = s.cell k := rfl
@[simp] theorem State.drawn_at_port (s : State) (k : Nat) : (s.drawn).port k = s.port k := rfl
@[simp] theorem State.drawn_at_region (s : State) (k : Nat) : (s.drawn).region k = s.region k := rfl
@[simp] theorem State.drawn_at_pair (s : State) (k : Nat) : (s.drawn).pair k = s.pair k := rfl

end Sys2Proof.Machine
end

