-- ==== Sys2Proof/Laws/Ops.lean ====
section
/-! SUPPORT. What each shared operation can do, said once: a packet on its way out, a notice, an interrupt vector and an error log entry
change only the fields named in the operation's frame lemma. -/

namespace Sys2Proof.Machine

/-- A relation that holds of each step of a fold, and composes, holds of the whole fold. -/
theorem fold_frame {α : Type} (R : State → State → Prop) (hrefl : ∀ s, R s s) (htrans : ∀ a b c, R a b → R b c → R a c)
    (f : State → α → State) (hf : ∀ s x, R s (f s x)) (l : List α) (s : State) : R s (l.foldl f s) := by
  induction l generalizing s with
  | nil => exact hrefl s
  | cons x r ih => exact htrans _ _ _ (hf s x) (ih (f s x))

/-- `State.queueFlits` changes nothing but stack. -/
theorem State.queueFlits_frame (s : State) (p : Nat) (l : List Flit) :
    ∃ x0, s.queueFlits p l = { s with stack := x0 } := ⟨_, rfl⟩

@[simp] theorem State.queueFlits_pending (s : State) (p : Nat) (l : List Flit) : (s.queueFlits p l).pending = s.pending := by
  obtain ⟨_, h⟩ := State.queueFlits_frame s p l
  rw [h]
@[simp] theorem State.queueFlits_draws (s : State) (p : Nat) (l : List Flit) : (s.queueFlits p l).draws = s.draws := by
  obtain ⟨_, h⟩ := State.queueFlits_frame s p l
  rw [h]
@[simp] theorem State.queueFlits_rings (s : State) (p : Nat) (l : List Flit) : (s.queueFlits p l).rings = s.rings := by
  obtain ⟨_, h⟩ := State.queueFlits_frame s p l
  rw [h]
@[simp] theorem State.queueFlits_fylos (s : State) (p : Nat) (l : List Flit) : (s.queueFlits p l).fylos = s.fylos := by
  obtain ⟨_, h⟩ := State.queueFlits_frame s p l
  rw [h]
@[simp] theorem State.queueFlits_log (s : State) (p : Nat) (l : List Flit) : (s.queueFlits p l).log = s.log := by
  obtain ⟨_, h⟩ := State.queueFlits_frame s p l
  rw [h]
@[simp] theorem State.queueFlits_channels (s : State) (p : Nat) (l : List Flit) : (s.queueFlits p l).channels = s.channels := by
  obtain ⟨_, h⟩ := State.queueFlits_frame s p l
  rw [h]
@[simp] theorem State.queueFlits_openRuns (s : State) (p : Nat) (l : List Flit) : (s.queueFlits p l).openRuns = s.openRuns := by
  obtain ⟨_, h⟩ := State.queueFlits_frame s p l
  rw [h]
@[simp] theorem State.queueFlits_blocks (s : State) (p : Nat) (l : List Flit) : (s.queueFlits p l).blocks = s.blocks := by
  obtain ⟨_, h⟩ := State.queueFlits_frame s p l
  rw [h]
@[simp] theorem State.queueFlits_cells (s : State) (p : Nat) (l : List Flit) : (s.queueFlits p l).cells = s.cells := by
  obtain ⟨_, h⟩ := State.queueFlits_frame s p l
  rw [h]
@[simp] theorem State.queueFlits_ports (s : State) (p : Nat) (l : List Flit) : (s.queueFlits p l).ports = s.ports := by
  obtain ⟨_, h⟩ := State.queueFlits_frame s p l
  rw [h]
@[simp] theorem State.queueFlits_pairs (s : State) (p : Nat) (l : List Flit) : (s.queueFlits p l).pairs = s.pairs := by
  obtain ⟨_, h⟩ := State.queueFlits_frame s p l
  rw [h]
@[simp] theorem State.queueFlits_regions (s : State) (p : Nat) (l : List Flit) : (s.queueFlits p l).regions = s.regions := by
  obtain ⟨_, h⟩ := State.queueFlits_frame s p l
  rw [h]
@[simp] theorem State.queueFlits_flows (s : State) (p : Nat) (l : List Flit) : (s.queueFlits p l).flows = s.flows := by
  obtain ⟨_, h⟩ := State.queueFlits_frame s p l
  rw [h]
@[simp] theorem State.queueFlits_time (s : State) (p : Nat) (l : List Flit) : (s.queueFlits p l).time = s.time := by
  obtain ⟨_, h⟩ := State.queueFlits_frame s p l
  rw [h]
@[simp] theorem State.queueFlits_tdm (s : State) (p : Nat) (l : List Flit) : (s.queueFlits p l).tdm = s.tdm := by
  obtain ⟨_, h⟩ := State.queueFlits_frame s p l
  rw [h]
@[simp] theorem State.queueFlits_store (s : State) (p : Nat) (l : List Flit) : (s.queueFlits p l).store = s.store := by
  obtain ⟨_, h⟩ := State.queueFlits_frame s p l
  rw [h]
@[simp] theorem State.queueFlits_clocks (s : State) (p : Nat) (l : List Flit) : (s.queueFlits p l).clocks = s.clocks := by
  obtain ⟨_, h⟩ := State.queueFlits_frame s p l
  rw [h]
@[simp] theorem State.queueFlits_life (s : State) (p : Nat) (l : List Flit) : (s.queueFlits p l).life = s.life := by
  obtain ⟨_, h⟩ := State.queueFlits_frame s p l
  rw [h]
@[simp] theorem State.queueFlits_board (s : State) (p : Nat) (l : List Flit) : (s.queueFlits p l).board = s.board := by
  obtain ⟨_, h⟩ := State.queueFlits_frame s p l
  rw [h]
@[simp] theorem State.queueFlits_at_ring (s : State) (p : Nat) (l : List Flit) (k : Nat) : (s.queueFlits p l).ring k = s.ring k := by
  simp [State.ring]
@[simp] theorem State.queueFlits_at_channel (s : State) (p : Nat) (l : List Flit) (k : Nat) : (s.queueFlits p l).channel k = s.channel k := by
  simp [State.channel]
@[simp] theorem State.queueFlits_at_block (s : State) (p : Nat) (l : List Flit) (k : Nat) : (s.queueFlits p l).block k = s.block k := by
  simp [State.block]
@[simp] theorem State.queueFlits_at_cell (s : State) (p : Nat) (l : List Flit) (k : Nat) : (s.queueFlits p l).cell k = s.cell k := by
  simp [State.cell]
@[simp] theorem State.queueFlits_at_port (s : State) (p : Nat) (l : List Flit) (k : Nat) : (s.queueFlits p l).port k = s.port k := by
  simp [State.port]
@[simp] theorem State.queueFlits_at_region (s : State) (p : Nat) (l : List Flit) (k : Nat) : (s.queueFlits p l).region k = s.region k := by
  simp [State.region]
@[simp] theorem State.queueFlits_at_pair (s : State) (p : Nat) (l : List Flit) (k : Nat) : (s.queueFlits p l).pair k = s.pair k := by
  simp [State.pair]

/-- `State.routeFlits` changes nothing but stack. -/
theorem State.routeFlits_frame (s : State) (d : Nat) (l : List Flit) :
    ∃ x0, s.routeFlits d l = { s with stack := x0 } := by
  unfold State.routeFlits
  split
  · exact ⟨_, rfl⟩
  · exact fold_frame (fun s t => ∃ k, t = { s with stack := k }) (fun s => ⟨s.stack, rfl⟩)
      (fun _ _ _ h1 h2 => by obtain ⟨_, rfl⟩ := h1; obtain ⟨_, rfl⟩ := h2; exact ⟨_, rfl⟩) _ (fun s _ => ⟨_, rfl⟩) _ s

@[simp] theorem State.routeFlits_pending (s : State) (d : Nat) (l : List Flit) : (s.routeFlits d l).pending = s.pending := by
  obtain ⟨_, h⟩ := State.routeFlits_frame s d l
  rw [h]
@[simp] theorem State.routeFlits_draws (s : State) (d : Nat) (l : List Flit) : (s.routeFlits d l).draws = s.draws := by
  obtain ⟨_, h⟩ := State.routeFlits_frame s d l
  rw [h]
@[simp] theorem State.routeFlits_rings (s : State) (d : Nat) (l : List Flit) : (s.routeFlits d l).rings = s.rings := by
  obtain ⟨_, h⟩ := State.routeFlits_frame s d l
  rw [h]
@[simp] theorem State.routeFlits_fylos (s : State) (d : Nat) (l : List Flit) : (s.routeFlits d l).fylos = s.fylos := by
  obtain ⟨_, h⟩ := State.routeFlits_frame s d l
  rw [h]
@[simp] theorem State.routeFlits_log (s : State) (d : Nat) (l : List Flit) : (s.routeFlits d l).log = s.log := by
  obtain ⟨_, h⟩ := State.routeFlits_frame s d l
  rw [h]
@[simp] theorem State.routeFlits_channels (s : State) (d : Nat) (l : List Flit) : (s.routeFlits d l).channels = s.channels := by
  obtain ⟨_, h⟩ := State.routeFlits_frame s d l
  rw [h]
@[simp] theorem State.routeFlits_openRuns (s : State) (d : Nat) (l : List Flit) : (s.routeFlits d l).openRuns = s.openRuns := by
  obtain ⟨_, h⟩ := State.routeFlits_frame s d l
  rw [h]
@[simp] theorem State.routeFlits_blocks (s : State) (d : Nat) (l : List Flit) : (s.routeFlits d l).blocks = s.blocks := by
  obtain ⟨_, h⟩ := State.routeFlits_frame s d l
  rw [h]
@[simp] theorem State.routeFlits_cells (s : State) (d : Nat) (l : List Flit) : (s.routeFlits d l).cells = s.cells := by
  obtain ⟨_, h⟩ := State.routeFlits_frame s d l
  rw [h]
@[simp] theorem State.routeFlits_ports (s : State) (d : Nat) (l : List Flit) : (s.routeFlits d l).ports = s.ports := by
  obtain ⟨_, h⟩ := State.routeFlits_frame s d l
  rw [h]
@[simp] theorem State.routeFlits_pairs (s : State) (d : Nat) (l : List Flit) : (s.routeFlits d l).pairs = s.pairs := by
  obtain ⟨_, h⟩ := State.routeFlits_frame s d l
  rw [h]
@[simp] theorem State.routeFlits_regions (s : State) (d : Nat) (l : List Flit) : (s.routeFlits d l).regions = s.regions := by
  obtain ⟨_, h⟩ := State.routeFlits_frame s d l
  rw [h]
@[simp] theorem State.routeFlits_flows (s : State) (d : Nat) (l : List Flit) : (s.routeFlits d l).flows = s.flows := by
  obtain ⟨_, h⟩ := State.routeFlits_frame s d l
  rw [h]
@[simp] theorem State.routeFlits_time (s : State) (d : Nat) (l : List Flit) : (s.routeFlits d l).time = s.time := by
  obtain ⟨_, h⟩ := State.routeFlits_frame s d l
  rw [h]
@[simp] theorem State.routeFlits_tdm (s : State) (d : Nat) (l : List Flit) : (s.routeFlits d l).tdm = s.tdm := by
  obtain ⟨_, h⟩ := State.routeFlits_frame s d l
  rw [h]
@[simp] theorem State.routeFlits_store (s : State) (d : Nat) (l : List Flit) : (s.routeFlits d l).store = s.store := by
  obtain ⟨_, h⟩ := State.routeFlits_frame s d l
  rw [h]
@[simp] theorem State.routeFlits_clocks (s : State) (d : Nat) (l : List Flit) : (s.routeFlits d l).clocks = s.clocks := by
  obtain ⟨_, h⟩ := State.routeFlits_frame s d l
  rw [h]
@[simp] theorem State.routeFlits_life (s : State) (d : Nat) (l : List Flit) : (s.routeFlits d l).life = s.life := by
  obtain ⟨_, h⟩ := State.routeFlits_frame s d l
  rw [h]
@[simp] theorem State.routeFlits_board (s : State) (d : Nat) (l : List Flit) : (s.routeFlits d l).board = s.board := by
  obtain ⟨_, h⟩ := State.routeFlits_frame s d l
  rw [h]
@[simp] theorem State.routeFlits_at_ring (s : State) (d : Nat) (l : List Flit) (k : Nat) : (s.routeFlits d l).ring k = s.ring k := by
  simp [State.ring]
@[simp] theorem State.routeFlits_at_channel (s : State) (d : Nat) (l : List Flit) (k : Nat) : (s.routeFlits d l).channel k = s.channel k := by
  simp [State.channel]
@[simp] theorem State.routeFlits_at_block (s : State) (d : Nat) (l : List Flit) (k : Nat) : (s.routeFlits d l).block k = s.block k := by
  simp [State.block]
@[simp] theorem State.routeFlits_at_cell (s : State) (d : Nat) (l : List Flit) (k : Nat) : (s.routeFlits d l).cell k = s.cell k := by
  simp [State.cell]
@[simp] theorem State.routeFlits_at_port (s : State) (d : Nat) (l : List Flit) (k : Nat) : (s.routeFlits d l).port k = s.port k := by
  simp [State.port]
@[simp] theorem State.routeFlits_at_region (s : State) (d : Nat) (l : List Flit) (k : Nat) : (s.routeFlits d l).region k = s.region k := by
  simp [State.region]
@[simp] theorem State.routeFlits_at_pair (s : State) (d : Nat) (l : List Flit) (k : Nat) : (s.routeFlits d l).pair k = s.pair k := by
  simp [State.pair]

/-- `State.sendMessage` changes nothing but stack. -/
theorem State.sendMessage_frame (s : State) (d kind : Nat) (content : List (List Byte)) :
    ∃ x0, s.sendMessage d kind content = { s with stack := x0 } := State.routeFlits_frame _ _ _

@[simp] theorem State.sendMessage_pending (s : State) (d kind : Nat) (content : List (List Byte)) : (s.sendMessage d kind content).pending = s.pending := by
  obtain ⟨_, h⟩ := State.sendMessage_frame s d kind content
  rw [h]
@[simp] theorem State.sendMessage_draws (s : State) (d kind : Nat) (content : List (List Byte)) : (s.sendMessage d kind content).draws = s.draws := by
  obtain ⟨_, h⟩ := State.sendMessage_frame s d kind content
  rw [h]
@[simp] theorem State.sendMessage_rings (s : State) (d kind : Nat) (content : List (List Byte)) : (s.sendMessage d kind content).rings = s.rings := by
  obtain ⟨_, h⟩ := State.sendMessage_frame s d kind content
  rw [h]
@[simp] theorem State.sendMessage_fylos (s : State) (d kind : Nat) (content : List (List Byte)) : (s.sendMessage d kind content).fylos = s.fylos := by
  obtain ⟨_, h⟩ := State.sendMessage_frame s d kind content
  rw [h]
@[simp] theorem State.sendMessage_log (s : State) (d kind : Nat) (content : List (List Byte)) : (s.sendMessage d kind content).log = s.log := by
  obtain ⟨_, h⟩ := State.sendMessage_frame s d kind content
  rw [h]
@[simp] theorem State.sendMessage_channels (s : State) (d kind : Nat) (content : List (List Byte)) : (s.sendMessage d kind content).channels = s.channels := by
  obtain ⟨_, h⟩ := State.sendMessage_frame s d kind content
  rw [h]
@[simp] theorem State.sendMessage_openRuns (s : State) (d kind : Nat) (content : List (List Byte)) : (s.sendMessage d kind content).openRuns = s.openRuns := by
  obtain ⟨_, h⟩ := State.sendMessage_frame s d kind content
  rw [h]
@[simp] theorem State.sendMessage_blocks (s : State) (d kind : Nat) (content : List (List Byte)) : (s.sendMessage d kind content).blocks = s.blocks := by
  obtain ⟨_, h⟩ := State.sendMessage_frame s d kind content
  rw [h]
@[simp] theorem State.sendMessage_cells (s : State) (d kind : Nat) (content : List (List Byte)) : (s.sendMessage d kind content).cells = s.cells := by
  obtain ⟨_, h⟩ := State.sendMessage_frame s d kind content
  rw [h]
@[simp] theorem State.sendMessage_ports (s : State) (d kind : Nat) (content : List (List Byte)) : (s.sendMessage d kind content).ports = s.ports := by
  obtain ⟨_, h⟩ := State.sendMessage_frame s d kind content
  rw [h]
@[simp] theorem State.sendMessage_pairs (s : State) (d kind : Nat) (content : List (List Byte)) : (s.sendMessage d kind content).pairs = s.pairs := by
  obtain ⟨_, h⟩ := State.sendMessage_frame s d kind content
  rw [h]
@[simp] theorem State.sendMessage_regions (s : State) (d kind : Nat) (content : List (List Byte)) : (s.sendMessage d kind content).regions = s.regions := by
  obtain ⟨_, h⟩ := State.sendMessage_frame s d kind content
  rw [h]
@[simp] theorem State.sendMessage_flows (s : State) (d kind : Nat) (content : List (List Byte)) : (s.sendMessage d kind content).flows = s.flows := by
  obtain ⟨_, h⟩ := State.sendMessage_frame s d kind content
  rw [h]
@[simp] theorem State.sendMessage_time (s : State) (d kind : Nat) (content : List (List Byte)) : (s.sendMessage d kind content).time = s.time := by
  obtain ⟨_, h⟩ := State.sendMessage_frame s d kind content
  rw [h]
@[simp] theorem State.sendMessage_tdm (s : State) (d kind : Nat) (content : List (List Byte)) : (s.sendMessage d kind content).tdm = s.tdm := by
  obtain ⟨_, h⟩ := State.sendMessage_frame s d kind content
  rw [h]
@[simp] theorem State.sendMessage_store (s : State) (d kind : Nat) (content : List (List Byte)) : (s.sendMessage d kind content).store = s.store := by
  obtain ⟨_, h⟩ := State.sendMessage_frame s d kind content
  rw [h]
@[simp] theorem State.sendMessage_clocks (s : State) (d kind : Nat) (content : List (List Byte)) : (s.sendMessage d kind content).clocks = s.clocks := by
  obtain ⟨_, h⟩ := State.sendMessage_frame s d kind content
  rw [h]
@[simp] theorem State.sendMessage_life (s : State) (d kind : Nat) (content : List (List Byte)) : (s.sendMessage d kind content).life = s.life := by
  obtain ⟨_, h⟩ := State.sendMessage_frame s d kind content
  rw [h]
@[simp] theorem State.sendMessage_board (s : State) (d kind : Nat) (content : List (List Byte)) : (s.sendMessage d kind content).board = s.board := by
  obtain ⟨_, h⟩ := State.sendMessage_frame s d kind content
  rw [h]
@[simp] theorem State.sendMessage_at_ring (s : State) (d kind : Nat) (content : List (List Byte)) (k : Nat) : (s.sendMessage d kind content).ring k = s.ring k := by
  simp [State.ring]
@[simp] theorem State.sendMessage_at_channel (s : State) (d kind : Nat) (content : List (List Byte)) (k : Nat) : (s.sendMessage d kind content).channel k = s.channel k := by
  simp [State.channel]
@[simp] theorem State.sendMessage_at_block (s : State) (d kind : Nat) (content : List (List Byte)) (k : Nat) : (s.sendMessage d kind content).block k = s.block k := by
  simp [State.block]
@[simp] theorem State.sendMessage_at_cell (s : State) (d kind : Nat) (content : List (List Byte)) (k : Nat) : (s.sendMessage d kind content).cell k = s.cell k := by
  simp [State.cell]
@[simp] theorem State.sendMessage_at_port (s : State) (d kind : Nat) (content : List (List Byte)) (k : Nat) : (s.sendMessage d kind content).port k = s.port k := by
  simp [State.port]
@[simp] theorem State.sendMessage_at_region (s : State) (d kind : Nat) (content : List (List Byte)) (k : Nat) : (s.sendMessage d kind content).region k = s.region k := by
  simp [State.region]
@[simp] theorem State.sendMessage_at_pair (s : State) (d kind : Nat) (content : List (List Byte)) (k : Nat) : (s.sendMessage d kind content).pair k = s.pair k := by
  simp [State.pair]

/-- `State.fenceLeft` changes nothing but life. -/
theorem State.fenceLeft_frame (s : State) (f : Fence) :
    ∃ x0, s.fenceLeft f = { s with life := x0 } := by cases f <;> exact ⟨_, rfl⟩

@[simp] theorem State.fenceLeft_pending (s : State) (f : Fence) : (s.fenceLeft f).pending = s.pending := by
  obtain ⟨_, h⟩ := State.fenceLeft_frame s f
  rw [h]
@[simp] theorem State.fenceLeft_draws (s : State) (f : Fence) : (s.fenceLeft f).draws = s.draws := by
  obtain ⟨_, h⟩ := State.fenceLeft_frame s f
  rw [h]
@[simp] theorem State.fenceLeft_rings (s : State) (f : Fence) : (s.fenceLeft f).rings = s.rings := by
  obtain ⟨_, h⟩ := State.fenceLeft_frame s f
  rw [h]
@[simp] theorem State.fenceLeft_fylos (s : State) (f : Fence) : (s.fenceLeft f).fylos = s.fylos := by
  obtain ⟨_, h⟩ := State.fenceLeft_frame s f
  rw [h]
@[simp] theorem State.fenceLeft_log (s : State) (f : Fence) : (s.fenceLeft f).log = s.log := by
  obtain ⟨_, h⟩ := State.fenceLeft_frame s f
  rw [h]
@[simp] theorem State.fenceLeft_channels (s : State) (f : Fence) : (s.fenceLeft f).channels = s.channels := by
  obtain ⟨_, h⟩ := State.fenceLeft_frame s f
  rw [h]
@[simp] theorem State.fenceLeft_openRuns (s : State) (f : Fence) : (s.fenceLeft f).openRuns = s.openRuns := by
  obtain ⟨_, h⟩ := State.fenceLeft_frame s f
  rw [h]
@[simp] theorem State.fenceLeft_blocks (s : State) (f : Fence) : (s.fenceLeft f).blocks = s.blocks := by
  obtain ⟨_, h⟩ := State.fenceLeft_frame s f
  rw [h]
@[simp] theorem State.fenceLeft_cells (s : State) (f : Fence) : (s.fenceLeft f).cells = s.cells := by
  obtain ⟨_, h⟩ := State.fenceLeft_frame s f
  rw [h]
@[simp] theorem State.fenceLeft_ports (s : State) (f : Fence) : (s.fenceLeft f).ports = s.ports := by
  obtain ⟨_, h⟩ := State.fenceLeft_frame s f
  rw [h]
@[simp] theorem State.fenceLeft_pairs (s : State) (f : Fence) : (s.fenceLeft f).pairs = s.pairs := by
  obtain ⟨_, h⟩ := State.fenceLeft_frame s f
  rw [h]
@[simp] theorem State.fenceLeft_regions (s : State) (f : Fence) : (s.fenceLeft f).regions = s.regions := by
  obtain ⟨_, h⟩ := State.fenceLeft_frame s f
  rw [h]
@[simp] theorem State.fenceLeft_flows (s : State) (f : Fence) : (s.fenceLeft f).flows = s.flows := by
  obtain ⟨_, h⟩ := State.fenceLeft_frame s f
  rw [h]
@[simp] theorem State.fenceLeft_time (s : State) (f : Fence) : (s.fenceLeft f).time = s.time := by
  obtain ⟨_, h⟩ := State.fenceLeft_frame s f
  rw [h]
@[simp] theorem State.fenceLeft_tdm (s : State) (f : Fence) : (s.fenceLeft f).tdm = s.tdm := by
  obtain ⟨_, h⟩ := State.fenceLeft_frame s f
  rw [h]
@[simp] theorem State.fenceLeft_store (s : State) (f : Fence) : (s.fenceLeft f).store = s.store := by
  obtain ⟨_, h⟩ := State.fenceLeft_frame s f
  rw [h]
@[simp] theorem State.fenceLeft_clocks (s : State) (f : Fence) : (s.fenceLeft f).clocks = s.clocks := by
  obtain ⟨_, h⟩ := State.fenceLeft_frame s f
  rw [h]
@[simp] theorem State.fenceLeft_stack (s : State) (f : Fence) : (s.fenceLeft f).stack = s.stack := by
  obtain ⟨_, h⟩ := State.fenceLeft_frame s f
  rw [h]
@[simp] theorem State.fenceLeft_board (s : State) (f : Fence) : (s.fenceLeft f).board = s.board := by
  obtain ⟨_, h⟩ := State.fenceLeft_frame s f
  rw [h]
@[simp] theorem State.fenceLeft_at_ring (s : State) (f : Fence) (k : Nat) : (s.fenceLeft f).ring k = s.ring k := by
  simp [State.ring]
@[simp] theorem State.fenceLeft_at_channel (s : State) (f : Fence) (k : Nat) : (s.fenceLeft f).channel k = s.channel k := by
  simp [State.channel]
@[simp] theorem State.fenceLeft_at_block (s : State) (f : Fence) (k : Nat) : (s.fenceLeft f).block k = s.block k := by
  simp [State.block]
@[simp] theorem State.fenceLeft_at_cell (s : State) (f : Fence) (k : Nat) : (s.fenceLeft f).cell k = s.cell k := by
  simp [State.cell]
@[simp] theorem State.fenceLeft_at_port (s : State) (f : Fence) (k : Nat) : (s.fenceLeft f).port k = s.port k := by
  simp [State.port]
@[simp] theorem State.fenceLeft_at_region (s : State) (f : Fence) (k : Nat) : (s.fenceLeft f).region k = s.region k := by
  simp [State.region]
@[simp] theorem State.fenceLeft_at_pair (s : State) (f : Fence) (k : Nat) : (s.fenceLeft f).pair k = s.pair k := by
  simp [State.pair]

/-- `State.send` changes nothing but rings, fylos, life, stack. -/
theorem State.send_frame (s : State) (src : Source) (parts : List OutPart) :
    ∃ x0 x1 x2 x3, s.send src parts = { s with rings := x0, fylos := x1, life := x2, stack := x3 } := by
  cases src with
  | ring n => exact ⟨_, s.fylos, s.life, s.stack, rfl⟩
  | udp a p i => exact ⟨s.rings, _, s.life, s.stack, rfl⟩
  | stack d p =>
    refine fold_frame (fun s t => ∃ r f l k, t = { s with rings := r, fylos := f, life := l, stack := k })
      (fun s => ⟨s.rings, s.fylos, s.life, s.stack, rfl⟩)
      (fun _ _ _ h1 h2 => by obtain ⟨_, _, _, _, rfl⟩ := h1; obtain ⟨_, _, _, _, rfl⟩ := h2; exact ⟨_, _, _, _, rfl⟩) _ (fun s x => ?_) _ s
    obtain ⟨k, hk⟩ := State.sendMessage_frame s d 0x10 (partContent x)
    obtain ⟨l, hl⟩ := State.fenceLeft_frame (s.sendMessage d 0x10 (partContent x)) x.fence
    exact ⟨s.rings, s.fylos, l, k, by rw [hl, hk]⟩

@[simp] theorem State.send_pending (s : State) (src : Source) (parts : List OutPart) : (s.send src parts).pending = s.pending := by
  obtain ⟨_, _, _, _, h⟩ := State.send_frame s src parts
  rw [h]
@[simp] theorem State.send_draws (s : State) (src : Source) (parts : List OutPart) : (s.send src parts).draws = s.draws := by
  obtain ⟨_, _, _, _, h⟩ := State.send_frame s src parts
  rw [h]
@[simp] theorem State.send_log (s : State) (src : Source) (parts : List OutPart) : (s.send src parts).log = s.log := by
  obtain ⟨_, _, _, _, h⟩ := State.send_frame s src parts
  rw [h]
@[simp] theorem State.send_channels (s : State) (src : Source) (parts : List OutPart) : (s.send src parts).channels = s.channels := by
  obtain ⟨_, _, _, _, h⟩ := State.send_frame s src parts
  rw [h]
@[simp] theorem State.send_openRuns (s : State) (src : Source) (parts : List OutPart) : (s.send src parts).openRuns = s.openRuns := by
  obtain ⟨_, _, _, _, h⟩ := State.send_frame s src parts
  rw [h]
@[simp] theorem State.send_blocks (s : State) (src : Source) (parts : List OutPart) : (s.send src parts).blocks = s.blocks := by
  obtain ⟨_, _, _, _, h⟩ := State.send_frame s src parts
  rw [h]
@[simp] theorem State.send_cells (s : State) (src : Source) (parts : List OutPart) : (s.send src parts).cells = s.cells := by
  obtain ⟨_, _, _, _, h⟩ := State.send_frame s src parts
  rw [h]
@[simp] theorem State.send_ports (s : State) (src : Source) (parts : List OutPart) : (s.send src parts).ports = s.ports := by
  obtain ⟨_, _, _, _, h⟩ := State.send_frame s src parts
  rw [h]
@[simp] theorem State.send_pairs (s : State) (src : Source) (parts : List OutPart) : (s.send src parts).pairs = s.pairs := by
  obtain ⟨_, _, _, _, h⟩ := State.send_frame s src parts
  rw [h]
@[simp] theorem State.send_regions (s : State) (src : Source) (parts : List OutPart) : (s.send src parts).regions = s.regions := by
  obtain ⟨_, _, _, _, h⟩ := State.send_frame s src parts
  rw [h]
@[simp] theorem State.send_flows (s : State) (src : Source) (parts : List OutPart) : (s.send src parts).flows = s.flows := by
  obtain ⟨_, _, _, _, h⟩ := State.send_frame s src parts
  rw [h]
@[simp] theorem State.send_time (s : State) (src : Source) (parts : List OutPart) : (s.send src parts).time = s.time := by
  obtain ⟨_, _, _, _, h⟩ := State.send_frame s src parts
  rw [h]
@[simp] theorem State.send_tdm (s : State) (src : Source) (parts : List OutPart) : (s.send src parts).tdm = s.tdm := by
  obtain ⟨_, _, _, _, h⟩ := State.send_frame s src parts
  rw [h]
@[simp] theorem State.send_store (s : State) (src : Source) (parts : List OutPart) : (s.send src parts).store = s.store := by
  obtain ⟨_, _, _, _, h⟩ := State.send_frame s src parts
  rw [h]
@[simp] theorem State.send_clocks (s : State) (src : Source) (parts : List OutPart) : (s.send src parts).clocks = s.clocks := by
  obtain ⟨_, _, _, _, h⟩ := State.send_frame s src parts
  rw [h]
@[simp] theorem State.send_board (s : State) (src : Source) (parts : List OutPart) : (s.send src parts).board = s.board := by
  obtain ⟨_, _, _, _, h⟩ := State.send_frame s src parts
  rw [h]
@[simp] theorem State.send_at_channel (s : State) (src : Source) (parts : List OutPart) (k : Nat) : (s.send src parts).channel k = s.channel k := by
  simp [State.channel]
@[simp] theorem State.send_at_block (s : State) (src : Source) (parts : List OutPart) (k : Nat) : (s.send src parts).block k = s.block k := by
  simp [State.block]
@[simp] theorem State.send_at_cell (s : State) (src : Source) (parts : List OutPart) (k : Nat) : (s.send src parts).cell k = s.cell k := by
  simp [State.cell]
@[simp] theorem State.send_at_port (s : State) (src : Source) (parts : List OutPart) (k : Nat) : (s.send src parts).port k = s.port k := by
  simp [State.port]
@[simp] theorem State.send_at_region (s : State) (src : Source) (parts : List OutPart) (k : Nat) : (s.send src parts).region k = s.region k := by
  simp [State.region]
@[simp] theorem State.send_at_pair (s : State) (src : Source) (parts : List OutPart) (k : Nat) : (s.send src parts).pair k = s.pair k := by
  simp [State.pair]

/-- `State.reply` changes nothing but rings, fylos, life, stack. -/
theorem State.reply_frame (s : State) (r : CmdRef) (status : Nat) (tlvs : List Tlv) (f : Fence) :
    ∃ x0 x1 x2 x3, s.reply r status tlvs f = { s with rings := x0, fylos := x1, life := x2, stack := x3 } := by
  obtain ⟨a, b, c, d, h⟩ := State.send_frame s r.source (partsOf (answer .reply r s.stack.number status tlvs f) (s.partLimit r.source))
  exact ⟨a, _, c, d, by unfold State.reply; simp only [h]; rfl⟩

@[simp] theorem State.reply_pending (s : State) (r : CmdRef) (status : Nat) (tlvs : List Tlv) (f : Fence) : (s.reply r status tlvs f).pending = s.pending := by
  obtain ⟨_, _, _, _, h⟩ := State.reply_frame s r status tlvs f
  rw [h]
@[simp] theorem State.reply_draws (s : State) (r : CmdRef) (status : Nat) (tlvs : List Tlv) (f : Fence) : (s.reply r status tlvs f).draws = s.draws := by
  obtain ⟨_, _, _, _, h⟩ := State.reply_frame s r status tlvs f
  rw [h]
@[simp] theorem State.reply_log (s : State) (r : CmdRef) (status : Nat) (tlvs : List Tlv) (f : Fence) : (s.reply r status tlvs f).log = s.log := by
  obtain ⟨_, _, _, _, h⟩ := State.reply_frame s r status tlvs f
  rw [h]
@[simp] theorem State.reply_channels (s : State) (r : CmdRef) (status : Nat) (tlvs : List Tlv) (f : Fence) : (s.reply r status tlvs f).channels = s.channels := by
  obtain ⟨_, _, _, _, h⟩ := State.reply_frame s r status tlvs f
  rw [h]
@[simp] theorem State.reply_openRuns (s : State) (r : CmdRef) (status : Nat) (tlvs : List Tlv) (f : Fence) : (s.reply r status tlvs f).openRuns = s.openRuns := by
  obtain ⟨_, _, _, _, h⟩ := State.reply_frame s r status tlvs f
  rw [h]
@[simp] theorem State.reply_blocks (s : State) (r : CmdRef) (status : Nat) (tlvs : List Tlv) (f : Fence) : (s.reply r status tlvs f).blocks = s.blocks := by
  obtain ⟨_, _, _, _, h⟩ := State.reply_frame s r status tlvs f
  rw [h]
@[simp] theorem State.reply_cells (s : State) (r : CmdRef) (status : Nat) (tlvs : List Tlv) (f : Fence) : (s.reply r status tlvs f).cells = s.cells := by
  obtain ⟨_, _, _, _, h⟩ := State.reply_frame s r status tlvs f
  rw [h]
@[simp] theorem State.reply_ports (s : State) (r : CmdRef) (status : Nat) (tlvs : List Tlv) (f : Fence) : (s.reply r status tlvs f).ports = s.ports := by
  obtain ⟨_, _, _, _, h⟩ := State.reply_frame s r status tlvs f
  rw [h]
@[simp] theorem State.reply_pairs (s : State) (r : CmdRef) (status : Nat) (tlvs : List Tlv) (f : Fence) : (s.reply r status tlvs f).pairs = s.pairs := by
  obtain ⟨_, _, _, _, h⟩ := State.reply_frame s r status tlvs f
  rw [h]
@[simp] theorem State.reply_regions (s : State) (r : CmdRef) (status : Nat) (tlvs : List Tlv) (f : Fence) : (s.reply r status tlvs f).regions = s.regions := by
  obtain ⟨_, _, _, _, h⟩ := State.reply_frame s r status tlvs f
  rw [h]
@[simp] theorem State.reply_flows (s : State) (r : CmdRef) (status : Nat) (tlvs : List Tlv) (f : Fence) : (s.reply r status tlvs f).flows = s.flows := by
  obtain ⟨_, _, _, _, h⟩ := State.reply_frame s r status tlvs f
  rw [h]
@[simp] theorem State.reply_time (s : State) (r : CmdRef) (status : Nat) (tlvs : List Tlv) (f : Fence) : (s.reply r status tlvs f).time = s.time := by
  obtain ⟨_, _, _, _, h⟩ := State.reply_frame s r status tlvs f
  rw [h]
@[simp] theorem State.reply_tdm (s : State) (r : CmdRef) (status : Nat) (tlvs : List Tlv) (f : Fence) : (s.reply r status tlvs f).tdm = s.tdm := by
  obtain ⟨_, _, _, _, h⟩ := State.reply_frame s r status tlvs f
  rw [h]
@[simp] theorem State.reply_store (s : State) (r : CmdRef) (status : Nat) (tlvs : List Tlv) (f : Fence) : (s.reply r status tlvs f).store = s.store := by
  obtain ⟨_, _, _, _, h⟩ := State.reply_frame s r status tlvs f
  rw [h]
@[simp] theorem State.reply_clocks (s : State) (r : CmdRef) (status : Nat) (tlvs : List Tlv) (f : Fence) : (s.reply r status tlvs f).clocks = s.clocks := by
  obtain ⟨_, _, _, _, h⟩ := State.reply_frame s r status tlvs f
  rw [h]
@[simp] theorem State.reply_board (s : State) (r : CmdRef) (status : Nat) (tlvs : List Tlv) (f : Fence) : (s.reply r status tlvs f).board = s.board := by
  obtain ⟨_, _, _, _, h⟩ := State.reply_frame s r status tlvs f
  rw [h]
@[simp] theorem State.reply_at_channel (s : State) (r : CmdRef) (status : Nat) (tlvs : List Tlv) (f : Fence) (k : Nat) : (s.reply r status tlvs f).channel k = s.channel k := by
  simp [State.channel]
@[simp] theorem State.reply_at_block (s : State) (r : CmdRef) (status : Nat) (tlvs : List Tlv) (f : Fence) (k : Nat) : (s.reply r status tlvs f).block k = s.block k := by
  simp [State.block]
@[simp] theorem State.reply_at_cell (s : State) (r : CmdRef) (status : Nat) (tlvs : List Tlv) (f : Fence) (k : Nat) : (s.reply r status tlvs f).cell k = s.cell k := by
  simp [State.cell]
@[simp] theorem State.reply_at_port (s : State) (r : CmdRef) (status : Nat) (tlvs : List Tlv) (f : Fence) (k : Nat) : (s.reply r status tlvs f).port k = s.port k := by
  simp [State.port]
@[simp] theorem State.reply_at_region (s : State) (r : CmdRef) (status : Nat) (tlvs : List Tlv) (f : Fence) (k : Nat) : (s.reply r status tlvs f).region k = s.region k := by
  simp [State.region]
@[simp] theorem State.reply_at_pair (s : State) (r : CmdRef) (status : Nat) (tlvs : List Tlv) (f : Fence) (k : Nat) : (s.reply r status tlvs f).pair k = s.pair k := by
  simp [State.pair]

/-- `State.complete` changes nothing but rings, fylos, life, stack. -/
theorem State.complete_frame (s : State) (r : CmdRef) (status : Nat) (tlvs : List Tlv) :
    ∃ x0 x1 x2 x3, s.complete r status tlvs = { s with rings := x0, fylos := x1, life := x2, stack := x3 } := by
  unfold State.complete
  split
  · obtain ⟨a, b, c, d, h⟩ := State.send_frame { s with fylos := { s.fylos with outstanding := s.fylos.outstanding.erase r } } r.source
      (partsOf (answer .completion r s.stack.number status tlvs .none) (s.partLimit r.source))
    exact ⟨a, _, c, d, by simp only [h]; rfl⟩
  · exact ⟨s.rings, _, s.life, s.stack, rfl⟩

@[simp] theorem State.complete_pending (s : State) (r : CmdRef) (status : Nat) (tlvs : List Tlv) : (s.complete r status tlvs).pending = s.pending := by
  obtain ⟨_, _, _, _, h⟩ := State.complete_frame s r status tlvs
  rw [h]
@[simp] theorem State.complete_draws (s : State) (r : CmdRef) (status : Nat) (tlvs : List Tlv) : (s.complete r status tlvs).draws = s.draws := by
  obtain ⟨_, _, _, _, h⟩ := State.complete_frame s r status tlvs
  rw [h]
@[simp] theorem State.complete_log (s : State) (r : CmdRef) (status : Nat) (tlvs : List Tlv) : (s.complete r status tlvs).log = s.log := by
  obtain ⟨_, _, _, _, h⟩ := State.complete_frame s r status tlvs
  rw [h]
@[simp] theorem State.complete_channels (s : State) (r : CmdRef) (status : Nat) (tlvs : List Tlv) : (s.complete r status tlvs).channels = s.channels := by
  obtain ⟨_, _, _, _, h⟩ := State.complete_frame s r status tlvs
  rw [h]
@[simp] theorem State.complete_openRuns (s : State) (r : CmdRef) (status : Nat) (tlvs : List Tlv) : (s.complete r status tlvs).openRuns = s.openRuns := by
  obtain ⟨_, _, _, _, h⟩ := State.complete_frame s r status tlvs
  rw [h]
@[simp] theorem State.complete_blocks (s : State) (r : CmdRef) (status : Nat) (tlvs : List Tlv) : (s.complete r status tlvs).blocks = s.blocks := by
  obtain ⟨_, _, _, _, h⟩ := State.complete_frame s r status tlvs
  rw [h]
@[simp] theorem State.complete_cells (s : State) (r : CmdRef) (status : Nat) (tlvs : List Tlv) : (s.complete r status tlvs).cells = s.cells := by
  obtain ⟨_, _, _, _, h⟩ := State.complete_frame s r status tlvs
  rw [h]
@[simp] theorem State.complete_ports (s : State) (r : CmdRef) (status : Nat) (tlvs : List Tlv) : (s.complete r status tlvs).ports = s.ports := by
  obtain ⟨_, _, _, _, h⟩ := State.complete_frame s r status tlvs
  rw [h]
@[simp] theorem State.complete_pairs (s : State) (r : CmdRef) (status : Nat) (tlvs : List Tlv) : (s.complete r status tlvs).pairs = s.pairs := by
  obtain ⟨_, _, _, _, h⟩ := State.complete_frame s r status tlvs
  rw [h]
@[simp] theorem State.complete_regions (s : State) (r : CmdRef) (status : Nat) (tlvs : List Tlv) : (s.complete r status tlvs).regions = s.regions := by
  obtain ⟨_, _, _, _, h⟩ := State.complete_frame s r status tlvs
  rw [h]
@[simp] theorem State.complete_flows (s : State) (r : CmdRef) (status : Nat) (tlvs : List Tlv) : (s.complete r status tlvs).flows = s.flows := by
  obtain ⟨_, _, _, _, h⟩ := State.complete_frame s r status tlvs
  rw [h]
@[simp] theorem State.complete_time (s : State) (r : CmdRef) (status : Nat) (tlvs : List Tlv) : (s.complete r status tlvs).time = s.time := by
  obtain ⟨_, _, _, _, h⟩ := State.complete_frame s r status tlvs
  rw [h]
@[simp] theorem State.complete_tdm (s : State) (r : CmdRef) (status : Nat) (tlvs : List Tlv) : (s.complete r status tlvs).tdm = s.tdm := by
  obtain ⟨_, _, _, _, h⟩ := State.complete_frame s r status tlvs
  rw [h]
@[simp] theorem State.complete_store (s : State) (r : CmdRef) (status : Nat) (tlvs : List Tlv) : (s.complete r status tlvs).store = s.store := by
  obtain ⟨_, _, _, _, h⟩ := State.complete_frame s r status tlvs
  rw [h]
@[simp] theorem State.complete_clocks (s : State) (r : CmdRef) (status : Nat) (tlvs : List Tlv) : (s.complete r status tlvs).clocks = s.clocks := by
  obtain ⟨_, _, _, _, h⟩ := State.complete_frame s r status tlvs
  rw [h]
@[simp] theorem State.complete_board (s : State) (r : CmdRef) (status : Nat) (tlvs : List Tlv) : (s.complete r status tlvs).board = s.board := by
  obtain ⟨_, _, _, _, h⟩ := State.complete_frame s r status tlvs
  rw [h]
@[simp] theorem State.complete_at_channel (s : State) (r : CmdRef) (status : Nat) (tlvs : List Tlv) (k : Nat) : (s.complete r status tlvs).channel k = s.channel k := by
  simp [State.channel]
@[simp] theorem State.complete_at_block (s : State) (r : CmdRef) (status : Nat) (tlvs : List Tlv) (k : Nat) : (s.complete r status tlvs).block k = s.block k := by
  simp [State.block]
@[simp] theorem State.complete_at_cell (s : State) (r : CmdRef) (status : Nat) (tlvs : List Tlv) (k : Nat) : (s.complete r status tlvs).cell k = s.cell k := by
  simp [State.cell]
@[simp] theorem State.complete_at_port (s : State) (r : CmdRef) (status : Nat) (tlvs : List Tlv) (k : Nat) : (s.complete r status tlvs).port k = s.port k := by
  simp [State.port]
@[simp] theorem State.complete_at_region (s : State) (r : CmdRef) (status : Nat) (tlvs : List Tlv) (k : Nat) : (s.complete r status tlvs).region k = s.region k := by
  simp [State.region]
@[simp] theorem State.complete_at_pair (s : State) (r : CmdRef) (status : Nat) (tlvs : List Tlv) (k : Nat) : (s.complete r status tlvs).pair k = s.pair k := by
  simp [State.pair]

/-- `State.queueNotice` changes nothing but rings, fylos. -/
theorem State.queueNotice_frame (s : State) (d opcode target : Nat) (tlvs : List Tlv) :
    ∃ x0 x1, s.queueNotice d opcode target tlvs = { s with rings := x0, fylos := x1 } := by
  unfold State.queueNotice
  dsimp only
  split
  · exact ⟨s.rings, _, rfl⟩
  · exact ⟨_, _, rfl⟩
  · exact ⟨s.rings, _, rfl⟩

@[simp] theorem State.queueNotice_pending (s : State) (d opcode target : Nat) (tlvs : List Tlv) : (s.queueNotice d opcode target tlvs).pending = s.pending := by
  obtain ⟨_, _, h⟩ := State.queueNotice_frame s d opcode target tlvs
  rw [h]
@[simp] theorem State.queueNotice_draws (s : State) (d opcode target : Nat) (tlvs : List Tlv) : (s.queueNotice d opcode target tlvs).draws = s.draws := by
  obtain ⟨_, _, h⟩ := State.queueNotice_frame s d opcode target tlvs
  rw [h]
@[simp] theorem State.queueNotice_log (s : State) (d opcode target : Nat) (tlvs : List Tlv) : (s.queueNotice d opcode target tlvs).log = s.log := by
  obtain ⟨_, _, h⟩ := State.queueNotice_frame s d opcode target tlvs
  rw [h]
@[simp] theorem State.queueNotice_channels (s : State) (d opcode target : Nat) (tlvs : List Tlv) : (s.queueNotice d opcode target tlvs).channels = s.channels := by
  obtain ⟨_, _, h⟩ := State.queueNotice_frame s d opcode target tlvs
  rw [h]
@[simp] theorem State.queueNotice_openRuns (s : State) (d opcode target : Nat) (tlvs : List Tlv) : (s.queueNotice d opcode target tlvs).openRuns = s.openRuns := by
  obtain ⟨_, _, h⟩ := State.queueNotice_frame s d opcode target tlvs
  rw [h]
@[simp] theorem State.queueNotice_blocks (s : State) (d opcode target : Nat) (tlvs : List Tlv) : (s.queueNotice d opcode target tlvs).blocks = s.blocks := by
  obtain ⟨_, _, h⟩ := State.queueNotice_frame s d opcode target tlvs
  rw [h]
@[simp] theorem State.queueNotice_cells (s : State) (d opcode target : Nat) (tlvs : List Tlv) : (s.queueNotice d opcode target tlvs).cells = s.cells := by
  obtain ⟨_, _, h⟩ := State.queueNotice_frame s d opcode target tlvs
  rw [h]
@[simp] theorem State.queueNotice_ports (s : State) (d opcode target : Nat) (tlvs : List Tlv) : (s.queueNotice d opcode target tlvs).ports = s.ports := by
  obtain ⟨_, _, h⟩ := State.queueNotice_frame s d opcode target tlvs
  rw [h]
@[simp] theorem State.queueNotice_pairs (s : State) (d opcode target : Nat) (tlvs : List Tlv) : (s.queueNotice d opcode target tlvs).pairs = s.pairs := by
  obtain ⟨_, _, h⟩ := State.queueNotice_frame s d opcode target tlvs
  rw [h]
@[simp] theorem State.queueNotice_regions (s : State) (d opcode target : Nat) (tlvs : List Tlv) : (s.queueNotice d opcode target tlvs).regions = s.regions := by
  obtain ⟨_, _, h⟩ := State.queueNotice_frame s d opcode target tlvs
  rw [h]
@[simp] theorem State.queueNotice_flows (s : State) (d opcode target : Nat) (tlvs : List Tlv) : (s.queueNotice d opcode target tlvs).flows = s.flows := by
  obtain ⟨_, _, h⟩ := State.queueNotice_frame s d opcode target tlvs
  rw [h]
@[simp] theorem State.queueNotice_time (s : State) (d opcode target : Nat) (tlvs : List Tlv) : (s.queueNotice d opcode target tlvs).time = s.time := by
  obtain ⟨_, _, h⟩ := State.queueNotice_frame s d opcode target tlvs
  rw [h]
@[simp] theorem State.queueNotice_tdm (s : State) (d opcode target : Nat) (tlvs : List Tlv) : (s.queueNotice d opcode target tlvs).tdm = s.tdm := by
  obtain ⟨_, _, h⟩ := State.queueNotice_frame s d opcode target tlvs
  rw [h]
@[simp] theorem State.queueNotice_store (s : State) (d opcode target : Nat) (tlvs : List Tlv) : (s.queueNotice d opcode target tlvs).store = s.store := by
  obtain ⟨_, _, h⟩ := State.queueNotice_frame s d opcode target tlvs
  rw [h]
@[simp] theorem State.queueNotice_clocks (s : State) (d opcode target : Nat) (tlvs : List Tlv) : (s.queueNotice d opcode target tlvs).clocks = s.clocks := by
  obtain ⟨_, _, h⟩ := State.queueNotice_frame s d opcode target tlvs
  rw [h]
@[simp] theorem State.queueNotice_life (s : State) (d opcode target : Nat) (tlvs : List Tlv) : (s.queueNotice d opcode target tlvs).life = s.life := by
  obtain ⟨_, _, h⟩ := State.queueNotice_frame s d opcode target tlvs
  rw [h]
@[simp] theorem State.queueNotice_stack (s : State) (d opcode target : Nat) (tlvs : List Tlv) : (s.queueNotice d opcode target tlvs).stack = s.stack := by
  obtain ⟨_, _, h⟩ := State.queueNotice_frame s d opcode target tlvs
  rw [h]
@[simp] theorem State.queueNotice_board (s : State) (d opcode target : Nat) (tlvs : List Tlv) : (s.queueNotice d opcode target tlvs).board = s.board := by
  obtain ⟨_, _, h⟩ := State.queueNotice_frame s d opcode target tlvs
  rw [h]
@[simp] theorem State.queueNotice_at_channel (s : State) (d opcode target : Nat) (tlvs : List Tlv) (k : Nat) : (s.queueNotice d opcode target tlvs).channel k = s.channel k := by
  simp [State.channel]
@[simp] theorem State.queueNotice_at_block (s : State) (d opcode target : Nat) (tlvs : List Tlv) (k : Nat) : (s.queueNotice d opcode target tlvs).block k = s.block k := by
  simp [State.block]
@[simp] theorem State.queueNotice_at_cell (s : State) (d opcode target : Nat) (tlvs : List Tlv) (k : Nat) : (s.queueNotice d opcode target tlvs).cell k = s.cell k := by
  simp [State.cell]
@[simp] theorem State.queueNotice_at_port (s : State) (d opcode target : Nat) (tlvs : List Tlv) (k : Nat) : (s.queueNotice d opcode target tlvs).port k = s.port k := by
  simp [State.port]
@[simp] theorem State.queueNotice_at_region (s : State) (d opcode target : Nat) (tlvs : List Tlv) (k : Nat) : (s.queueNotice d opcode target tlvs).region k = s.region k := by
  simp [State.region]
@[simp] theorem State.queueNotice_at_pair (s : State) (d opcode target : Nat) (tlvs : List Tlv) (k : Nat) : (s.queueNotice d opcode target tlvs).pair k = s.pair k := by
  simp [State.pair]

/-- `State.tellLost` changes nothing but rings, fylos. -/
theorem State.tellLost_frame (s : State) (d : Nat) :
    ∃ x0 x1, s.tellLost d = { s with rings := x0, fylos := x1 } := by
  unfold State.tellLost
  dsimp only
  split
  · obtain ⟨a, b, h⟩ := State.queueNotice_frame (s.setDest d { s.dest d with lostCount := 0, lostFirst := 0, lostLast := 0 }) d 0x0F00
      (targetOf s.stack.number 0 0) (fields [beBytes 4 (s.dest d).lostCount, beBytes 4 (s.dest d).lostFirst, beBytes 4 (s.dest d).lostLast])
    exact ⟨a, b, h⟩
  · exact ⟨s.rings, s.fylos, rfl⟩

@[simp] theorem State.tellLost_pending (s : State) (d : Nat) : (s.tellLost d).pending = s.pending := by
  obtain ⟨_, _, h⟩ := State.tellLost_frame s d
  rw [h]
@[simp] theorem State.tellLost_draws (s : State) (d : Nat) : (s.tellLost d).draws = s.draws := by
  obtain ⟨_, _, h⟩ := State.tellLost_frame s d
  rw [h]
@[simp] theorem State.tellLost_log (s : State) (d : Nat) : (s.tellLost d).log = s.log := by
  obtain ⟨_, _, h⟩ := State.tellLost_frame s d
  rw [h]
@[simp] theorem State.tellLost_channels (s : State) (d : Nat) : (s.tellLost d).channels = s.channels := by
  obtain ⟨_, _, h⟩ := State.tellLost_frame s d
  rw [h]
@[simp] theorem State.tellLost_openRuns (s : State) (d : Nat) : (s.tellLost d).openRuns = s.openRuns := by
  obtain ⟨_, _, h⟩ := State.tellLost_frame s d
  rw [h]
@[simp] theorem State.tellLost_blocks (s : State) (d : Nat) : (s.tellLost d).blocks = s.blocks := by
  obtain ⟨_, _, h⟩ := State.tellLost_frame s d
  rw [h]
@[simp] theorem State.tellLost_cells (s : State) (d : Nat) : (s.tellLost d).cells = s.cells := by
  obtain ⟨_, _, h⟩ := State.tellLost_frame s d
  rw [h]
@[simp] theorem State.tellLost_ports (s : State) (d : Nat) : (s.tellLost d).ports = s.ports := by
  obtain ⟨_, _, h⟩ := State.tellLost_frame s d
  rw [h]
@[simp] theorem State.tellLost_pairs (s : State) (d : Nat) : (s.tellLost d).pairs = s.pairs := by
  obtain ⟨_, _, h⟩ := State.tellLost_frame s d
  rw [h]
@[simp] theorem State.tellLost_regions (s : State) (d : Nat) : (s.tellLost d).regions = s.regions := by
  obtain ⟨_, _, h⟩ := State.tellLost_frame s d
  rw [h]
@[simp] theorem State.tellLost_flows (s : State) (d : Nat) : (s.tellLost d).flows = s.flows := by
  obtain ⟨_, _, h⟩ := State.tellLost_frame s d
  rw [h]
@[simp] theorem State.tellLost_time (s : State) (d : Nat) : (s.tellLost d).time = s.time := by
  obtain ⟨_, _, h⟩ := State.tellLost_frame s d
  rw [h]
@[simp] theorem State.tellLost_tdm (s : State) (d : Nat) : (s.tellLost d).tdm = s.tdm := by
  obtain ⟨_, _, h⟩ := State.tellLost_frame s d
  rw [h]
@[simp] theorem State.tellLost_store (s : State) (d : Nat) : (s.tellLost d).store = s.store := by
  obtain ⟨_, _, h⟩ := State.tellLost_frame s d
  rw [h]
@[simp] theorem State.tellLost_clocks (s : State) (d : Nat) : (s.tellLost d).clocks = s.clocks := by
  obtain ⟨_, _, h⟩ := State.tellLost_frame s d
  rw [h]
@[simp] theorem State.tellLost_life (s : State) (d : Nat) : (s.tellLost d).life = s.life := by
  obtain ⟨_, _, h⟩ := State.tellLost_frame s d
  rw [h]
@[simp] theorem State.tellLost_stack (s : State) (d : Nat) : (s.tellLost d).stack = s.stack := by
  obtain ⟨_, _, h⟩ := State.tellLost_frame s d
  rw [h]
@[simp] theorem State.tellLost_board (s : State) (d : Nat) : (s.tellLost d).board = s.board := by
  obtain ⟨_, _, h⟩ := State.tellLost_frame s d
  rw [h]
@[simp] theorem State.tellLost_at_channel (s : State) (d : Nat) (k : Nat) : (s.tellLost d).channel k = s.channel k := by
  simp [State.channel]
@[simp] theorem State.tellLost_at_block (s : State) (d : Nat) (k : Nat) : (s.tellLost d).block k = s.block k := by
  simp [State.block]
@[simp] theorem State.tellLost_at_cell (s : State) (d : Nat) (k : Nat) : (s.tellLost d).cell k = s.cell k := by
  simp [State.cell]
@[simp] theorem State.tellLost_at_port (s : State) (d : Nat) (k : Nat) : (s.tellLost d).port k = s.port k := by
  simp [State.port]
@[simp] theorem State.tellLost_at_region (s : State) (d : Nat) (k : Nat) : (s.tellLost d).region k = s.region k := by
  simp [State.region]
@[simp] theorem State.tellLost_at_pair (s : State) (d : Nat) (k : Nat) : (s.tellLost d).pair k = s.pair k := by
  simp [State.pair]

/-- `State.loseNotice` changes nothing but rings, fylos. -/
theorem State.loseNotice_frame (s : State) (d : Nat) :
    ∃ x0 x1, s.loseNotice d = { s with rings := x0, fylos := x1 } := ⟨s.rings, _, rfl⟩

@[simp] theorem State.loseNotice_pending (s : State) (d : Nat) : (s.loseNotice d).pending = s.pending := by
  obtain ⟨_, _, h⟩ := State.loseNotice_frame s d
  rw [h]
@[simp] theorem State.loseNotice_draws (s : State) (d : Nat) : (s.loseNotice d).draws = s.draws := by
  obtain ⟨_, _, h⟩ := State.loseNotice_frame s d
  rw [h]
@[simp] theorem State.loseNotice_log (s : State) (d : Nat) : (s.loseNotice d).log = s.log := by
  obtain ⟨_, _, h⟩ := State.loseNotice_frame s d
  rw [h]
@[simp] theorem State.loseNotice_channels (s : State) (d : Nat) : (s.loseNotice d).channels = s.channels := by
  obtain ⟨_, _, h⟩ := State.loseNotice_frame s d
  rw [h]
@[simp] theorem State.loseNotice_openRuns (s : State) (d : Nat) : (s.loseNotice d).openRuns = s.openRuns := by
  obtain ⟨_, _, h⟩ := State.loseNotice_frame s d
  rw [h]
@[simp] theorem State.loseNotice_blocks (s : State) (d : Nat) : (s.loseNotice d).blocks = s.blocks := by
  obtain ⟨_, _, h⟩ := State.loseNotice_frame s d
  rw [h]
@[simp] theorem State.loseNotice_cells (s : State) (d : Nat) : (s.loseNotice d).cells = s.cells := by
  obtain ⟨_, _, h⟩ := State.loseNotice_frame s d
  rw [h]
@[simp] theorem State.loseNotice_ports (s : State) (d : Nat) : (s.loseNotice d).ports = s.ports := by
  obtain ⟨_, _, h⟩ := State.loseNotice_frame s d
  rw [h]
@[simp] theorem State.loseNotice_pairs (s : State) (d : Nat) : (s.loseNotice d).pairs = s.pairs := by
  obtain ⟨_, _, h⟩ := State.loseNotice_frame s d
  rw [h]
@[simp] theorem State.loseNotice_regions (s : State) (d : Nat) : (s.loseNotice d).regions = s.regions := by
  obtain ⟨_, _, h⟩ := State.loseNotice_frame s d
  rw [h]
@[simp] theorem State.loseNotice_flows (s : State) (d : Nat) : (s.loseNotice d).flows = s.flows := by
  obtain ⟨_, _, h⟩ := State.loseNotice_frame s d
  rw [h]
@[simp] theorem State.loseNotice_time (s : State) (d : Nat) : (s.loseNotice d).time = s.time := by
  obtain ⟨_, _, h⟩ := State.loseNotice_frame s d
  rw [h]
@[simp] theorem State.loseNotice_tdm (s : State) (d : Nat) : (s.loseNotice d).tdm = s.tdm := by
  obtain ⟨_, _, h⟩ := State.loseNotice_frame s d
  rw [h]
@[simp] theorem State.loseNotice_store (s : State) (d : Nat) : (s.loseNotice d).store = s.store := by
  obtain ⟨_, _, h⟩ := State.loseNotice_frame s d
  rw [h]
@[simp] theorem State.loseNotice_clocks (s : State) (d : Nat) : (s.loseNotice d).clocks = s.clocks := by
  obtain ⟨_, _, h⟩ := State.loseNotice_frame s d
  rw [h]
@[simp] theorem State.loseNotice_life (s : State) (d : Nat) : (s.loseNotice d).life = s.life := by
  obtain ⟨_, _, h⟩ := State.loseNotice_frame s d
  rw [h]
@[simp] theorem State.loseNotice_stack (s : State) (d : Nat) : (s.loseNotice d).stack = s.stack := by
  obtain ⟨_, _, h⟩ := State.loseNotice_frame s d
  rw [h]
@[simp] theorem State.loseNotice_board (s : State) (d : Nat) : (s.loseNotice d).board = s.board := by
  obtain ⟨_, _, h⟩ := State.loseNotice_frame s d
  rw [h]
@[simp] theorem State.loseNotice_at_channel (s : State) (d : Nat) (k : Nat) : (s.loseNotice d).channel k = s.channel k := by
  simp [State.channel]
@[simp] theorem State.loseNotice_at_block (s : State) (d : Nat) (k : Nat) : (s.loseNotice d).block k = s.block k := by
  simp [State.block]
@[simp] theorem State.loseNotice_at_cell (s : State) (d : Nat) (k : Nat) : (s.loseNotice d).cell k = s.cell k := by
  simp [State.cell]
@[simp] theorem State.loseNotice_at_port (s : State) (d : Nat) (k : Nat) : (s.loseNotice d).port k = s.port k := by
  simp [State.port]
@[simp] theorem State.loseNotice_at_region (s : State) (d : Nat) (k : Nat) : (s.loseNotice d).region k = s.region k := by
  simp [State.region]
@[simp] theorem State.loseNotice_at_pair (s : State) (d : Nat) (k : Nat) : (s.loseNotice d).pair k = s.pair k := by
  simp [State.pair]

/-- `State.noticeAt` changes nothing but rings, fylos. -/
theorem State.noticeAt_frame (s : State) (g : Group) (v4 : Bool) (opcode target : Nat) (tlvs : List Tlv) (d : Nat) :
    ∃ x0 x1, s.noticeAt g v4 opcode target tlvs d = { s with rings := x0, fylos := x1 } := by
  unfold State.noticeAt
  dsimp only
  obtain ⟨a, b, h⟩ := State.tellLost_frame s d
  split
  · exact ⟨s.rings, s.fylos, rfl⟩
  · split
    · exact ⟨s.rings, _, rfl⟩
    · split
      · obtain ⟨p, q, h2⟩ := State.queueNotice_frame (s.tellLost d) d opcode target tlvs
        exact ⟨p, q, by rw [h2, h]⟩
      · obtain ⟨p, q, h2⟩ := State.loseNotice_frame (s.tellLost d) d
        exact ⟨p, q, by rw [h2, h]⟩

@[simp] theorem State.noticeAt_pending (s : State) (g : Group) (v4 : Bool) (opcode target : Nat) (tlvs : List Tlv) (d : Nat) : (s.noticeAt g v4 opcode target tlvs d).pending = s.pending := by
  obtain ⟨_, _, h⟩ := State.noticeAt_frame s g v4 opcode target tlvs d
  rw [h]
@[simp] theorem State.noticeAt_draws (s : State) (g : Group) (v4 : Bool) (opcode target : Nat) (tlvs : List Tlv) (d : Nat) : (s.noticeAt g v4 opcode target tlvs d).draws = s.draws := by
  obtain ⟨_, _, h⟩ := State.noticeAt_frame s g v4 opcode target tlvs d
  rw [h]
@[simp] theorem State.noticeAt_log (s : State) (g : Group) (v4 : Bool) (opcode target : Nat) (tlvs : List Tlv) (d : Nat) : (s.noticeAt g v4 opcode target tlvs d).log = s.log := by
  obtain ⟨_, _, h⟩ := State.noticeAt_frame s g v4 opcode target tlvs d
  rw [h]
@[simp] theorem State.noticeAt_channels (s : State) (g : Group) (v4 : Bool) (opcode target : Nat) (tlvs : List Tlv) (d : Nat) : (s.noticeAt g v4 opcode target tlvs d).channels = s.channels := by
  obtain ⟨_, _, h⟩ := State.noticeAt_frame s g v4 opcode target tlvs d
  rw [h]
@[simp] theorem State.noticeAt_openRuns (s : State) (g : Group) (v4 : Bool) (opcode target : Nat) (tlvs : List Tlv) (d : Nat) : (s.noticeAt g v4 opcode target tlvs d).openRuns = s.openRuns := by
  obtain ⟨_, _, h⟩ := State.noticeAt_frame s g v4 opcode target tlvs d
  rw [h]
@[simp] theorem State.noticeAt_blocks (s : State) (g : Group) (v4 : Bool) (opcode target : Nat) (tlvs : List Tlv) (d : Nat) : (s.noticeAt g v4 opcode target tlvs d).blocks = s.blocks := by
  obtain ⟨_, _, h⟩ := State.noticeAt_frame s g v4 opcode target tlvs d
  rw [h]
@[simp] theorem State.noticeAt_cells (s : State) (g : Group) (v4 : Bool) (opcode target : Nat) (tlvs : List Tlv) (d : Nat) : (s.noticeAt g v4 opcode target tlvs d).cells = s.cells := by
  obtain ⟨_, _, h⟩ := State.noticeAt_frame s g v4 opcode target tlvs d
  rw [h]
@[simp] theorem State.noticeAt_ports (s : State) (g : Group) (v4 : Bool) (opcode target : Nat) (tlvs : List Tlv) (d : Nat) : (s.noticeAt g v4 opcode target tlvs d).ports = s.ports := by
  obtain ⟨_, _, h⟩ := State.noticeAt_frame s g v4 opcode target tlvs d
  rw [h]
@[simp] theorem State.noticeAt_pairs (s : State) (g : Group) (v4 : Bool) (opcode target : Nat) (tlvs : List Tlv) (d : Nat) : (s.noticeAt g v4 opcode target tlvs d).pairs = s.pairs := by
  obtain ⟨_, _, h⟩ := State.noticeAt_frame s g v4 opcode target tlvs d
  rw [h]
@[simp] theorem State.noticeAt_regions (s : State) (g : Group) (v4 : Bool) (opcode target : Nat) (tlvs : List Tlv) (d : Nat) : (s.noticeAt g v4 opcode target tlvs d).regions = s.regions := by
  obtain ⟨_, _, h⟩ := State.noticeAt_frame s g v4 opcode target tlvs d
  rw [h]
@[simp] theorem State.noticeAt_flows (s : State) (g : Group) (v4 : Bool) (opcode target : Nat) (tlvs : List Tlv) (d : Nat) : (s.noticeAt g v4 opcode target tlvs d).flows = s.flows := by
  obtain ⟨_, _, h⟩ := State.noticeAt_frame s g v4 opcode target tlvs d
  rw [h]
@[simp] theorem State.noticeAt_time (s : State) (g : Group) (v4 : Bool) (opcode target : Nat) (tlvs : List Tlv) (d : Nat) : (s.noticeAt g v4 opcode target tlvs d).time = s.time := by
  obtain ⟨_, _, h⟩ := State.noticeAt_frame s g v4 opcode target tlvs d
  rw [h]
@[simp] theorem State.noticeAt_tdm (s : State) (g : Group) (v4 : Bool) (opcode target : Nat) (tlvs : List Tlv) (d : Nat) : (s.noticeAt g v4 opcode target tlvs d).tdm = s.tdm := by
  obtain ⟨_, _, h⟩ := State.noticeAt_frame s g v4 opcode target tlvs d
  rw [h]
@[simp] theorem State.noticeAt_store (s : State) (g : Group) (v4 : Bool) (opcode target : Nat) (tlvs : List Tlv) (d : Nat) : (s.noticeAt g v4 opcode target tlvs d).store = s.store := by
  obtain ⟨_, _, h⟩ := State.noticeAt_frame s g v4 opcode target tlvs d
  rw [h]
@[simp] theorem State.noticeAt_clocks (s : State) (g : Group) (v4 : Bool) (opcode target : Nat) (tlvs : List Tlv) (d : Nat) : (s.noticeAt g v4 opcode target tlvs d).clocks = s.clocks := by
  obtain ⟨_, _, h⟩ := State.noticeAt_frame s g v4 opcode target tlvs d
  rw [h]
@[simp] theorem State.noticeAt_life (s : State) (g : Group) (v4 : Bool) (opcode target : Nat) (tlvs : List Tlv) (d : Nat) : (s.noticeAt g v4 opcode target tlvs d).life = s.life := by
  obtain ⟨_, _, h⟩ := State.noticeAt_frame s g v4 opcode target tlvs d
  rw [h]
@[simp] theorem State.noticeAt_stack (s : State) (g : Group) (v4 : Bool) (opcode target : Nat) (tlvs : List Tlv) (d : Nat) : (s.noticeAt g v4 opcode target tlvs d).stack = s.stack := by
  obtain ⟨_, _, h⟩ := State.noticeAt_frame s g v4 opcode target tlvs d
  rw [h]
@[simp] theorem State.noticeAt_board (s : State) (g : Group) (v4 : Bool) (opcode target : Nat) (tlvs : List Tlv) (d : Nat) : (s.noticeAt g v4 opcode target tlvs d).board = s.board := by
  obtain ⟨_, _, h⟩ := State.noticeAt_frame s g v4 opcode target tlvs d
  rw [h]
@[simp] theorem State.noticeAt_at_channel (s : State) (g : Group) (v4 : Bool) (opcode target : Nat) (tlvs : List Tlv) (d : Nat) (k : Nat) : (s.noticeAt g v4 opcode target tlvs d).channel k = s.channel k := by
  simp [State.channel]
@[simp] theorem State.noticeAt_at_block (s : State) (g : Group) (v4 : Bool) (opcode target : Nat) (tlvs : List Tlv) (d : Nat) (k : Nat) : (s.noticeAt g v4 opcode target tlvs d).block k = s.block k := by
  simp [State.block]
@[simp] theorem State.noticeAt_at_cell (s : State) (g : Group) (v4 : Bool) (opcode target : Nat) (tlvs : List Tlv) (d : Nat) (k : Nat) : (s.noticeAt g v4 opcode target tlvs d).cell k = s.cell k := by
  simp [State.cell]
@[simp] theorem State.noticeAt_at_port (s : State) (g : Group) (v4 : Bool) (opcode target : Nat) (tlvs : List Tlv) (d : Nat) (k : Nat) : (s.noticeAt g v4 opcode target tlvs d).port k = s.port k := by
  simp [State.port]
@[simp] theorem State.noticeAt_at_region (s : State) (g : Group) (v4 : Bool) (opcode target : Nat) (tlvs : List Tlv) (d : Nat) (k : Nat) : (s.noticeAt g v4 opcode target tlvs d).region k = s.region k := by
  simp [State.region]
@[simp] theorem State.noticeAt_at_pair (s : State) (g : Group) (v4 : Bool) (opcode target : Nat) (tlvs : List Tlv) (d : Nat) (k : Nat) : (s.noticeAt g v4 opcode target tlvs d).pair k = s.pair k := by
  simp [State.pair]

/-- `State.notice` changes nothing but rings, fylos. -/
theorem State.notice_frame (s : State) (g : Group) (v4 : Bool) (opcode target : Nat) (tlvs : List Tlv) :
    ∃ x0 x1, s.notice g v4 opcode target tlvs = { s with rings := x0, fylos := x1 } := fold_frame (fun s t => ∃ r f, t = { s with rings := r, fylos := f }) (fun s => ⟨s.rings, s.fylos, rfl⟩)
    (fun _ _ _ h1 h2 => by obtain ⟨_, _, rfl⟩ := h1; obtain ⟨_, _, rfl⟩ := h2; exact ⟨_, _, rfl⟩) _
    (fun s d => State.noticeAt_frame s g v4 opcode target tlvs d) _ s

@[simp] theorem State.notice_pending (s : State) (g : Group) (v4 : Bool) (opcode target : Nat) (tlvs : List Tlv) : (s.notice g v4 opcode target tlvs).pending = s.pending := by
  obtain ⟨_, _, h⟩ := State.notice_frame s g v4 opcode target tlvs
  rw [h]
@[simp] theorem State.notice_draws (s : State) (g : Group) (v4 : Bool) (opcode target : Nat) (tlvs : List Tlv) : (s.notice g v4 opcode target tlvs).draws = s.draws := by
  obtain ⟨_, _, h⟩ := State.notice_frame s g v4 opcode target tlvs
  rw [h]
@[simp] theorem State.notice_log (s : State) (g : Group) (v4 : Bool) (opcode target : Nat) (tlvs : List Tlv) : (s.notice g v4 opcode target tlvs).log = s.log := by
  obtain ⟨_, _, h⟩ := State.notice_frame s g v4 opcode target tlvs
  rw [h]
@[simp] theorem State.notice_channels (s : State) (g : Group) (v4 : Bool) (opcode target : Nat) (tlvs : List Tlv) : (s.notice g v4 opcode target tlvs).channels = s.channels := by
  obtain ⟨_, _, h⟩ := State.notice_frame s g v4 opcode target tlvs
  rw [h]
@[simp] theorem State.notice_openRuns (s : State) (g : Group) (v4 : Bool) (opcode target : Nat) (tlvs : List Tlv) : (s.notice g v4 opcode target tlvs).openRuns = s.openRuns := by
  obtain ⟨_, _, h⟩ := State.notice_frame s g v4 opcode target tlvs
  rw [h]
@[simp] theorem State.notice_blocks (s : State) (g : Group) (v4 : Bool) (opcode target : Nat) (tlvs : List Tlv) : (s.notice g v4 opcode target tlvs).blocks = s.blocks := by
  obtain ⟨_, _, h⟩ := State.notice_frame s g v4 opcode target tlvs
  rw [h]
@[simp] theorem State.notice_cells (s : State) (g : Group) (v4 : Bool) (opcode target : Nat) (tlvs : List Tlv) : (s.notice g v4 opcode target tlvs).cells = s.cells := by
  obtain ⟨_, _, h⟩ := State.notice_frame s g v4 opcode target tlvs
  rw [h]
@[simp] theorem State.notice_ports (s : State) (g : Group) (v4 : Bool) (opcode target : Nat) (tlvs : List Tlv) : (s.notice g v4 opcode target tlvs).ports = s.ports := by
  obtain ⟨_, _, h⟩ := State.notice_frame s g v4 opcode target tlvs
  rw [h]
@[simp] theorem State.notice_pairs (s : State) (g : Group) (v4 : Bool) (opcode target : Nat) (tlvs : List Tlv) : (s.notice g v4 opcode target tlvs).pairs = s.pairs := by
  obtain ⟨_, _, h⟩ := State.notice_frame s g v4 opcode target tlvs
  rw [h]
@[simp] theorem State.notice_regions (s : State) (g : Group) (v4 : Bool) (opcode target : Nat) (tlvs : List Tlv) : (s.notice g v4 opcode target tlvs).regions = s.regions := by
  obtain ⟨_, _, h⟩ := State.notice_frame s g v4 opcode target tlvs
  rw [h]
@[simp] theorem State.notice_flows (s : State) (g : Group) (v4 : Bool) (opcode target : Nat) (tlvs : List Tlv) : (s.notice g v4 opcode target tlvs).flows = s.flows := by
  obtain ⟨_, _, h⟩ := State.notice_frame s g v4 opcode target tlvs
  rw [h]
@[simp] theorem State.notice_time (s : State) (g : Group) (v4 : Bool) (opcode target : Nat) (tlvs : List Tlv) : (s.notice g v4 opcode target tlvs).time = s.time := by
  obtain ⟨_, _, h⟩ := State.notice_frame s g v4 opcode target tlvs
  rw [h]
@[simp] theorem State.notice_tdm (s : State) (g : Group) (v4 : Bool) (opcode target : Nat) (tlvs : List Tlv) : (s.notice g v4 opcode target tlvs).tdm = s.tdm := by
  obtain ⟨_, _, h⟩ := State.notice_frame s g v4 opcode target tlvs
  rw [h]
@[simp] theorem State.notice_store (s : State) (g : Group) (v4 : Bool) (opcode target : Nat) (tlvs : List Tlv) : (s.notice g v4 opcode target tlvs).store = s.store := by
  obtain ⟨_, _, h⟩ := State.notice_frame s g v4 opcode target tlvs
  rw [h]
@[simp] theorem State.notice_clocks (s : State) (g : Group) (v4 : Bool) (opcode target : Nat) (tlvs : List Tlv) : (s.notice g v4 opcode target tlvs).clocks = s.clocks := by
  obtain ⟨_, _, h⟩ := State.notice_frame s g v4 opcode target tlvs
  rw [h]
@[simp] theorem State.notice_life (s : State) (g : Group) (v4 : Bool) (opcode target : Nat) (tlvs : List Tlv) : (s.notice g v4 opcode target tlvs).life = s.life := by
  obtain ⟨_, _, h⟩ := State.notice_frame s g v4 opcode target tlvs
  rw [h]
@[simp] theorem State.notice_stack (s : State) (g : Group) (v4 : Bool) (opcode target : Nat) (tlvs : List Tlv) : (s.notice g v4 opcode target tlvs).stack = s.stack := by
  obtain ⟨_, _, h⟩ := State.notice_frame s g v4 opcode target tlvs
  rw [h]
@[simp] theorem State.notice_board (s : State) (g : Group) (v4 : Bool) (opcode target : Nat) (tlvs : List Tlv) : (s.notice g v4 opcode target tlvs).board = s.board := by
  obtain ⟨_, _, h⟩ := State.notice_frame s g v4 opcode target tlvs
  rw [h]
@[simp] theorem State.notice_at_channel (s : State) (g : Group) (v4 : Bool) (opcode target : Nat) (tlvs : List Tlv) (k : Nat) : (s.notice g v4 opcode target tlvs).channel k = s.channel k := by
  simp [State.channel]
@[simp] theorem State.notice_at_block (s : State) (g : Group) (v4 : Bool) (opcode target : Nat) (tlvs : List Tlv) (k : Nat) : (s.notice g v4 opcode target tlvs).block k = s.block k := by
  simp [State.block]
@[simp] theorem State.notice_at_cell (s : State) (g : Group) (v4 : Bool) (opcode target : Nat) (tlvs : List Tlv) (k : Nat) : (s.notice g v4 opcode target tlvs).cell k = s.cell k := by
  simp [State.cell]
@[simp] theorem State.notice_at_port (s : State) (g : Group) (v4 : Bool) (opcode target : Nat) (tlvs : List Tlv) (k : Nat) : (s.notice g v4 opcode target tlvs).port k = s.port k := by
  simp [State.port]
@[simp] theorem State.notice_at_region (s : State) (g : Group) (v4 : Bool) (opcode target : Nat) (tlvs : List Tlv) (k : Nat) : (s.notice g v4 opcode target tlvs).region k = s.region k := by
  simp [State.region]
@[simp] theorem State.notice_at_pair (s : State) (g : Group) (v4 : Bool) (opcode target : Nat) (tlvs : List Tlv) (k : Nat) : (s.notice g v4 opcode target tlvs).pair k = s.pair k := by
  simp [State.pair]

/-- `State.notify` changes nothing but rings, fylos. -/
theorem State.notify_frame (s : State) (g : Group) (opcode scope id : Nat) (l : List (List Byte)) :
    ∃ x0 x1, s.notify g opcode scope id l = { s with rings := x0, fylos := x1 } := State.notice_frame _ _ _ _ _ _

@[simp] theorem State.notify_pending (s : State) (g : Group) (opcode scope id : Nat) (l : List (List Byte)) : (s.notify g opcode scope id l).pending = s.pending := by
  obtain ⟨_, _, h⟩ := State.notify_frame s g opcode scope id l
  rw [h]
@[simp] theorem State.notify_draws (s : State) (g : Group) (opcode scope id : Nat) (l : List (List Byte)) : (s.notify g opcode scope id l).draws = s.draws := by
  obtain ⟨_, _, h⟩ := State.notify_frame s g opcode scope id l
  rw [h]
@[simp] theorem State.notify_log (s : State) (g : Group) (opcode scope id : Nat) (l : List (List Byte)) : (s.notify g opcode scope id l).log = s.log := by
  obtain ⟨_, _, h⟩ := State.notify_frame s g opcode scope id l
  rw [h]
@[simp] theorem State.notify_channels (s : State) (g : Group) (opcode scope id : Nat) (l : List (List Byte)) : (s.notify g opcode scope id l).channels = s.channels := by
  obtain ⟨_, _, h⟩ := State.notify_frame s g opcode scope id l
  rw [h]
@[simp] theorem State.notify_openRuns (s : State) (g : Group) (opcode scope id : Nat) (l : List (List Byte)) : (s.notify g opcode scope id l).openRuns = s.openRuns := by
  obtain ⟨_, _, h⟩ := State.notify_frame s g opcode scope id l
  rw [h]
@[simp] theorem State.notify_blocks (s : State) (g : Group) (opcode scope id : Nat) (l : List (List Byte)) : (s.notify g opcode scope id l).blocks = s.blocks := by
  obtain ⟨_, _, h⟩ := State.notify_frame s g opcode scope id l
  rw [h]
@[simp] theorem State.notify_cells (s : State) (g : Group) (opcode scope id : Nat) (l : List (List Byte)) : (s.notify g opcode scope id l).cells = s.cells := by
  obtain ⟨_, _, h⟩ := State.notify_frame s g opcode scope id l
  rw [h]
@[simp] theorem State.notify_ports (s : State) (g : Group) (opcode scope id : Nat) (l : List (List Byte)) : (s.notify g opcode scope id l).ports = s.ports := by
  obtain ⟨_, _, h⟩ := State.notify_frame s g opcode scope id l
  rw [h]
@[simp] theorem State.notify_pairs (s : State) (g : Group) (opcode scope id : Nat) (l : List (List Byte)) : (s.notify g opcode scope id l).pairs = s.pairs := by
  obtain ⟨_, _, h⟩ := State.notify_frame s g opcode scope id l
  rw [h]
@[simp] theorem State.notify_regions (s : State) (g : Group) (opcode scope id : Nat) (l : List (List Byte)) : (s.notify g opcode scope id l).regions = s.regions := by
  obtain ⟨_, _, h⟩ := State.notify_frame s g opcode scope id l
  rw [h]
@[simp] theorem State.notify_flows (s : State) (g : Group) (opcode scope id : Nat) (l : List (List Byte)) : (s.notify g opcode scope id l).flows = s.flows := by
  obtain ⟨_, _, h⟩ := State.notify_frame s g opcode scope id l
  rw [h]
@[simp] theorem State.notify_time (s : State) (g : Group) (opcode scope id : Nat) (l : List (List Byte)) : (s.notify g opcode scope id l).time = s.time := by
  obtain ⟨_, _, h⟩ := State.notify_frame s g opcode scope id l
  rw [h]
@[simp] theorem State.notify_tdm (s : State) (g : Group) (opcode scope id : Nat) (l : List (List Byte)) : (s.notify g opcode scope id l).tdm = s.tdm := by
  obtain ⟨_, _, h⟩ := State.notify_frame s g opcode scope id l
  rw [h]
@[simp] theorem State.notify_store (s : State) (g : Group) (opcode scope id : Nat) (l : List (List Byte)) : (s.notify g opcode scope id l).store = s.store := by
  obtain ⟨_, _, h⟩ := State.notify_frame s g opcode scope id l
  rw [h]
@[simp] theorem State.notify_clocks (s : State) (g : Group) (opcode scope id : Nat) (l : List (List Byte)) : (s.notify g opcode scope id l).clocks = s.clocks := by
  obtain ⟨_, _, h⟩ := State.notify_frame s g opcode scope id l
  rw [h]
@[simp] theorem State.notify_life (s : State) (g : Group) (opcode scope id : Nat) (l : List (List Byte)) : (s.notify g opcode scope id l).life = s.life := by
  obtain ⟨_, _, h⟩ := State.notify_frame s g opcode scope id l
  rw [h]
@[simp] theorem State.notify_stack (s : State) (g : Group) (opcode scope id : Nat) (l : List (List Byte)) : (s.notify g opcode scope id l).stack = s.stack := by
  obtain ⟨_, _, h⟩ := State.notify_frame s g opcode scope id l
  rw [h]
@[simp] theorem State.notify_board (s : State) (g : Group) (opcode scope id : Nat) (l : List (List Byte)) : (s.notify g opcode scope id l).board = s.board := by
  obtain ⟨_, _, h⟩ := State.notify_frame s g opcode scope id l
  rw [h]
@[simp] theorem State.notify_at_channel (s : State) (g : Group) (opcode scope id : Nat) (l : List (List Byte)) (k : Nat) : (s.notify g opcode scope id l).channel k = s.channel k := by
  simp [State.channel]
@[simp] theorem State.notify_at_block (s : State) (g : Group) (opcode scope id : Nat) (l : List (List Byte)) (k : Nat) : (s.notify g opcode scope id l).block k = s.block k := by
  simp [State.block]
@[simp] theorem State.notify_at_cell (s : State) (g : Group) (opcode scope id : Nat) (l : List (List Byte)) (k : Nat) : (s.notify g opcode scope id l).cell k = s.cell k := by
  simp [State.cell]
@[simp] theorem State.notify_at_port (s : State) (g : Group) (opcode scope id : Nat) (l : List (List Byte)) (k : Nat) : (s.notify g opcode scope id l).port k = s.port k := by
  simp [State.port]
@[simp] theorem State.notify_at_region (s : State) (g : Group) (opcode scope id : Nat) (l : List (List Byte)) (k : Nat) : (s.notify g opcode scope id l).region k = s.region k := by
  simp [State.region]
@[simp] theorem State.notify_at_pair (s : State) (g : Group) (opcode scope id : Nat) (l : List (List Byte)) (k : Nat) : (s.notify g opcode scope id l).pair k = s.pair k := by
  simp [State.pair]

/-- `State.notify4` changes nothing but rings, fylos. -/
theorem State.notify4_frame (s : State) (g : Group) (opcode scope id : Nat) (l : List (List Byte)) :
    ∃ x0 x1, s.notify4 g opcode scope id l = { s with rings := x0, fylos := x1 } := State.notice_frame _ _ _ _ _ _

@[simp] theorem State.notify4_pending (s : State) (g : Group) (opcode scope id : Nat) (l : List (List Byte)) : (s.notify4 g opcode scope id l).pending = s.pending := by
  obtain ⟨_, _, h⟩ := State.notify4_frame s g opcode scope id l
  rw [h]
@[simp] theorem State.notify4_draws (s : State) (g : Group) (opcode scope id : Nat) (l : List (List Byte)) : (s.notify4 g opcode scope id l).draws = s.draws := by
  obtain ⟨_, _, h⟩ := State.notify4_frame s g opcode scope id l
  rw [h]
@[simp] theorem State.notify4_log (s : State) (g : Group) (opcode scope id : Nat) (l : List (List Byte)) : (s.notify4 g opcode scope id l).log = s.log := by
  obtain ⟨_, _, h⟩ := State.notify4_frame s g opcode scope id l
  rw [h]
@[simp] theorem State.notify4_channels (s : State) (g : Group) (opcode scope id : Nat) (l : List (List Byte)) : (s.notify4 g opcode scope id l).channels = s.channels := by
  obtain ⟨_, _, h⟩ := State.notify4_frame s g opcode scope id l
  rw [h]
@[simp] theorem State.notify4_openRuns (s : State) (g : Group) (opcode scope id : Nat) (l : List (List Byte)) : (s.notify4 g opcode scope id l).openRuns = s.openRuns := by
  obtain ⟨_, _, h⟩ := State.notify4_frame s g opcode scope id l
  rw [h]
@[simp] theorem State.notify4_blocks (s : State) (g : Group) (opcode scope id : Nat) (l : List (List Byte)) : (s.notify4 g opcode scope id l).blocks = s.blocks := by
  obtain ⟨_, _, h⟩ := State.notify4_frame s g opcode scope id l
  rw [h]
@[simp] theorem State.notify4_cells (s : State) (g : Group) (opcode scope id : Nat) (l : List (List Byte)) : (s.notify4 g opcode scope id l).cells = s.cells := by
  obtain ⟨_, _, h⟩ := State.notify4_frame s g opcode scope id l
  rw [h]
@[simp] theorem State.notify4_ports (s : State) (g : Group) (opcode scope id : Nat) (l : List (List Byte)) : (s.notify4 g opcode scope id l).ports = s.ports := by
  obtain ⟨_, _, h⟩ := State.notify4_frame s g opcode scope id l
  rw [h]
@[simp] theorem State.notify4_pairs (s : State) (g : Group) (opcode scope id : Nat) (l : List (List Byte)) : (s.notify4 g opcode scope id l).pairs = s.pairs := by
  obtain ⟨_, _, h⟩ := State.notify4_frame s g opcode scope id l
  rw [h]
@[simp] theorem State.notify4_regions (s : State) (g : Group) (opcode scope id : Nat) (l : List (List Byte)) : (s.notify4 g opcode scope id l).regions = s.regions := by
  obtain ⟨_, _, h⟩ := State.notify4_frame s g opcode scope id l
  rw [h]
@[simp] theorem State.notify4_flows (s : State) (g : Group) (opcode scope id : Nat) (l : List (List Byte)) : (s.notify4 g opcode scope id l).flows = s.flows := by
  obtain ⟨_, _, h⟩ := State.notify4_frame s g opcode scope id l
  rw [h]
@[simp] theorem State.notify4_time (s : State) (g : Group) (opcode scope id : Nat) (l : List (List Byte)) : (s.notify4 g opcode scope id l).time = s.time := by
  obtain ⟨_, _, h⟩ := State.notify4_frame s g opcode scope id l
  rw [h]
@[simp] theorem State.notify4_tdm (s : State) (g : Group) (opcode scope id : Nat) (l : List (List Byte)) : (s.notify4 g opcode scope id l).tdm = s.tdm := by
  obtain ⟨_, _, h⟩ := State.notify4_frame s g opcode scope id l
  rw [h]
@[simp] theorem State.notify4_store (s : State) (g : Group) (opcode scope id : Nat) (l : List (List Byte)) : (s.notify4 g opcode scope id l).store = s.store := by
  obtain ⟨_, _, h⟩ := State.notify4_frame s g opcode scope id l
  rw [h]
@[simp] theorem State.notify4_clocks (s : State) (g : Group) (opcode scope id : Nat) (l : List (List Byte)) : (s.notify4 g opcode scope id l).clocks = s.clocks := by
  obtain ⟨_, _, h⟩ := State.notify4_frame s g opcode scope id l
  rw [h]
@[simp] theorem State.notify4_life (s : State) (g : Group) (opcode scope id : Nat) (l : List (List Byte)) : (s.notify4 g opcode scope id l).life = s.life := by
  obtain ⟨_, _, h⟩ := State.notify4_frame s g opcode scope id l
  rw [h]
@[simp] theorem State.notify4_stack (s : State) (g : Group) (opcode scope id : Nat) (l : List (List Byte)) : (s.notify4 g opcode scope id l).stack = s.stack := by
  obtain ⟨_, _, h⟩ := State.notify4_frame s g opcode scope id l
  rw [h]
@[simp] theorem State.notify4_board (s : State) (g : Group) (opcode scope id : Nat) (l : List (List Byte)) : (s.notify4 g opcode scope id l).board = s.board := by
  obtain ⟨_, _, h⟩ := State.notify4_frame s g opcode scope id l
  rw [h]
@[simp] theorem State.notify4_at_channel (s : State) (g : Group) (opcode scope id : Nat) (l : List (List Byte)) (k : Nat) : (s.notify4 g opcode scope id l).channel k = s.channel k := by
  simp [State.channel]
@[simp] theorem State.notify4_at_block (s : State) (g : Group) (opcode scope id : Nat) (l : List (List Byte)) (k : Nat) : (s.notify4 g opcode scope id l).block k = s.block k := by
  simp [State.block]
@[simp] theorem State.notify4_at_cell (s : State) (g : Group) (opcode scope id : Nat) (l : List (List Byte)) (k : Nat) : (s.notify4 g opcode scope id l).cell k = s.cell k := by
  simp [State.cell]
@[simp] theorem State.notify4_at_port (s : State) (g : Group) (opcode scope id : Nat) (l : List (List Byte)) (k : Nat) : (s.notify4 g opcode scope id l).port k = s.port k := by
  simp [State.port]
@[simp] theorem State.notify4_at_region (s : State) (g : Group) (opcode scope id : Nat) (l : List (List Byte)) (k : Nat) : (s.notify4 g opcode scope id l).region k = s.region k := by
  simp [State.region]
@[simp] theorem State.notify4_at_pair (s : State) (g : Group) (opcode scope id : Nat) (l : List (List Byte)) (k : Nat) : (s.notify4 g opcode scope id l).pair k = s.pair k := by
  simp [State.pair]

/-- `State.channelNotice` changes nothing but rings, fylos. -/
theorem State.channelNotice_frame (s : State) (c : Nat) (old new : ChState) (cause status : Nat) :
    ∃ x0 x1, s.channelNotice c old new cause status = { s with rings := x0, fylos := x1 } := State.notify_frame _ _ _ _ _ _

@[simp] theorem State.channelNotice_pending (s : State) (c : Nat) (old new : ChState) (cause status : Nat) : (s.channelNotice c old new cause status).pending = s.pending := by
  obtain ⟨_, _, h⟩ := State.channelNotice_frame s c old new cause status
  rw [h]
@[simp] theorem State.channelNotice_draws (s : State) (c : Nat) (old new : ChState) (cause status : Nat) : (s.channelNotice c old new cause status).draws = s.draws := by
  obtain ⟨_, _, h⟩ := State.channelNotice_frame s c old new cause status
  rw [h]
@[simp] theorem State.channelNotice_log (s : State) (c : Nat) (old new : ChState) (cause status : Nat) : (s.channelNotice c old new cause status).log = s.log := by
  obtain ⟨_, _, h⟩ := State.channelNotice_frame s c old new cause status
  rw [h]
@[simp] theorem State.channelNotice_channels (s : State) (c : Nat) (old new : ChState) (cause status : Nat) : (s.channelNotice c old new cause status).channels = s.channels := by
  obtain ⟨_, _, h⟩ := State.channelNotice_frame s c old new cause status
  rw [h]
@[simp] theorem State.channelNotice_openRuns (s : State) (c : Nat) (old new : ChState) (cause status : Nat) : (s.channelNotice c old new cause status).openRuns = s.openRuns := by
  obtain ⟨_, _, h⟩ := State.channelNotice_frame s c old new cause status
  rw [h]
@[simp] theorem State.channelNotice_blocks (s : State) (c : Nat) (old new : ChState) (cause status : Nat) : (s.channelNotice c old new cause status).blocks = s.blocks := by
  obtain ⟨_, _, h⟩ := State.channelNotice_frame s c old new cause status
  rw [h]
@[simp] theorem State.channelNotice_cells (s : State) (c : Nat) (old new : ChState) (cause status : Nat) : (s.channelNotice c old new cause status).cells = s.cells := by
  obtain ⟨_, _, h⟩ := State.channelNotice_frame s c old new cause status
  rw [h]
@[simp] theorem State.channelNotice_ports (s : State) (c : Nat) (old new : ChState) (cause status : Nat) : (s.channelNotice c old new cause status).ports = s.ports := by
  obtain ⟨_, _, h⟩ := State.channelNotice_frame s c old new cause status
  rw [h]
@[simp] theorem State.channelNotice_pairs (s : State) (c : Nat) (old new : ChState) (cause status : Nat) : (s.channelNotice c old new cause status).pairs = s.pairs := by
  obtain ⟨_, _, h⟩ := State.channelNotice_frame s c old new cause status
  rw [h]
@[simp] theorem State.channelNotice_regions (s : State) (c : Nat) (old new : ChState) (cause status : Nat) : (s.channelNotice c old new cause status).regions = s.regions := by
  obtain ⟨_, _, h⟩ := State.channelNotice_frame s c old new cause status
  rw [h]
@[simp] theorem State.channelNotice_flows (s : State) (c : Nat) (old new : ChState) (cause status : Nat) : (s.channelNotice c old new cause status).flows = s.flows := by
  obtain ⟨_, _, h⟩ := State.channelNotice_frame s c old new cause status
  rw [h]
@[simp] theorem State.channelNotice_time (s : State) (c : Nat) (old new : ChState) (cause status : Nat) : (s.channelNotice c old new cause status).time = s.time := by
  obtain ⟨_, _, h⟩ := State.channelNotice_frame s c old new cause status
  rw [h]
@[simp] theorem State.channelNotice_tdm (s : State) (c : Nat) (old new : ChState) (cause status : Nat) : (s.channelNotice c old new cause status).tdm = s.tdm := by
  obtain ⟨_, _, h⟩ := State.channelNotice_frame s c old new cause status
  rw [h]
@[simp] theorem State.channelNotice_store (s : State) (c : Nat) (old new : ChState) (cause status : Nat) : (s.channelNotice c old new cause status).store = s.store := by
  obtain ⟨_, _, h⟩ := State.channelNotice_frame s c old new cause status
  rw [h]
@[simp] theorem State.channelNotice_clocks (s : State) (c : Nat) (old new : ChState) (cause status : Nat) : (s.channelNotice c old new cause status).clocks = s.clocks := by
  obtain ⟨_, _, h⟩ := State.channelNotice_frame s c old new cause status
  rw [h]
@[simp] theorem State.channelNotice_life (s : State) (c : Nat) (old new : ChState) (cause status : Nat) : (s.channelNotice c old new cause status).life = s.life := by
  obtain ⟨_, _, h⟩ := State.channelNotice_frame s c old new cause status
  rw [h]
@[simp] theorem State.channelNotice_stack (s : State) (c : Nat) (old new : ChState) (cause status : Nat) : (s.channelNotice c old new cause status).stack = s.stack := by
  obtain ⟨_, _, h⟩ := State.channelNotice_frame s c old new cause status
  rw [h]
@[simp] theorem State.channelNotice_board (s : State) (c : Nat) (old new : ChState) (cause status : Nat) : (s.channelNotice c old new cause status).board = s.board := by
  obtain ⟨_, _, h⟩ := State.channelNotice_frame s c old new cause status
  rw [h]
@[simp] theorem State.channelNotice_at_channel (s : State) (c : Nat) (old new : ChState) (cause status : Nat) (k : Nat) : (s.channelNotice c old new cause status).channel k = s.channel k := by
  simp [State.channel]
@[simp] theorem State.channelNotice_at_block (s : State) (c : Nat) (old new : ChState) (cause status : Nat) (k : Nat) : (s.channelNotice c old new cause status).block k = s.block k := by
  simp [State.block]
@[simp] theorem State.channelNotice_at_cell (s : State) (c : Nat) (old new : ChState) (cause status : Nat) (k : Nat) : (s.channelNotice c old new cause status).cell k = s.cell k := by
  simp [State.cell]
@[simp] theorem State.channelNotice_at_port (s : State) (c : Nat) (old new : ChState) (cause status : Nat) (k : Nat) : (s.channelNotice c old new cause status).port k = s.port k := by
  simp [State.port]
@[simp] theorem State.channelNotice_at_region (s : State) (c : Nat) (old new : ChState) (cause status : Nat) (k : Nat) : (s.channelNotice c old new cause status).region k = s.region k := by
  simp [State.region]
@[simp] theorem State.channelNotice_at_pair (s : State) (c : Nat) (old new : ChState) (cause status : Nat) (k : Nat) : (s.channelNotice c old new cause status).pair k = s.pair k := by
  simp [State.pair]

/-- `State.signal` changes nothing but board. -/
theorem State.signal_frame (s : State) (v : Nat) :
    ∃ x0, s.signal v = { s with board := x0 } := by unfold State.signal; split <;> exact ⟨_, rfl⟩

@[simp] theorem State.signal_pending (s : State) (v : Nat) : (s.signal v).pending = s.pending := by
  obtain ⟨_, h⟩ := State.signal_frame s v
  rw [h]
@[simp] theorem State.signal_draws (s : State) (v : Nat) : (s.signal v).draws = s.draws := by
  obtain ⟨_, h⟩ := State.signal_frame s v
  rw [h]
@[simp] theorem State.signal_rings (s : State) (v : Nat) : (s.signal v).rings = s.rings := by
  obtain ⟨_, h⟩ := State.signal_frame s v
  rw [h]
@[simp] theorem State.signal_fylos (s : State) (v : Nat) : (s.signal v).fylos = s.fylos := by
  obtain ⟨_, h⟩ := State.signal_frame s v
  rw [h]
@[simp] theorem State.signal_log (s : State) (v : Nat) : (s.signal v).log = s.log := by
  obtain ⟨_, h⟩ := State.signal_frame s v
  rw [h]
@[simp] theorem State.signal_channels (s : State) (v : Nat) : (s.signal v).channels = s.channels := by
  obtain ⟨_, h⟩ := State.signal_frame s v
  rw [h]
@[simp] theorem State.signal_openRuns (s : State) (v : Nat) : (s.signal v).openRuns = s.openRuns := by
  obtain ⟨_, h⟩ := State.signal_frame s v
  rw [h]
@[simp] theorem State.signal_blocks (s : State) (v : Nat) : (s.signal v).blocks = s.blocks := by
  obtain ⟨_, h⟩ := State.signal_frame s v
  rw [h]
@[simp] theorem State.signal_cells (s : State) (v : Nat) : (s.signal v).cells = s.cells := by
  obtain ⟨_, h⟩ := State.signal_frame s v
  rw [h]
@[simp] theorem State.signal_ports (s : State) (v : Nat) : (s.signal v).ports = s.ports := by
  obtain ⟨_, h⟩ := State.signal_frame s v
  rw [h]
@[simp] theorem State.signal_pairs (s : State) (v : Nat) : (s.signal v).pairs = s.pairs := by
  obtain ⟨_, h⟩ := State.signal_frame s v
  rw [h]
@[simp] theorem State.signal_regions (s : State) (v : Nat) : (s.signal v).regions = s.regions := by
  obtain ⟨_, h⟩ := State.signal_frame s v
  rw [h]
@[simp] theorem State.signal_flows (s : State) (v : Nat) : (s.signal v).flows = s.flows := by
  obtain ⟨_, h⟩ := State.signal_frame s v
  rw [h]
@[simp] theorem State.signal_time (s : State) (v : Nat) : (s.signal v).time = s.time := by
  obtain ⟨_, h⟩ := State.signal_frame s v
  rw [h]
@[simp] theorem State.signal_tdm (s : State) (v : Nat) : (s.signal v).tdm = s.tdm := by
  obtain ⟨_, h⟩ := State.signal_frame s v
  rw [h]
@[simp] theorem State.signal_store (s : State) (v : Nat) : (s.signal v).store = s.store := by
  obtain ⟨_, h⟩ := State.signal_frame s v
  rw [h]
@[simp] theorem State.signal_clocks (s : State) (v : Nat) : (s.signal v).clocks = s.clocks := by
  obtain ⟨_, h⟩ := State.signal_frame s v
  rw [h]
@[simp] theorem State.signal_life (s : State) (v : Nat) : (s.signal v).life = s.life := by
  obtain ⟨_, h⟩ := State.signal_frame s v
  rw [h]
@[simp] theorem State.signal_stack (s : State) (v : Nat) : (s.signal v).stack = s.stack := by
  obtain ⟨_, h⟩ := State.signal_frame s v
  rw [h]
@[simp] theorem State.signal_at_ring (s : State) (v : Nat) (k : Nat) : (s.signal v).ring k = s.ring k := by
  simp [State.ring]
@[simp] theorem State.signal_at_channel (s : State) (v : Nat) (k : Nat) : (s.signal v).channel k = s.channel k := by
  simp [State.channel]
@[simp] theorem State.signal_at_block (s : State) (v : Nat) (k : Nat) : (s.signal v).block k = s.block k := by
  simp [State.block]
@[simp] theorem State.signal_at_cell (s : State) (v : Nat) (k : Nat) : (s.signal v).cell k = s.cell k := by
  simp [State.cell]
@[simp] theorem State.signal_at_port (s : State) (v : Nat) (k : Nat) : (s.signal v).port k = s.port k := by
  simp [State.port]
@[simp] theorem State.signal_at_region (s : State) (v : Nat) (k : Nat) : (s.signal v).region k = s.region k := by
  simp [State.region]
@[simp] theorem State.signal_at_pair (s : State) (v : Nat) (k : Nat) : (s.signal v).pair k = s.pair k := by
  simp [State.pair]

/-- `State.deviceIrq` changes nothing but board. -/
theorem State.deviceIrq_frame (s : State) (i : Nat) :
    ∃ x0, s.deviceIrq i = { s with board := x0 } := by
  unfold State.deviceIrq
  dsimp only
  split
  · exact ⟨s.board, rfl⟩
  · split
    · exact ⟨_, rfl⟩
    · obtain ⟨b, h⟩ := State.signal_frame { s with board := { s.board with devIrq := s.board.devIrq ||| (1#3 <<< i) } } 0
      exact ⟨b, by rw [h]⟩

@[simp] theorem State.deviceIrq_pending (s : State) (i : Nat) : (s.deviceIrq i).pending = s.pending := by
  obtain ⟨_, h⟩ := State.deviceIrq_frame s i
  rw [h]
@[simp] theorem State.deviceIrq_draws (s : State) (i : Nat) : (s.deviceIrq i).draws = s.draws := by
  obtain ⟨_, h⟩ := State.deviceIrq_frame s i
  rw [h]
@[simp] theorem State.deviceIrq_rings (s : State) (i : Nat) : (s.deviceIrq i).rings = s.rings := by
  obtain ⟨_, h⟩ := State.deviceIrq_frame s i
  rw [h]
@[simp] theorem State.deviceIrq_fylos (s : State) (i : Nat) : (s.deviceIrq i).fylos = s.fylos := by
  obtain ⟨_, h⟩ := State.deviceIrq_frame s i
  rw [h]
@[simp] theorem State.deviceIrq_log (s : State) (i : Nat) : (s.deviceIrq i).log = s.log := by
  obtain ⟨_, h⟩ := State.deviceIrq_frame s i
  rw [h]
@[simp] theorem State.deviceIrq_channels (s : State) (i : Nat) : (s.deviceIrq i).channels = s.channels := by
  obtain ⟨_, h⟩ := State.deviceIrq_frame s i
  rw [h]
@[simp] theorem State.deviceIrq_openRuns (s : State) (i : Nat) : (s.deviceIrq i).openRuns = s.openRuns := by
  obtain ⟨_, h⟩ := State.deviceIrq_frame s i
  rw [h]
@[simp] theorem State.deviceIrq_blocks (s : State) (i : Nat) : (s.deviceIrq i).blocks = s.blocks := by
  obtain ⟨_, h⟩ := State.deviceIrq_frame s i
  rw [h]
@[simp] theorem State.deviceIrq_cells (s : State) (i : Nat) : (s.deviceIrq i).cells = s.cells := by
  obtain ⟨_, h⟩ := State.deviceIrq_frame s i
  rw [h]
@[simp] theorem State.deviceIrq_ports (s : State) (i : Nat) : (s.deviceIrq i).ports = s.ports := by
  obtain ⟨_, h⟩ := State.deviceIrq_frame s i
  rw [h]
@[simp] theorem State.deviceIrq_pairs (s : State) (i : Nat) : (s.deviceIrq i).pairs = s.pairs := by
  obtain ⟨_, h⟩ := State.deviceIrq_frame s i
  rw [h]
@[simp] theorem State.deviceIrq_regions (s : State) (i : Nat) : (s.deviceIrq i).regions = s.regions := by
  obtain ⟨_, h⟩ := State.deviceIrq_frame s i
  rw [h]
@[simp] theorem State.deviceIrq_flows (s : State) (i : Nat) : (s.deviceIrq i).flows = s.flows := by
  obtain ⟨_, h⟩ := State.deviceIrq_frame s i
  rw [h]
@[simp] theorem State.deviceIrq_time (s : State) (i : Nat) : (s.deviceIrq i).time = s.time := by
  obtain ⟨_, h⟩ := State.deviceIrq_frame s i
  rw [h]
@[simp] theorem State.deviceIrq_tdm (s : State) (i : Nat) : (s.deviceIrq i).tdm = s.tdm := by
  obtain ⟨_, h⟩ := State.deviceIrq_frame s i
  rw [h]
@[simp] theorem State.deviceIrq_store (s : State) (i : Nat) : (s.deviceIrq i).store = s.store := by
  obtain ⟨_, h⟩ := State.deviceIrq_frame s i
  rw [h]
@[simp] theorem State.deviceIrq_clocks (s : State) (i : Nat) : (s.deviceIrq i).clocks = s.clocks := by
  obtain ⟨_, h⟩ := State.deviceIrq_frame s i
  rw [h]
@[simp] theorem State.deviceIrq_life (s : State) (i : Nat) : (s.deviceIrq i).life = s.life := by
  obtain ⟨_, h⟩ := State.deviceIrq_frame s i
  rw [h]
@[simp] theorem State.deviceIrq_stack (s : State) (i : Nat) : (s.deviceIrq i).stack = s.stack := by
  obtain ⟨_, h⟩ := State.deviceIrq_frame s i
  rw [h]
@[simp] theorem State.deviceIrq_at_ring (s : State) (i : Nat) (k : Nat) : (s.deviceIrq i).ring k = s.ring k := by
  simp [State.ring]
@[simp] theorem State.deviceIrq_at_channel (s : State) (i : Nat) (k : Nat) : (s.deviceIrq i).channel k = s.channel k := by
  simp [State.channel]
@[simp] theorem State.deviceIrq_at_block (s : State) (i : Nat) (k : Nat) : (s.deviceIrq i).block k = s.block k := by
  simp [State.block]
@[simp] theorem State.deviceIrq_at_cell (s : State) (i : Nat) (k : Nat) : (s.deviceIrq i).cell k = s.cell k := by
  simp [State.cell]
@[simp] theorem State.deviceIrq_at_port (s : State) (i : Nat) (k : Nat) : (s.deviceIrq i).port k = s.port k := by
  simp [State.port]
@[simp] theorem State.deviceIrq_at_region (s : State) (i : Nat) (k : Nat) : (s.deviceIrq i).region k = s.region k := by
  simp [State.region]
@[simp] theorem State.deviceIrq_at_pair (s : State) (i : Nat) (k : Nat) : (s.deviceIrq i).pair k = s.pair k := by
  simp [State.pair]

/-- `State.logError` changes nothing but rings, fylos, log, board. -/
theorem State.logError_frame (s : State) (cause level action unit channel detail memory address : Nat) :
    ∃ x0 x1 x2 x3, s.logError cause level action unit channel detail memory address = { s with rings := x0, fylos := x1, log := x2, board := x3 } := by
  unfold State.logError
  dsimp only
  generalize hl : logAppend s.log _ = l
  have hb : ∃ b, (if s.log.uncorrected < l.uncorrected then State.deviceIrq { s with log := l } 2 else { s with log := l }) =
      { s with log := l, board := b } := by
    split
    · exact State.deviceIrq_frame { s with log := l } 2
    · exact ⟨s.board, rfl⟩
  obtain ⟨b, hb⟩ := hb
  rw [hb]
  split
  · obtain ⟨p, q, h⟩ := State.notify_frame { s with log := l, board := b } .fault 0x0F15 (levelTarget level unit).1 (levelTarget level unit).2
      [beBytes 1 cause, beBytes 1 action, beBytes 4 s.log.next]
    exact ⟨p, q, l, b, by rw [h]⟩
  · exact ⟨s.rings, s.fylos, l, b, rfl⟩

@[simp] theorem State.logError_pending (s : State) (cause level action unit channel detail memory address : Nat) : (s.logError cause level action unit channel detail memory address).pending = s.pending := by
  obtain ⟨_, _, _, _, h⟩ := State.logError_frame s cause level action unit channel detail memory address
  rw [h]
@[simp] theorem State.logError_draws (s : State) (cause level action unit channel detail memory address : Nat) : (s.logError cause level action unit channel detail memory address).draws = s.draws := by
  obtain ⟨_, _, _, _, h⟩ := State.logError_frame s cause level action unit channel detail memory address
  rw [h]
@[simp] theorem State.logError_channels (s : State) (cause level action unit channel detail memory address : Nat) : (s.logError cause level action unit channel detail memory address).channels = s.channels := by
  obtain ⟨_, _, _, _, h⟩ := State.logError_frame s cause level action unit channel detail memory address
  rw [h]
@[simp] theorem State.logError_openRuns (s : State) (cause level action unit channel detail memory address : Nat) : (s.logError cause level action unit channel detail memory address).openRuns = s.openRuns := by
  obtain ⟨_, _, _, _, h⟩ := State.logError_frame s cause level action unit channel detail memory address
  rw [h]
@[simp] theorem State.logError_blocks (s : State) (cause level action unit channel detail memory address : Nat) : (s.logError cause level action unit channel detail memory address).blocks = s.blocks := by
  obtain ⟨_, _, _, _, h⟩ := State.logError_frame s cause level action unit channel detail memory address
  rw [h]
@[simp] theorem State.logError_cells (s : State) (cause level action unit channel detail memory address : Nat) : (s.logError cause level action unit channel detail memory address).cells = s.cells := by
  obtain ⟨_, _, _, _, h⟩ := State.logError_frame s cause level action unit channel detail memory address
  rw [h]
@[simp] theorem State.logError_ports (s : State) (cause level action unit channel detail memory address : Nat) : (s.logError cause level action unit channel detail memory address).ports = s.ports := by
  obtain ⟨_, _, _, _, h⟩ := State.logError_frame s cause level action unit channel detail memory address
  rw [h]
@[simp] theorem State.logError_pairs (s : State) (cause level action unit channel detail memory address : Nat) : (s.logError cause level action unit channel detail memory address).pairs = s.pairs := by
  obtain ⟨_, _, _, _, h⟩ := State.logError_frame s cause level action unit channel detail memory address
  rw [h]
@[simp] theorem State.logError_regions (s : State) (cause level action unit channel detail memory address : Nat) : (s.logError cause level action unit channel detail memory address).regions = s.regions := by
  obtain ⟨_, _, _, _, h⟩ := State.logError_frame s cause level action unit channel detail memory address
  rw [h]
@[simp] theorem State.logError_flows (s : State) (cause level action unit channel detail memory address : Nat) : (s.logError cause level action unit channel detail memory address).flows = s.flows := by
  obtain ⟨_, _, _, _, h⟩ := State.logError_frame s cause level action unit channel detail memory address
  rw [h]
@[simp] theorem State.logError_time (s : State) (cause level action unit channel detail memory address : Nat) : (s.logError cause level action unit channel detail memory address).time = s.time := by
  obtain ⟨_, _, _, _, h⟩ := State.logError_frame s cause level action unit channel detail memory address
  rw [h]
@[simp] theorem State.logError_tdm (s : State) (cause level action unit channel detail memory address : Nat) : (s.logError cause level action unit channel detail memory address).tdm = s.tdm := by
  obtain ⟨_, _, _, _, h⟩ := State.logError_frame s cause level action unit channel detail memory address
  rw [h]
@[simp] theorem State.logError_store (s : State) (cause level action unit channel detail memory address : Nat) : (s.logError cause level action unit channel detail memory address).store = s.store := by
  obtain ⟨_, _, _, _, h⟩ := State.logError_frame s cause level action unit channel detail memory address
  rw [h]
@[simp] theorem State.logError_clocks (s : State) (cause level action unit channel detail memory address : Nat) : (s.logError cause level action unit channel detail memory address).clocks = s.clocks := by
  obtain ⟨_, _, _, _, h⟩ := State.logError_frame s cause level action unit channel detail memory address
  rw [h]
@[simp] theorem State.logError_life (s : State) (cause level action unit channel detail memory address : Nat) : (s.logError cause level action unit channel detail memory address).life = s.life := by
  obtain ⟨_, _, _, _, h⟩ := State.logError_frame s cause level action unit channel detail memory address
  rw [h]
@[simp] theorem State.logError_stack (s : State) (cause level action unit channel detail memory address : Nat) : (s.logError cause level action unit channel detail memory address).stack = s.stack := by
  obtain ⟨_, _, _, _, h⟩ := State.logError_frame s cause level action unit channel detail memory address
  rw [h]
@[simp] theorem State.logError_at_channel (s : State) (cause level action unit channel detail memory address : Nat) (k : Nat) : (s.logError cause level action unit channel detail memory address).channel k = s.channel k := by
  simp [State.channel]
@[simp] theorem State.logError_at_block (s : State) (cause level action unit channel detail memory address : Nat) (k : Nat) : (s.logError cause level action unit channel detail memory address).block k = s.block k := by
  simp [State.block]
@[simp] theorem State.logError_at_cell (s : State) (cause level action unit channel detail memory address : Nat) (k : Nat) : (s.logError cause level action unit channel detail memory address).cell k = s.cell k := by
  simp [State.cell]
@[simp] theorem State.logError_at_port (s : State) (cause level action unit channel detail memory address : Nat) (k : Nat) : (s.logError cause level action unit channel detail memory address).port k = s.port k := by
  simp [State.port]
@[simp] theorem State.logError_at_region (s : State) (cause level action unit channel detail memory address : Nat) (k : Nat) : (s.logError cause level action unit channel detail memory address).region k = s.region k := by
  simp [State.region]
@[simp] theorem State.logError_at_pair (s : State) (cause level action unit channel detail memory address : Nat) (k : Nat) : (s.logError cause level action unit channel detail memory address).pair k = s.pair k := by
  simp [State.pair]

/-! ## Notices only append to what waits -/

/-- Every ring of `t` is that of `s` with more parts waiting behind. -/
def OnlyAppends (s t : State) : Prop := ∀ k, ∃ l, t.ring k = { s.ring k with waiting := (s.ring k).waiting ++ l }

theorem OnlyAppends_of_rings {s t : State} (h : t.rings = s.rings) : OnlyAppends s t := fun k => ⟨[], by simp [State.ring, h]⟩

theorem onlyAppends_trans {a b c : State} (h1 : OnlyAppends a b) (h2 : OnlyAppends b c) : OnlyAppends a c := fun k => by
  obtain ⟨l, hl⟩ := h1 k
  obtain ⟨m, hm⟩ := h2 k
  exact ⟨l ++ m, by rw [hm, hl]; simp⟩

theorem onlyAppends_modRing (s : State) (n : Nat) (l : List OutPart) :
    OnlyAppends s (s.modRing n (fun r => { r with waiting := r.waiting ++ l })) := fun k => by
  by_cases h : k = n
  · subst h
    exact ⟨l, by simp⟩
  · exact ⟨[], by rw [State.modRing_ring_ne _ _ _ _ h]; simp⟩

theorem State.queueNotice_appends (s : State) (d opcode target : Nat) (tlvs : List Tlv) : OnlyAppends s (s.queueNotice d opcode target tlvs) := by
  unfold State.queueNotice
  dsimp only
  split
  · exact OnlyAppends_of_rings rfl
  · refine onlyAppends_trans (b := s.setDest d { s.dest d with sequence := (s.dest d).sequence + 1 }) (OnlyAppends_of_rings rfl) ?_
    exact onlyAppends_modRing _ _ _
  · exact OnlyAppends_of_rings rfl

theorem State.tellLost_appends (s : State) (d : Nat) : OnlyAppends s (s.tellLost d) := by
  unfold State.tellLost
  dsimp only
  split
  · exact onlyAppends_trans (b := s.setDest d { s.dest d with lostCount := 0, lostFirst := 0, lostLast := 0 })
      (OnlyAppends_of_rings rfl) (State.queueNotice_appends _ _ _ _ _)
  · exact OnlyAppends_of_rings rfl

theorem State.noticeAt_appends (s : State) (g : Group) (v4 : Bool) (opcode target : Nat) (tlvs : List Tlv) (d : Nat) :
    OnlyAppends s (s.noticeAt g v4 opcode target tlvs d) := by
  unfold State.noticeAt
  dsimp only
  split
  · exact OnlyAppends_of_rings rfl
  · split
    · exact OnlyAppends_of_rings rfl
    · split
      · exact onlyAppends_trans (State.tellLost_appends s d) (State.queueNotice_appends _ _ _ _ _)
      · exact onlyAppends_trans (State.tellLost_appends s d) (OnlyAppends_of_rings rfl)

/-- A notice changes no ring but by the parts that wait. -/
theorem State.notice_appends (s : State) (g : Group) (v4 : Bool) (opcode target : Nat) (tlvs : List Tlv) :
    OnlyAppends s (s.notice g v4 opcode target tlvs) :=
  fold_frame OnlyAppends (fun _ => OnlyAppends_of_rings rfl) (fun _ _ _ => onlyAppends_trans) _
    (fun s d => State.noticeAt_appends s g v4 opcode target tlvs d) _ s

theorem State.notify_appends (s : State) (g : Group) (opcode scope id : Nat) (l : List (List Byte)) :
    OnlyAppends s (s.notify g opcode scope id l) := State.notice_appends _ _ _ _ _ _

/-! ## The one reply -/

/-- A reply to a ring command adds its parts to the pair's waiting parts, and nothing else but the cache of tagged commands. -/
theorem State.reply_ring (s : State) (r : CmdRef) (n status : Nat) (tlvs : List Tlv) (f : Fence) (h : r.source = .ring n) :
    s.reply r status tlvs f =
      let parts := partsOf (answer .reply r s.stack.number status tlvs f) ringPartLimit
      let t := s.modRing n (fun k => { k with waiting := k.waiting ++ parts })
      { t with fylos := { s.fylos with cache := cacheAdd s.fylos.cache r true parts } } := by
  unfold State.reply
  simp only [h, State.send, State.partLimit]
  rfl

/-- An untagged command is not cached. -/
@[simp] theorem cacheAdd_untagged (l : List Cached) (r : CmdRef) (b : Bool) (p : List OutPart) (h : r.tagged = false) :
    cacheAdd l r b p = l := by
  simp [cacheAdd, h]

/-- A packet of no parameters is one part. -/
theorem partsOf_nil (p : OutPart) (n : Nat) (h : p.tlvs = []) : partsOf p n = [{ p with part := 0, parts := 1 }] := by
  simp [partsOf, h, partition]

end Sys2Proof.Machine
end

