-- ==== Sys2Proof/Laws/Fylos.lean ====
section
/-! SUPPORT. A Fylos command that Damium takes from a ring runs its own rules, and what it answers becomes its one reply. -/

namespace Sys2Proof.Machine

open Sys2Proof.Safety

/-- What a command's own rules are told of its packet. -/
theorem admitCommand_ref {s : State} {op : Nat} {o : OpSpec} {p : Packet} {b : Bool} {c : Ctx} (h : admitCommand s op o p b = .inr c) :
    c.ref = refOf op p b ∧ c.id = packetId p ∧ c.clear = packetClear p ∧ c.fixedOnly = packetFixedOnly p := by
  unfold admitCommand at h
  split at h
  · cases h
  · cases h
  · split at h
    · cases h
    · split at h
      · cases h
      · cases h
        exact ⟨rfl, rfl, rfl, rfl⟩

theorem taken_ref_eq {op n : Nat} {p : Packet} {s : State} {c : Ctx} (h : Taken op n p s c) : c.ref = refOf op (ringPacket p) false := by
  have := h.admitted
  rcases ho : opSpec? op with _ | o
  · simp [ho] at this
  · simp [ho] at this
    exact (admitCommand_ref this).1

@[simp] theorem taken_ref_source {op n : Nat} {p : Packet} {s : State} {c : Ctx} (h : Taken op n p s c) : c.ref.source = .ring n := by
  rw [taken_ref_eq h]
  exact h.delivered.source

@[simp] theorem taken_ref_tagged {op n : Nat} {p : Packet} {s : State} {c : Ctx} (h : Taken op n p s c) : c.ref.tagged = false := by
  rw [taken_ref_eq h]
  rfl

@[simp] theorem taken_ref_opcode {op n : Nat} {p : Packet} {s : State} {c : Ctx} (h : Taken op n p s c) : c.ref.opcode = op := by
  rw [taken_ref_eq h]
  rfl

/-- A command that Damium takes from a ring runs its own rules. -/
theorem fylosRun_taken {op n : Nat} {p : Packet} {s : State} {c : Ctx} (h : Taken op n p s c) (body : Body) :
    fylosRun op body p s = giveAnswer s c.ref (body c s) := by
  have hr := taken_ref_eq h
  obtain ⟨⟨h1, h2, ⟨h3, h4⟩, ⟨h5, h6⟩⟩, h7, h8, h9⟩ := h
  rcases ho : opSpec? op with _ | o
  · simp [ho] at h9
  · rw [ho] at h7 h9
    simp only [Option.map_some, Option.some.injEq] at h9
    unfold fylosRun
    rw [h1]
    simp only [h2, h3, h4]
    unfold ringCommand
    rw [if_neg (by simp), if_neg (by simp [h5]), if_neg (by omega)]
    unfold runCommand
    change (match headerRefusal s op (opSpec? op) (ringPacket p) with | some (st, tlvs) => _ | none => _) = _
    simp only [ho, h7]
    rw [if_neg (by change ¬ ¬ deviceHere s (ringPacket p) = true; simp [h8])]
    change (match admitCommand s op o (ringPacket p) false with | .inl (st, tlvs) => _ | .inr ctx => _) = _
    rw [h9, hr]
    rfl

/-- A UDP command under a new SEQUENCE runs on the machine that has noted it. -/
theorem sequenceWindow_new {op : Nat} {p : Packet} {s u : State} (h : newSequence op p s = some u) (run : State → State) :
    sequenceWindow op p s run = run u := by
  unfold newSequence at h
  unfold sequenceWindow
  simp only at h ⊢
  split at h
  · rename_i h1; rw [if_pos h1]; cases h; rfl
  · rename_i h1
    rw [if_neg h1]
    split at h
    · rename_i h2; rw [if_pos ⟨h2.1, by omega⟩]; cases h; rfl
    · rename_i h2
      rw [if_neg (by omega)]
      split at h
      · rename_i h3
        rw [if_neg (by omega), if_neg (by rw [h3.2]; exact Bool.false_ne_true)]
        cases h; rfl
      · cases h

theorem runCommand_admitted {op : Nat} {p : Packet} {u : State} {c : Ctx} {b : Bool} (h7 : headerRefusal u op (opSpec? op) p = none)
    (h8 : deviceHere u p = true) (h9 : (opSpec? op).map (fun o => admitCommand u op o p b) = some (.inr c)) (body : Body) :
    runCommand op body p b u = giveAnswer u c.ref (body c u) := by
  rcases ho : opSpec? op with _ | o
  · simp [ho] at h9
  · rw [ho] at h7 h9
    simp only [Option.map_some, Option.some.injEq] at h9
    unfold runCommand
    simp only [ho, h7]
    rw [if_neg (by simp [h8])]
    simp only [h9]
    rw [(admitCommand_ref h9).1]

/-- An admitted command, whatever its source, runs its own rules, and what they answer becomes its reply. -/
theorem fylosRun_admitted {op : Nat} {p : Packet} {s u : State} {c : Ctx} (h : Admitted op p s u c) (body : Body) :
    fylosRun op body p s = giveAnswer u c.ref (body c u) := by
  obtain ⟨⟨ht, hr⟩, h7, h8, h9⟩ := h
  have ht' := ht
  unfold State.damiumTakes at ht'
  simp only [Bool.and_eq_true, Bool.not_eq_true'] at ht'
  have hb := runCommand_admitted h7 h8 h9 body
  unfold readAt at hb
  unfold fylosRun
  rcases hs : p.source with n | ⟨a, q, e⟩ | ⟨d, r⟩
  · simp only [hs] at hr hb ⊢
    obtain ⟨h1, h2, h3, h4, rfl, h6⟩ := hr
    rw [if_neg (by simp [ht, h1, h2])]
    unfold ringCommand
    rw [if_neg (by simp [h3]), if_neg (by omega)]
    rw [h6] at hb
    exact hb
  · simp only [hs] at hr hb ⊢
    obtain ⟨h1, h2, h3, h4, hc⟩ := hr
    rw [if_neg (by simp [ht']), if_neg (by simp [ht]), if_neg (by simp [h1])]
    unfold udpCommand
    rcases hc with ⟨k1, k2, k3, k4, k5⟩ | ⟨key, k1, k2, k3, k4, k5, k6⟩
    · rw [if_neg (by simp [h3, h4, k2, k3]), if_neg h2, if_pos (by simp [k1, k2])]
      simp only [k4]
      rw [k5] at hb
      exact hb
    · rw [if_neg (by simp [h3, h4, k1, k2]), if_neg h2, if_neg (by simp [k1])]
      simp only [k3, k1]
      rw [if_pos trivial, if_pos k4, sequenceWindow_new k5]
      rw [k6] at hb
      exact hb
  · simp only [hs] at hr hb ⊢
    obtain ⟨rfl, h6⟩ := hr
    rw [if_neg (by simp [ht']), if_neg (by simp [ht])]
    rw [h6] at hb
    exact hb

/-- A command taken from a ring is admitted on the machine as it stands. -/
theorem admitted_of_taken {op n : Nat} {p : Packet} {s : State} {c : Ctx} (h : Taken op n p s c) : Admitted op p s s c := by
  have ht := taken_ref_tagged h
  obtain ⟨⟨h1, h2, ⟨h3, h4⟩, ⟨h5, h6⟩⟩, h7, h8, h9⟩ := h
  have hr : readAt p = ringPacket p := by unfold readAt; rw [h1]
  refine ⟨⟨h2, ?_⟩, ?_, ?_, ?_⟩
  · rw [h1]; exact ⟨h3, h4, h5, h6, rfl, ht⟩
  · rw [hr]; exact h7
  · rw [hr]; exact h8
  · rw [hr, ht]; exact h9

/-- A refusal changes nothing but the reply (R404). -/
theorem giveAnswer_refuse (s : State) (c : CmdRef) (st : Nat) (l : List Tlv) :
    giveAnswer s c (.refuse st l) = s.reply c st l .none := rfl

/-- An answer of one part is the reply. -/
theorem giveAnswer_done (s t : State) (c : CmdRef) (st : Nat) (l : List Tlv)
    (h : c.version = 3 → (partition (s.partLimit c.source) l []).length ≤ 1) :
    giveAnswer s c (.done st l t) = t.reply c st l .none := by
  unfold giveAnswer
  simp only
  rw [if_neg]
  rintro ⟨h1, h2⟩
  have := h h1
  omega

/-- An answer that carries nothing is the reply. -/
@[simp] theorem giveAnswer_done_nil (s t : State) (c : CmdRef) (st : Nat) :
    giveAnswer s c (.done st [] t) = t.reply c st [] .none :=
  giveAnswer_done s t c st [] (fun _ => by simp [partition])

@[simp] theorem giveAnswer_fenced (s t : State) (c : CmdRef) (f : Fence) :
    giveAnswer s c (.fenced f t) = t.reply c stOk [] f := rfl

@[simp] theorem giveAnswer_accepted (s t : State) (c : CmdRef) (f : State → State) :
    giveAnswer s c (.accepted t f) =
      if 1024 ≤ outstandingOf s c.source then s.reply c stPendingLimit [] .none
      else f (({ t with fylos := { t.fylos with outstanding := t.fylos.outstanding ++ [c] } }).reply c stAccepted [] .none) := rfl

@[simp] theorem giveAnswer_completed (s t : State) (c : CmdRef) (st : Nat) (l : List Tlv) :
    giveAnswer s c (.completed st l t) =
      if 1024 ≤ outstandingOf s c.source then s.reply c stPendingLimit [] .none
      else (t.reply c stAccepted [] .none).complete c st l := rfl

/-! ## A taken command completes -/

theorem replies_of_done {op n : Nat} {p : Packet} {s : State} {c : Ctx} {i : Instr} {body : Body} (h : Taken op n p s c)
    (he : exec i s = .next (fylosRun op body p s)) {st : Nat} {u : State} (hb : body c s = .done st [] u) : Replies i s c st [] u := by
  unfold Replies
  rw [he, fylosRun_taken h, hb, giveAnswer_done_nil]

theorem replies_of_fits {op n : Nat} {p : Packet} {s : State} {c : Ctx} {i : Instr} {body : Body} (h : Taken op n p s c)
    (he : exec i s = .next (fylosRun op body p s)) {st : Nat} {l : List Tlv} {u : State} (hf : fits c l)
    (hb : body c s = .done st l u) : Replies i s c st l u := by
  unfold Replies
  rw [he, fylosRun_taken h, hb, giveAnswer_done]
  intro h3
  simpa [State.partLimit, taken_ref_source h] using hf h3

theorem replies_of_refuse {op n : Nat} {p : Packet} {s : State} {c : Ctx} {i : Instr} {body : Body} (h : Taken op n p s c)
    (he : exec i s = .next (fylosRun op body p s)) {st : Nat} {l : List Tlv} (hb : body c s = .refuse st l) : Replies i s c st l s := by
  unfold Replies
  rw [he, fylosRun_taken h, hb, giveAnswer_refuse]

theorem accepts_of_accepted {op n : Nat} {p : Packet} {s : State} {c : Ctx} {i : Instr} {body : Body} (h : Taken op n p s c)
    (he : exec i s = .next (fylosRun op body p s)) {u : State} {f : State → State} (hb : body c s = .accepted u f) : Accepts i s c u f := by
  unfold Accepts
  rw [he, fylosRun_taken h, hb, giveAnswer_accepted]

theorem exec_of_fenced {op n : Nat} {p : Packet} {s : State} {c : Ctx} {i : Instr} {body : Body} (h : Taken op n p s c)
    (he : exec i s = .next (fylosRun op body p s)) {f : Fence} {u : State} (hb : body c s = .fenced f u) :
    exec i s = .next (u.reply c.ref stOk [] f) := by
  rw [he, fylosRun_taken h, hb, giveAnswer_fenced]

theorem exec_of_answer {op n : Nat} {p : Packet} {s : State} {c : Ctx} {i : Instr} {body : Body} (h : Taken op n p s c)
    (he : exec i s = .next (fylosRun op body p s)) {a : Answer} (hb : body c s = a) : exec i s = .next (giveAnswer s c.ref a) := by
  rw [he, fylosRun_taken h, hb]

end Sys2Proof.Machine
end

