-- ==== Sys2Proof/Laws/Vector.lean ====
section
/-! SUPPORT. What the issue of a word does: one lemma for every row of the vector engine. -/

namespace Sys2Proof.Safety

open Sys2Proof.Machine

@[simp] theorem setActive_active (c : Cell) (b : Bank) : (c.setActive b).active = b := by
  cases h : c.bank <;> simp [Cell.setActive, Cell.active, h]

@[simp] theorem setActive_rep (c : Cell) (b : Bank) : (c.setActive b).rep = c.rep := by
  cases h : c.bank <;> simp [Cell.setActive, h]
@[simp] theorem setActive_delay (c : Cell) (b : Bank) : (c.setActive b).delay = c.delay := by
  cases h : c.bank <;> simp [Cell.setActive, h]
@[simp] theorem setActive_shadow (c : Cell) (b : Bank) : (c.setActive b).shadow = c.shadow := by
  cases h : c.bank <;> simp [Cell.setActive, h]
@[simp] theorem setActive_bank (c : Cell) (b : Bank) : (c.setActive b).bank = c.bank := by
  cases h : c.bank <;> simp [Cell.setActive, h]
@[simp] theorem setActive_issued (c : Cell) (b : Bank) : (c.setActive b).issued = c.issued := by
  cases h : c.bank <;> simp [Cell.setActive, h]
@[simp] theorem setActive_cycle (c : Cell) (b : Bank) : (c.setActive b).cycle = c.cycle := by
  cases h : c.bank <;> simp [Cell.setActive, h]
@[simp] theorem setActive_stall (c : Cell) (b : Bank) : (c.setActive b).stall = c.stall := by
  cases h : c.bank <;> simp [Cell.setActive, h]
@[simp] theorem setActive_mpyShadow (c : Cell) (b : Bank) : (c.setActive b).mpyShadow = c.mpyShadow := by
  cases h : c.bank <;> simp [Cell.setActive, h]
@[simp] theorem setActive_running (c : Cell) (b : Bank) : (c.setActive b).running = c.running := by
  cases h : c.bank <;> simp [Cell.setActive, h]

/-- What carrying stores out leaves as it was. -/
theorem applyStores_keeps (l : List PendStore) (c : Cell) : (applyStores c l).bank0 = c.bank0 ∧ (applyStores c l).bank1 = c.bank1 ∧
    (applyStores c l).rep = c.rep ∧ (applyStores c l).delay = c.delay ∧ (applyStores c l).shadow = c.shadow ∧
    (applyStores c l).bank = c.bank ∧ (applyStores c l).issued = c.issued ∧ (applyStores c l).cycle = c.cycle ∧
    (applyStores c l).stall = c.stall ∧ (applyStores c l).mpyShadow = c.mpyShadow ∧ (applyStores c l).running = c.running := by
  unfold applyStores
  induction l generalizing c with
  | nil => simp
  | cons p r ih =>
    rw [List.foldl_cons]
    have h := ih (if p.yside then { c with ymem := memWrite c.ymem p.addr p.bytes } else { c with xmem := memWrite c.xmem p.addr p.bytes })
    split at h <;> simp_all

/-- What settling a cell leaves as it was. -/
theorem settled_keeps (i : Issue) (s : State) : let c := (settled i s).cell i.cell
    c.rep = (s.cell i.cell).rep ∧ c.delay = (s.cell i.cell).delay ∧ c.shadow = (s.cell i.cell).shadow ∧ c.bank = (s.cell i.cell).bank ∧
    c.issued = (s.cell i.cell).issued ∧ c.cycle = (s.cell i.cell).cycle ∧ c.stall = (s.cell i.cell).stall ∧
    c.active.user = (s.cell i.cell).active.user ∧ c.active.pc = (s.cell i.cell).active.pc := by
  have g := applyStores_keeps ((s.cell i.cell).stores.filter (fun p => decide (p.issue + 5 ≤ (s.cell i.cell).issued))) (s.cell i.cell)
  simp only [settled, State.modCell_cell_same, setActive_active, setActive_rep, setActive_delay, setActive_shadow, setActive_bank,
    setActive_issued, setActive_cycle, setActive_stall]
  exact ⟨g.2.2.1, g.2.2.2.1, g.2.2.2.2.1, g.2.2.2.2.2.1, g.2.2.2.2.2.2.1, g.2.2.2.2.2.2.2.1, g.2.2.2.2.2.2.2.2.1, rfl, rfl⟩

/-- With clean memories the checks of the data reads change nothing. -/
theorem checkReads_clean (s : State) (n : Nat) (good : State → State) (l : List (Access × Ecc))
    (h : ∀ p ∈ l, p.2 = Ecc.clean) : s.checkReads n l good = good s := by
  induction l with
  | nil => rfl
  | cons p r ih =>
    obtain ⟨x, e⟩ := p
    have he : e = Ecc.clean := h (x, e) (List.mem_cons_self ..)
    subst he
    rw [State.checkReads, ih (fun q hq => h q (List.mem_cons_of_mem _ hq))]
    simp

/-- The one spec lemma of an issue: a word that issues is carried out on the settled cell. -/
theorem issueStep_of_issues {i : Issue} {w : VeWord} {s : State} (h : Issues i w s) :
    issueStep i w s = (settled i s).issueGood i.cell (viewOf i s) w := by
  have hp : ¬ ((s.cell i.cell).active.user = true ∧ (s.cell i.cell).active.pc.toNat < 0x1800) := fun q =>
    absurd (h.place q.1) (by omega)
  have ht : accessTraps ((settled i s).cell i.cell) (viewOf i s) (accessesOf (viewOf i s) w) = none :=
    List.findSome?_eq_none_iff.mpr h.allowed
  have hw : s.issueWord i w = (settled i s).issueGood i.cell (viewOf i s) w := by
    unfold State.issueWord
    have h1 := h.passes
    simp only [viewOf, settled, accessesOf] at h1 ht
    simp only [h1, ht]
    rw [checkReads_clean]
    · rfl
    · intro p hp
      simp only [List.mem_append, Option.mem_toList, Option.map_eq_some_iff] at hp
      rcases hp with ⟨a, _, rfl⟩ | ⟨a, _, rfl⟩
      · exact h.sound.2.1
      · exact h.sound.2.2
  unfold issueStep State.fetchWord
  simp only [h.runs, h.sound.1, not_true_eq_false, if_false, if_neg hp]
  exact hw

/-- A compute row carries its word out with what its operation and the rest of the word write. -/
theorem computes_of_step {c : Instr} {i : Issue} {k : Comp} {r : CompRest} {s : State}
    (h : exec c s = .next (issueStep i (compWord k r) s)) :
    Computes c i k r s (compute (viewOf i s) ((settled i s).cell i.cell).bank (0 < ((settled i s).cell i.cell).rep) k) := by
  intro hi
  rw [Writes, h, issueStep_of_issues hi]
  cases r <;> rfl

/-- A slot row carries its word out with what its slot and the compute field beside it write. -/
theorem slotWrites_of_step {c : Instr} {i : Issue} {t : Slot} {r : SlotRest} {s : State}
    (h : exec c s = .next (issueStep i (slotWord t r) s)) : SlotWrites c i t r s (slotWrites (viewOf i s) t) := by
  intro hi
  rw [Writes, h, issueStep_of_issues hi]
  rfl

/-- A move row carries its word out, its move having its turn on its own side. -/
theorem moves_of_step {c : Instr} {i : Issue} {m : Move} {r : MoveRest} {s : State}
    (h : exec c s = .next (issueStep i (moveWord m r) s)) :
    Moves c i m r s ((beforeMove i m r s).doMove i.cell (viewOf i s) (sideOf r) m).1
      ((beforeMove i m r s).doMove i.cell (viewOf i s) (sideOf r) m).2 := by
  intro hi
  rw [h, issueStep_of_issues hi]
  exact ⟨rfl, rfl⟩

end Sys2Proof.Safety
end

