-- ==== Sys2Proof/Tests/Slice0.lean ====
section
/-! SUPPORT. Tests: for the hypotheses of every statement a state and operands that meet them, commands with an operand out of its range,
words of the voice engine written out from the tables of chapter 13, the command of chapter 16's worked example, and a few single steps. -/

namespace Sys2Proof.Tests

open Sys2Proof Sys2Proof.Machine Sys2Proof.Safety

set_option Elab.async false

/-! ## Builders -/

/-- A command on ring pair 0: its target and its parameters as bytes. -/
def rawCmd (target : Nat) (l : List Byte) : Packet :=
  { source := .ring 0, magic := 0x4659, version := 4, flags := 0, status := 0, sequence := 7, target := BitVec.ofNat 32 target,
    paramLen := BitVec.ofNat 32 l.length, part := 0, parts := 1, sourceDevice := 0, rsvd := zeroBytes 7, params := l, tag := [] }

/-- One parameter of a command (R402): its type and its value. -/
def tlv (typ : Nat) (v : List Byte) : List Byte := beBytes 2 typ ++ beBytes 2 v.length ++ v ++ zeroBytes (pad4 v.length - v.length)

/-- A command on ring pair 0: scope, ID and parameters by type, length and number. -/
def cmd (scope id : Nat) (l : List (Nat × Nat × Nat)) : Packet :=
  rawCmd (scope * 2 ^ 28 + id) (l.flatMap (fun q => tlv q.1 (beBytes q.2.1 q.2.2)))

/-- What a command's own rules are given, if everything before them passes and `H` holds of it. -/
def takes (op n : Nat) (p : Packet) (s : State) (H : Ctx → Bool) : Bool :=
  decide (p.source = .ring n) && s.damiumTakes && decide ((s.ring n).held = [] ∧ (s.ring n).replyWait = false) &&
  decide (p.magic = 0x4659 ∧ p.paramLen.toNat ≤ 16352) && decide (headerRefusal s op (opSpec? op) (ringPacket p) = none) &&
  deviceHere s (ringPacket p) &&
  (match (opSpec? op).map (fun o => admitCommand s op o (ringPacket p) false) with | some (.inr c) => H c | _ => false)

/-- A command that is taken, with what a statement asks beside. -/
theorem taken {op n : Nat} {p : Packet} {s : State} {H : Ctx → Prop} [DecidablePred H] (h : takes op n p s (fun c => decide (H c)) = true) :
    ∃ c, Taken op n p s c ∧ H c := by
  unfold takes at h
  simp only [Bool.and_eq_true, decide_eq_true_eq] at h
  obtain ⟨⟨⟨⟨⟨⟨h1, h2⟩, h3⟩, h4⟩, h5⟩, h6⟩, h7⟩ := h
  split at h7
  · rename_i c hc
    exact ⟨c, ⟨⟨h1, h2, h3, h4⟩, h5, h6, hc⟩, of_decide_eq_true h7⟩
  · cases h7

/-- A command admitted from ring pair 0, with what a statement asks beside. -/
theorem admitted {op : Nat} {p : Packet} {s : State} {H : Ctx → Prop} [DecidablePred H] (h : takes op 0 p s (fun c => decide (H c)) = true) :
    ∃ c, Admitted op p s s c ∧ H c :=
  let ⟨c, h1, h2⟩ := taken h
  ⟨c, admitted_of_taken h1, h2⟩

theorem admitted_alone {op : Nat} {p : Packet} {s : State} (h : takes op 0 p s (fun _ => true) = true) : ∃ c, Admitted op p s s c :=
  let ⟨c, h1, _⟩ := admitted (H := fun _ => True) (by simpa using h)
  ⟨c, h1⟩

/-! ## States -/

/-- Channel 5 in a state, in slot 5 of block 0. -/
def held (x : ChState) (f : Channel → Channel) : State :=
  State.reset.setChannel 5 (f { state := x, slot := some 5, block := 0, runState := x })

/-- Both legs bound to TDM slots. -/
def tdmLegs (v : Channel) : Channel :=
  { v with legA := { kind := .tdm, bound := true, highway := 0, slot := 1 }, legB := { kind := .tdm, bound := true, highway := 0, slot := 2 } }

/-- Both legs bound to RTP. -/
def rtpLegs (v : Channel) : Channel :=
  { v with legA := { kind := .rtp, bound := true, dstPort := 4000, srcPort := 4002 },
           legB := { kind := .rtp, bound := true, dstPort := 4004, srcPort := 4006 } }

def rtpHeld : State := held .active rtpLegs

def blankGone : State := { State.reset with life := { State.reset.life with keyBlank := false } }

def trapped (n : Nat) : State := State.reset.modCell n (fun c => { c with trap := some { cause := .watchdog, code := 0 } })

/-- The key of an IPv4 datagram from and to address 0, port 0. -/
def flowKey : List Byte := [0, 17] ++ zeroBytes 38

def flowCmd : Packet := rawCmd 0 (tlv 1 (beBytes 4 9) ++ tlv 3 (beBytes 4 5) ++ tlv 4 [0] ++ tlv 5 [4] ++ tlv 0x40 flowKey)

/-- The change that FLOW_INSERT asks for on a device after reset. -/
def asked (c : Ctx) : FlowChange := .insert (flowWith c.params (State.reset.newFlow ((paramBytes? c.params 0x40).getD [])))

def flowEntry : FlowEntry :=
  { key := flowKey, id := 9, device := 0, channel := 5, leg := 0, action := .drop, srtp := none, latch := false, counts := [] }

def withFlow (s : State) (k : Option Nat) : State := { s with flows := { s.flows with cam := [{ flowEntry with action := .rtp, srtp := k }] } }

def flowed : State := { State.reset with flows := { State.reset.flows with cam := [flowEntry] } }

/-- A stack of this device, its root, and device 1, which nothing reaches. -/
def stackRoot : State := { State.reset with stack := { State.reset.stack with topology := .ring, links := 3, members := [0, 1] } }

def srtpCtx : SrtpCtx := { newContext with key0 := zeroBytes 4 ++ List.replicate 30 1 }

def keyed : State := { State.reset with flows := { State.reset.flows with contexts := [(65535, srtpCtx)] } }

/-- Ethernet, IPv4, UDP and RTP headers. -/
def template4 : List Byte := zeroBytes 12 ++ [8, 0, 0x45] ++ zeroBytes 8 ++ [17] ++ zeroBytes 18 ++ [0x80] ++ zeroBytes 11

def templated : State :=
  { State.reset with flows := { State.reset.flows with templates := [(65535, { kind := 0, udpCsum := true, bytes := template4 })] } }

/-- Channel 5 with a host generator table beside it. -/
def toned : State :=
  let s := held .active tdmLegs
  { s with store := { s.store with tables := [(0x100, zeroBytes 6 ++ [2] ++ zeroBytes 25)] } }

/-- Channel 5 with a generator or plays wanted on leg B. -/
def playing (tone : Bool) (n : Nat) : State :=
  held .active (fun v => (tdmLegs v).setLegMedia 1 { toneWanted := tone, playsWanted := n })

def somePrompt : Prompt := { encoding := 0, rate := 8000, samples := 80, pieceSamples := 80, image := [] }

def prompted : State :=
  let s := held .active tdmLegs
  { s with store := { s.store with prompts := [(65535, somePrompt)] } }

/-- Every highway in NARROW mode. -/
def onHighway (s : State) : State :=
  { s with tdm := { s.tdm with highways := (List.range 32).map (fun h => (h, { mode := .narrow })) } }

/-- One table load under way. -/
def loading : State :=
  let s := State.reset
  { s with store := { s.store with loads := [{ ref := refOf 0x0710 (cmd 0 0 []) false, id := 0x200, source := .bytes [] }] } }

/-- A prompt image of one piece of 80 samples at the start of the host area. -/
def imaged : State :=
  let s := State.reset
  let img := beBytes 4 0x575A5052 ++ [0, 1, 1, 0] ++ beBytes 4 8000 ++ beBytes 4 80 ++ beBytes 4 1 ++ beBytes 4 80 ++ zeroBytes 8 ++
    beBytes 4 40 ++ beBytes 4 16 ++ zeroBytes 8 ++ beBytes 4 80 ++ zeroBytes 4
  { s with store := { s.store with dram := memWrite [] hostStart img } }

/-- HOST owns PTP. -/
def hostTime : State := { State.reset with time := { State.reset.time with hostOwner := true } }

/-- Ports up. -/
def upPorts (l : List Nat) : State := l.foldl (fun s i => s.modPort i (fun p => { p with up := true })) State.reset

/-- Port 3 in another mode than port 2. -/
def onePortOff : State := State.reset.modPort 3 (fun p => { p with mode := .g25 })

/-- Frost drives, the controller in a state. -/
def ctrlIn (k : CtrlState) : State := { State.reset with clocks := { State.reset.clocks with ctrl := k, frost := true } }

/-- The servo has had a sample. -/
def sampled : State := { State.reset with time := { State.reset.time with lastSample := some 0 } }

/-- A query with CLEAR. -/
def clearCmd (scope id : Nat) : Packet := { cmd scope id [] with flags := 0x10 }

/-- Counters that have counted. -/
def counted : State :=
  let s := State.reset
  { s with fylos := { s.fylos with counts := [(0, 1)] }, clocks := { s.clocks with counts := [(0, 1)] }, log := { s.log with corrected := 1 } }

/-- What CH_SET_LEG asks of a channel, a leg and its parameters. -/
def legTaken (u : State) (c : Ctx) : Bool :=
  let v := u.channel c.id
  let leg := paramNat c.params 0x40 0
  let old := v.leg leg
  let l := u.askedLeg c.params old
  let t := if freshBinding c.params old = true ∧ l.kind = .rtp then dropSettings v.accepted .codec leg else v.accepted
  decide (settingsRow v.state = none ∧ (∀ k ∈ askedNeeds c.params old l, paramHas c.params k = true) ∧
    (∀ q ∈ c.params, q.typ = 0x40 ∨ q.typ = 0x41 ∨ q.typ ∈ legTypes l.kind) ∧ (l.kind = .none → leg = 0 → paramHas c.params 0x41 = false) ∧
    u.legRefusal c.id leg l = none ∧ u.admitChange v (chargeOf v.wide t (v.setLeg leg l).legA (v.setLeg leg l).legB) = none ∧
    u.unitsFit v.block (v.reservedAt leg) (u.legUnits t v.rate leg l) = true)

/-- Block 15 in a power mode. -/
def blockIn (m : PowerMode) : State :=
  { State.reset with clocks := { State.reset.clocks with power := [(15, { mode := m }), (31, { mode := m })] } }

/-- Channel 5 OPEN, a template and a receive context beside it. -/
def openTemplated : State := { held .opened tdmLegs with flows := templated.flows }

/-- This device in a ring with device 7, at the far end of port 1. -/
def memberSeven : MemberInfo :=
  { fwVersion := 0x01000000, fwHigh := 0x01000000, formats := 2, fylosMin := 3, fylosMax := 4, lacks := [], links := [⟨0, 0, 4⟩] }

def ringed : State :=
  { State.reset with stack := { State.reset.stack with topology := .ring, links := 3, members := [0, 7], infos := [(7, memberSeven)], ports := [(1, { lanes := 4, peer := some 7 })] } }

/-- The end of the device's own ring with device 0, which is the root. -/
def follower : State :=
  let root := { memberSeven with links := [⟨0, 7, 4⟩] }
  let k := { State.reset.stack with number := 7, topology := .ring, links := 3, members := [0, 7], infos := [(0, root)], ports := [(1, { lanes := 4, peer := some 0 })] }
  { State.reset with stack := k }

/-- Channel 5 with a table image of a kind for 8 kHz at ID 0x3FF. -/
def tabled (kind : Byte) : State :=
  let s := held .active tdmLegs
  { s with store := { s.store with tables := [(0x3FF, zeroBytes 6 ++ [kind] ++ zeroBytes 25)] } }

/-- A UDP command with a tag. -/
def udpCmd (tag : List Byte) : Packet := { cmd 0 0 [] with source := .udp [10, 0, 0, 1] 5000 0, flags := 4, tag := tag }

/-- A device with a UDP key, and SEQUENCE 7 the highest accepted, its command in the cache. -/
def cachedState : State :=
  let p := udpCmd []
  let s := State.reset
  { s with life := { s.life with udpKeys := [(0, zeroBytes 32)] },
           fylos := { s.fylos with first := false, highest := 7, window := [0],
                                   cache := [{ sequence := 7, header := headerKey 0x0104 p, params := [], replies := [], completions := [] }] } }

/-! ## Fylos commands (chapter 16) -/

theorem witness_dev_hello : ∃ c, Admitted 0x0101 (cmd 0 0 []) (State.reset) (State.reset) c ∧ (c.ref.version = 3 → (partition ringPartLimit [nonceTlv State.reset, supportedVersions, rep 0x400 4 0, rep 0x401 1 0] []).length ≤ 1) :=
  admitted (by decide +kernel)

theorem witness_dev_udp_key_set : ∃ c, Admitted 0x0102 (rawCmd 0 (tlv 0x40 (List.replicate 32 1))) (State.reset) (State.reset) c ∧ (State.reset.udpKey? = none) :=
  admitted (by decide +kernel)

theorem witness_dev_notice_config : ∃ c, Admitted 0x0103 (cmd 0 0 [(0x40, 4, 3), (0x45, 4, 5)]) (State.reset) (State.reset) c ∧ (paramNat? c.params 0x41 = none) :=
  admitted (by decide +kernel)

theorem witness_dev_reset : ∃ c, Admitted 0x0105 (cmd 0 0 []) (State.reset) (State.reset) c ∧ (True) :=
  admitted (by decide +kernel)

theorem witness_dev_lifecycle : ∃ c, Admitted 0x0106 (cmd 0 0 [(0x40, 1, 3), (0x41, 4, 0)]) (blankGone) (blankGone) c ∧ (paramBytes? c.params 0x41 = some (blankGone.fylos.bootNonce.take 4) ∧ blankGone.life.lifeCycle < paramNat c.params 0x40 0 ∧ blankGone.life.keyBlank = false) :=
  admitted (by decide +kernel)

theorem witness_dev_arb_set : ∃ c, Admitted 0x0107 (cmd 0 0 [(0x49, 4, 255)]) (State.reset) (State.reset) c ∧ (True) :=
  admitted (by decide +kernel)

theorem witness_block_config : ∃ c, Admitted 0x0110 (cmd 2 15 [(0x40, 1, 0)]) (State.reset) (State.reset) c ∧ (paramNat? c.params 0x40 = some 0 ∧ (State.reset.blockSums c.id).1 ≤ 99960) :=
  admitted (by decide +kernel)

theorem witness_block_reset : ∃ c, Admitted 0x0112 (cmd 2 15 []) (State.reset) (State.reset) c ∧ (State.reset.holdsChannels c.id = false ∧ (State.reset.region (blockRegion c.id)).underReset = false) :=
  admitted (by decide +kernel)

theorem witness_cell_reset : ∃ c, Admitted 0x0113 (cmd 3 127 []) (trapped 127) (trapped 127) c ∧ (((trapped 127).block (cellBlock c.id)).underReset = false ∧ ((trapped 127).region (blockRegion (cellBlock c.id))).underReset = false ∧ ((trapped 127).cell c.id).trap.isSome = true ∧ outstandingOf (trapped 127) (.ring 0) < 1024) :=
  admitted (by decide +kernel)

theorem witness_region_reset : ∃ c, Admitted 0x0114 (cmd 1 3 []) (State.reset) (State.reset) c ∧ ((regionBlocks c.id).all (fun b => !(State.reset.holdsChannels b)) = true) :=
  admitted (by decide +kernel)

theorem witness_region_arb_set : ∃ c, Admitted 0x0115 (cmd 1 3 [(0x46, 4, 1)]) (State.reset) (State.reset) c ∧ (True) :=
  admitted (by decide +kernel)

theorem witness_ch_open : ∃ c, Admitted 0x0201 (cmd 4 16383 [(0x40, 1, 0), (0x41, 1, 15)]) (State.reset) (State.reset) c ∧ ((State.reset.channel c.id).state = .idle ∧ blockOf c.id (paramNat c.params 0x41 0xFF) = some 15 ∧ State.reset.place 15 c.id = .inl 1023 ∧ State.reset.blockMode 15 = .run) :=
  admitted (by decide +kernel)

theorem witness_ch_activate : ∃ c, Admitted 0x0203 (cmd 4 5 []) ((held .opened tdmLegs)) ((held .opened tdmLegs)) c ∧ (((held .opened tdmLegs).channel c.id).state = .opened ∧ ((held .opened tdmLegs).channel c.id).legA.bound = true ∧ ((held .opened tdmLegs).channel c.id).legA.kind ≠ .none ∧ ((held .opened tdmLegs).channel c.id).legB.bound = true ∧ (held .opened tdmLegs).admission ((held .opened tdmLegs).channel c.id).block (0, 0) ((held .opened tdmLegs).channel c.id).charge = none) :=
  admitted (by decide +kernel)

theorem witness_ch_hold : ∃ c, Admitted 0x0204 (cmd 4 5 []) ((held .active id)) ((held .active id)) c ∧ (((held .active id).channel c.id).state = .active) :=
  admitted (by decide +kernel)

theorem witness_ch_resume : ∃ c, Admitted 0x0205 (cmd 4 5 []) ((held .hold id)) ((held .hold id)) c ∧ (((held .hold id).channel c.id).state = .hold) :=
  admitted (by decide +kernel)

theorem witness_ch_drain : ∃ c, Admitted 0x0206 (cmd 4 5 []) ((held .hold id)) ((held .hold id)) c ∧ (((held .hold id).channel c.id).state = .hold) :=
  admitted (by decide +kernel)

theorem witness_ch_close : ∃ c, Admitted 0x0207 (cmd 4 5 []) ((held .faulted id)) ((held .faulted id)) c ∧ (((held .faulted id).channel c.id).state ≠ .idle ∧ ((held .faulted id).channel c.id).state ≠ .migrating) :=
  admitted (by decide +kernel)

theorem witness_ch_set_leg : ∃ c, Admitted 0x0202 (cmd 4 5 [(0x40, 1, 0), (0x41, 1, 1), (0x42, 4, 31), (0x43, 4, 127), (0x44, 1, 0)]) ((onHighway (held .opened id))) ((onHighway (held .opened id))) c ∧ (legTaken (onHighway (held .opened id)) c = true) :=
  admitted (by decide +kernel)

theorem witness_ch_move : ∃ c, Admitted 0x0208 (cmd 4 5 [(0x41, 1, 3)]) ((held .active id)) ((held .active id)) c ∧ (((held .active id).channel c.id).state = .active ∧ paramNat c.params 0x40 (held .active id).stack.number = (held .active id).stack.number ∧ blockOf c.id (paramNat c.params 0x41 0xFF) = some 3 ∧ (held .active id).slotHere 3 c.id = .inl 5) :=
  admitted (by decide +kernel)

theorem witness_ch_recover : ∃ c, Admitted 0x0209 (cmd 4 5 []) ((held .faulted id)) ((held .faulted id)) c ∧ (((held .faulted id).channel c.id).state = .faulted ∧ (held .faulted id).recoverPlace c.id = .inl (0, 5) ∧ outstandingOf (held .faulted id) (.ring 0) < 1024) :=
  admitted (by decide +kernel)

theorem witness_ch_sched_set : ∃ c, Admitted 0x020b (cmd 4 5 [(1, 4, 47)]) ((held .active id)) ((held .active id)) c ∧ (True) :=
  admitted (by decide +kernel)

theorem witness_flow_insert : ∃ c, Admitted 0x0301 (flowCmd) (State.reset) (State.reset) c ∧ (State.reset.stacked = false ∧ State.reset.flowRefusal (asked c) = none ∧ (applyChange State.reset.flows (asked c)).2 = true) :=
  admitted (by decide +kernel)

theorem witness_flow_remove : ∃ c, Admitted 0x0302 (cmd 0 0 [(1, 4, 9)]) (flowed) (flowed) c ∧ (flowed.stacked = false ∧ flowed.flowRefusal (.remove (paramNat c.params 1 0)) = none ∧ (applyChange flowed.flows (.remove (paramNat c.params 1 0))).2 = true) :=
  admitted (by decide +kernel)

theorem witness_flow_modify : ∃ c, Admitted 0x0303 (cmd 0 0 [(1, 4, 9), (4, 1, 1)]) (flowed) (flowed) c ∧ (flowed.stacked = false ∧ flowById flowed.flows (paramNat c.params 1 0) = some flowEntry ∧ flowed.flowRefusal (.modify (flowWith c.params (flowSettingsOf flowEntry))) = none ∧ (applyChange flowed.flows (.modify (flowWith c.params (flowSettingsOf flowEntry)))).2 = true) :=
  admitted (by decide +kernel)

theorem witness_flow_remove_stacked : ∃ c, Admitted 0x0302 (cmd 0 0 [(1, 4, 9)]) (stackRoot) (stackRoot) c ∧ (stackRoot.stacked = true ∧ stackRoot.isFollower = false) :=
  admitted (by decide +kernel)

theorem witness_srtp_set : ∃ c, Admitted 0x0305 (cmd 0 0 [(0x40, 4, 65535), (9, 1, 1)]) (keyed) (keyed) c ∧ (tabFind? keyed.flows.contexts (paramNat c.params 0x40 0) = some srtpCtx ∧ paramFlag c.params 10 false = false ∧ keyed.contextFault (paramNat c.params 0x40 0) (some srtpCtx) (contextWith c.params srtpCtx) = none) :=
  admitted (by decide +kernel)

theorem witness_srtp_clear : ∃ c, Taken 0x0306 0 (cmd 0 0 [(0x40, 4, 65535)]) (keyed) c ∧ ((tabFind? keyed.flows.contexts (paramNat c.params 0x40 0)).isSome = true ∧ keyed.contextInUse (paramNat c.params 0x40 0) = false) :=
  taken (by decide +kernel)

theorem witness_srtp_clear_in_use : ∃ c, Admitted 0x0306 (cmd 0 0 [(0x40, 4, 65535)]) ((withFlow keyed (some 65535))) ((withFlow keyed (some 65535))) c ∧ ((tabFind? (withFlow keyed (some 65535)).flows.contexts (paramNat c.params 0x40 0)).isSome = true ∧ (withFlow keyed (some 65535)).contextInUse (paramNat c.params 0x40 0) = true) :=
  admitted (by decide +kernel)

theorem witness_template_load : ∃ c, Admitted 0x0308 (rawCmd 0 (tlv 0x40 (beBytes 4 65535) ++ tlv 0x41 [0] ++ tlv 0x43 template4)) (State.reset) (State.reset) c ∧ (paramBytes? c.params 0x43 = some template4 ∧ templateParses (paramNat c.params 0x41 0) template4 = true ∧ paramFlag c.params 0x42 true = true ∧ State.reset.flows.templates.length < 4096) :=
  admitted (by decide +kernel)

theorem witness_template_remove : ∃ c, Admitted 0x0309 (cmd 0 0 [(0x40, 4, 65535)]) (templated) (templated) c ∧ (tabHas templated.flows.templates (paramNat c.params 0x40 0) = true ∧ templated.egressRecords.any (fun l => l.template == paramNat c.params 0x40 0) = false) :=
  admitted (by decide +kernel)

theorem witness_pe_config : ∃ c, Admitted 0x030a (cmd 0 0 [(0x41, 4, 100000), (0x43, 4, 65535)]) (State.reset) (State.reset) c ∧ ((flowAll State.reset.flows).any (fun e => keyPort e.key == paramNat c.params 0x43 State.reset.flows.udpPort) = false) :=
  admitted (by decide +kernel)

theorem witness_echo_set : ∃ c, Admitted 0x0401 (cmd 4 5 [(1, 1, 1), (3, 8, 260000000)]) ((held .active tdmLegs)) ((held .active tdmLegs)) c ∧ (paramFlag c.params 19 false = false ∧ (held .active tdmLegs).admitChange ((held .active tdmLegs).channel c.id) (chargeOf ((held .active tdmLegs).channel c.id).wide (mergeSettings ((held .active tdmLegs).channel c.id).accepted (settingsOf .echo 0 (c.params.filter (fun q => q.typ != 19)))) ((held .active tdmLegs).channel c.id).legA ((held .active tdmLegs).channel c.id).legB) = none) :=
  admitted (by decide +kernel)

theorem witness_playout_set : ∃ c, Admitted 0x0501 (cmd 4 5 [(2, 8, 10000000), (3, 8, 500000000)]) ((held .active tdmLegs)) ((held .active tdmLegs)) c ∧ (let v := (held .active tdmLegs).channel c.id; let l := mergeSettings v.accepted (settingsOf .playout 0 (c.params.filter (fun q => q.typ != 9))); settingNat l .playout 0 2 (ms 20) ≤ settingNat l .playout 0 4 (ms 40) ∧ settingNat l .playout 0 4 (ms 40) ≤ settingNat l .playout 0 3 (ms 200) ∧ paramFlag c.params 9 false = false) :=
  admitted (by decide +kernel)

theorem witness_codec_set : ∃ c, Admitted 0x0601 (cmd 4 5 [(0x40, 1, 1), (2, 8, 60000000)]) (rtpHeld) (rtpHeld) c ∧ (let v := rtpHeld.channel c.id; let leg := paramNat c.params 0x40 0; ∃ l ∈ (match codecOutcome c rtpHeld with | .inl l => [l] | .inr _ => []), (v.leg leg).kind = .rtp ∧ rtpHeld.admitChange v (chargeOf v.wide (mergeSettings v.accepted l) v.legA v.legB) = none ∧ rtpHeld.unitsFit v.block (v.reservedAt leg) (rtpHeld.legUnits (mergeSettings v.accepted l) v.rate leg (v.leg leg)) = true) :=
  admitted (by decide +kernel)

theorem witness_resample_set : ∃ c, Admitted 0x0603 (cmd 4 5 [(1, 1, 7), (2, 4, 0)]) ((held .active tdmLegs)) ((held .active tdmLegs)) c ∧ (let s := held .active tdmLegs; let v := s.channel c.id; let l := settingsOf .resample (paramNat c.params 1 0) (c.params.filter (fun q => q.typ != 1)); let w := s.reservedWith v (mergeSettings v.accepted l); (namedKeys (paramNat c.params 1 0)).all (fun k => !(v.stream k).present) = true ∧ s.unitsFit v.block v.reservedUnits w.reservedUnits = true) :=
  admitted (by decide +kernel)

theorem witness_gain_set : ∃ c, Admitted 0x0704 (cmd 4 5 [(0x40, 1, 1), (1, 2, 240)]) ((held .active tdmLegs)) ((held .active tdmLegs)) c ∧ (∀ k ∈ [3, 4, 5, 6], paramNat? c.params k = none) :=
  admitted (by decide +kernel)

theorem witness_user_hook_set : ∃ c, Admitted 0x0c21 (cmd 4 5 [(0x40, 4, 0xFFFFFFFF), (0x42, 4, 200)]) ((held .active tdmLegs)) ((held .active tdmLegs)) c ∧ ((held .active tdmLegs).admitChange ((held .active tdmLegs).channel c.id) (chargeOf ((held .active tdmLegs).channel c.id).wide (mergeSettings ((held .active tdmLegs).channel c.id).accepted (c.params.map (fun q => (setKey .hook 0 q.typ, q.val)))) ((held .active tdmLegs).channel c.id).legA ((held .active tdmLegs).channel c.id).legB) = none ∧ paramNat? c.params 0x40 = some noneValue ∧ paramNat? c.params 0x41 = none) :=
  admitted (by decide +kernel)

theorem witness_resample_reset : ∃ c, Admitted 0x0604 (cmd 4 5 []) ((held .active tdmLegs)) ((held .active tdmLegs)) c ∧ (paramNat? c.params 1 = none) :=
  admitted (by decide +kernel)

theorem witness_tone_detect_set : ∃ c, Admitted 0x0701 (cmd 4 5 [(0x40, 1, 1), (3, 8, 200000000)]) ((held .active tdmLegs)) ((held .active tdmLegs)) c ∧ (paramAll c.params 1 = [] ∧ paramNat? c.params 2 = none ∧ paramHas c.params 2 = false) :=
  admitted (by decide +kernel)

theorem witness_tone_play : ∃ c, Admitted 0x0702 (cmd 4 5 [(0x40, 1, 1), (0x41, 4, 0x100)]) (toned) (toned) c ∧ (toned.tableKind (paramNat c.params 0x41 0) = some (.generator, 0) ∧ toned.unitsFit (toned.channel c.id).block ((toned.channel c.id).reservedAt 3) (playerUnits (toned.channel c.id).accepted (toned.channel c.id) 1 0) = true) :=
  admitted (by decide +kernel)

theorem witness_tone_stop : ∃ c, Admitted 0x0703 (cmd 4 5 [(0x40, 1, 1)]) ((playing true 0)) ((playing true 0)) c ∧ (((((playing true 0)).channel c.id).legMedia 1).toneWanted = true) :=
  admitted (by decide +kernel)

theorem witness_prompt_play : ∃ c, Admitted 0x0722 (cmd 4 5 [(0x40, 1, 1), (0x41, 4, 65535)]) (prompted) (prompted) c ∧ ((paramAll c.params 0x41).map beNat = [65535] ∧ tabFind? prompted.store.prompts 65535 = some somePrompt ∧ paramFlag c.params 0x46 false = false ∧ prompted.unitsFit (prompted.channel c.id).block ((prompted.channel c.id).reservedAt 5) (promptUnits (prompted.channel c.id).accepted (prompted.channel c.id) 1 [8]) = true) :=
  admitted (by decide +kernel)

theorem witness_prompt_stop : ∃ c, Admitted 0x0723 (cmd 4 5 [(0x40, 1, 1)]) ((playing false 2)) ((playing false 2)) c ∧ ((((playing false 2).channel c.id).legMedia 1).playsWanted ≠ 0) :=
  admitted (by decide +kernel)

theorem witness_table_load : ∃ c, Admitted 0x0710 (rawCmd 0 (tlv 0x40 (beBytes 4 0x3FF) ++ tlv 0x43 [1, 2])) (loading) (loading) c ∧ (let q := JobSource.bytes [1, 2]; (match loadSource c loading with | .inl z => decide (z = q) | .inr _ => false) = true ∧ 0x100 ≤ paramNat c.params 0x40 0 ∧ originalOver (loading.sourceBytes q) 65536 = false ∧ loading.store.loads.length ≤ loadLimit ∧ loading.store.loads ≠ []) :=
  admitted (by decide +kernel)

theorem witness_table_delete : ∃ c, Admitted 0x0711 (cmd 0 0 [(0x40, 4, 0x100)]) (toned) (toned) c ∧ ((toned.tableImage (paramNat c.params 0x40 0)).isSome = true ∧ 0x100 ≤ paramNat c.params 0x40 0 ∧ toned.tableUses (paramNat c.params 0x40 0) = 0) :=
  admitted (by decide +kernel)

theorem witness_prompt_load : ∃ c, Admitted 0x0720 (cmd 0 0 [(0x40, 4, 65535), (0x41, 8, hostStart), (0x42, 4, 56)]) (imaged) (imaged) c ∧ (let a := paramNat c.params 0x41 0; let k := paramNat c.params 0x42 0; imaged.inSight a k = true ∧ promptHeaderOk (memRead imaged.store.dram a k) = true ∧ promptPiecesOk (memRead imaged.store.dram a k) = true ∧ imaged.playing (paramNat c.params 0x40 0) = 0 ∧ imaged.promptBytes + imaged.promptsComing + k - imaged.promptSize (paramNat c.params 0x40 0) ≤ imaged.store.storeSize) :=
  admitted (by decide +kernel)

theorem witness_prompt_delete : ∃ c, Admitted 0x0721 (cmd 0 0 [(0x40, 4, 65535)]) (prompted) (prompted) c ∧ ((tabFind? prompted.store.prompts (paramNat c.params 0x40 0)).isSome = true ∧ prompted.playing (paramNat c.params 0x40 0) = 0) :=
  admitted (by decide +kernel)

theorem witness_prompt_store_config : ∃ c, Admitted 0x0725 (cmd 0 0 [(0x40, 8, 1073741824), (0x41, 8, 268435456)]) (State.reset) (State.reset) c ∧ (let a := paramNat c.params 0x40 0; let b := paramNat c.params 0x41 0; a ≤ 1073741824 ∧ a % mib = 0 ∧ 4 * mib ≤ b ∧ b ≤ 256 * mib ∧ State.reset.resizeRefusal a b State.reset.store.traceSize = none ∧ State.reset.store.prompts = []) :=
  admitted (by decide +kernel)

theorem witness_trace_config : ∃ c, Admitted 0x0e02 (cmd 0 0 [(0x40, 1, 1)]) (State.reset) (State.reset) c ∧ (paramNat? c.params 0x42 = none ∧ State.reset.resizeRefusal State.reset.store.storeSize State.reset.store.cacheSize State.reset.store.traceSize = none) :=
  admitted (by decide +kernel)

theorem witness_trace_dump : ∃ c, Admitted 0x0e03 (cmd 0 0 [(0x43, 8, hostStart)]) (State.reset) (State.reset) c ∧ (paramHas c.params 0x43 = true ∧ paramNat c.params 0x43 0 % 16 = 0 ∧ State.reset.inSight (paramNat c.params 0x43 0) 16 = true) :=
  admitted (by decide +kernel)

theorem witness_user_kernel_load : ∃ c, Admitted 0x0c20 (cmd 0 0 [(0x41, 8, hostStart), (0x42, 4, 64)]) (State.reset) (State.reset) c ∧ (let a := paramNat c.params 0x41 0; let k := paramNat c.params 0x42 0; State.reset.inSight a k = true ∧ originalOver (memRead State.reset.store.dram a k) 16448 = false ∧ State.reset.hookedChannels = 0) :=
  admitted (by decide +kernel)

theorem witness_tdm_group_config_reframes : ∃ c, Admitted 0x0801 (cmd 6 1 [(1, 1, 0)]) (State.reset) (State.reset) c ∧ (let g := State.reset.carryM (State.reset.group c.id) (groupWith c.params (State.reset.group c.id)); (State.reset.powerDomain 62).mode = .run ∧ reframes (State.reset.group c.id) g = true) :=
  admitted (by decide +kernel)

theorem witness_tdm_group_config_keeps : ∃ c, Admitted 0x0801 (cmd 6 1 [(8, 8, 124998)]) (State.reset) (State.reset) c ∧ (let g := State.reset.carryM (State.reset.group c.id) (groupWith c.params (State.reset.group c.id)); (State.reset.powerDomain 62).mode = .run ∧ reframes (State.reset.group c.id) g = false) :=
  admitted (by decide +kernel)

theorem witness_tdm_highway_config : ∃ c, Admitted 0x0802 (cmd 7 31 [(1, 1, 2), (2, 4, 511)]) (State.reset) (State.reset) c ∧ (paramNat? c.params 1 = some 2 ∧ State.reset.highwayBound c.id = false ∧ (State.reset.powerDomain 62).mode = .run) :=
  admitted (by decide +kernel)

theorem witness_tdm_loopback : ∃ c, Admitted 0x0803 (cmd 7 31 [(0x40, 1, 2)]) (State.reset) (State.reset) c ∧ (paramNat? c.params 0x41 = none) :=
  admitted (by decide +kernel)

theorem witness_tdm_loopback_slot : ∃ c, Admitted 0x0803 (cmd 7 31 [(0x40, 1, 1), (0x41, 4, 127)]) ((onHighway State.reset)) ((onHighway State.reset)) c ∧ (paramNat? c.params 0x41 = some 127 ∧ ((onHighway State.reset).highway c.id).beyond 127 = false) :=
  admitted (by decide +kernel)

theorem witness_time_config : ∃ c, Admitted 0x0901 (cmd 0 0 [(1, 1, 1)]) (State.reset) (State.reset) c ∧ (State.reset.isFollower = false ∧ paramNat? c.params 1 = some 1 ∧ State.reset.time.hostOwner ≠ true) :=
  admitted (by decide +kernel)

theorem witness_time_set : ∃ c, Admitted 0x0902 (cmd 0 0 [(0x40, 8, 2 ^ 64 - 1), (0x41, 4, 999999999)]) (State.reset) (State.reset) c ∧ (State.reset.isFollower = false) :=
  admitted (by decide +kernel)

theorem witness_time_step : ∃ c, Admitted 0x0903 (cmd 0 0 [(0x40, 8, 2 ^ 64 - 1)]) (State.reset) (State.reset) c ∧ (State.reset.isFollower = false ∧ paramInt? c.params 0x40 = some (-1)) :=
  admitted (by decide +kernel)

theorem witness_servo_config : ∃ c, Admitted 0x0905 (cmd 0 0 [(2, 4, 0x7FFFFFFF), (6, 4, 256)]) (State.reset) (State.reset) c ∧ (paramNat? c.params 1 = none ∧ paramNat? c.params 11 = none) :=
  admitted (by decide +kernel)

theorem witness_servo_sample : ∃ c, Admitted 0x0906 (cmd 0 0 [(0x40, 8, 5)]) (hostTime) (hostTime) c ∧ (hostTime.isFollower = false ∧ hostTime.time.hostOwner = true) :=
  admitted (by decide +kernel)

theorem witness_port_ts_config : ∃ c, Admitted 0x0907 (cmd 5 3 [(1, 8, 6553600)]) (State.reset) (State.reset) c ∧ (True) :=
  admitted (by decide +kernel)

theorem witness_ptp_send : ∃ c, Admitted 0x0908 (rawCmd 0x50000003 (tlv 0x40 (zeroBytes 60))) (hostTime) (hostTime) c ∧ (hostTime.time.hostOwner = true ∧ paramBytes? c.params 0x40 = some (zeroBytes 60) ∧ 60 + 4 ≤ (hostTime.port c.id).maxFrame ∧ paramFlag c.params 0x42 false = false) :=
  admitted (by decide +kernel)

theorem witness_port_config : ∃ c, Admitted 0x0a01 (cmd 5 3 [(3, 4, 9216)]) (State.reset) (State.reset) c ∧ (let q := portWith c.params (State.reset.port c.id); paramNat? c.params 1 = none ∧ paramBytes? c.params 2 = none ∧ q.bulkPfcMask.testBit q.mediaPcp = false ∧ q.preempt = (State.reset.port c.id).preempt) :=
  admitted (by decide +kernel)

theorem witness_shutter_load : ∃ c, Admitted 0x0a02 (rawCmd 0x50000003 (tlv 0x40 (beBytes 4 500000000) ++ tlv 0x41 (beBytes 8 1) ++ tlv 0x42 (beBytes 4 0) ++ tlv 0x43 (beBytes 4 0x9DCD6500))) (State.reset) (State.reset) c ∧ (let b := beBytes 4 0x9DCD6500; paramBytes? c.params 0x43 = some b ∧ scheduleFault { cycle := paramNat c.params 0x40 0, baseSeconds := paramNat c.params 0x41 0, baseNs := paramNat c.params 0x42 0, list := listWords 16384 b } b.length = none ∧ (State.reset.port c.id).pendingSchedule.isNone = true) :=
  admitted (by decide +kernel)

theorem witness_port_pair : ∃ c, Admitted 0x0a04 (cmd 5 2 [(0x40, 1, 1), (0x41, 1, 1)]) ((upPorts [2])) ((upPorts [2])) c ∧ (let s := upPorts [2]; c.id % 2 = 0 ∧ paramFlag c.params 0x40 false = true ∧ (s.port c.id).mode = (s.port (c.id + 1)).mode ∧ (s.pair (c.id / 2)).joined = false ∧ (s.port c.id).up = true) :=
  admitted (by decide +kernel)

theorem witness_clock_config : ∃ c, Admitted 0x0d01 (cmd 0 0 [(0x40, 1, 6), (0x40, 1, 0)]) ((ctrlIn .coast)) ((ctrlIn .coast)) c ∧ (repeatedParam c.params [] = none ∧ (ctrlIn .coast).clocks.ctrl = .coast ∧ (ctrlIn .coast).clocks.frost = true) :=
  admitted (by decide +kernel)

theorem witness_domain_gate : ∃ c, Admitted 0x0d03 (cmd 0 0 [(0x40, 4, 99), (0x41, 1, 6)]) (State.reset) (State.reset) c ∧ (let d := paramNat c.params 0x40 0; ungated d = false ∧ 48 ≤ d) :=
  admitted (by decide +kernel)

theorem witness_clkout_set : ∃ c, Admitted 0x0d04 (cmd 0 0 [(0x40, 4, 99), (0x42, 4, 1024), (0x43, 1, 1)]) (State.reset) (State.reset) c ∧ (paramNat? c.params 0x40 = some 99 ∧ 24 ≤ divisorOf 99 * paramNat c.params 0x42 State.reset.clocks.clkoutDivide) :=
  admitted (by decide +kernel)

theorem witness_tclk_out_set : ∃ c, Admitted 0x0d05 (cmd 0 0 [(0x40, 4, 125000000), (0x41, 1, 1)]) (State.reset) (State.reset) c ∧ (True) :=
  admitted (by decide +kernel)

theorem witness_power_set : ∃ c, Admitted 0x0d06 (cmd 0 0 [(0x40, 4, 15), (0x41, 1, 1)]) (State.reset) (State.reset) c ∧ (let d := paramNat c.params 0x40 0; paramHas c.params 0x42 = false ∧ paramNat? c.params 0x42 = none ∧ paramNat? c.params 0x41 = some 1 ∧ State.reset.depthKept d (powerModeOf 1) = true ∧ State.reset.mustRun d = false ∧ (State.reset.powerDomain d).mode ≠ powerModeOf 1) :=
  admitted (by decide +kernel)

theorem witness_stack_config : ∃ c, Admitted 0x0b01 (cmd 0 0 [(0x43, 1, 1)]) (State.reset) (State.reset) c ∧ (paramNat? c.params 0x40 = none ∧ paramNat? c.params 0x41 = none ∧ paramNat? c.params 0x42 = none ∧ linksAgree State.reset.stack.topology State.reset.stack.links = true ∧ State.reset.channels.any (fun e => e.2.state != .idle) = false ∧ State.reset.linksPowered State.reset.stack.links = true) :=
  admitted (by decide +kernel)

theorem witness_block_evacuate : ∃ c, Admitted 0x0b03 (cmd 2 15 []) (State.reset) (State.reset) c ∧ (paramNat c.params 0x40 State.reset.stack.number = State.reset.stack.number) :=
  admitted (by decide +kernel)

theorem witness_fw_load : ∃ c, Admitted 0x0c01 (cmd 0 0 [(0x40, 1, 1), (0x41, 8, hostStart), (0x42, 4, 56)]) (State.reset) (State.reset) c ∧ (State.reset.inSight (paramNat c.params 0x41 0) (paramNat c.params 0x42 0) = true ∧ State.reset.slotRuns (paramNat c.params 0x40 0) = false) :=
  admitted (by decide +kernel)

theorem witness_fw_activate : ∃ c, Admitted 0x0c02 (cmd 0 0 [(0x40, 1, 0)]) (State.reset) (State.reset) c ∧ ((State.reset.fwSlot (paramNat c.params 0x40 0)).held = true ∧ State.reset.life.selectorInUse = some 0) :=
  admitted (by decide +kernel)

theorem witness_fw_block_activate : ∃ c, Admitted 0x0c04 (cmd 2 15 [(0x40, 1, 0)]) (State.reset) (State.reset) c ∧ (let k := paramNat c.params 0x40 0; State.reset.holdsChannels c.id = false ∧ (State.reset.fwSlot k).held = true ∧ (State.reset.region (blockRegion c.id)).underReset = false ∧ State.reset.activateRefused c.id k = false ∧ State.reset.life.management = k) :=
  admitted (by decide +kernel)

theorem witness_image_enlarge : ∃ c, Admitted 0x0c05 (cmd 0 0 [(0x41, 8, hostStart), (0x42, 4, 56), (0x43, 8, hostStart + 64)]) (State.reset) (State.reset) c ∧ (let a := paramNat c.params 0x41 0; let k := paramNat c.params 0x42 0; let d := paramNat c.params 0x43 0; State.reset.inSight a k = true ∧ d % 16 = 0 ∧ State.reset.inSight d 16 = true) :=
  admitted (by decide +kernel)

theorem witness_image_reduce : ∃ c, Admitted 0x0c06 (cmd 0 0 [(0x41, 8, hostStart), (0x42, 4, 56), (0x43, 8, hostStart + 64)]) (State.reset) (State.reset) c ∧ (let a := paramNat c.params 0x41 0; let k := paramNat c.params 0x42 0; let d := paramNat c.params 0x43 0; State.reset.inSight a k = true ∧ d % 16 = 0 ∧ State.reset.inSight d 16 = true) :=
  admitted (by decide +kernel)

theorem witness_dev_query : ∃ c, Admitted 0x0104 (cmd 0 0 []) (State.reset) (State.reset) c ∧ (c.clear = false ∧ True) :=
  admitted (by decide +kernel)

theorem witness_block_query : ∃ c, Admitted 0x0111 (cmd 2 15 []) (State.reset) (State.reset) c ∧ (c.clear = false ∧ True) :=
  admitted (by decide +kernel)

theorem witness_ch_query : ∃ c, Admitted 0x020a (cmd 4 5 []) ((held .active tdmLegs)) ((held .active tdmLegs)) c ∧ (c.clear = false ∧ True) :=
  admitted (by decide +kernel)

theorem witness_flow_query : ∃ c, Admitted 0x0304 (cmd 0 0 [(1, 4, 9)]) (flowed) (flowed) c ∧ (c.clear = false ∧ flowById flowed.flows (paramNat c.params 1 0) = some flowEntry) :=
  admitted (by decide +kernel)

theorem witness_srtp_query : ∃ c, Admitted 0x0307 (cmd 0 0 [(0x40, 4, 65535)]) (keyed) (keyed) c ∧ (c.clear = false ∧ tabFind? keyed.flows.contexts (paramNat c.params 0x40 0) = some srtpCtx) :=
  admitted (by decide +kernel)

theorem witness_pe_counters : ∃ c, Admitted 0x030b (cmd 0 0 []) (State.reset) (State.reset) c ∧ (c.clear = false ∧ (c.ref.version = 3 → (partition ringPartLimit State.reset.peCounterTlvs []).length ≤ 1)) :=
  admitted (by decide +kernel)

theorem witness_echo_query : ∃ c, Admitted 0x0402 (cmd 4 5 []) ((held .active tdmLegs)) ((held .active tdmLegs)) c ∧ (c.clear = false ∧ ((held .active tdmLegs).channel c.id).state ≠ .idle ∧ (c.ref.version = 3 → (partition ringPartLimit (echoTlvs ((held .active tdmLegs).channel c.id)) []).length ≤ 1)) :=
  admitted (by decide +kernel)

theorem witness_playout_query : ∃ c, Admitted 0x0502 (cmd 4 5 []) (rtpHeld) (rtpHeld) c ∧ (c.clear = false ∧ True) :=
  admitted (by decide +kernel)

theorem witness_codec_query : ∃ c, Admitted 0x0602 (cmd 4 5 []) (rtpHeld) (rtpHeld) c ∧ (c.clear = false ∧ paramNat? c.params 0x40 = none) :=
  admitted (by decide +kernel)

theorem witness_resample_query : ∃ c, Admitted 0x0605 (cmd 4 5 []) ((held .active tdmLegs)) ((held .active tdmLegs)) c ∧ (c.clear = false ∧ True) :=
  admitted (by decide +kernel)

theorem witness_table_query : ∃ c, Admitted 0x0712 (cmd 0 0 []) (toned) (toned) c ∧ (c.clear = false ∧ paramNat? c.params 0x40 = none ∧ (c.ref.version = 3 → (partition ringPartLimit (toned.tableIds.map toned.tableTlvs).flatten []).length ≤ 1)) :=
  admitted (by decide +kernel)

theorem witness_prompt_query : ∃ c, Admitted 0x0724 (cmd 0 0 []) (prompted) (prompted) c ∧ (c.clear = false ∧ paramNat? c.params 0x40 = none) :=
  admitted (by decide +kernel)

theorem witness_tdm_query : ∃ c, Admitted 0x0804 (cmd 0 0 [(0x40, 4, 1)]) (State.reset) (State.reset) c ∧ (c.clear = false ∧ paramNat? c.params 0x40 = some 1 ∧ paramNat? c.params 0x41 = none ∧ paramHas c.params 0x42 = false ∧ (c.ref.version = 3 → (partition ringPartLimit (groupTlvs State.reset (State.reset.group 1)) []).length ≤ 1)) :=
  admitted (by decide +kernel)

theorem witness_time_query : ∃ c, Admitted 0x0904 (cmd 0 0 []) (sampled) (sampled) c ∧ (c.clear = false ∧ sampled.time.lastSample.isSome = true ∧ (c.ref.version = 3 → (partition ringPartLimit sampled.timeTlvs []).length ≤ 1)) :=
  admitted (by decide +kernel)

theorem witness_stack_query : ∃ c, Admitted 0x0b02 (cmd 0 0 []) (State.reset) (State.reset) c ∧ (c.clear = false ∧ True) :=
  admitted (by decide +kernel)

theorem witness_clock_query : ∃ c, Admitted 0x0d02 (cmd 0 0 []) (State.reset) (State.reset) c ∧ (c.clear = false ∧ True) :=
  admitted (by decide +kernel)

theorem witness_power_query : ∃ c, Admitted 0x0d07 (cmd 0 0 []) (State.reset) (State.reset) c ∧ (c.clear = false ∧ True) :=
  admitted (by decide +kernel)

theorem witness_error_log_read : ∃ c, Admitted 0x0e01 (cmd 0 0 []) (State.reset) (State.reset) c ∧ (c.clear = false ∧ True) :=
  admitted (by decide +kernel)

theorem witness_echo_coef_read : ∃ c, Admitted 0x0403 (cmd 4 5 [(0x40, 4, 0), (0x41, 4, 1)]) ((held .active tdmLegs)) ((held .active tdmLegs)) c ∧ (c.clear = false ∧ paramNat c.params 0x40 0 = 0 ∧ paramNat c.params 0x41 1 = 1 ∧ ((held .active tdmLegs).channel c.id).state ≠ .idle ∧ 0 + 1 ≤ partitions ((held .active tdmLegs).channel c.id).accepted ((held .active tdmLegs).channel c.id).wide ∧ c.ref.version = 4) :=
  admitted (by decide +kernel)

theorem witness_table_read : ∃ c, Admitted 0x0713 (cmd 0 0 [(0x40, 4, 0x100)]) (toned) (toned) c ∧ (c.clear = false ∧ toned.tableImage (paramNat c.params 0x40 0) = some (zeroBytes 6 ++ [2] ++ zeroBytes 25) ∧ c.ref.version = 4) :=
  admitted (by decide +kernel)

theorem witness_shutter_query : ∃ c, Admitted 0x0a03 (cmd 5 3 []) (State.reset) (State.reset) c ∧ (c.clear = false ∧ True) :=
  admitted (by decide +kernel)

theorem witness_port_counters : ∃ c, Admitted 0x0a05 (cmd 5 3 []) (State.reset) (State.reset) c ∧ (c.clear = false) :=
  admitted (by decide +kernel)

theorem witness_fw_query : ∃ c, Admitted 0x0c03 (cmd 0 0 []) (State.reset) (State.reset) c ∧ (c.clear = false ∧ True) :=
  admitted (by decide +kernel)

theorem witness_user_kernel_query : ∃ c, Admitted 0x0c22 (cmd 0 0 []) (State.reset) (State.reset) c ∧ (c.clear = false ∧ True) :=
  admitted (by decide +kernel)

theorem witness_sensor_query : ∃ c, Admitted 0x0e04 (cmd 0 0 []) (State.reset) (State.reset) c ∧ (True) :=
  admitted (by decide +kernel)

theorem witness_rs_rom_read : ∃ c, Admitted 0x0e10 (cmd 0 0 [(0x40, 4, 31), (0x41, 4, 1023)]) (State.reset) (State.reset) c ∧ (c.clear = false ∧ paramNat? c.params 0x40 = some 31 ∧ paramHas c.params 0x40 = true ∧ 1023 < romWords 31 ∧ 1023 + paramNat c.params 0x42 (romWords 31 - 1023) ≤ romWords 31) :=
  admitted (by decide +kernel)

theorem witness_dev_query_clear : ∃ c, Taken 0x0104 0 (clearCmd 0 0) (counted) c ∧ (c.clear = true) :=
  taken (by decide +kernel)

theorem witness_block_query_clear : ∃ c, Taken 0x0111 0 (clearCmd 2 15) (counted) c ∧ (c.clear = true) :=
  taken (by decide +kernel)

theorem witness_clock_query_clear : ∃ c, Taken 0x0d02 0 (clearCmd 0 0) (counted) c ∧ (c.clear = true) :=
  taken (by decide +kernel)

theorem witness_error_log_read_clear : ∃ c, Taken 0x0e01 0 (clearCmd 0 0) (counted) c ∧ (c.clear = true) :=
  taken (by decide +kernel)

theorem witness_dev_notice_config_forms :
    (∃ c, Admitted 0x0103 (rawCmd 0 (tlv 0x40 (beBytes 4 0) ++ tlv 0x41 [2] ++ tlv 0x43 [10, 0, 0, 1] ++ tlv 0x44 (beBytes 4 65535) ++ tlv 0x46 [4])) (State.reset) (State.reset) c ∧ (destKindOf ((paramNat? c.params 0x41).getD 0) ≠ (State.reset.dest 0).kind ∧ ∀ t ∈ destNeeds (destKindOf ((paramNat? c.params 0x41).getD 0)), paramHas c.params t = true)) :=
  admitted (by decide +kernel)

theorem witness_block_config_forms :
    (∃ c, Admitted 0x0110 (cmd 2 15 [(0x40, 1, 1)]) (State.reset) (State.reset) c ∧ paramNat? c.params 0x40 = some 1) ∧
    (∃ c, Admitted 0x0110 (cmd 2 15 []) (State.reset) (State.reset) c ∧ paramNat? c.params 0x40 = none) :=
  ⟨admitted (by decide +kernel), admitted (by decide +kernel)⟩

theorem witness_cell_reset_reserve :
    (∃ c, Admitted 0x0113 (cmd 3 7 []) (State.reset) (State.reset) c ∧ ((State.reset.block (cellBlock c.id)).reserve = some (cellLocal c.id) ∧ boundTo (State.reset.block (cellBlock c.id)) (cellLocal c.id) = [] ∧ (State.reset.block (cellBlock c.id)).underReset = false ∧ (State.reset.region (blockRegion (cellBlock c.id))).underReset = false ∧ outstandingOf State.reset c.ref.source < 1024)) :=
  admitted (by decide +kernel)

theorem witness_block_and_region_reset_room :
    (∃ c, Admitted 0x0112 (cmd 2 15 []) (State.reset) (State.reset) c ∧ outstandingOf State.reset c.ref.source < 1024) ∧
    (∃ c, Admitted 0x0114 (cmd 1 3 []) (State.reset) (State.reset) c ∧ outstandingOf State.reset c.ref.source < 1024) :=
  ⟨admitted (by decide +kernel), admitted (by decide +kernel)⟩

theorem witness_ch_open_asleep :
    (∃ c, Admitted 0x0201 (cmd 4 5 [(0x40, 1, 0), (0x41, 1, 15)]) (blockIn .sleep) (blockIn .sleep) c ∧ ((blockIn .sleep).blockMode 15 = .sleep ∧ (blockIn .sleep).place 15 c.id = .inl 5 ∧ ((blockIn .sleep).channel c.id).state = .idle)) ∧
    (∃ c, Admitted 0x0201 (cmd 4 5 [(0x40, 1, 0), (0x41, 1, 15)]) (blockIn .deepSleep) (blockIn .deepSleep) c ∧ ((blockIn .deepSleep).blockMode 15 = .deepSleep ∧ (blockIn .deepSleep).place 15 c.id = .inl 5 ∧ ((blockIn .deepSleep).channel c.id).state = .idle ∧ outstandingOf (blockIn .deepSleep) c.ref.source < 1024)) :=
  ⟨admitted (by decide +kernel), admitted (by decide +kernel)⟩

/-- An RTP leg, a STACK leg, leg B unbound, and one setting of a bound leg. -/
theorem witness_ch_set_leg_forms :
    (∃ c, Admitted 0x0202 (rawCmd 0x40000005 (tlv 0x40 [1] ++ tlv 0x41 [2] ++ tlv 0x46 (beBytes 4 65535) ++ tlv 0x47 [10, 0, 0, 1] ++ tlv 0x48 (beBytes 4 65535) ++ tlv 0x49 (beBytes 4 1) ++ tlv 0x4A (beBytes 4 9))) (openTemplated) (openTemplated) c ∧ legTaken openTemplated c = true) ∧
    (∃ c, Admitted 0x0202 (cmd 4 5 [(0x40, 1, 0), (0x41, 1, 3), (0x4D, 4, 7), (0x4E, 4, 16383), (0x4F, 1, 1)]) (openTemplated) (openTemplated) c ∧ legTaken openTemplated c = true) ∧
    (∃ c, Admitted 0x0202 (cmd 4 5 [(0x40, 1, 1), (0x41, 1, 0)]) (openTemplated) (openTemplated) c ∧ legTaken openTemplated c = true) ∧
    (∃ c, Admitted 0x0202 (cmd 4 5 [(0x40, 1, 1), (0x48, 4, 4000)]) (openTemplated.setChannel 5 (rtpLegs { state := .opened, slot := some 5, legA := { template := 65535 } })) (openTemplated.setChannel 5 (rtpLegs { state := .opened, slot := some 5, legA := { template := 65535 } })) c ∧ True) :=
  ⟨admitted (by decide +kernel), admitted (by decide +kernel), admitted (by decide +kernel), admitted (by decide +kernel)⟩

theorem witness_ch_no_change :
    (∃ c, Admitted 0x0203 (cmd 4 5 []) ((held .active tdmLegs)) ((held .active tdmLegs)) c ∧ ((held .active tdmLegs).channel c.id).state = .active) ∧
    (∃ c, Admitted 0x0204 (cmd 4 5 []) (held .hold id) (held .hold id) c ∧ ((held .hold id).channel c.id).state = .hold) ∧
    (∃ c, Admitted 0x0205 (cmd 4 5 []) ((held .active tdmLegs)) ((held .active tdmLegs)) c ∧ ((held .active tdmLegs).channel c.id).state = .active) ∧
    (∃ c, Admitted 0x0206 (cmd 4 5 []) (held .draining id) (held .draining id) c ∧ ((held .draining id).channel c.id).state = .draining) ∧
    (∃ c, Admitted 0x0207 (cmd 4 16383 []) (State.reset) (State.reset) c ∧ (State.reset.channel c.id).state = .idle) :=
  ⟨admitted (by decide +kernel), admitted (by decide +kernel), admitted (by decide +kernel), admitted (by decide +kernel), admitted (by decide +kernel)⟩

theorem witness_ch_drain_forms :
    (∃ c, Admitted 0x0206 (cmd 4 5 []) (held .opened id) (held .opened id) c ∧ ((held .opened id).channel c.id).state = .opened) ∧
    (∃ c, Admitted 0x0206 (cmd 4 5 []) (held .active id) (held .active id) c ∧ ((held .active id).channel c.id).state = .active) :=
  ⟨admitted (by decide +kernel), admitted (by decide +kernel)⟩

theorem witness_ch_move_away :
    (∃ c, Admitted 0x0208 (cmd 4 5 [(0x40, 4, 7)]) (ringed.setChannel 5 { state := .active, slot := some 5, format := 1 }) (ringed.setChannel 5 { state := .active, slot := some 5, format := 1 }) c ∧ (paramNat c.params 0x40 0 = 7 ∧ (ringed.setChannel 5 { state := .active, slot := some 5, format := 1 }).awayRefusal c.id 7 = none ∧ outstandingOf (ringed.setChannel 5 { state := .active, slot := some 5, format := 1 }) c.ref.source < 1024)) :=
  admitted (by decide +kernel)

theorem witness_flow_change_follower :
    (∃ c, Admitted 0x0302 (cmd 0 0x0F000000 [(1, 4, 9)]) (follower) (follower) c ∧ (follower.stacked = true ∧ follower.isFollower = true ∧ outstandingOf follower c.ref.source < 1024)) :=
  admitted (by decide +kernel)

/-- A new context, and a held one with RESET. -/
theorem witness_srtp_set_forms :
    (∃ c, Admitted 0x0305 (rawCmd 0 (tlv 0x40 (beBytes 4 0) ++ tlv 1 [0] ++ tlv 2 [0] ++ tlv 3 (zeroBytes 4 ++ List.replicate 30 1))) (State.reset) (State.reset) c ∧ (tabFind? State.reset.flows.contexts 0 = none ∧ (∀ t ∈ [1, 2, 3], paramHas c.params t = true) ∧ State.reset.contextFault 0 none (contextWith c.params newContext) = none)) ∧
    (∃ c, Admitted 0x0305 (cmd 0 0 [(0x40, 4, 65535), (10, 1, 1)]) (keyed) (keyed) c ∧ (paramFlag c.params 10 false = true ∧ keyed.contextFault 65535 (some srtpCtx) (contextWith c.params srtpCtx) = none)) :=
  ⟨admitted (by decide +kernel), admitted (by decide +kernel)⟩

theorem witness_template_load_again :
    (∃ c, Admitted 0x0308 (rawCmd 0 (tlv 0x40 (beBytes 4 65535) ++ tlv 0x41 [0] ++ tlv 0x42 [0] ++ tlv 0x43 template4)) (templated) (templated) c ∧ (tabHas templated.flows.templates 65535 = true ∧ paramFlag c.params 0x42 true = false ∧ templateIpv6 template4 = false)) :=
  admitted (by decide +kernel)

theorem witness_pe_config_same_port :
    (∃ c, Admitted 0x030a (cmd 0 0 [(0x40, 1, 1)]) (State.reset) (State.reset) c ∧ paramNat c.params 0x43 State.reset.flows.udpPort = State.reset.flows.udpPort) :=
  admitted (by decide +kernel)

theorem witness_playout_set_restart :
    (∃ c, Admitted 0x0501 (cmd 4 5 [(9, 1, 1)]) ((held .active tdmLegs)) ((held .active tdmLegs)) c ∧ paramFlag c.params 9 false = true) :=
  admitted (by decide +kernel)

theorem witness_echo_set_reset :
    (∃ c, Admitted 0x0401 (cmd 4 5 [(19, 1, 1)]) ((held .active tdmLegs)) ((held .active tdmLegs)) c ∧ paramFlag c.params 19 false = true) :=
  admitted (by decide +kernel)

/-- A stream that exists, and one that does not. -/
theorem witness_resample_reset_forms :
    (∃ c, Admitted 0x0604 (cmd 4 5 [(1, 1, 0)]) (held .active (fun v => (tdmLegs v).setStream (tdmInKey 0) { (v.stream (tdmInKey 0)) with present := true })) (held .active (fun v => (tdmLegs v).setStream (tdmInKey 0) { (v.stream (tdmInKey 0)) with present := true })) c ∧ (∃ k ∈ namedKeys 0, (((held .active (fun v => (tdmLegs v).setStream (tdmInKey 0) { (v.stream (tdmInKey 0)) with present := true })).channel c.id).stream k).present = true)) ∧
    (∃ c, Admitted 0x0604 (cmd 4 5 [(1, 1, 7)]) ((held .active tdmLegs)) ((held .active tdmLegs)) c ∧ (∀ k ∈ namedKeys 7, (((held .active tdmLegs).channel c.id).stream k).present = false)) :=
  ⟨admitted (by decide +kernel), admitted (by decide +kernel)⟩

/-- A detector table at the channel's rate. -/
theorem witness_tone_detect_set_forms :
    (∃ c, Admitted 0x0701 (rawCmd 0x40000005 (tlv 0x40 [0] ++ tlv 1 (beBytes 4 0x3FF))) (tabled 1) (tabled 1) c ∧ ((paramAll c.params 1).map beNat = [0x3FF] ∧ (tabled 1).holdsKind 0x3FF .detector = true ∧ (detectorIds ((tabled 1).channel c.id).accepted ((tabled 1).channel c.id).wide 1).length ≤ 3)) :=
  admitted (by decide +kernel)

theorem witness_stops_no_change :
    (∃ c, Admitted 0x0703 (cmd 4 5 [(0x40, 1, 1)]) ((held .active tdmLegs)) ((held .active tdmLegs)) c ∧ ((((held .active tdmLegs).channel c.id).legMedia 1).toneWanted = false)) ∧
    (∃ c, Admitted 0x0723 (cmd 4 5 [(0x40, 1, 1)]) ((held .active tdmLegs)) ((held .active tdmLegs)) c ∧ ((((held .active tdmLegs).channel c.id).legMedia 1).playsWanted = 0)) :=
  ⟨admitted (by decide +kernel), admitted (by decide +kernel)⟩

theorem witness_gain_set_curve :
    (∃ c, Admitted 0x0704 (cmd 4 5 [(0x40, 1, 0), (3, 4, 0x3FF), (4, 4, 0xFFFFFFFF)]) (tabled 4) (tabled 4) c ∧ ((tabled 4).holdsKind 0x3FF .gainCurve = true ∧ paramNat? c.params 4 = some noneValue)) :=
  admitted (by decide +kernel)

theorem witness_prompt_play_queued :
    (∃ c, Admitted 0x0722 (cmd 4 5 [(0x40, 1, 1), (0x41, 4, 65535), (0x46, 1, 1)]) (prompted) (prompted) c ∧ (paramFlag c.params 0x46 false = true ∧ ((prompted.channel c.id).legMedia 1).playsWanted < 5)) :=
  admitted (by decide +kernel)

theorem witness_user_hook_set_entry :
    (∃ c, Admitted 0x0c21 (cmd 4 5 [(0x40, 4, 15)]) ({ held .active tdmLegs with store := { State.reset.store with kernel := zeroBytes 6 ++ [16] ++ zeroBytes 57 } }) ({ held .active tdmLegs with store := { State.reset.store with kernel := zeroBytes 6 ++ [16] ++ zeroBytes 57 } }) c ∧ (15 < ({ held .active tdmLegs with store := { State.reset.store with kernel := zeroBytes 6 ++ [16] ++ zeroBytes 57 } } : State).kernelEntries)) :=
  admitted (by decide +kernel)

theorem witness_table_load_window :
    (∃ c, Admitted 0x0710 (cmd 0 0 [(0x40, 4, 0x100), (0x41, 8, hostStart), (0x42, 4, 56)]) (State.reset) (State.reset) c ∧ (paramAll c.params 0x43 = [] ∧ State.reset.inSight (paramNat c.params 0x41 0) (paramNat c.params 0x42 0) = true ∧ originalOver (State.reset.sourceBytes (.dram hostStart 56)) 65536 = false ∧ State.reset.store.loads = [] ∧ outstandingOf State.reset c.ref.source < 1024)) :=
  admitted (by decide +kernel)

theorem witness_trace_config_size :
    (∃ c, Admitted 0x0e02 (cmd 0 0 [(0x42, 4, 2)]) (State.reset) (State.reset) c ∧ State.reset.resizeRefusal State.reset.store.storeSize State.reset.store.cacheSize (2 * mib) = none) :=
  admitted (by decide +kernel)

theorem witness_tdm_highway_config_keeps :
    (∃ c, Admitted 0x0802 (cmd 7 0 [(4, 4, 255)]) (onHighway State.reset) (onHighway State.reset) c ∧ paramNat? c.params 1 = none) :=
  admitted (by decide +kernel)

theorem witness_time_config_keeps :
    (∃ c, Admitted 0x0901 (cmd 0 0 [(1, 1, 0)]) (State.reset) (State.reset) c ∧ (State.reset.isFollower = false ∧ State.reset.time.hostOwner = (0 == 1))) :=
  admitted (by decide +kernel)

theorem witness_time_step_none :
    (∃ c, Admitted 0x0903 (cmd 0 0 [(0x40, 8, 0)]) (State.reset) (State.reset) c ∧ paramInt? c.params 0x40 = some 0) :=
  admitted (by decide +kernel)

theorem witness_servo_config_mode :
    (∃ c, Admitted 0x0905 (cmd 0 0 [(1, 1, 2)]) (State.reset) (State.reset) c ∧ (State.reset.isFollower = false ∧ paramNat? c.params 1 = some 2)) ∧
    (∃ c, Admitted 0x0905 (cmd 0 0x0F000000 [(2, 4, 0)]) (follower) (follower) c ∧ (follower.isFollower = true ∧ paramNat? c.params 1 = none ∧ paramNat? c.params 11 = none)) :=
  ⟨admitted (by decide +kernel), admitted (by decide +kernel)⟩

theorem witness_ptp_send_one_step :
    (∃ c, Admitted 0x0908 (rawCmd 0x50000003 (tlv 0x40 (zeroBytes 12 ++ [0x88, 0xF7] ++ zeroBytes 46) ++ tlv 0x42 [1])) (hostTime) (hostTime) c ∧ (isSync (zeroBytes 12 ++ [0x88, 0xF7] ++ zeroBytes 46) = true ∧ 60 + 4 ≤ hostTime.frameLimit c.id ∧ paramFlag c.params 0x42 false = true)) :=
  admitted (by decide +kernel)

/-- A new mode of a port, and DISABLED of a port of a pair. -/
theorem witness_port_config_mode :
    (∃ c, Admitted 0x0a01 (cmd 5 3 [(1, 1, 2)]) (State.reset) (State.reset) c ∧ (portModeOf 2 ≠ (State.reset.port c.id).mode ∧ (State.reset.pair 1).joined = false ∧ (State.reset.powerDomain (56 + c.id)).mode = .run)) ∧
    (∃ c, Admitted 0x0a01 (cmd 5 3 [(1, 1, 0)]) ((upPorts [2, 3]).setPair 1 { joined := true, active := some 3 }) ((upPorts [2, 3]).setPair 1 { joined := true, active := some 3 }) c ∧ portModeOf 0 = .disabled) :=
  ⟨admitted (by decide +kernel), admitted (by decide +kernel)⟩

theorem witness_shutter_load_replaces :
    (∃ c, Admitted 0x0a02 (rawCmd 0x50000003 (tlv 0x40 (beBytes 4 500000000) ++ tlv 0x41 (beBytes 8 1) ++ tlv 0x42 (beBytes 4 0) ++ tlv 0x43 (beBytes 4 0x9DCD6500))) ((State.reset.modPort 3 (fun p => { p with pendingSchedule := some { schedule := { cycle := 500000000, baseSeconds := 0, baseNs := 0, list := [500000000] }, ref := refOf 0x0A02 (cmd 5 3 []) false, notBefore := 0 } }))) ((State.reset.modPort 3 (fun p => { p with pendingSchedule := some { schedule := { cycle := 500000000, baseSeconds := 0, baseNs := 0, list := [500000000] }, ref := refOf 0x0A02 (cmd 5 3 []) false, notBefore := 0 } }))) c ∧ ((State.reset.modPort 3 (fun p => { p with pendingSchedule := some { schedule := { cycle := 500000000, baseSeconds := 0, baseNs := 0, list := [500000000] }, ref := refOf 0x0A02 (cmd 5 3 []) false, notBefore := 0 } })).port c.id).pendingSchedule.isSome = true) :=
  admitted (by decide +kernel)

/-- A pair dissolved, none to dissolve, one that is as asked, one changed, and one formed with both ports down. -/
theorem witness_port_pair_forms :
    (∃ c, Admitted 0x0a04 (cmd 5 2 [(0x40, 1, 0)]) (((upPorts [2]).setPair 1 { joined := true, active := some 2 })) (((upPorts [2]).setPair 1 { joined := true, active := some 2 })) c ∧ ((((upPorts [2]).setPair 1 { joined := true, active := some 2 }).pair (c.id / 2)).joined = true ∧ paramFlag c.params 0x40 false = false)) ∧
    (∃ c, Admitted 0x0a04 (cmd 5 2 [(0x40, 1, 0)]) (State.reset) (State.reset) c ∧ ((State.reset.pair (c.id / 2)).joined = false ∧ paramFlag c.params 0x40 false = false)) ∧
    (∃ c, Admitted 0x0a04 (cmd 5 2 [(0x40, 1, 1)]) (((upPorts [2]).setPair 1 { joined := true, active := some 2 })) (((upPorts [2]).setPair 1 { joined := true, active := some 2 })) c ∧ ((((upPorts [2]).setPair 1 { joined := true, active := some 2 }).pair (c.id / 2)).joined = true ∧ paramNat? c.params 0x41 = none ∧ paramNat? c.params 0x42 = none)) ∧
    (∃ c, Admitted 0x0a04 (cmd 5 2 [(0x40, 1, 1), (0x41, 1, 1)]) (((upPorts [2]).setPair 1 { joined := true, active := some 2 })) (((upPorts [2]).setPair 1 { joined := true, active := some 2 })) c ∧ ((((upPorts [2]).setPair 1 { joined := true, active := some 2 }).pair (c.id / 2)).joined = true ∧ paramFlag c.params 0x41 (((upPorts [2]).setPair 1 { joined := true, active := some 2 }).pair 1).revert = true ∧ (((upPorts [2]).setPair 1 { joined := true, active := some 2 }).pair 1).revert = false)) ∧
    (∃ c, Admitted 0x0a04 (cmd 5 0 [(0x40, 1, 1)]) (State.reset) (State.reset) c ∧ ((State.reset.port c.id).up = false ∧ (State.reset.port (c.id + 1)).up = false ∧ (State.reset.port c.id).mode = (State.reset.port (c.id + 1)).mode)) :=
  ⟨admitted (by decide +kernel), admitted (by decide +kernel), admitted (by decide +kernel), admitted (by decide +kernel), admitted (by decide +kernel)⟩

theorem witness_clock_config_forms :
    (∃ c, Admitted 0x0d01 (cmd 0 0 [(0x40, 1, 6)]) (ctrlIn .frost) (ctrlIn .frost) c ∧ ((ctrlIn .frost).clocks.ctrl = .frost ∧ (ctrlIn .frost).clocks.frost = true)) ∧
    (∃ c, Admitted 0x0d01 (cmd 0 0 [(0x40, 1, 0)]) (ctrlIn .hold) (ctrlIn .hold) c ∧ (ctrlIn .hold).clocks.ctrl = .hold) ∧
    (∃ c, Admitted 0x0d01 (cmd 0 0 [(0x40, 1, 0)]) (State.reset) (State.reset) c ∧ (State.reset.clocks.ctrl = .locked ∧ [0].any (fun k => State.reset.clocks.qualified.contains k) = true)) :=
  ⟨admitted (by decide +kernel), admitted (by decide +kernel), admitted (by decide +kernel)⟩

theorem witness_domain_gate_block :
    (∃ c, Admitted 0x0d03 (cmd 0 0 [(0x40, 4, 47), (0x41, 1, 0)]) (State.reset) (State.reset) c ∧ (ungated 47 = false ∧ State.reset.holdsChannels (47 % 16) = false ∧ outstandingOf State.reset c.ref.source < 1024)) :=
  admitted (by decide +kernel)

theorem witness_clkout_set_divide :
    (∃ c, Admitted 0x0d04 (cmd 0 0 [(0x42, 4, 24)]) (State.reset) (State.reset) c ∧ (State.reset.clocks.clkoutDomain = none ∧ paramFlag c.params 0x43 State.reset.clocks.clkoutOn = false)) :=
  admitted (by decide +kernel)

/-- AUTO alone, and a mode that the domain is in. -/
theorem witness_power_set_forms :
    (∃ c, Admitted 0x0d06 (cmd 0 0 [(0x40, 4, 15), (0x42, 1, 1)]) (State.reset) (State.reset) c ∧ (paramNat? c.params 0x41 = none ∧ paramNat c.params 0x40 0 < 16)) ∧
    (∃ c, Admitted 0x0d06 (cmd 0 0 [(0x40, 4, 62), (0x41, 1, 0)]) (State.reset) (State.reset) c ∧ (powerModeOf 0 = .run ∧ State.reset.depthKept 62 .run = true ∧ State.reset.plannedMode 62 = .run ∧ outstandingOf State.reset c.ref.source < 1024)) :=
  ⟨admitted (by decide +kernel), admitted (by decide +kernel)⟩

/-- A join, and a device that leaves its stack. -/
theorem witness_stack_config_forms :
    (∃ c, Admitted 0x0b01 (cmd 0 0 [(0x40, 4, 3), (0x41, 1, 2), (0x42, 1, 15)]) (State.reset) (State.reset) c ∧ (linksAgree .mesh 15 = true ∧ State.reset.linksPowered 15 = true ∧ outstandingOf State.reset c.ref.source < 1024)) ∧
    (∃ c, Admitted 0x0b01 (cmd 0 0 [(0x41, 1, 0), (0x42, 1, 0)]) (stackRoot) (stackRoot) c ∧ (linksAgree .none 0 = true ∧ stackRoot.stack.topology ≠ .none)) :=
  ⟨admitted (by decide +kernel), admitted (by decide +kernel)⟩

theorem witness_block_evacuate_away :
    (∃ c, Admitted 0x0b03 (cmd 2 15 [(0x40, 4, 7)]) (ringed) (ringed) c ∧ (ringed.canReach 7 = true ∧ outstandingOf ringed c.ref.source < 1024)) :=
  admitted (by decide +kernel)

theorem witness_fw_block_activate_switches :
    (∃ c, Admitted 0x0c04 (cmd 2 15 [(0x40, 1, 1)]) (({ State.reset with life := { State.reset.life with slots := tabPut State.reset.life.slots 1 { held := true, version := 0x01000000, format := 1, fylosMin := 3, fylosMax := 4 } } } : State)) (({ State.reset with life := { State.reset.life with slots := tabPut State.reset.life.slots 1 { held := true, version := 0x01000000, format := 1, fylosMin := 3, fylosMax := 4 } } } : State)) c ∧ ((({ State.reset with life := { State.reset.life with slots := tabPut State.reset.life.slots 1 { held := true, version := 0x01000000, format := 1, fylosMin := 3, fylosMax := 4 } } } : State).fwSlot 1).held = true ∧ ({ State.reset with life := { State.reset.life with slots := tabPut State.reset.life.slots 1 { held := true, version := 0x01000000, format := 1, fylosMin := 3, fylosMax := 4 } } } : State).life.management ≠ 1 ∧ ({ State.reset with life := { State.reset.life with slots := tabPut State.reset.life.slots 1 { held := true, version := 0x01000000, format := 1, fylosMin := 3, fylosMax := 4 } } } : State).activateRefused c.id 1 = false)) :=
  admitted (by decide +kernel)

theorem witness_fw_activate_no_selector :
    (∃ c, Admitted 0x0c02 (cmd 0 0 [(0x40, 1, 0)]) (({ State.reset with life := { State.reset.life with selector0 := { State.reset.life.selector0 with valid := false }, selector1 := { State.reset.life.selector1 with valid := false } } } : State)) (({ State.reset with life := { State.reset.life with selector0 := { State.reset.life.selector0 with valid := false }, selector1 := { State.reset.life.selector1 with valid := false } } } : State)) c ∧ (({ State.reset with life := { State.reset.life with selector0 := { State.reset.life.selector0 with valid := false }, selector1 := { State.reset.life.selector1 with valid := false } } } : State).life.selectorInUse = none ∧ (({ State.reset with life := { State.reset.life with selector0 := { State.reset.life.selector0 with valid := false }, selector1 := { State.reset.life.selector1 with valid := false } } } : State).fwSlot 0).held = true)) :=
  admitted (by decide +kernel)

/-- The forms of the queries that name one object. -/
theorem witness_queries_of_one :
    (∃ c, Admitted 0x0402 (cmd 4 16383 []) (State.reset) (State.reset) c ∧ (State.reset.channel c.id).state = .idle) ∧
    (∃ c, Admitted 0x0602 (cmd 4 5 [(0x40, 1, 1)]) (rtpHeld) (rtpHeld) c ∧ ((rtpHeld.channel c.id).leg 1).kind = .rtp) ∧
    (∃ c, Admitted 0x0605 (cmd 4 5 [(1, 1, 7)]) ((held .active tdmLegs)) ((held .active tdmLegs)) c ∧ paramNat? c.params 1 = some 7) ∧
    (∃ c, Admitted 0x0712 (cmd 0 0 [(0x40, 4, 0x100)]) (toned) (toned) c ∧ (toned.tableImage 0x100).isSome = true) ∧
    (∃ c, Admitted 0x0724 (cmd 0 0 [(0x40, 4, 65535)]) (prompted) (prompted) c ∧ tabFind? prompted.store.prompts 65535 = some somePrompt) ∧
    (∃ c, Admitted 0x0804 (cmd 0 0 [(0x41, 4, 31), (0x42, 4, 127)]) (onHighway State.reset) (onHighway State.reset) c ∧ ((onHighway State.reset).highway 31).beyond 127 = false) ∧
    (∃ c, Admitted 0x0804 (cmd 0 0 [(0x41, 4, 0)]) (State.reset) (State.reset) c ∧ (paramNat? c.params 0x41 = some 0 ∧ paramNat? c.params 0x42 = none)) ∧
    (∃ c, Admitted 0x0904 (cmd 0 0 []) (State.reset) (State.reset) c ∧ State.reset.time.lastSample = none) :=
  ⟨admitted (by decide +kernel), admitted (by decide +kernel), admitted (by decide +kernel), admitted (by decide +kernel), admitted (by decide +kernel), admitted (by decide +kernel), admitted (by decide +kernel), admitted (by decide +kernel)⟩

theorem witness_queries_with_clear :
    (∃ c, Admitted 0x0502 (clearCmd 4 5) (rtpHeld) (rtpHeld) c ∧ c.clear = true) ∧
    (∃ c, Admitted 0x0602 (clearCmd 4 5) (rtpHeld) (rtpHeld) c ∧ c.clear = true) ∧
    (∃ c, Admitted 0x0605 (clearCmd 4 5) ((held .active tdmLegs)) ((held .active tdmLegs)) c ∧ c.clear = true) ∧
    (∃ c, Admitted 0x030b (clearCmd 0 0) (State.reset) (State.reset) c ∧ c.clear = true) ∧
    (∃ c, Admitted 0x0904 (clearCmd 0 0) (State.reset) (State.reset) c ∧ c.clear = true) ∧
    (∃ c, Admitted 0x0a05 (clearCmd 5 3) (State.reset) (State.reset) c ∧ c.clear = true) ∧
    (∃ c, Admitted 0x0b02 (clearCmd 0 0) (State.reset) (State.reset) c ∧ c.clear = true) ∧
    (∃ c, Admitted 0x0d07 (clearCmd 0 0) (State.reset) (State.reset) c ∧ c.clear = true) ∧
    (∃ c, Admitted 0x0307 ({ cmd 0 0 [(0x40, 4, 65535)] with flags := 0x10 }) (keyed) (keyed) c ∧ c.clear = true) :=
  ⟨admitted (by decide +kernel), admitted (by decide +kernel), admitted (by decide +kernel), admitted (by decide +kernel), admitted (by decide +kernel), admitted (by decide +kernel), admitted (by decide +kernel), admitted (by decide +kernel), admitted (by decide +kernel)⟩

/-! ## What every command passes -/

theorem witness_version_refused : Delivered 0 { cmd 4 5 [] with version := 5 } State.reset ∧ fylosRow (.chHold { cmd 4 5 [] with version := 5 }) =
    some (0x0204, { cmd 4 5 [] with version := 5 }) :=
  ⟨⟨rfl, rfl, ⟨rfl, rfl⟩, by decide⟩, rfl⟩

theorem witness_header_refused : Delivered 0 (cmd 4 16384 []) State.reset ∧
    headerRefusal State.reset 0x0204 (opSpec? 0x0204) (ringPacket (cmd 4 16384 [])) = some (rangeStatus 0x0204, []) :=
  ⟨⟨rfl, rfl, ⟨rfl, rfl⟩, by decide⟩, by decide +kernel⟩

theorem witness_parameters_refused : Delivered 0 (cmd 2 0 [(0x40, 1, 2)]) State.reset ∧
    (let p := ringPacket (cmd 2 0 [(0x40, 1, 2)])
     headerRefusal State.reset 0x0110 (opSpec? 0x0110) p = none ∧ deviceHere State.reset p = true ∧
     (match (opSpec? 0x0110).map (fun o => admitCommand State.reset 0x0110 o p false) with
      | some (.inl r) => r.1 == stOutOfRange | _ => false) = true) :=
  ⟨⟨rfl, rfl, ⟨rfl, rfl⟩, by decide⟩, by decide +kernel⟩

theorem witness_unlisted_opcode : Delivered 0 (cmd 0 0 []) State.reset ∧ opSpec? (0xFFFF : BitVec 16).toNat = none ∧ (cmd 0 0 []).version = 4 ∧
    badHeader (ringPacket (cmd 0 0 [])) = false :=
  ⟨⟨rfl, rfl, ⟨rfl, rfl⟩, by decide⟩, by decide +kernel⟩

/-- 1,024 completions of ring pair 0 outstanding. -/
def fullSource : State :=
  { State.reset with fylos := { State.reset.fylos with outstanding := List.replicate 1024 (refOf 0x0112 (cmd 2 0 []) false) } }

theorem witness_pending_limit : ∃ c, Taken 0x0112 0 (cmd 2 0 []) fullSource c ∧ (fullSource.holdsChannels c.id = false ∧
    (fullSource.region (blockRegion c.id)).underReset = false ∧ 1024 ≤ outstandingOf fullSource (.ring 0) ∧
    outstandingOf fullSource c.ref.source ≤ 1024) :=
  taken (by decide +kernel)

theorem witness_bad_magic : (cmd 0 0 []).source = .ring 0 ∧ State.reset.damiumTakes = true ∧ (State.reset.ring 0).held = [] ∧
    (State.reset.ring 0).replyWait = false ∧ ({ cmd 0 0 [] with magic := 0x4658 } : Packet).magic ≠ 0x4659 :=
  ⟨rfl, by decide +kernel⟩

/-- What a ring command waits for, and how a datagram and a command of the stack fare meanwhile. -/
theorem witness_commands_wait : let f := State.reset.fylos
    let s : Fylos → State := fun k => { State.reset with fylos := k }
    (s { f with halted := true }).damiumTakes = false ∧
    ((State.reset.setRing 0 { enable := true, held := [(0x0104, cmd 0 0 [])] }).ring 0).held ≠ [] ∧
    (s { f with switching := true }).fylos.switching = true ∧ (s { f with ready := false }).fylos.ready = false ∧
    ((s { f with halted := true }).fylos.switching = false ∧ (s { f with halted := true }).fylos.ready = true ∧
      (s { f with halted := true }).fylos.halted = true) ∧
    ({ udpCmd [] with magic := 0 } : Packet).magic ≠ 0x4659 := by decide +kernel

/-- A datagram of the wrong length, DECOMMISSIONED, no key, no tag, the last of 100 answers and none left, a wrong tag, an untagged DEV_HELLO. -/
theorem witness_udp_needs_a_key : let s := State.reset
    let p := udpCmd (zeroBytes 16)
    let q := { udpCmd [] with flags := 0 }
    let live : Nat → State := fun n => { s with fylos := { s.fylos with hellos := List.replicate n 0 } }
    let count : State → Nat := fun s => (s.fylos.hellos.filter (fun t => s.time.powered < t + oneSecond)).length
    let k := { s with life := { s.life with udpKeys := [(0, zeroBytes 32)] } }
    s.damiumTakes = true ∧ p.magic = 0x4659 ∧ p.params.length = p.paramLen.toNat ∧ p.tag.length = (if packetAuth p then 16 else 0) ∧
    p.rsvd.length = 7 ∧ ({ p with rsvd := [] } : Packet).rsvd.length ≠ 7 ∧
    ({ s with life := { s.life with lifeCycle := 3 } } : State).life.lifeCycle = 3 ∧ s.life.lifeCycle ≠ 3 ∧ (0x0104 ≠ 0x0101 ∨ packetAuth p = true) ∧
    s.udpKey? = none ∧ k.udpKey? = some (zeroBytes 32) ∧ packetAuth q = false ∧ q.tag.length = (if packetAuth q then 16 else 0) ∧
    count (live 99) < 100 ∧ 100 ≤ count (live 100) ∧ packetAuth p = true := by decide +kernel

/-- A cached command that comes again, one that differs, one that is cached no more, and one 1,024 behind. -/
theorem witness_duplicate : let p := udpCmd (wantedTag cachedState (zeroBytes 32) 0x0104 (udpCmd []))
    let s := cachedState
    s.damiumTakes = true ∧ packetAuth p = true ∧ s.life.lifeCycle ≠ 3 ∧ s.udpKey? = some (zeroBytes 32) ∧ s.fylos.first = false ∧
    p.sequence = s.fylos.highest ∧ s.fylos.window.contains 0 = true ∧
    (s.fylos.cache.find? (fun c => c.sequence == p.sequence.toNat)).map (fun h => (h.header, h.params)) = some (headerKey 0x0104 p, p.params) ∧
    headerKey 0x0104 p ≠ headerKey 0x0105 p ∧
    (s.fylos.cache.find? (fun c => c.sequence == ({ p with sequence := 6 } : Packet).sequence.toNat)) = none ∧
    1024 ≤ (s.fylos.highest - (7 - 1024 : BitVec 32)).toNat ∧ (s.fylos.highest - (7 - 1024 : BitVec 32)).toNat ≤ 0x80000000 := by decide +kernel

/-- A datagram with its tag and a new SEQUENCE, an untagged DEV_HELLO, and a command of the stack reach their own rules. -/
theorem witness_other_sources : let s := { State.reset with life := { State.reset.life with udpKeys := [(0, zeroBytes 32)] } }
    let p := udpCmd (wantedTag s (zeroBytes 32) 0x0104 (udpCmd []))
    let q := { udpCmd [] with flags := 0 }
    (∃ u, Reaches 0x0104 p s u true) ∧ (∃ u, Reaches 0x0101 q s u false) ∧
    Reaches 0x0104 { cmd 0 0 [] with source := .stack 7 true } State.reset State.reset false :=
  ⟨⟨_, by decide +kernel, by decide +kernel, by decide +kernel, by decide +kernel, by decide +kernel,
      .inr ⟨zeroBytes 32, by decide +kernel, by decide +kernel, by decide +kernel, rfl, rfl, rfl⟩⟩,
   ⟨_, by decide +kernel, by decide +kernel, by decide +kernel, by decide +kernel, by decide +kernel,
      .inl ⟨rfl, by decide +kernel, rfl, rfl, rfl⟩⟩,
   by decide +kernel, rfl, rfl⟩

/-! ## The voice engine -/

/-- A bank of a thread in firmware or in the user kernel. -/
def bankAt (user : Bool) (pc : Nat) (regs : List (Nat × Nat)) : Bank :=
  { regs := regs.map (fun e => (e.1, BitVec.ofNat 128 e.2)), pc := BitVec.ofNat 13 pc, user := user }

/-- Cell 127 with a thread running on it, and a user kernel of 16 entries. -/
def cellRuns (f : Cell → Cell) (b : Bank) : State :=
  let s := State.reset
  ({ s with store := { s.store with kernel := zeroBytes 6 ++ [16] ++ zeroBytes 57 } } : State).setCell 127
    (f { bank0 := b, running := some 0, issued := 100 })

def wordOf : Issue := { cell := 127, fetch := .clean, x := .clean, y := .clean }

def issuesNow (i : Issue) (w : VeWord) (s : State) : Bool :=
  s.cellIssues i.cell && (!(s.cell i.cell).active.user || decide (0x1800 ≤ (s.cell i.cell).active.pc.toNat)) &&
  decide (i.fetch = .clean ∧ i.x = .clean ∧ i.y = .clean) &&
  decide (wordTrap ((settled i s).cell i.cell) (viewOf i s) s.kernelEntries w = none) &&
  (accessesOf (viewOf i s) w).all (fun x =>
    decide (accessTrap ((settled i s).cell i.cell).bank (viewOf i s).bank.user (0 < ((settled i s).cell i.cell).rep) x = none))

theorem issues {i : Issue} {w : VeWord} {s : State} (h : issuesNow i w s = true) : Issues i w s := by
  simp only [issuesNow, Bool.and_eq_true, Bool.or_eq_true, Bool.not_eq_true', decide_eq_true_eq, List.all_eq_true] at h
  obtain ⟨⟨⟨⟨h1, h2⟩, h3⟩, h4⟩, h5⟩ := h
  refine ⟨h1, fun hu => ?_, h3, h4, h5⟩
  rcases h2 with h2 | h2
  · rw [h2] at hu; cases hu
  · exact h2

def plainCell : State := cellRuns id (bankAt false 8191 [])

theorem witness_compute_word : Issues wordOf (compWord (.cmac4 7 6 5 true true true) (.parallel .nop .nop .nop)) plainCell :=
  issues (by decide +kernel)
theorem witness_compute_with_immediate : Issues wordOf (compWord (.add 15 14 13) (.immediate (.v 7 0xFFFFFFFF))) plainCell :=
  issues (by decide +kernel)
theorem witness_scalar_immediate : Issues wordOf (simmWord (.movhi 15 14 0xFFFF) ⟨.nop, .nop⟩) plainCell := issues (by decide +kernel)
theorem witness_slot_word : Issues wordOf (slotWord (.rep 1023) ⟨.nop, .nop, .nop⟩) plainCell := issues (by decide +kernel)
theorem witness_load_word : Issues wordOf (moveWord (.ldQ 7 7 .postInc) (.parallelX .nop .nop .nop)) plainCell := issues (by decide +kernel)
theorem witness_store_word : Issues wordOf (moveWord (.stAC 7 7 7 true) (.parallelY .nop .nop .nop)) plainCell := issues (by decide +kernel)
theorem witness_control_word : Issues wordOf (ctlWord (.call .always 8191) ⟨.nop, .nop⟩) plainCell := issues (by decide +kernel)
theorem witness_callu : Issues wordOf (ctlWord (.callu 15) ⟨.nop, .nop⟩) plainCell := issues (by decide +kernel)
theorem witness_retu : Issues wordOf (ctlWord .retu ⟨.nop, .nop⟩) (cellRuns id (bankAt true 0x1800 [])) := issues (by decide +kernel)
theorem witness_replc : Issues wordOf (slotWord .replc ⟨.nop, .nop, .nop⟩) plainCell := issues (by decide +kernel)
theorem witness_trap : plainCell.cellIssues 127 = true ∧
    wordTrap ((settled wordOf plainCell).cell 127) (viewOf wordOf plainCell) plainCell.kernelEntries (ctlWord (.trap 255) ⟨.nop, .nop⟩) = some .trapOp := by
  decide +kernel
theorem witness_illegal_word : plainCell.cellIssues 127 = true ∧ decodeWord 0xFFFFFFFFFFFFFFFF = none := by decide +kernel

theorem witness_cell_stopped : (trapped 127).cellIssues 127 = false := by decide +kernel
theorem witness_user_fetch : let s := cellRuns id (bankAt true 0x17FF [])
    s.cellIssues 127 = true ∧ (s.cell 127).active.user = true ∧ (s.cell 127).active.pc.toNat < 0x1800 := by decide +kernel

/-- What the checks at D find of a word, on cell 127. -/
def checked (w : VeWord) (s : State) : Bool × Bool × Bool × Bool × Bool :=
  let c := (settled wordOf s).cell 127
  (s.cellIssues 127, legalWord w, c.active.user && userForbids w, branchClass w, controlOp w)

theorem witness_word_illegal : checked (compWord (.vmaxa 0 1 true) (.parallel .nop .nop .nop)) plainCell = (true, false, false, false, false) := by
  decide +kernel
theorem witness_user_forbidden : checked (ctlWord (.done false) ⟨.nop, .nop⟩) (cellRuns id (bankAt true 0x1800 [])) =
    (true, true, true, true, true) := by decide +kernel
theorem witness_delay_place : checked (ctlWord .retu ⟨.nop, .nop⟩) (cellRuns (fun c => { c with delay := some (1, .fall) }) (bankAt false 0 [])) =
    (true, true, false, true, true) := by decide +kernel
theorem witness_beside_q31 : let s := cellRuns (fun c => { c with mpyShadow := true }) (bankAt false 0 [])
    let w := compWord (.add 1 2 3) (.parallel .nop .nop .nop)
    checked w s = (true, true, false, false, false) ∧ computes w = true ∧ ((settled wordOf s).cell 127).mpyShadow = true := by decide +kernel
theorem witness_repeated_control : let s := cellRuns (fun c => { c with rep := 1 }) (bankAt false 0 [])
    checked (slotWord (.lci 0) ⟨.nop, .nop, .nop⟩) s = (true, true, false, false, true) ∧ 0 < ((settled wordOf s).cell 127).rep := by decide +kernel
theorem witness_callu_beyond : checked (ctlWord (.callu 15) ⟨.nop, .nop⟩) (State.reset.setCell 127 { running := some 0 }) =
    (true, true, false, true, true) ∧ (State.reset.setCell 127 { running := some 0 }).kernelEntries ≤ 15 := by decide +kernel
theorem witness_misaligned : let w := moveWord (.ldQ 0 0 .plain) (.parallelX .nop .nop .nop)
    let s := cellRuns id (bankAt false 0 [(rP 0, 8)])
    wordTrap ((settled wordOf s).cell 127) (viewOf wordOf s) s.kernelEntries w = none ∧
    ((accessesOf (viewOf wordOf s) w).head?).map (fun x => (x.addr % x.width, accessTrap false false false x)) = some (8, some .alignment) := by
  decide +kernel
theorem witness_moves_on : (plainCell.cell 127).rep = 0 ∧ (plainCell.cell 127).delay = none ∧ (plainCell.cell 127).shadow = none ∧
    (plainCell.cell 127).active.user = false := by decide +kernel
theorem witness_asked_repetitions : repAsked (viewOf wordOf plainCell) (slotWord (.rep 1023) ⟨.nop, .nop, .nop⟩) = some 1024 ∧
    repAsked (viewOf wordOf plainCell) (slotWord .replc ⟨.nop, .nop, .nop⟩) = some 0 ∧
    repAsked (viewOf wordOf plainCell) (slotWord .nop ⟨.nop, .nop, .nop⟩) = none := by decide +kernel

/-- The clauses of the access rule meet at these addresses; each has one answer. -/
theorem test_access_bounds :
    [0xBFFE, 0xC000, 0xFFFE, 0x10000, 0x17FFE, 0x18000, 0x1FFFFE, 0x200000, 0x3AFFFE, 0x3B0000, 0x3E3FFE, 0x3E4000, 0x3FFFFE, 0x400000].map (fun a =>
      accessTrap false false false { yside := false, addr := a, width := 2, store := true }) =
    [none, some .address, some .address, none, none, some .address, some .address, none, none, some .address, some .address, none, none,
      some .address] ∧
    [0x200000, 0x3FFFFE, 0x400000, 0x4004FE, 0x401000, 0x4010FE, 0x401100].map (fun a =>
      accessTrap false false false { yside := true, addr := a, width := 2, store := true }) =
    [some .address, some .address, none, none, some .address, some .address, some .address] ∧
    [0x7FFE, 0x8000, 0x10000].map (fun a => accessTrap false true false { yside := true, addr := a, width := 2, store := true }) =
    [some .privilege, none, some .privilege] := by decide +kernel

/-! ## Rings, registers, boot and the test port -/

/-- Ring pair 3, enabled. -/
def pairOn (f : Ring → Ring) : State := State.reset.setRing 3 (f { enable := true })

/-- A part of a reply that fills one entry. -/
def somePart : OutPart :=
  { kind := .reply, version := 4, opcode := 0x0104, status := 0, sequence := 7, target := 0, part := 0, parts := 1, device := 0, tagged := false,
    dest := none, fence := .none, tlvs := [] }

/-- HOST owns PTP, and the sheet of port 3 holds one entry. -/
def sheeted : State := hostTime.setSheet 3 { entries := [{ kind := .stamp, epoch := 0, frameId := 1 }], lostTotal := 5 }

/-- A device that waits for the host to boot it, with an image of 16 bytes named. -/
def waitsForHost : State :=
  let lo := BitVec.ofNat 32 (hostStart % 2 ^ 32)
  let hi := BitVec.ofNat 32 (hostStart / 2 ^ 32)
  { State.reset with board := { State.reset.board with bootPhase := .waitHost, bootAddrLo := lo, bootAddrHi := hi, bootLen := 16 } }

/-- The device in a life-cycle state. -/
def lifeAt (k : Nat) : State := { State.reset with life := { State.reset.life with lifeCycle := k } }

theorem witness_ring_enable : let s := State.reset; s.hostOpen = true ∧ (s.ring 3).enable = false := by decide +kernel

theorem witness_doorbell : let s := pairOn id; s.hostOpen = true ∧ (s.ring 3).enable = true ∧ (s.ring 3).stopped = false := by decide +kernel

theorem witness_rpl_head : let s := State.reset; s.hostOpen = true := by decide +kernel

theorem witness_ring_disable : let s := pairOn (fun r => { r with waiting := [somePart], covered := [[1]] }); s.hostOpen = true := by decide +kernel

theorem witness_no_room : let s := pairOn (fun r => { r with waiting := [somePart], rplTail := 4095 }); (s.ring 3).waiting = [somePart] ∧ (s.ring 3).room < partEntries somePart := by decide +kernel

theorem witness_room : let s := pairOn (fun r => { r with waiting := [somePart], coalCount := 255 }); (s.ring 3).waiting = [somePart] ∧ partEntries somePart ≤ (s.ring 3).room ∧ (s.ring 3).unsignalled + partEntries somePart < (s.ring 3).coalCount.toNat ∧ somePart.dest = none := by decide +kernel

theorem witness_coal_time : let s := (pairOn (fun r => { r with waiting := [somePart], coalTime := 1, unsignalled := 1 })); let s := { s with time := { s.time with powered := 1000 } }; (s.ring 3).waiting = [somePart] ∧ (s.ring 3).coalTime ≠ 0 ∧ (s.ring 3).unsignalled ≠ 0 ∧ (s.ring 3).coalSince + (s.ring 3).coalTime.toNat * 1000 ≤ s.time.powered := by decide +kernel

theorem witness_scratch : let s := State.reset; s.hostOpen = true := by decide +kernel

theorem witness_bar2_base : let s := State.reset; let v : BitVec 32 := 0x50000000; let b := s.store.bar2Base / 2 ^ 32 * 2 ^ 32 + v.toNat / 2 ^ 20 * 2 ^ 20; s.hostOpen = true ∧ hostStart ≤ b ∧ b + 2 ^ 20 ≤ s.hostEnd := by decide +kernel

theorem witness_boot_go : let s := waitsForHost; let a := s.board.bootAddrLo.toNat + s.board.bootAddrHi.toNat * 2 ^ 32; let k := s.board.bootLen.toNat; s.hostOpen = true ∧ s.waitsHost = true ∧ s.inHostArea a k = true := by decide +kernel

theorem witness_debug_halt : let s := State.reset; s.debugAllowed = true := by decide +kernel

theorem witness_debug_read : let s := State.reset; s.debugAllowed = true := by decide +kernel

theorem witness_debug_denied : let s := lifeAt 2; 2 ≤ s.life.lifeCycle := by decide +kernel

theorem witness_debug_unlock : let s := lifeAt 1; s.life.lifeCycle = 1 ∧ s.board.unlockFails < 3 := by decide +kernel

theorem witness_fuse : let s := State.reset; s.life.lifeCycle = 0 ∧ s.life.subsystem = 0 := by decide +kernel

theorem witness_fuse_denied : let s := lifeAt 1; s.life.lifeCycle ≠ 0 := by decide +kernel

/-- The endpoint takes no memory requests. -/
def closed : State := { State.reset with board := { State.reset.board with memorySpace := false } }

/-- No memory requests are taken; a pair that is enabled already. -/
theorem witness_rings_closed : let s := closed; let z := pairOn id; s.hostOpen = false ∧ z.hostOpen = true ∧ (z.ring 3).enable = true := by decide +kernel

/-- Nothing to write; nothing to signal; a part that completes COAL_COUNT. -/
theorem witness_reply_rest : let s := State.reset; let z := pairOn (fun r => { r with waiting := [somePart], coalCount := 1 }); let u := { pairOn (fun r => { r with coalTime := 1, unsignalled := 1 }) with time := { State.reset.time with powered := 999 } }; (s.ring 3).waiting = [] ∧ ((s.ring 3).coalTime = 0 ∧ (s.ring 3).unsignalled = 0) ∧ (z.ring 3).waiting = somePart :: [] ∧ ((pairOn (fun r => { r with waiting := [somePart], rplTail := 4095 })).ring 3).replyWait = true ∧ partEntries somePart ≤ (z.ring 3).room ∧ (z.ring 3).coalCount.toNat ≤ (z.ring 3).unsignalled + partEntries somePart ∧ u.time.powered < (u.ring 3).coalSince + (u.ring 3).coalTime.toNat * 1000 := by decide +kernel

/-- The host owns the sheets, Damium does; a sheet of one entry and an empty one. -/
theorem witness_sheet_owner : let s := sheeted; let z := State.reset; s.time.hostOwner ≠ false ∧ (s.sheet 3).entries = { kind := .stamp, epoch := 0, frameId := 1 } :: [] ∧ (s.sheet 2).entries = [] ∧ z.time.hostOwner = false ∧ z.time.hostOwner ≠ true := by decide +kernel

/-- A write beside its dword in the map, at either end of the MSI-X table and in the pending bits. -/
theorem witness_register_partial : (0xEFFFFC : BitVec 24).toNat < 0xF00000 ∧ 0xF00400 ≤ (0xF00400 : BitVec 24).toNat ∧ (0xF00400 : BitVec 24).toNat < 0xF00800 ∧ 0xF00808 ≤ (0xF00808 : BitVec 24).toNat ∧ (7 : BitVec 4) ≠ 0xF ∧ 0xF00800 ≤ (0xF00804 : BitVec 24).toNat ∧ (0xF00804 : BitVec 24).toNat < 0xF00808 ∧ 0x40000 ≤ (0x4FFFC : BitVec 24).toNat ∧ (0x4FFFC : BitVec 24).toNat < 0x50000 := by decide +kernel

/-- The last byte of the host area, and the byte after it. -/
theorem witness_bar2 : let s := { State.reset with store := { State.reset.store with bar2Base := State.reset.hostEnd - 2 ^ 20 } }; let o : BitVec 30 := 0xFFFFF; let z : BitVec 30 := 0x100000; s.hostOpen = true ∧ s.board.bootPhase ≠ .failed ∧ ([1] : List Byte) ≠ [] ∧ s.store.bar2Base + o.toNat + [(1 : Byte)].length ≤ s.hostEnd ∧ s.store.bar2Base + o.toNat + 1 ≤ s.hostEnd ∧ s.hostEnd < s.store.bar2Base + z.toNat + 1 := by decide +kernel

/-- The image does not lie in the host area; nothing waits for a boot. -/
theorem witness_boot_go_rest : let s := { waitsForHost with board := { waitsForHost.board with bootAddrLo := 0, bootAddrHi := 0 } }; let z := State.reset; s.hostOpen = true ∧ s.waitsHost = true ∧ s.inHostArea (s.board.bootAddrLo.toNat + s.board.bootAddrHi.toNat * 2 ^ 32) s.board.bootLen.toNat = false ∧ z.waitsHost = false := by decide +kernel

/-- PROVISIONED with the unlock and without; the first three tries are over; a key already there. -/
theorem witness_debug_rest : let s := lifeAt 1; let z := { lifeAt 1 with board := { State.reset.board with debugUnlocked := true, unlockFails := 3 } }; s.life.lifeCycle = 1 ∧ s.board.debugUnlocked = false ∧ z.life.lifeCycle = 1 ∧ z.board.debugUnlocked = true ∧ 3 ≤ z.board.unlockFails ∧ State.reset.life.lifeCycle = 0 := by decide +kernel

/-! ## Cells, dispatchers and channels -/

/-- Channel 5 in slot 5 of block 15, its thread, and cell 127. -/
def onCell (f : Thread → Thread) (g : Cell → Cell) : State :=
  ((held .active (fun v => { v with block := 15 })).modThread 15 5 (fun t => f { t with state := .running, channel := 5, cell := 7 })).setCell 127
    (g { running := some 5 })

/-- The cell has no thread, its thread is another state. -/
def idleCell (f : Thread → Thread) (g : Cell → Cell) : State := onCell f (fun c => g { c with running := none })

/-- The FIFO of block 15. -/
def fifoOf (s : State) (l : List (Nat × PendEntry)) : State := s.modBlock 15 (fun b => { b with fifo := l })

def somePacket : RxPacket := { flow := 0, leg := 0, kind := .rtp, bytes := [], stamp := 0, epoch := 0 }

/-- Powered time and the media clock moved on. -/
def momentAt (t : Nat) (s : State) : State :=
  { s with time := { s.time with powered := t }, clocks := { s.clocks with mediaNs := t } }

theorem witness_watchdog : let s := onCell id (fun c => { c with sinceSwap := 3000000 }); s.blockRuns (cellBlock 127) = true ∧ cellInService (s.cell 127) = true ∧ (s.cell 127).running.isSome = true ∧ (s.cell 127).sinceSwap ≤ 3000000 := by decide +kernel

theorem witness_user_budget : let s := onCell id (fun c => { c with bank0 := { user := true, userCycles := 1 } }); s.blockRuns (cellBlock 127) = true ∧ cellInService (s.cell 127) = true ∧ s.runningChannel 127 = some 5 ∧ (s.cell 127).active.user = true ∧ (s.cell 127).rep = 0 ∧ 1000 * settingNat (s.channel 5).applied .hook 0 0x42 0 < (s.cell 127).active.userCycles := by decide +kernel

theorem witness_block_isolated_already : let s := State.reset.modBlock 15 (fun b => { b with isolated := true }); (s.block 15).isolated = true := by decide +kernel

theorem witness_block_isolation : let s := onCell id id; (s.block 15).isolated = false ∧ 5 ∈ s.channelsOf 15 ∧ (s.channel 5).block = 15 ∧ (s.channel 5).state ≠ .idle := by decide +kernel

theorem witness_memory_trap_again : let k := TrapCause.uncorrectableX; let c : Cell := { memTraps := [0] }; let now := 86399999999999; trapCode k ≤ 3 ∧ ∃ t ∈ c.memTraps, now < t + 86400000000000 := by decide +kernel

theorem witness_memory_trap_day_later : let k := TrapCause.uncorrectableI; let c : Cell := { memTraps := [0] }; let now := 86400000000000; trapCode k ≤ 3 ∧ ∀ t ∈ c.memTraps, t + 86400000000000 ≤ now := by decide +kernel

theorem witness_other_trap : let k := TrapCause.watchdog; 4 ≤ trapCode k := by decide +kernel

theorem witness_release_of_waiting : let t : Thread := { state := .waiting, tickPend := true }; t.state = .waiting ∧ t.tickPend = true := by decide +kernel

theorem witness_release_of_running : let t : Thread := { state := .running, tickPend := false }; t.state ≠ .waiting ∧ t.tickPend = false := by decide +kernel

theorem witness_end_of_run_with_work : let t : Thread := { eventPend := true }; t.tickPend = true ∨ t.tdmPend = true ∨ t.eventPend = true := by decide +kernel

theorem witness_end_of_run_without : let t : Thread := {}; t.tickPend = false ∧ t.tdmPend = false ∧ t.eventPend = false := by decide +kernel

theorem witness_phase_boundary : let s := idleCell (fun t => { t with state := .waiting, wakeTick := true }) id; s.blockRuns 15 = true ∧ (s.block 15).lastPhase ≠ some s.absPhase := by decide +kernel

theorem witness_staging_complete : let s := idleCell (fun t => { t with state := .staging }) (fun c => { c with shadow := some 5 }); (s.cell 127).shadow = some 5 ∧ (s.thread (cellBlock 127) 5).state = .staging := by decide +kernel

theorem witness_deadline_miss : let s := momentAt 10 (onCell (fun t => { t with deadline := 10 }) id); let k := s.thread 15 5; (k.state = .running ∨ k.state = .suspended) ∧ k.missed = false ∧ k.deadline ≤ s.clocks.mediaNs := by decide +kernel

theorem witness_signal : let s := onCell id id; s.blockRuns 15 = true ∧ (s.block 15).fifo.length < fifoSize ∧ (s.block 15).taken.contains (5, (s.thread 15 5).tick, 4, 255) = false := by decide +kernel

theorem witness_signal_again : let s := (onCell id id).modBlock 15 (fun b => { b with taken := [(5, 0, 4, 255)] }); s.blockRuns 15 = true ∧ (s.block 15).fifo.length < fifoSize ∧ (s.block 15).taken.contains (5, (s.thread 15 5).tick, 4, 255) = true := by decide +kernel

theorem witness_context_rebuilt : let s := onCell (fun t => { t with rebuild := true }) id; (s.channel 5).slot = some 5 ∧ (s.thread (s.channel 5).block 5).rebuild = true := by decide +kernel

theorem witness_notice_record : let k : NoticeRec := { group := 10, v4 := true, opcode := 0x0F06, target := 0, tlvs := [] }; let s := State.reset.modBlock 15 (fun b => { b with notices := [k] }); (s.block 15).notices = [k] ∧ [Group.system, .channel, .tone, .media, .flow, .time, .port, .tdm, .clockPower, .fault, .stack][k.group]? = some .stack := by decide +kernel

theorem witness_pool_full : let s := (fifoOf (idleCell id id) [(5, .packet somePacket)]).modThread 15 6 (fun t => { t with pending := List.replicate 8192 (.signal 0 0) }); (s.block 15).fifo = [(5, .packet somePacket)] ∧ s.blockRuns 15 = true ∧ 8192 ≤ poolUsed (s.block 15) := by decide +kernel

theorem witness_packet_joins : let s := fifoOf (idleCell (fun t => { t with pending := List.replicate 63 (.signal 0 0) }) id) [(5, .packet somePacket)]; (s.block 15).fifo = [(5, .packet somePacket)] ∧ s.blockRuns 15 = true ∧ poolUsed (s.block 15) < 8192 ∧ (s.thread 15 5).state ≠ .free ∧ (s.thread 15 5).pending.length < 64 := by decide +kernel

theorem witness_command_wakes : let s := fifoOf (idleCell (fun t => { t with wakeCommand := true, state := .waiting, pending := List.replicate 64 (.signal 0 0) }) id) [(5, .command .hold)]; (s.block 15).fifo = [(5, .command .hold)] ∧ poolUsed (s.block 15) < 8192 ∧ (s.thread 15 5).wakeCommand = true ∧ (s.thread 15 5).state = .waiting := by decide +kernel

theorem witness_list_full : let s := fifoOf (idleCell (fun t => { t with pending := List.replicate 64 (.signal 0 0) }) id) [(5, .packet somePacket)]; (s.block 15).fifo = [(5, .packet somePacket)] ∧ poolUsed (s.block 15) < 8192 ∧ 64 ≤ (s.thread 15 5).pending.length := by decide +kernel

theorem witness_tick_run_idle : let s := State.reset; (s.channel 16383).state = .idle ∨ (s.channel 16383).state = .faulted := by decide +kernel

theorem witness_tick_run_running : let s := onCell id id; let v := s.channel 5; v.slot = some 5 ∧ v.state ≠ .idle ∧ v.state ≠ .faulted ∧ v.runsIn s.tick = true ∧ (s.thread v.block 5).state = .running := by decide +kernel

theorem witness_tick_run_waiting : let s := idleCell (fun t => { t with state := .waiting }) id; let v := s.channel 5; v.slot = some 5 ∧ v.state ≠ .idle ∧ v.state ≠ .faulted ∧ v.runsIn s.tick = true ∧ (s.thread v.block 5).state = .waiting := by decide +kernel

theorem witness_run_in_hold : let s := held .hold rtpLegs; let l := [PendEntry.packet somePacket]; let s1 := s.drawn.runStep1 5 (entryEvents l); (s1.channel 5).runState = .hold ∨ (s1.channel 5).runState = .opened := by decide +kernel

theorem witness_run_in_frost : let s := { held .active (fun v => { rtpLegs v with media := { v.media with frosted := true } }) with clocks := { State.reset.clocks with frost := true } }; let l := [PendEntry.packet somePacket]; let s1 := s.drawn.runStep1 5 (entryEvents l); s1.clocks.frost = true ∧ (s1.channel 5).runState = .active ∧ (s1.channel 5).media.frosted = true := by decide +kernel

theorem witness_play_queues : let q : Prompting := { prompts := [1], repeats := 1, replace := false, level := 0, notify := false }; let s := held .active (fun v => v.setLegMedia 1 { prompt := some q }); ((s.channel 5).legMedia 1).prompt ≠ none := by decide +kernel

theorem witness_ssrc_adoption : let s := held .active (fun v => (rtpLegs v).setLegMedia 1 { play := { ssrc := 1, candidate := some (2, 3) } }); ((s.channel 5).legMedia 1).play.candidate = some (2, 3) := by decide +kernel

theorem witness_dt_hang : let s := held .active (fun v => { tdmLegs v with media := { v.media with echo := { v.media.echo with doubleTalk := true } } }); let e := (s.channel 5).media.echo; e.hang = 0 := by decide +kernel

theorem witness_nlp_hang : let s := held .active (fun v => { tdmLegs v with media := { v.media with echo := { v.media.echo with nlp := true } } }); let e := (s.channel 5).media.echo; e.nlpHang = 0 := by decide +kernel

theorem witness_path_change : let s := held .active (fun v => { tdmLegs v with media := { v.media with echo := { v.media.echo with energyMs := 500, state := .converged, doubleTalk := true } } }); let e := (s.channel 5).media.echo; 500 ≤ e.energyMs := by decide +kernel

theorem witness_divergence : let s := held .active (fun v => { tdmLegs v with media := { v.media with echo := { v.media.echo with divergeRun := 4, state := .converged } } }); let e := (s.channel 5).media.echo; 4 ≤ e.divergeRun ∧ adapting e.state = true := by decide +kernel

theorem witness_converged : let s := held .active (fun v => { tdmLegs v with media := { v.media with echo := { v.media.echo with convergeRun := 20, state := .converging } } }); let e := (s.channel 5).media.echo; e.state = .converging ∧ (if (s.channel 5).wide then 40 else 20) ≤ e.convergeRun := by decide +kernel

theorem witness_tone_disable_end : let s := held .active (fun v => { tdmLegs v with media := { v.media with echo := { v.media.echo with quietMs := 250, state := .toneDisabled, before := .converged, nlpDisabled := true } } }); let e := (s.channel 5).media.echo; 250 ≤ e.quietMs := by decide +kernel

theorem witness_dissolve_end : let k := tdmInKey 0; let s := held .active (fun v => (tdmLegs v).setStream k { (v.stream k) with present := true, dissolve := some { old := {}, count := 100000, oldZeros := false, move := 0 } }); let v := s.channel 5; let st := v.stream k; st.dissolve = some { old := {}, count := 100000, oldZeros := false, move := 0 } ∧ settleCount st.chain + dissolveLen v k ≤ 100000 ∧ st.held = false := by decide +kernel

theorem witness_settle_end : let k := tdmInKey 0; let s := held .active (fun v => (tdmLegs v).setStream k { (v.stream k) with present := true, settling := true }); let v := s.channel 5; let st := v.stream k; st.settle = 0 := by decide +kernel

theorem witness_tick_origin_again : let s := { State.reset with clocks := { State.reset.clocks with lastOrigin := some 0 } }; s.clocks.lastOrigin = some s.tick := by decide +kernel

theorem witness_tick_origin : let s := toned; let s := { s with store := { s.store with commits := [{ ref := refOf 0x0710 (cmd 0 0 []) false, id := 0x200, image := [1] }] } }; s.clocks.lastOrigin ≠ some s.tick := by decide +kernel

/-- A run of channel 5 that has ended, its copy on its way. -/
def endedRunOf (t : State) : OpenRun := { channel := t.channel 5, tick := 0, entries := [.command .hold], ended := true }

def committing : State :=
  let t := onCell id id
  { t.modBlock 15 (fun b => { b with commits := [{ slot := 5, tick := 0 }] }) with openRuns := [(5, [endedRunOf t])] }

/-- Channel 5 whose leg B has an event under way. -/
def eventOn (id : Option Nat) (extended : Nat) : State :=
  held .active (fun v => (rtpLegs v).setLegMedia 1 { play := { events :=
    [{ pos := 0, event := 1, volume := 0, duration := 0, ended := false, reported := id, extended := extended }] } })

def streamOn (k : Nat) (f : Stream → Stream) : State := held .active (fun v => (tdmLegs v).setStream k (f { v.stream k with present := true }))

/-- 10 ms after its trap a cell comes back; before, and retired, it does not. -/
theorem witness_cell_return : let s := momentAt 10000000 (trapped 127); let z := momentAt 9999999 (trapped 127); let t : Trapped := { cause := .watchdog, code := 0 }; let q := State.reset.modCell 127 (fun c => { c with retired := true }); (127 : Nat) < 128 ∧ (s.cell 127).trap = some t ∧ t.since + 10000000 ≤ s.time.powered ∧ (s.cell 127).retired = false ∧ (s.cell 127).underReset = false ∧ (z.cell 127).trap = some t ∧ z.time.powered < t.since + 10000000 ∧ (q.cell 127).retired = true := by decide +kernel

theorem witness_staging_start : let s := idleCell (fun t => { t with state := .ready }) id; let t := s.thread 15 5; s.blockRuns (cellBlock 127) = true ∧ cellInService (s.cell 127) = true ∧ (s.cell 127).shadow = none ∧ s.copiesLeft 127 = [] ∧ (s.cell 127).running ≠ some 5 ∧ s.thread (cellBlock 127) 5 = t ∧ candidate (s.absPhase + 1) s.mayRun (s.block (cellBlock 127)) (cellLocal 127) = some (5, t) ∧ t.state ≠ .suspended ∧ (s.channel t.channel).slotBad = false := by decide +kernel

theorem witness_suspend_save : let s := (idleCell (fun t => { t with state := .suspended, suspendRec := some 15 }) (fun c => { c with shadow := some 5 })).modThread 15 6 (fun t => { t with state := .ready, channel := 6, cell := 7, deadline := 0, tickPend := true }); let s := s.modThread 15 5 (fun t => { t with deadline := 1000 }); (s.cell 127).shadow = some 5 ∧ (s.thread (cellBlock 127) 5).state = .suspended ∧ (s.thread (cellBlock 127) 5).suspendRec = some 15 ∧ s.staysNext 127 5 = false := by decide +kernel

theorem witness_commit : let s := committing; let k : CommitCopy := { slot := 5, tick := 0 }; (s.block 15).commits = k :: [] ∧ k.slot < 1024 ∧ (s.thread 15 k.slot).state ≠ .free ∧ tabGet s.openRuns (s.thread 15 k.slot).channel [] = endedRunOf (onCell id id) :: [] ∧ (endedRunOf (onCell id id)).ended = true := by decide +kernel

/-- A signal for a full list, a command for no thread. -/
theorem witness_fifo_rest : let s := fifoOf (idleCell (fun t => { t with pending := List.replicate 64 (.signal 0 0) }) id) [(5, .signal 1 2)]; let z := fifoOf State.reset [(1151, .command .hold)]; (s.block 15).fifo = (5, .signal 1 2) :: [] ∧ s.blockRuns 15 = true ∧ poolUsed (s.block 15) < 8192 ∧ 64 ≤ (s.thread 15 5).pending.length ∧ (z.block 15).fifo = (1151, .command .hold) :: [] ∧ z.blockRuns 15 = true ∧ poolUsed (z.block 15) < 8192 ∧ (z.thread 15 1151).state = .free := by decide +kernel

theorem witness_tick_run_ready : let s := idleCell (fun t => { t with state := .ready }) id; let v := s.channel 5; v.slot = some 5 ∧ v.state ≠ .idle ∧ v.state ≠ .faulted ∧ v.runsIn s.tick = true ∧ (s.thread v.block 5).state = .ready := by decide +kernel

/-- An event run out that was not reported, one that was, and none. -/
theorem witness_event_extend : let s := eventOn none 100000; let z := eventOn (some 7) 100000; let q := eventOn none 0; let f := fun (t : State) => (((t.channel 5).legMedia 1).play.events.find? (fun e => !e.ended && decide (extendLen (t.channel 5) 1 ≤ e.extended))).map (·.reported); f s = some none ∧ f z = some (some 7) ∧ f q = none := by decide +kernel

/-- The opening that waited has its thread. -/
theorem witness_context_cleared : let s := held .opened (fun v => { v with clearing := true, openWaits := true }); (s.channel 5).openWaits = true ∧ (s.channel 5).slot = some 5 := by decide +kernel

/-- A stream that is there, on either side of the array, and one that is not; the tick before and the same. -/
theorem witness_rs_in : let s := streamOn (tdmInKey 0) (fun x => { x with lastTick := some 3 }); let z := held .active tdmLegs; let q := streamOn 4 id; s.arrayRuns (s.channel 5).block = true ∧ mediaRuns (s.channel 5).runState = true ∧ ((s.channel 5).stream (tdmInKey 0)).present = true ∧ ((s.channel 5).stream (tdmInKey 0)).lastTick = some 3 ∧ ((s.channel 5).stream (tdmInKey 0)).lastTick ≠ some 4 ∧ crossing (tdmInKey 0) = true ∧ ((z.channel 5).stream (tdmInKey 0)).present = false ∧ ((q.channel 5).stream 4).present = true ∧ ((q.channel 5).stream 4).lastTick ≠ some 3 ∧ crossing 4 = false ∧ q.arrayRuns (q.channel 5).block = true := by decide +kernel

/-- A cross-fade one output before its end, and one with another held behind it. -/
theorem witness_dissolve_rest : let k := tdmInKey 0; let n := settleCount ({} : Chain) + dissolveLen (held .active tdmLegs |>.channel 5) k; let d : Nat → Dissolve := fun c => { old := {}, count := c, oldZeros := false, move := 0 }; let s := streamOn k (fun x => { x with dissolve := some (d (n - 1)) }); let z := streamOn k (fun x => { x with dissolve := some (d n), held := true }); ((s.channel 5).stream k).dissolve = some (d (n - 1)) ∧ n - 1 < settleCount ((s.channel 5).stream k).chain + dissolveLen (s.channel 5) k ∧ ((z.channel 5).stream k).dissolve = some (d n) ∧ settleCount ((z.channel 5).stream k).chain + dissolveLen (z.channel 5) k ≤ n ∧ ((z.channel 5).stream k).held = true := by decide +kernel

theorem witness_settle_goes_on : let s := streamOn 4 (fun x => { x with settle := 1, settling := true }); ((s.channel 5).stream 4).settle ≠ 0 := by decide +kernel

/-- Measured in this tick; the first measurement; one 4 samples and one 5 from the target, with a realignment held and without. -/
theorem witness_fill : let k := tdmInKey 0; let f := fun (t : State) => ((t.channel 5).stream k).chain.newest - ((t.channel 5).stream k).chain.pos; let m := streamOn k (fun x => { x with measured := some 0 }); let s := streamOn k id; let z := streamOn k (fun x => { x with target := some 3 }); let y := streamOn k (fun x => { x with target := some 4 }); let q := streamOn k (fun x => { x with target := some 4, held := true, heldMove := 1 }); crossing k = true ∧ ((m.channel 5).stream k).present = true ∧ ((m.channel 5).stream k).measured = some m.tick ∧ ((s.channel 5).stream k).measured ≠ some s.tick ∧ ((s.channel 5).stream k).target = none ∧ ((z.channel 5).stream k).target = some 3 ∧ (f z - 3).natAbs ≤ 4 ∧ ((y.channel 5).stream k).target = some 4 ∧ 4 < (f y - 4).natAbs ∧ ((y.channel 5).stream k).held = false ∧ 4 < (f q - 4).natAbs ∧ ((q.channel 5).stream k).held = true ∧ ((q.channel 5).stream k).heldMove ≠ 0 := by decide +kernel

/-! ## Ports, packets and links -/

def noStamp : Stamp := { seconds := 0, ns := 0, frac := 0, epoch := 0 }

/-- A frame to port 3, of so many bytes without its FCS. -/
def frameTo (n : Nat) (k : Framing) : RxFrame :=
  { port := 3, bytes := zeroBytes 5 ++ [3] ++ zeroBytes (n - 6), fcsGood := true, room := true, vary := 0, framing := k,
    ecc := .clean, lookup := .clean }

/-- Port 3, up. -/
def portOf (f : Port → Port) : State := State.reset.setPort 3 (f { mode := .g25, up := true })

def someFrame (media : Bool) : EgFrame := { media := media, length := 1522, content := .other [] }

/-- A frame whose last byte leaves long after its SFD. -/
def onWire : InFlight := { frame := someFrame false, sfdAt := 0 }

/-- A flow entry of a member. -/
def flowOf (device : Nat) : FlowSettings := { key := flowKey, id := 9, device := device, channel := 5, leg := 0, action := 0, srtp := none, latch := false }

def arrival (device : Nat) : Arrival :=
  { flow := flowOf device, port := 3, frame := [], payload := [], srcAddr := [], srcPort := 0, stamp := noStamp }

/-- A descriptor on the last template that leaves by a port of device 7. -/
def someDescriptor : Descriptor :=
  { channel := 5, leg := 0, record := { kind := .rtp, template := 65535, egress := 7 * 2 ^ 24 }, udptl := false, marker := true, pt := 0, seq := 0, ts := 0, payload := [1] }

/-- An IPv4 datagram. -/
def someDatagram : List Byte := zeroBytes 12 ++ [8, 0, 0x45] ++ zeroBytes 8 ++ [17] ++ zeroBytes 10 ++ zeroBytes 8

/-- A schedule that is closed for 1 µs and then open for 1 µs. -/
def someSchedule : Schedule := { cycle := 1000, baseSeconds := 0, baseNs := 0, list := [500, 0x80000000] }

/-- A port of a pair. -/
def paired : State :=
  (upPorts [2]).setPair 1 { joined := true, active := some 3, revert := true, revertHold := 10 }

theorem witness_matched_here : let s := State.reset; let a := arrival 0; a.flow.device = s.stack.number := by decide +kernel

theorem witness_matched_member : let s := ringed; let a := arrival 7; a.flow.device ≠ s.stack.number ∧ s.canReach a.flow.device = true := by decide +kernel

theorem witness_matched_unreachable : let s := stackRoot; let a := arrival 7; a.flow.device ≠ s.stack.number ∧ s.canReach a.flow.device = false := by decide +kernel

theorem witness_forwarded_packet : udpOffset someDatagram = some 34 := by decide +kernel

theorem witness_forwarded_reply : let s := ringed; let r := refOf 0x0104 (cmd 0 0 []) false; ({ device := 7, ref := r } : Forwarded) ∉ s.stack.forwarded := by decide +kernel

theorem witness_cycle_boundary : let k : PendSchedule := { schedule := someSchedule, ref := refOf 0x0A02 (cmd 9 3 []) false, notBefore := 0 }; let s := portOf (fun p => { p with shutters := true, pendingSchedule := some k }); let p := (s.port 3).settle s.now10; p.pendingSchedule = some k ∧ k.due s.count10 = true := by decide +kernel

theorem witness_pause_expiry : let s := momentAt 1 (portOf (fun p => { p with pauseTimer := 100, pfcTimers := [(7, 100), (6, 101)] })); (s.port 3).pauseTimer ≤ s.now10 := by decide +kernel

theorem witness_pfc_expiry : let s := momentAt 1 (portOf (fun p => { p with pauseTimer := 100, pfcTimers := [(7, 100), (6, 101)] })); tabGet (s.port 3).pfcTimers 7 0 ≤ s.now10 := by decide +kernel

theorem witness_verify_response : let s := portOf (fun p => { p with verifying := some 0 }); (s.port 3).verifying = some 0 := by decide +kernel

theorem witness_verify_again : let s := momentAt 10000000 (portOf (fun p => { p with verifying := some 0, verifyAttempts := 2 })); (s.port 3).verifying = some 0 ∧ 0 + 10000000 ≤ s.time.powered ∧ (s.port 3).verifyAttempts < 3 := by decide +kernel

theorem witness_verify_failed : let s := momentAt 10000000 (portOf (fun p => { p with verifying := some 0, verifyAttempts := 3 })); (s.port 3).verifying = some 0 ∧ 0 + 10000000 ≤ s.time.powered ∧ 3 ≤ (s.port 3).verifyAttempts := by decide +kernel

theorem witness_condition_lost : let s := momentAt 5 (portOf (fun p => { p with mode := .g25rs })); let p := s.port 3; p.mode ≠ .disabled ∧ (p.failed.any (fun e => e.1 == PcsCondition.fecLock)) = false ∧ p.mode.fec = true := by decide +kernel

theorem witness_condition_regained : let s := momentAt 5 (portOf (fun p => { p with failed := [(.remoteFault, 1)] })); let p := s.port 3; p.failed = [(.remoteFault, 1)] := by decide +kernel

theorem witness_link_stays : let s := momentAt 100000 (portOf (fun p => { p with failed := [(.blockLock, 1)] })); let p := s.port 3; p.failed = [(.blockLock, 1)] ∧ s.time.powered < 1 + 100000 := by decide +kernel

theorem witness_link_up : let s := momentAt 100001 (portOf (fun p => { p with up := false, regained := some (.blockLock, 1) })); let p := s.port 3; p.regained = some (.blockLock, 1) ∧ p.up = false ∧ p.mode ≠ .disabled ∧ p.failed = [] ∧ 1 + 100000 ≤ s.time.powered := by decide +kernel

theorem witness_revert : let s := momentAt 10 paired; (s.pair 1).joined = true ∧ (s.pair 1).revert = true ∧ (s.port (2 * 1)).up = true ∧ (s.pair 1).active = some (2 * 1 + 1) ∧ (s.port (2 * 1)).upSince + (s.pair 1).revertHold ≤ s.time.powered := by decide +kernel

def fragmentOf (k : Framing) : RxFrame := frameTo 256 k

def half : Reassembly := { bytes := zeroBytes 64, next := 1, stamp := noStamp, powered := 0 }

/-- A frame of 63 bytes and one beyond MAX_FRAME, one to no address of the port, and those at the bounds. -/
theorem witness_frame_lengths : let s := portOf id; let p := s.port 3; s.macReceives 3 = true ∧ p.up = true ∧ (State.reset.port 3).up = false ∧ State.reset.macReceives 3 = true ∧ p.ingressRoom 59 true = true ∧ p.ingressRoom 1518 true = true ∧ p.ingressRoom 60 false = false ∧ (frameTo 59 .express).bytes.length + 4 < 64 ∧ (frameTo 60 .express).bytes.length + 4 = 64 ∧ (frameTo 1518 .express).bytes.length + 4 = p.maxFrame ∧ p.maxFrame < (frameTo 1519 .express).bytes.length + 4 ∧ s.accepts 3 (zeroBytes 60) = false ∧ s.accepts 3 (List.replicate 60 0xFF) = true ∧ s.takesControl 3 (List.replicate 60 0xFF) = false := by decide +kernel

/-- A pause frame on a port that takes it. -/
theorem witness_frame_control : let s := portOf (fun p => { p with flowCtrl := 1 }); let f : List Byte := [1, 0x80, 0xC2, 0, 0, 1, 0, 0, 0, 0, 0, 0, 0x88, 0x08] ++ zeroBytes 46; s.accepts 3 f = true ∧ s.takesControl 3 f = true := by decide +kernel

theorem witness_frame_errors : (fragmentOf .express).ecc ≠ .uncorrectable ∧ ({ fragmentOf .express with ecc := .uncorrectable } : RxFrame).ecc = .uncorrectable ∧ ({ fragmentOf .express with ecc := .corrected, fcsGood := false } : RxFrame).fcsGood = false := by decide +kernel

/-- A port that puts a frame together, one that does not, and one whose preemption is off. -/
theorem witness_fragments : let s := portOf (fun p => { p with reassembly := some half, preempt := 2 }); let z := portOf id; let q := portOf (fun p => { p with preempt := 0 }); s.macReceives 3 = true ∧ (s.port 3).up = true ∧ (s.port 3).preempt ≠ 0 ∧ (s.port 3).reassembly = some half ∧ (fragmentOf (.continuation half.next true false)).framing = .continuation 1 true false ∧ (2 : Nat) ≠ half.next ∧ (z.port 3).reassembly = none ∧ (z.port 3).preempt ≠ 0 ∧ (q.port 3).up = true ∧ (q.port 3).preempt = 0 ∧ (fragmentOf (.first true)).framing ≠ .express := by decide +kernel

/-- Room for the packet, no room, no packet. -/
theorem witness_held_packets : let a := arrival 0; let s := State.reset.modBlock 15 (fun b => { b with packetHold := [a] }); let z := State.reset.modBlock 15 (fun b => { b with packetHold := [a], fifo := List.replicate fifoSize (5, PendEntry.packet somePacket) }); (s.block 15).packetHold = a :: [] ∧ canPost (s.block 15) a.payload.length = true ∧ (z.block 15).packetHold = a :: [] ∧ canPost (z.block 15) a.payload.length = false ∧ (State.reset.block 15).packetHold = [] := by decide +kernel

/-- No template; the clock stopped; a port of another device; one of this device with room to the byte, and without. -/
theorem witness_descriptors : let d := someDescriptor; let e := { someDescriptor with record := { kind := .rtp, template := 65535, egress := 3 * 2 ^ 8 } }; let t : Template := { kind := 0, udpCsum := true, bytes := template4 }; let z := State.reset.modRegion 3 (fun g => { g with descriptors := [d] }); let s := templated.modRegion 3 (fun g => { g with descriptors := [d] }); let q := { s with clocks := { s.clocks with power := [(48 + 3, { mode := .sleep })] } }; let n := templated.frameLength e t 42; let r := fun (k : Nat) => templated.modRegion 3 (fun g => { g with descriptors := [e], egress := [(3, [{ someFrame true with length := k }])] }); (z.region 3).descriptors = d :: [] ∧ plainUdptl d = d ∧ tabFind? z.flows.templates d.record.template = none ∧ (s.region 3).descriptors = d :: [] ∧ tabFind? s.flows.templates d.record.template = some t ∧ udpEnd t.bytes = some 42 ∧ q.clockRuns (52 + 3) = false ∧ s.clockRuns (52 + 3) = true ∧ egressDevice d.record.egress ≠ s.stack.number ∧ egressDevice e.record.egress = s.stack.number ∧ ((r (131072 - n)).region 3).queued ((r (131072 - n)).egressKey (egressPort e.record.egress)) + n ≤ egressRoom ∧ egressRoom < ((r (131073 - n)).region 3).queued ((r (131073 - n)).egressKey (egressPort e.record.egress)) + n := by decide +kernel

/-- A datagram that is none; a reply and a completion that are waited for, with and without their source. -/
theorem witness_forwarded_forms : let r := refOf 0x0104 (cmd 0 0 []) false; let s := { ringed with stack := { ringed.stack with forwarded := [{ device := 7, ref := r }] }, fylos := { ringed.fylos with outstanding := [r] } }; let u := s.takeMessage 7 0x10; let z := ringed.takeMessage 7 0x10; udpOffset ([] : List Byte) = none ∧ ({ device := 7, ref := r } : Forwarded) ∈ u.stack.forwarded ∧ r ∈ u.fylos.outstanding ∧ r ∉ z.fylos.outstanding := by decide +kernel

/-- A port that does not send; a region's queue with a frame, without, and with one that finds no room; Damium's frames, its PTP engine's and a datagram. -/
theorem witness_egress : let f := someFrame true; let s := portOf id; let b := portOf (fun p => { p with media := [{ f with length := 131072 }] }); let z := fun (q : State) => q.modRegion 3 (fun g => { g with egress := [(3, [f])] }); let settled := fun (q : State) => (q.modPort 3 (fun p => p.settle q.now10)).modPort (q.egressKey 3) (fun w => w.withoutOwn 3); let w := portOf (fun p => { p with waiting := [f] }); let d : Datagram := { addr := [], port := 0, egress := some 3, part := somePart }; let y := { s with fylos := { s.fylos with udpOut := [d] } }; let h := { s with time := { s.time with hostOwner := true } }; paired.senderOf 2 ≠ some 2 ∧ s.senderOf 3 = some 3 ∧ s.macRuns 3 = true ∧ tabGet ((settled s).region 3).egress (s.egressKey 3) [] = [] ∧ tabGet ((settled (z s)).region 3).egress (s.egressKey 3) [] = f :: [] ∧ ((settled (z s)).port 3).roomFor f = true ∧ tabGet ((settled (z b)).region 3).egress (b.egressKey 3) [] = f :: [] ∧ ((settled (z b)).port 3).roomFor f = false ∧ ((settled s).port 3).nextWaiting ((settled s).port 3) = none ∧ ((settled w).port 3).nextWaiting ((settled w).port 3) = some f ∧ h.time.hostOwner = true ∧ s.time.hostOwner = false ∧ (settled s).frameLimit 3 = 1522 ∧ isSync [] = false ∧ (settled s).nextDatagram 3 = none ∧ (settled y).nextDatagram 3 = some (d, []) := by decide +kernel

/-- A media frame, a bulk one, a remainder, a cut asked for, nothing; a port that is down. -/
theorem witness_commit_forms : let s := fun (f : Port → Port) => momentAt 100000 (portOf f); let u := fun (q : State) => (q.modPort 3 (fun p => p.settle q.now10)).dropTooLong 3; ((u (s (fun p => { p with media := [someFrame true], bulk := [someFrame false] }))).port 3).up = true ∧ (u (s (fun p => { p with media := [someFrame true], bulk := [someFrame false] }))).senderOf 3 = some 3 ∧ (u (s (fun p => { p with media := [someFrame true], bulk := [someFrame false] }))).macRuns 3 = true ∧ (u (s (fun p => { p with media := [someFrame true], bulk := [someFrame false] }))).startOf ((u (s (fun p => { p with media := [someFrame true], bulk := [someFrame false] }))).port 3) = .media (someFrame true) ∧ ((u (s (fun p => { p with bulk := [someFrame false] }))).port 3).up = true ∧ (u (s (fun p => { p with bulk := [someFrame false] }))).senderOf 3 = some 3 ∧ (u (s (fun p => { p with bulk := [someFrame false] }))).macRuns 3 = true ∧ (u (s (fun p => { p with bulk := [someFrame false] }))).startOf ((u (s (fun p => { p with bulk := [someFrame false] }))).port 3) = .bulk (someFrame false) ∧ ((u (s (fun p => { p with remainder := some { onWire with from_ := 64 }, bulk := [someFrame false] }))).port 3).up = true ∧ (u (s (fun p => { p with remainder := some { onWire with from_ := 64 }, bulk := [someFrame false] }))).senderOf 3 = some 3 ∧ (u (s (fun p => { p with remainder := some { onWire with from_ := 64 }, bulk := [someFrame false] }))).macRuns 3 = true ∧ (u (s (fun p => { p with remainder := some { onWire with from_ := 64 }, bulk := [someFrame false] }))).startOf ((u (s (fun p => { p with remainder := some { onWire with from_ := 64 }, bulk := [someFrame false] }))).port 3) = .rest { onWire with from_ := 64 } ∧ ((u (s (fun p => { p with media := [someFrame true], flight := some { onWire with sfdAt := 10000000 }, preemptActive := true }))).port 3).up = true ∧ (u (s (fun p => { p with media := [someFrame true], flight := some { onWire with sfdAt := 10000000 }, preemptActive := true }))).senderOf 3 = some 3 ∧ (u (s (fun p => { p with media := [someFrame true], flight := some { onWire with sfdAt := 10000000 }, preemptActive := true }))).macRuns 3 = true ∧ (u (s (fun p => { p with media := [someFrame true], flight := some { onWire with sfdAt := 10000000 }, preemptActive := true }))).startOf ((u (s (fun p => { p with media := [someFrame true], flight := some { onWire with sfdAt := 10000000 }, preemptActive := true }))).port 3) = .cut ∧ ((u (s (fun p => { p with media := [] }))).port 3).up = true ∧ (u (s (fun p => { p with media := [] }))).senderOf 3 = some 3 ∧ (u (s (fun p => { p with media := [] }))).macRuns 3 = true ∧ (u (s (fun p => { p with media := [] }))).startOf ((u (s (fun p => { p with media := [] }))).port 3) = .nothing ∧ ((u (s (fun p => { p with up := false }))).port 3).up = false := by decide +kernel

/-- A first frame committed on a free line with its stamp asked for, one behind a frame in transmission, and none. -/
theorem witness_sfd : let f := { onWire with frame := { onWire.frame with tsReq := true } }; let s := portOf (fun p => { p with committed := [f, onWire] }); let z := portOf (fun p => { p with committed := [onWire], flight := some { onWire with sfdAt := 10000000 } }); ((s.port 3).settle s.now10).committed = f :: [onWire] ∧ ((s.port 3).settle s.now10).flight = none ∧ f.frame.tsReq = true ∧ f.from_ = 0 ∧ ((z.port 3).settle z.now10).flight.isSome = true ∧ ((portOf id).port 3).committed = [] := by decide +kernel

theorem witness_cycle_goes_on : let s := portOf (fun p => { p with shutters := true, schedule := some someSchedule }); let p := (s.port 3).settle s.now10; p.pendingSchedule = none ∧ p.schedule = some someSchedule ∧ ((portOf id).port 3).schedule = none := by decide +kernel

/-- Media that waits for an opening within G, beyond it, and media that is paused. -/
theorem witness_guard_band : let s := fun (n t : Nat) => let q := portOf (fun p => { p with shutters := true, schedule := some someSchedule, media := [someFrame true], pauseTimer := t, flowCtrl := 1 }); ({ q with time := { q.time with ns := n } } : State); let p := fun (q : State) => ((q.port 3).settle q.now10).asOf (someFrame true); ((s 600 0).port 3).media = someFrame true :: [] ∧ (p (s 600 0)).mediaPaused = false ∧ Machine.within ((p (s 600 0)).opensIn (s 600 0).count10) ((p (s 600 0)).guardNs * 100) = true ∧ Machine.within ((p (s 0 0)).opensIn (s 0 0).count10) ((p (s 0 0)).guardNs * 100) = false ∧ ((portOf id).port 3).media = [] := by decide +kernel

theorem witness_timers_run : let s := portOf (fun p => { p with pauseTimer := 1, pfcTimers := [(7, 1)], verifying := some 0 }); s.now10 < (s.port 3).pauseTimer ∧ s.now10 < tabGet (s.port 3).pfcTimers 7 0 ∧ (s.port 3).verifying = some 0 ∧ s.time.powered < 0 + 10000000 ∧ (State.reset.port 3).verifying = none := by decide +kernel

/-- No condition of a port that is off or without FEC, one lost already, one not lost; no loss, a link that is down; the pair that stays. -/
theorem witness_links_rest : let s := portOf (fun p => { p with failed := [(.blockLock, 1)] }); let z := momentAt 100001 (portOf (fun p => { p with failed := [(.blockLock, 1)], committed := [onWire] })); let q := momentAt 9 paired; (State.reset.port 3).mode = .disabled ∧ (s.port 3).mode.fec = false ∧ (s.port 3).failed.any (fun e => e.1 == .blockLock) = true ∧ (s.port 3).failed.any (fun e => e.1 == .remoteFault) = false ∧ (z.port 3).failed = (.blockLock, 1) :: [] ∧ (z.port 3).up = true ∧ 1 + 100000 ≤ z.time.powered ∧ ((portOf id).port 3).failed = [] ∧ ((portOf id).port 3).up = true ∧ (State.reset.port 3).up = false ∧ (State.reset.port 3).regained = none ∧ q.time.powered < (q.port (2 * 1)).upSince + (q.pair 1).revertHold ∧ (State.reset.pair 1).joined = false := by decide +kernel

/-! ## Time, TDM, clocks, resets, engines and the stack -/

def timeIs (f : TimeUnit → TimeUnit) (s : State) : State := { s with time := f s.time }

def groupIs (f : TdmGroup → TdmGroup) : State := State.reset.setGroup 1 (f {})

def clocksAre (f : Clocks → Clocks) : State := { State.reset with clocks := f State.reset.clocks }

/-- The device alone, a link of its own trained. -/
def linked (f : BgPort → BgPort) : State :=
  let k := { State.reset.stack with topology := .mesh, links := 8, members := [0] }
  { State.reset with stack := { k with ports := [(3, f { lanes := 4, peer := some 1 })] } }

def someFlit : Flit := { cls := 2, last := true, src := 0, dst := 1, hops := 0, payload := [1] }

/-- A job of region 3's engine. -/
def jobOf (u : JobUse) (c : Nat) : Job := { ref := none, use := u, cls := c, order := 0, source := .bytes [], chain := none, base := 0 }

def someFacts : BootFacts := { trained := 0xF, gib := 16, selector0 := true, selector1 := false, slotA := 0, slotB := 0 }

/-- The device held in reset by sources, a transition asked for, and so on. -/
def lifeIs (f : Life → Life) : State := { State.reset with life := f State.reset.life }

def heldBy (l : List ResetCause) : State := lifeIs (fun k => { k with held := l })

def gateJob : GateJob := { ref := none, use := .enables 3 0, touches := [3], waiting := [3], begun := true }

def channelMoves (f : Move_ → Move_) (s : State) : State :=
  s.setChannel 5 { state := .migrating, slot := some 5, block := 3, move := some (f { ref := none, from_ := .active, inbound := true, device := 7, block := 3, slot := 5, charge := (0, 0) }) }

theorem witness_sample_suspect : let s := timeIs (fun t => { t with state := .locked }) State.reset; let t := s.time; let x : Int := q32 250 + 1; t.slew = none ∧ t.quarantine = none ∧ t.state = .locked ∧ 0 < t.quarantineLimit ∧ q32 t.suspectThreshold < (x - t.lastAccepted).natAbs := by decide +kernel

theorem witness_offset_sample : let s := State.reset; s.time.hostOwner = false ∧ s.isFollower = false ∧ s.stack.holdUntil = false ∧ s.time.mode ≠ .run := by decide +kernel

theorem witness_quarantine_end : let q : Quarantine := { latest := 5, since := 1 }; let s := momentAt 16000000001 (timeIs (fun t => { t with quarantine := some q }) State.reset); s.time.quarantine = some q ∧ q.since + s.time.quarantineLimit ≤ s.time.powered := by decide +kernel

theorem witness_quarantine_lasts : let q : Quarantine := { latest := 5, since := 1 }; let s := momentAt 16000000000 (timeIs (fun t => { t with quarantine := some q }) State.reset); s.time.quarantine = some q ∧ s.time.powered < q.since + s.time.quarantineLimit := by decide +kernel

theorem witness_slew_end : let s := timeIs (fun t => { t with slew := some 0, lastAccepted := 5 }) State.reset; s.time.slew = some 0 := by decide +kernel

theorem witness_step_apply : let s := timeIs (fun t => { t with steps := [.command 5] }) State.reset; s.time.steps = [.command 5] ∧ s.holdsCommitment = false := by decide +kernel

theorem witness_pi_c : (piStep 0xB333 0x4CCD (-4) 7 3).2.2 = false := by decide +kernel

theorem witness_step_a : let s := timeIs (fun t => { t with state := .locked, lastAccepted := 4 }) State.reset; s.stacked = false := by decide +kernel

theorem witness_group_framed : let s := groupIs (fun g => { g with fsRun := 16, ever := true }); let v := s.group 1; v.master = false ∧ v.framing = .search ∧ 16 ≤ v.fsRun := by decide +kernel

theorem witness_group_no_clk : let s := groupIs (fun g => { g with framing := .framed }); let v := s.group 1; v.master = false ∧ v.framing = .framed := by decide +kernel

theorem witness_group_no_fs : let s := groupIs (fun g => { g with framing := .framed, fsMissed := 3 }); let v := s.group 1; v.master = false ∧ v.framing = .framed ∧ 3 ≤ v.fsMissed := by decide +kernel

theorem witness_tdm_frame_gated : let s := clocksAre (fun k => { k with power := [(62, { mode := .deepSleep })] }); s.clockRuns 89 = false := by decide +kernel

theorem witness_reference_lock : let s := clocksAre (fun k => { k with ctrl := .hold }); let k := s.clocks; k.ctrl = .hold := by decide +kernel

theorem witness_coast_end : let s := momentAt 100000 (ctrlIn .coast); let k := s.clocks; k.ctrl = .coast ∧ (64 - k.level) * 15625 ≤ 10 * (s.time.powered - k.since) := by decide +kernel

theorem witness_acquire_lock : let s := ctrlIn .acquire; let k := s.clocks; k.ctrl = .acquire := by decide +kernel

theorem witness_ramp_end : let s := momentAt 100000 (ctrlIn .ramp); let k := s.clocks; k.ctrl = .ramp ∧ 100000 ≤ s.time.powered - k.since ∧ k.recheck = false := by decide +kernel

theorem witness_not_in_frost : let s := State.reset; let k := s.clocks; k.ctrl ≠ .ramp ∧ k.ctrl ≠ .acquire ∧ k.ctrl ≠ .coast := by decide +kernel

theorem witness_quiesced : let j := gateJob; let s := clocksAre (fun k => { k with gates := [j] }); gateOf s 3 = some j ∧ j.waiting.erase 3 = [] := by decide +kernel

theorem witness_gate_timeout : let j := gateJob; let s := clocksAre (fun k => { k with gates := [j] }); gateOf s 3 = some j := by decide +kernel

theorem witness_wake_done : let s := clocksAre (fun k => { k with power := [(3, { mode := .sleep, changing := some (.run, none) })] }); (s.powerDomain 3).changing = some (.run, none) ∧ (s.powerDomain 3).mode = .sleep ∧ (powerNeeds 3).all (fun q => (s.powerDomain q).mode == .run) = true := by decide +kernel

theorem witness_deep_entered : let s := clocksAre (fun k => { k with power := [(3, { mode := .deepSleep, changing := some (.deepSleep, none) })] }); (s.powerDomain 3).changing = some (.deepSleep, none) := by decide +kernel

theorem witness_power_on : let s := State.reset; s.life.held.contains .powerOn = false := by decide +kernel

theorem witness_power_off_hold : let s := heldBy [.powerOn, .resetN]; s.life.held.contains .powerOn = true := by decide +kernel

theorem witness_reset_n : let s := State.reset; s.life.held = [] := by decide +kernel

theorem witness_reset_joins : let s := heldBy [.powerOn]; s.life.held = [.powerOn] := by decide +kernel

theorem witness_perst_joins : let s := heldBy [.resetN]; s.life.held = [.resetN] := by decide +kernel

theorem witness_sequence_waits : let s := { lifeIs (fun k => { k with progress := 0 }) with clocks := { State.reset.clocks with ctrl := .start } }; s.life.resetAt = none ∧ s.life.held = [] ∧ s.life.progress < 2 ∧ s.clocks.ctrl = .start := by decide +kernel

theorem witness_training_fails : let s := lifeIs (fun k => { k with progress := 1 }); s.life.resetAt = none ∧ s.life.held = [] ∧ s.life.progress < 2 ∧ s.clocks.ctrl ≠ .start ∧ (7 : BitVec 4) ≠ 0xF := by decide +kernel

theorem witness_boots : let s := lifeIs (fun k => { k with progress := 1 }); let f := someFacts; s.life.resetAt = none ∧ s.life.held = [] ∧ s.life.progress < 2 ∧ s.clocks.ctrl ≠ .start ∧ f.trained = 0xF ∧ populations.contains f.gib = true ∧ pendingTransitions s.life = [] := by decide +kernel

theorem witness_reset_wipes_a : ResetCause.watchdog ≠ .powerOn := by decide +kernel

theorem witness_transition : let s := momentAt 100000 (lifeIs (fun k => { k with transitionAt := some (3, 0) })); s.life.transitionAt = some (3, 0) ∧ 0 + 100000 ≤ s.time.powered := by decide +kernel

theorem witness_watchdog_reset : let s := State.reset; s.board.bootPhase = .running ∧ s.fylos.halted = false := by decide +kernel

theorem witness_watchdog_halted : let s := { State.reset with fylos := { State.reset.fylos with halted := true } }; s.fylos.halted = true := by decide +kernel

theorem witness_watchdog_not_running : let s := waitsForHost; s.board.bootPhase ≠ .running := by decide +kernel

theorem witness_scrub_corrected : let s := State.reset; let p := ErrorPlace.cell 127 2; (s.powerDomain 15).mode ≠ .deepSleep ∧ scrubDomain p = some 15 := by decide +kernel

theorem witness_scrub_asleep : let s := clocksAre (fun k => { k with power := [(15, { mode := .deepSleep })] }); let p := ErrorPlace.cell 127 2; scrubDomain p = some 15 ∧ (s.powerDomain 15).mode = .deepSleep := by decide +kernel

theorem witness_scrub_cell : let s := State.reset; (s.powerDomain (cellBlock 127)).mode ≠ .deepSleep := by decide +kernel

theorem witness_scrub_dispatcher : let s := State.reset.modBlock 15 (fun b => { b with isolated := true }); (s.powerDomain (16 + 15)).mode ≠ .deepSleep ∧ (s.block 15).isolated = true := by decide +kernel

theorem witness_scrub_context : let s := held .active id; (s.channel 5).slot.isSome = true := by decide +kernel

theorem witness_cell_reset_done : let s := State.reset.modCell 127 (fun c => { c with underReset := true }); s.fylos.switching = false ∧ (s.cell 127).underReset = true ∧ (s.block (cellBlock 127)).underReset = false ∧ s.blockAwake (cellBlock 127) = true := by decide +kernel

theorem witness_block_reset_done : let s := State.reset.modBlock 15 (fun c => { c with underReset := true }); s.fylos.switching = false ∧ (s.block 15).underReset = true ∧ (s.region (blockRegion 15)).underReset = false ∧ s.blockAwake 15 = true := by decide +kernel

theorem witness_region_reset_done : let s := State.reset.modRegion 3 (fun c => { c with underReset := true }); s.fylos.switching = false ∧ (s.region 3).underReset = true ∧ (s.engine 3).reducer.running = none ∧ (s.engine 3).enlarger.running = none ∧ (regionBlocks 3).all s.blockAwake = true := by decide +kernel

theorem witness_firmware_switched : let s := lifeIs (fun k => { k with switchTo := some 1 }); s.life.switchTo = some 1 := by decide +kernel

theorem witness_job_start : let j := { jobOf .imageEnlarge 2 with chain := some hostStart }; let k := jobOf (.contextIn 5) 0; let s := State.reset.setEngine 3 { enlarger := { queue := [j, k] } }; (engineHalf (s.engine 3) false).running = none ∧ s.domainRuns (engineDomain 3) = true ∧ (s.region 3).underReset = false ∧ nextJob (engineHalf (s.engine 3) false).queue = some k := by decide +kernel

theorem witness_job_end_table : let j := jobOf (.table 0x200) 2; let s := State.reset.setEngine 3 { enlarger := { running := some j } }; (s.engine 3).enlarger.running = some j ∧ s.clockRuns (engineClock 3) = true := by decide +kernel

theorem witness_job_end_enlarge : let j := jobOf (.imageEnlarge) 2; let s := State.reset.setEngine 3 { enlarger := { running := some j } }; (s.engine 3).enlarger.running = some j ∧ s.clockRuns (engineClock 3) = true := by decide +kernel

theorem witness_job_end_reduce : let j := jobOf (.imageReduce) 2; let s := State.reset.setEngine 3 { reducer := { running := some j } }; (s.engine 3).reducer.running = some j ∧ s.clockRuns (engineClock 3) = true := by decide +kernel

theorem witness_job_end_trace : let j := jobOf (.traceDump) 2; let s := State.reset.setEngine 3 { reducer := { running := some j } }; (s.engine 3).reducer.running = some j ∧ s.clockRuns (engineClock 3) = true := by decide +kernel

theorem witness_job_end_context : let j := jobOf (.contextOut 5) 2; let s := State.reset.setEngine 3 { reducer := { running := some j } }; (s.engine 3).reducer.running = some j ∧ s.clockRuns (engineClock 3) = true := by decide +kernel

theorem witness_lane_lost : let s := linked id; let v := s.bgPort 3; v.lanes = 4 := by decide +kernel

theorem witness_last_lane_lost : let s := linked (fun v => { v with lanes := 3 }); let v := s.bgPort 3; v.lanes = 3 := by decide +kernel

theorem witness_stack_link_lost : let s := linked id; let v := s.bgPort 3; v.lanes ≠ 0 := by decide +kernel

theorem witness_stack_link_not_up : let s := linked (fun v => { v with lanes := 0 }); let v := s.bgPort 3; v.lanes = 0 := by decide +kernel

theorem witness_link_trained : let s := linked (fun v => { v with lanes := 0, waiting := [someFlit] }); let v := s.bgPort 3; s.linkConfigured 3 = true ∧ s.linkClock 3 = true ∧ v.lanes = 0 := by decide +kernel

theorem witness_lane_back : let s := linked (fun v => { v with lanes := 3 }); let v := s.bgPort 3; s.linkConfigured 3 = true ∧ s.linkClock 3 = true ∧ v.lanes = 3 := by decide +kernel

theorem witness_retrain : let s := linked (fun v => { v with replay := [{ seq := 0, flit := someFlit, resends := 8 }] }); let v := s.bgPort 3; (v.replay.any (fun f => decide (8 ≤ f.resends))) = true := by decide +kernel

theorem witness_flit_illegal : let s := linked id; let v := s.bgPort 3; let flit : List Byte := 0xF0 :: zeroBytes 255; v.lanes ≠ 0 ∧ s.linkClock 3 = true ∧ flitLegal (fieldAt flit 0 8) = false := by decide +kernel

theorem witness_flit_bad_crc : let s := linked id; let v := s.bgPort 3; let flit : List Byte := [1]; v.lanes ≠ 0 ∧ s.linkClock 3 = true ∧ crcFinal (flit.take 0xFC) ≠ fieldAt flit 0xFC 4 := by decide +kernel

theorem witness_pump : let v : BgPort := { lanes := 4, txSeq := 4095, replay := List.replicate 511 { seq := 0, flit := someFlit, resends := 0 }, waiting := [someFlit] }; v.lanes ≠ 0 ∧ v.replay.length < 512 ∧ nextFlit v.waiting = some (someFlit, []) := by decide +kernel

theorem witness_pump_full : let v : BgPort := { lanes := 4, replay := List.replicate 512 { seq := 0, flit := someFlit, resends := 0 }, waiting := [someFlit] }; v.replay.length ≤ 512 := by decide +kernel

theorem witness_member_joins : let s := stackRoot; let s0 := s.takeMessage 7 0x12; s.stacked = true ∧ 7 ≠ s.stack.number ∧ s0.memberFits 7 memberSeven = true := by decide +kernel

theorem witness_advertisement_alone : let s := State.reset; s.stacked = false := by decide +kernel

theorem witness_join_timeout : let j : Join := { ref := refOf 0x0B01 (cmd 0 0 []) false, since := 0, tableCopied := false }; let k := { stackRoot.stack with joining := some j }; let s := momentAt 10000000000 { stackRoot with stack := k }; s.stack.joining = some j ∧ j.since + 10 * oneSecond ≤ s.time.powered := by decide +kernel

theorem witness_table_copy : let j : Join := { ref := refOf 0x0B01 (cmd 0 0 []) false, since := 0, tableCopied := false }; let k := { stackRoot.stack with joining := some j }; let s := { stackRoot with stack := k }; s.stack.joining = some j := by decide +kernel

theorem witness_time_exchange : let s := follower; s.isFollower = true ∧ s.pathPort s.stackRoot = some 1 := by decide +kernel

theorem witness_step_relay_root : let s := stackRoot; s.isFollower = false := by decide +kernel

theorem witness_leg_block : let s := ringed.setChannel 5 { state := .active, slot := some 5, runA := { kind := .stack, peerDevice := 7 } }; let s0 := s.takeMessage 7 0x02; ((s0.channel 5).runLeg 0).kind = .stack ∧ ((s0.channel 5).runLeg 0).peerDevice = 7 := by decide +kernel

theorem witness_context_frame : let s := channelMoves id ringed; let s0 := s.takeMessage 7 0x20; let m : Move_ := { ref := none, from_ := .active, inbound := true, device := 7, block := 3, slot := 5, charge := (0, 0) }; (s0.channel 5).move = some m ∧ m.inbound = true ∧ m.device = 7 ∧ m.sent = false ∧ originalOver [] 65536 = false := by decide +kernel

theorem witness_flow_sequence : let s := ringed; s.stacked = true ∧ s.isFollower = false := by decide +kernel

theorem witness_flow_vote : let s := follower; s.stacked = true ∧ s.isFollower = true := by decide +kernel

def sampleAt (f : TimeUnit → TimeUnit) : TimeUnit := f State.reset.time

/-- Each class at its bounds. -/
theorem witness_samples : let thr := q32 State.reset.time.stepThreshold; let far : Int := q32 10000000; (-thr - 1 < -thr) ∧ (-thr ≤ thr ∧ thr ≤ thr ∧ thr ≤ far) ∧ (-thr ≤ thr + 1 ∧ thr < thr + 1 ∧ thr + 1 ≤ far) ∧ (-thr ≤ far + 1 ∧ far < far + 1) := by decide +kernel

/-- In a slew; in a quarantine, far and near; LOCKED and far; far but not LOCKED. -/
theorem witness_quarantine_forms : let t := sampleAt (fun t => { t with quarantine := some { latest := 5, since := 1 } }); let l := sampleAt (fun t => { t with state := .locked }); let x : Int := q32 250 + 1; let f := fun (t : TimeUnit) (y : Int) => decide (q32 t.suspectThreshold < (y - t.lastAccepted).natAbs); (sampleAt (fun t => { t with slew := some 1 })).slew ≠ none ∧ t.slew = none ∧ t.quarantine.isSome = true ∧ f t x = true ∧ f t (x - 1) = false ∧ l.slew = none ∧ l.quarantine = none ∧ l.state = .locked ∧ 0 < l.quarantineLimit ∧ f l x = true ∧ State.reset.time.state ≠ .locked := by decide +kernel

/-- Another owner, a follower, the end of a hold; no quarantine; a slew not over; a step pending, and no step. -/
theorem witness_samples_rest : let s := State.reset; let z := { s with stack := { s.stack with holdUntil := true } }; let q := timeIs (fun t => { t with slew := some 1, steps := [.command 5] }) (portOf (fun p => { p with committed := [{ frame := { someFrame true with content := .ptpForward [] noStamp 0 } }] })); hostTime.time.hostOwner = true ∧ follower.isFollower = true ∧ z.time.hostOwner = false ∧ z.isFollower = false ∧ z.stack.holdUntil = true ∧ s.time.quarantine = none ∧ q.time.slew ≠ some 0 ∧ q.holdsCommitment = true ∧ s.time.steps = [] := by decide +kernel

/-- A high one cycle too short, and one that has lasted, in Frost and out of it. -/
theorem witness_pps_filter : let s := State.reset; let f := ({ s with clocks := { s.clocks with frost := true } } : State); s.clocks.frost = false ∧ f.clocks.frost = true ∧ 49 < (if s.clocks.frost then 25 else 50) ∧ (if s.clocks.frost then 25 else 50) ≤ 50 ∧ 24 < (if f.clocks.frost then 25 else 50) ∧ (if f.clocks.frost then 25 else 50) ≤ 25 := by decide +kernel

/-- A sum within the limits and one beyond them. -/
theorem witness_pi_clamps : (piStep 0xB333 0x4CCD (-4) 7 3).2.2 = false ∧ (piStep 0xB333 0x4CCD (-4) 7 (2 ^ 62)).2.2 = true := by decide +kernel

/-- 15 good FS; 2 errors; a master; too few frames; a fit in range and one beyond; a start on the grid and off it. -/
theorem witness_group_rest : let s := groupIs (fun g => { g with fsRun := 15 }); let z := groupIs (fun g => { g with framing := .framed, fsMissed := 2, framesIn := 79 }); let q := groupIs (fun g => { g with framing := .framed, framesIn := 80, stamps := [(0, 0), (1, 125000 * 65536)] }); let w := groupIs (fun g => { g with framing := .framed, framesIn := 80, stamps := [(0, 0), (1, 130000 * 65536)] }); let m := groupIs (fun g => { g with master := true }); let n := timeIs (fun t => { t with ns := 4 }) m; (s.group 1).fsRun < 16 ∧ (z.group 1).fsMissed < 3 ∧ (z.group 1).framesIn < 80 ∧ (m.group 1).master = true ∧ (m.group 1).framing ≠ .framed ∧ (q.group 1).master = false ∧ (q.group 1).framing = .framed ∧ 80 ≤ (q.group 1).framesIn ∧ 2 ≤ (q.group 1).stamps.length ∧ (frameOffset true (q.group 1).stamps).natAbs ≤ 281474976711 ∧ 281474976711 < (frameOffset false (w.group 1).stamps).natAbs ∧ (m.group 1).started = false ∧ m.onGrid (m.group 1) = true ∧ n.onGrid (n.group 1) = false := by decide +kernel

theorem witness_tdm_frame : let s := groupIs (fun g => { g with framing := .framed, framesIn := 3 }); s.clockRuns 89 = true := by decide +kernel

/-- No such source; one that is selected and one that is not; what does not qualify; a first reference in START, and one in FROST. -/
theorem witness_reference_rest : let k := upPorts [3]; let s := fun (c : CtrlState) => ({ k with clocks := { k.clocks with ctrl := c, qualified := [], selected := none } } : State); (7 ≤ 7) ∧ State.reset.clocks.selected = some 0 ∧ State.reset.clocks.selected ≠ some 6 ∧ State.reset.candidateSource 6 = false ∧ (s .start).candidateSource 6 = true ∧ (s .start).clocks.qualified.contains 6 = false ∧ (s .start).clocks.ctrl = .start ∧ (s .frost).clocks.ctrl = .frost ∧ (s .coast).clocks.ctrl ≠ .start ∧ (s .coast).clocks.ctrl ≠ .frost ∧ (s .coast).clocks.ctrl ≠ .hold := by decide +kernel

/-- Before its time, and a ramp that looks for its reference again. -/
theorem witness_frost_rest : let s := momentAt 99999 (ctrlIn .coast); let z := momentAt 99999 (ctrlIn .ramp); let q := ctrlIn .coast; let t := momentAt 100000 { q with clocks := { q.clocks with ctrl := .ramp, recheck := true } }; s.clocks.ctrl = .coast ∧ 10 * (s.time.powered - s.clocks.since) < (64 - s.clocks.level) * 15625 ∧ z.clocks.ctrl = .ramp ∧ z.time.powered - z.clocks.since < 100000 ∧ t.clocks.ctrl = .ramp ∧ 100000 ≤ t.time.powered - t.clocks.since := by decide +kernel

/-- A job with another port to wait for; none; a domain that wakes from DEEP_SLEEP for a command; one whose dependences sleep; one that does not change; a block that may sleep, and one that may not. -/
theorem witness_gates_rest : let j := { gateJob with touches := [3, 4], waiting := [3, 4] }; let s := clocksAre (fun k => { k with gates := [j] }); let r := refOf 0x0D06 (cmd 0 0 []) false; let w := clocksAre (fun k => { k with power := [(3, { mode := .deepSleep, changing := some (.run, some r) })] }); let z := clocksAre (fun k => { k with power := [(16, { mode := .sleep })] }); let a := momentAt 10000000000 (clocksAre (fun k => { k with power := [(15, { auto := true })] })); let l := [15, 16 + 15, 32 + 15]; gateOf s 3 = some j ∧ j.waiting.erase 3 ≠ [] ∧ gateOf State.reset 3 = none ∧ (w.powerDomain 3).changing = some (.run, some r) ∧ (w.powerDomain 3).mode = .deepSleep ∧ (powerNeeds 3).all (fun q => (w.powerDomain q).mode == .run) = true ∧ (powerNeeds 0).all (fun q => (z.powerDomain q).mode == .run) = false ∧ (State.reset.powerDomain 3).changing = none ∧ (15 < 16 ∧ (a.powerDomain 15).auto = true ∧ a.holdsChannels 15 = false ∧ (a.block 15).emptySince + 10000000000 ≤ a.time.powered) ∧ l.all (fun p => (a.powerDomain p).mode == .run && (a.powerDomain p).changing.isNone) = true ∧ a.clocks.gates.any (fun j => j.touches.any (l.flatMap powerClocks).contains) = false ∧ (momentAt 9999999999 a).time.powered < (a.block 15).emptySince + 10000000000 := by decide +kernel

/-- A source that holds the device already; a device held, one whose sequence is over; a reset that is due and one that is not; a population of no size; a transition cut. -/
theorem witness_reset_forms : let s := heldBy [.resetN, .pcie]; let d := momentAt 100000 (lifeIs (fun k => { k with resetAt := some 0 })); let e := momentAt 99999 (lifeIs (fun k => { k with resetAt := some 0 })); let l := { State.reset.life with trans := [(3, 4)], progress := 1 }; s.life.held.contains .resetN = true ∧ s.life.held.contains .pcie = true ∧ s.life.held.contains .powerOn = false ∧ s.life.held ≠ [] ∧ 2 ≤ State.reset.life.progress ∧ d.life.resetAt = some 0 ∧ 0 + 100000 ≤ d.time.powered ∧ e.time.powered < 0 + 100000 ∧ 3 ∉ [2, 4, 8, 16] ∧ pendingTransitions l ≠ [] ∧ l.progress < 2 := by decide +kernel

theorem witness_transitions : let s := lifeIs (fun k => { k with transitionAt := some (3, 0) }); State.reset.life.transitionAt = none ∧ (momentAt 99999 s).life.transitionAt = some (3, 0) ∧ (momentAt 99999 s).time.powered < 0 + 100000 ∧ 0 + 100000 ≤ (momentAt 100000 s).time.powered := by decide +kernel

/-- Places of a block, a region, a port and TDM awake; a channel with no slot; a table with both copies lost, and with one. -/
theorem witness_scrub_forms : let s := State.reset; (s.powerDomain (16 + 15)).mode ≠ .deepSleep ∧ (s.powerDomain (48 + 3)).mode ≠ .deepSleep ∧ (s.powerDomain (56 + 3)).mode ≠ .deepSleep ∧ (s.powerDomain 62).mode ≠ .deepSleep ∧ (s.channel 5).slot = none ∧ (true = true ∧ tabHas toned.store.tables 0x100 = true) ∧ (false = false ∧ tabHas toned.store.tables 0x3FF = false) := by decide +kernel

/-- A firmware switch under way, no such scope; a cell of a block under reset, a block of a region under reset, a region with a job; what is not under reset; a block asleep; no switch. -/
theorem witness_scopes_wait : let s := State.reset; let w := { s with fylos := { s.fylos with switching := true } }; let c := (s.modBlock 15 (fun k => { k with underReset := true })).modRegion 3 (fun k => { k with underReset := true }); let e := s.setEngine 3 { reducer := { running := some (jobOf .traceDump 2) }, enlarger := { running := some (jobOf .kernel 2) } }; let z := clocksAre (fun k => { k with power := [(15, { mode := .sleep })] }); w.fylos.switching = true ∧ (0 ≠ 1 ∧ 0 ≠ 2 ∧ 0 ≠ 3) ∧ (c.block (cellBlock 127)).underReset = true ∧ (c.region (blockRegion 15)).underReset = true ∧ (e.engine 3).reducer.running ≠ none ∧ (e.engine 3).enlarger.running ≠ none ∧ (s.cell 127).underReset = false ∧ (s.block 15).underReset = false ∧ (s.region 3).underReset = false ∧ z.blockAwake 15 = false ∧ (regionBlocks 3).all z.blockAwake = false ∧ s.life.switchTo = none := by decide +kernel

/-- A busy half, a sleeping region, one under reset, nothing queued. -/
theorem witness_jobs_wait : let e := State.reset.setEngine 3 { reducer := { running := some (jobOf .traceDump 2) } }; let z := clocksAre (fun k => { k with power := [(52 + 3, { mode := .sleep })] }); let c := State.reset.modRegion 3 (fun k => { k with underReset := true }); (engineHalf (e.engine 3) true).running ≠ none ∧ z.domainRuns (engineDomain 3) = false ∧ z.clockRuns (engineClock 3) = false ∧ (c.region 3).underReset = true ∧ (engineHalf (State.reset.engine 3) false).queue = [] ∧ (State.reset.engine 3).enlarger.running = none ∧ (State.reset.engine 3).reducer.running = none := by decide +kernel

/-- Every use, the ones of the other half among them. -/
theorem witness_job_uses : let e := fun (u : JobUse) => State.reset.setEngine 3 { enlarger := { running := some (jobOf u 2) }, reducer := { running := some (jobOf u 2) } }; [JobUse.firmware 1, .table 0x200, .kernel, .prompt 65535, .piece 65535 1, .contextIn 5, .imageEnlarge, .contextOut 5].all (fun u => decide (((e u).engine 3).enlarger.running = some (jobOf u 2) ∧ (e u).clockRuns (engineClock 3) = true)) = true ∧ isReducer (.contextOut 5) = true ∧ isReducer .kernel = false := by decide +kernel

/-- A link down, one of four lanes, one that is not named, no flit resent often; a flit that ends well and one whose header changes the peer. -/
theorem witness_links_of_the_stack : let s := linked id; let z := linked (fun v => { v with lanes := 0 }); let q := { s with stack := { s.stack with links := 0 } }; (s.bgPort 3).lanes ≠ 0 ∧ (s.bgPort 3).lanes = 4 ∧ (z.bgPort 3).lanes = 0 ∧ q.linkConfigured 3 = false ∧ ((s.bgPort 3).replay.any (fun f => decide (8 ≤ f.resends))) = false ∧ s.linkClock 3 = true ∧ ((s.flitIn 3 [1]).bgPort 3).peer = (s.bgPort 3).peer := by decide +kernel

/-- A member of this number, one that does not fit, with a join and without; an end of one that is known and of one that is not. -/
theorem witness_advertisements : let j : Join := { ref := refOf 0x0B01 (cmd 0 0 []) false, since := 0, tableCopied := false }; let s := stackRoot; let bad := { memberSeven with formats := 0 }; let z := { s with stack := { s.stack with joining := some j } }; let u := s.takeMessage 7 0x12; let v := z.takeMessage 7 0x12; s.stacked = true ∧ (s.takeMessage 0 0x12).stack.number = 0 ∧ u.memberFits 7 bad = false ∧ u.stack.joining = none ∧ v.memberFits 7 bad = false ∧ v.stack.joining.isSome = true ∧ tabHas u.stack.infos 7 = false ∧ tabHas (ringed.takeMessage 7 0x12).stack.infos 7 = true := by decide +kernel

/-- A join before its 10 s; none; the end of the table at a follower and at the root; an exchange over another link; a step at a follower. -/
theorem witness_join_forms : let j : Join := { ref := refOf 0x0B01 (cmd 0 0 []) false, since := 0, tableCopied := false }; let f := fun (s : State) => momentAt 9999999999 { s with stack := { s.stack with joining := some j } }; let e := fun (s : State) => let t := (f s).takeMessage (f s).stackRoot 0x21; ({ t with stack := { t.stack with joining := some { j with tableCopied := true } } } : State); (f follower).stack.joining = some j ∧ (f follower).time.powered < j.since + 10 * oneSecond ∧ State.reset.stack.joining = none ∧ (e follower).isFollower = true ∧ (e stackRoot).isFollower = false ∧ follower.pathPort follower.stackRoot ≠ some 3 ∧ stackRoot.isFollower = false := by decide +kernel

/-- A block that is for no leg; a channel that moves nowhere, one whose context has come; a frame too large. -/
theorem witness_stack_blocks_and_contexts : let s := ringed.takeMessage 7 0x20; let z := (channelMoves (fun m => { m with sent := true }) ringed).takeMessage 7 0x20; ((s.channel 5).runLeg 0).kind ≠ .stack ∧ (s.channel 5).move = none ∧ (z.channel 5).move.map (·.sent) = some true ∧ ringed.stacked = true := by decide +kernel

/-- A change in front of the sequencer's list, and none; a follower. -/
theorem witness_flow_turns : let c := FlowChange.insert (flowOf 7); let s := { ringed with stack := { ringed.stack with changes := [(none, c)] } }; s.stack.changes = (none, c) :: [] ∧ s.isFollower = false ∧ s.stacked = true ∧ ringed.stack.changes = [] ∧ follower.stacked = true ∧ follower.isFollower = true := by decide +kernel

/-! ## Whole-machine statements -/

theorem witness_step_from_reset : Legal State.reset ∧ ∃ t, step State.reset = .next t := ⟨⟨rfl, by decide, rfl⟩, _, rfl⟩
theorem witness_memory : memoryWf ([] : List Host.Cell) = true ∧ memoryWf (memWrite [] 65535 [1, 0, 2]) = true := by decide
theorem witness_word : let x : VeWord := .parallel (.cmac4v true 6 5 true true true) (.ldQ 7 7 .indexed) (.stL 7 7 .postN) (.rep 1023)
    compFits (wordComp x) = true ∧ decodeWord (encodeWord x) = some x := by decide +kernel

/-! ## Ill-formed commands -/

theorem test_refuses_pair : (Instr.ringEnable 3).wellFormed = true ∧ (Instr.ringEnable 4).wellFormed = false := by decide
theorem test_refuses_port : (Instr.linkUp 3).wellFormed = true ∧ (Instr.linkUp 4).wellFormed = false := by decide
theorem test_refuses_port_pair : (Instr.revertHoldExpiry 1).wellFormed = true ∧ (Instr.revertHoldExpiry 2).wellFormed = false := by decide
theorem test_refuses_priority : (Instr.pauseTimerExpiry 3 (some 7)).wellFormed = true ∧ (Instr.pauseTimerExpiry 3 (some 8)).wellFormed = false := by
  decide
theorem test_refuses_cell : (Instr.cellReturn 127).wellFormed = true ∧ (Instr.cellReturn 128).wellFormed = false ∧
    (Instr.nop { cell := 128, fetch := .clean, x := .clean, y := .clean }).wellFormed = false := by decide
theorem test_refuses_block : (Instr.noticeRecord 15).wellFormed = true ∧ (Instr.noticeRecord 16).wellFormed = false := by decide
theorem test_refuses_slot : (Instr.deadlineMiss 15 1151).wellFormed = true ∧ (Instr.deadlineMiss 15 1152).wellFormed = false := by decide
theorem test_refuses_channel : (Instr.tickRun 16383).wellFormed = true ∧ (Instr.tickRun 16384).wellFormed = false := by decide
theorem test_refuses_leg : (Instr.ssrcAdoption 0 1).wellFormed = true ∧ (Instr.ssrcAdoption 0 2).wellFormed = false := by decide
theorem test_refuses_stream : (Instr.settleEnd 0 9).wellFormed = true ∧ (Instr.settleEnd 0 10).wellFormed = false := by decide
theorem test_refuses_region : (Instr.peDescriptor 3).wellFormed = true ∧ (Instr.peDescriptor 4).wellFormed = false := by decide
theorem test_refuses_group : (Instr.tdmFramed 1).wellFormed = true ∧ (Instr.tdmFramed 2).wellFormed = false := by decide
theorem test_refuses_source : (Instr.referenceTrip 6).wellFormed = true ∧ (Instr.referenceTrip 7).wellFormed = false := by decide
theorem test_refuses_clock_domain : (Instr.gateQuiesced 99).wellFormed = true ∧ (Instr.gateQuiesced 100).wellFormed = false := by decide
theorem test_refuses_power_domain : (Instr.powerWakeDone 62).wellFormed = true ∧ (Instr.powerWakeDone 63).wellFormed = false := by decide
theorem test_refuses_member : (Instr.advertisement 7 none).wellFormed = true ∧ (Instr.advertisement 8 none).wellFormed = false := by decide
theorem test_refuses_scope : (Instr.scopeResetComplete 1 3).wellFormed = true ∧ (Instr.scopeResetComplete 1 4).wellFormed = false ∧
    (Instr.scopeResetComplete 0 0).wellFormed = false := by decide

/-! ## Words of the voice engine, field by field as Tables 13.1 to 13.10 give them -/

/-- The word whose fields, from bit 63 down, have these widths and values. -/
def fields (l : List (Nat × Nat)) : BitVec 64 := BitVec.ofNat 64 (l.foldl (fun w f => w * 2 ^ f.1 + f.2) 0)

/-- CMAC4 AC3, V5, V6 with CJA and CLR; LD.Q V2, (P1)+; LD.W D9, (Q4+N); AADD Q2, #-1. -/
theorem test_decode_parallel :
    decodeWord (fields [(3, 0b000), (6, 0b000001), (3, 0b011), (3, 0b101), (3, 0b110), (1, 1), (1, 0), (1, 1), (4, 0),
      (3, 0b001), (4, 0b0010), (3, 0b001), (2, 0b10), (1, 0), (3, 0b011), (4, 0b1001), (3, 0b100), (2, 0b11), (1, 0),
      (3, 0b001), (1, 1), (3, 0b010), (6, 0b111111)]) =
    some (.parallel (.cmac4 3 5 6 true false true) (.ldQ 2 1 .postInc) (.ldW 9 4 .indexed) (.aadd true 2 0b111111)) := by decide +kernel

/-- ADD D1, D2, D3; D15 ← 0x80000001. -/
theorem test_decode_immediate :
    decodeWord (fields [(3, 0b001), (6, 0x20), (4, 1), (4, 2), (4, 3), (4, 0), (6, 0x1F), (1, 0), (32, 0x80000001)]) =
    some (.immediate (.add 1 2 3) (.d 15 0x80000001)) := by decide +kernel

/-- BR LT, 0x1ABC beside ST.AC AC6, #5, (P3), FORM 1 and LD.L D8:D9, (Q7). -/
theorem test_decode_control :
    decodeWord (fields [(3, 0b010), (5, 0x00), (4, 0x3), (3, 0b110), (3, 6), (3, 5), (3, 3), (1, 1), (3, 0b111), (4, 8), (3, 7), (2, 0), (1, 0),
      (13, 0), (13, 0x1ABC)]) =
    some (.control (.br .lt 0x1ABC) (.stAC 6 5 3 true) (.ldL 4 7 .plain)) := by decide +kernel

/-- MOVHI D4, D5, #0x8001 beside ST.H D6, (P2)+N and LD.A M5, (Q1). -/
theorem test_decode_scalar_immediate :
    decodeWord (fields [(3, 0b011), (6, 0x06), (4, 4), (4, 5), (16, 0x8001), (5, 0), (3, 0b100), (4, 6), (3, 2), (2, 0b01), (1, 1),
      (3, 0b101), (2, 0b11), (2, 0b10), (3, 1), (2, 0), (1, 1)]) =
    some (.scalarImm (.movhi 4 5 0x8001) (.stH 6 2 .postN) (.ldA .m 5 1 .plain)) := by decide +kernel

/-- VCMAC4 V1, V2, V3, V4, D7 with CJA; XFER D10 ← N3. -/
theorem test_decode_vector :
    decodeWord (fields [(3, 0b000), (6, 0x05), (3, 1), (3, 2), (3, 3), (3, 4), (1, 1), (3, 7), (13, 0), (13, 0), (3, 0b011), (1, 1), (2, 0b10), (3, 3), (4, 10)]) =
    some (.parallel (.vcmac4 1 2 3 4 true 7) .nop .nop (.xferOut .n 3 10)) := by decide +kernel

/-- A reserved format, a reserved operation and an odd register where an even one is asked for are no words (R353). -/
theorem test_decode_refuses :
    [fields [(3, 0b100), (61, 0)], fields [(3, 0b000), (6, 0x16), (55, 0)], fields [(3, 0b000), (6, 0x07), (3, 1), (52, 0)],
     fields [(3, 0b010), (5, 0x06), (4, 1), (52, 0)], fields [(3, 0b001), (22, 0), (6, 0x20), (1, 0), (32, 0x01000000)]].map decodeWord =
    [none, none, none, none, none] := by decide +kernel

/-! ## The command of chapter 16's worked example -/

def exampleBytes (tail : List Byte) : List Byte :=
  [0x46, 0x59, 0x04, 0x00, 0x04, 0x01, 0x00, 0x00, 0x00, 0x00, 0x02, 0x00, 0x4F, 0x00, 0x13, 0x88,
   0x00, 0x00, 0x00, 0x14, 0x00, 0x00, 0x00, 0x01, 0x00, 0x00, 0x00, 0x00, 0x00, 0x00, 0x00, 0x00,
   0x00, 0x03, 0x00, 0x08] ++ tail ++ [0x00, 0x0C, 0x00, 0x01, 0x02, 0x00, 0x00, 0x00]

/-- The entry in which the example comes: its bytes and zeros up to 64. -/
def exampleEntry (tail : List Byte) : List Byte := exampleBytes tail ++ zeroBytes 12

/-- ECHO_SET, scope 4, this device, ID 5,000, two parameters. -/
theorem test_example_header : let p := packetOf (.ring 0) (exampleBytes [0, 0, 0, 0, 7, 0x27, 0x0E, 0])
    p.1 = 0x0401 ∧ p.2.magic = 0x4659 ∧ p.2.version = 4 ∧ p.2.target = 0x4F001388 ∧ p.2.paramLen = 0x14 ∧ p.2.parts = 1 ∧
    entryCount p.2.paramLen.toNat = 1 ∧ p.2.tag = [] := by decide +kernel

/-- Channel 5,000, ACTIVE, and ring pair 0 enabled. -/
def exampleState : State :=
  (State.reset.setChannel 5000 (tdmLegs { state := .active, slot := some 5, block := 0, runState := .active })).setRing 0 { enable := true }

/-- What a doorbell over the example's entry leaves on ring pair 0: CMD_HEAD, and the status, SEQUENCE and parameters of each reply. -/
def exampleReplies (tail : List Byte) : List Nat :=
  match exec (.cmdTailDoorbell 0 1 [exampleEntry tail]) exampleState with
  | .next t => (t.ring 0).cmdHead.toNat ::
      (t.ring 0).waiting.flatMap (fun q => [q.status, q.sequence] ++ q.tlvs.flatMap (fun x => x.typ :: x.val.map BitVec.toNat))
  | _ => []

theorem test_example_is_ok : exampleReplies [0, 0, 0, 0, 7, 0x27, 0x0E, 0] = [1, 0, 0x200] := by decide +kernel

/-- With TAIL 125 ms: OUT_OF_RANGE, ERROR_PARAM 0x0003, ERROR_OFFSET 4. -/
theorem test_example_out_of_range : exampleReplies [0, 0, 0, 0, 7, 0x73, 0x59, 0x40] = [1, stOutOfRange, 0x200, 0xFF00, 0, 3, 0xFF01, 0, 0, 0, 4] := by
  decide +kernel

/-! ## Steps of the voice engine -/

/-- The register `r` of the running bank of cell 127 once all writes have reached it. -/
def regAfter (o : Host.Outcome State Fault Refusal) (r : Nat) : Nat :=
  match o with | .next t => (tabGet (drainBank (t.cell 127).active).regs r 0).toNat | _ => 0

/-- ADDS clamps at 2^31 − 1 and sets SAT; NEG of −2^31 wraps. -/
theorem test_adds_clamps : regAfter (exec (.adds wordOf 0 1 2 (.parallel .nop .nop .nop)) (cellRuns id (bankAt false 0 [(rD 1, 0x7FFFFFFF), (rD 2, 1)])))
    (rD 0) = 0x7FFFFFFF := by decide +kernel
theorem test_neg_wraps : regAfter (exec (.neg wordOf 0 1 (.parallel .nop .nop .nop)) (cellRuns id (bankAt false 0 [(rD 1, 0x80000000)]))) (rD 0) =
    0x80000000 := by decide +kernel
theorem test_adds_destination_is_source :
    regAfter (exec (.add wordOf 1 1 1 (.parallel .nop .nop .nop)) (cellRuns id (bankAt false 0 [(rD 1, 0x80000001)]))) (rD 1) = 2 := by decide +kernel

end Sys2Proof.Tests
end

section
/-! The queries: what each answers, case by case, and that its reply reports it (R17, R193, R428). -/

namespace Sys2Proof.Machine

open Sys2Proof.Safety

/-- An admitted query whose own rules answer OK with `l` over `t` reports `l` (R406, R428). -/
theorem reports_of_done {op : Nat} {p : Packet} {s u : State} {c : Ctx} {i : Instr} {body : Body} (h : Admitted op p s u c)
    (he : exec i s = .next (fylosRun op body p s)) {l : List Tlv} {t : State} (hb : body c u = .done stOk l t) :
    Reports i s u c l t := by
  intro hone
  unfold Replies
  rw [he, fylosRun_admitted h, hb, giveAnswer_done _ _ _ _ _ hone]

/-! ## The answers of the queries that ask for something, case by case -/

theorem flowQueryBody_found {x : Ctx} {s : State} {e : FlowEntry} (he : flowById s.flows (paramNat x.params 1 0) = some e) :
    flowQueryBody x s = .done stOk (s.flowTlvs e)
      (if x.clear then { s with flows := flowUpdate s.flows (paramNat x.params 1 0) (fun e => { e with counts := [] }) } else s) := by
  simp only [flowQueryBody, he]

theorem srtpQueryBody_found {x : Ctx} {s : State} {k : SrtpCtx} (hk : tabFind? s.flows.contexts (paramNat x.params 0x40 0) = some k) :
    srtpQueryBody x s = .done stOk (srtpTlvs k) (if x.clear then
      { s with flows := { s.flows with
          contexts := tabPut s.flows.contexts (paramNat x.params 0x40 0) { k with counts := [] } } } else s) := by
  simp only [srtpQueryBody, hk]

theorem echoQueryBody_idle {x : Ctx} {s : State} (h : (s.channel x.id).state = .idle) :
    echoQueryBody x s = .done stOk echoIdleTlvs s := if_pos h

theorem echoQueryBody_busy {x : Ctx} {s : State} (h : (s.channel x.id).state ≠ .idle) :
    echoQueryBody x s = .done stOk (echoTlvs (s.channel x.id)) (if x.clear then
      s.setChannel x.id { s.channel x.id with
        media := { (s.channel x.id).media with echo := { (s.channel x.id).media.echo with counts := [] } } } else s) := if_neg h

/-- ECHO_COEF_READ of partitions that the canceller has. -/
theorem echoCoefReadBody_within {x : Ctx} {s : State} {f k : Nat} (hf : f = paramNat x.params 0x40 0) (hk : k = paramNat x.params 0x41 1)
    (h : (s.channel x.id).state ≠ .idle) (h0 : 0 < k) (hw : f + k ≤ partitions (s.channel x.id).accepted (s.channel x.id).wide) :
    echoCoefReadBody x s = .done stOk ((List.range k).map (fun i =>
      [instanceTlv 8 (f + i), { typ := 0x400, val := partitionBytes (s.channel x.id).media.echo (f + i) }])).flatten s := by
  subst hf hk
  unfold echoCoefReadBody
  dsimp only
  rw [if_neg h, if_neg (by omega), if_neg (by omega)]

theorem codecQueryBody_rtp {x : Ctx} {s : State} (h : ∀ i ∈ queriedLegs (s.channel x.id) x.params, ((s.channel x.id).leg i).kind = .rtp) :
    codecQueryBody x s = .done stOk ((queriedLegs (s.channel x.id) x.params).map (codecLegTlvs (s.channel x.id) x.fixedOnly)).flatten
      (if x.clear then s.setChannel x.id (codecCleared (s.channel x.id) (queriedLegs (s.channel x.id) x.params)) else s) := by
  unfold codecQueryBody
  dsimp only
  rw [if_neg]
  simpa using h

theorem tableQueryBody_all {x : Ctx} {s : State} (h : paramNat? x.params 0x40 = none) :
    tableQueryBody x s = .done stOk (s.tableIds.map s.tableTlvs).flatten s := by
  simp only [tableQueryBody, h]

theorem tableQueryBody_one {x : Ctx} {s : State} {i : Nat} (h : paramNat? x.params 0x40 = some i) (hi : (s.tableImage i).isSome = true) :
    tableQueryBody x s = .done stOk (s.tableTlvs i) s := by
  unfold tableQueryBody
  simp only [h]
  rw [if_neg (by simpa [Option.isSome_iff_ne_none] using hi)]

theorem tableReadBody_found {x : Ctx} {s : State} {g : List Byte} (h : s.tableImage (paramNat x.params 0x40 0) = some g) :
    tableReadBody x s = .done stOk (imageTlvs 0x400 65 g) s := by
  simp only [tableReadBody, h]

/-- What every PROMPT_QUERY reports of the prompt store after the prompts themselves. -/
def State.promptStoreTlvs (s : State) : List Tlv :=
  [rep 0x404 8 s.promptBytes, rep 0x405 8 (cacheBytes s.store.cache)] ++ counterTlvs 0x800 3 s.store.promptCounts

theorem promptQueryBody_all {x : Ctx} {s : State} (h : paramNat? x.params 0x40 = none) :
    promptQueryBody x s = .done stOk ((s.store.prompts.map (fun e => s.promptTlvs e.1 e.2)).flatten ++ s.promptStoreTlvs)
      (if x.clear then { s with store := { s.store with promptCounts := [] } } else s) := by
  simp only [promptQueryBody, h, State.promptStoreTlvs]

theorem promptQueryBody_one {x : Ctx} {s : State} {i : Nat} {q : Prompt} (h : paramNat? x.params 0x40 = some i)
    (hq : tabFind? s.store.prompts i = some q) :
    promptQueryBody x s = .done stOk (s.promptTlvs i q ++ s.promptStoreTlvs)
      (if x.clear then { s with store := { s.store with promptCounts := [] } } else s) := by
  simp only [promptQueryBody, h, hq, State.promptStoreTlvs]

theorem tdmQueryBody_group {x : Ctx} {s : State} {g : Nat} (hg : paramNat? x.params 0x40 = some g) (hh : paramNat? x.params 0x41 = none)
    (hn : paramHas x.params 0x42 = false) :
    tdmQueryBody x s = .done stOk (groupTlvs s (s.group g)) (if x.clear then s.setGroup g { s.group g with counts := [] } else s) := by
  unfold tdmQueryBody
  simp only [hg, hh]
  rw [if_neg (by simp [hn])]

theorem tdmQueryBody_slot {x : Ctx} {s : State} {h n : Nat} (hg : paramNat? x.params 0x40 = none) (hh : paramNat? x.params 0x41 = some h)
    (hn : paramNat? x.params 0x42 = some n) (hb : (s.highway h).beyond n = false) :
    tdmQueryBody x s = .done stOk (highwayTlvs (s.highway h) ++ slotTlvs (s.tdmSlot (slotKey h n)))
      (if x.clear then clearSlots s [slotKey h n] else s) := by
  unfold tdmQueryBody
  simp only [hg, hh, hn]
  rw [if_neg (by simp [hb])]

theorem tdmQueryBody_highway {x : Ctx} {s : State} {h : Nat} (hg : paramNat? x.params 0x40 = none) (hh : paramNat? x.params 0x41 = some h)
    (hn : paramNat? x.params 0x42 = none) :
    tdmQueryBody x s = .done stOk (highwayTlvs (s.highway h) ++ rep 0x400 1 (s.highway h).loop.ctorIdx ::
        ((s.reportSlots h).map (fun k => instanceTlv 5 (k % 128) :: slotTlvs (s.tdmSlot k))).flatten)
      (if x.clear then clearSlots s (s.reportSlots h) else s) := by
  simp only [tdmQueryBody, hg, hh, hn]

/-- RS_ROM_READ of words that the table has. -/
theorem rsRomReadBody_within {x : Ctx} {s : State} {e f k : Nat} (hp : paramHas x.params 0x40 = true) (he : e = paramNat x.params 0x40 0)
    (hf : f = paramNat x.params 0x41 0) (hk : k = paramNat x.params 0x42 (romWords e - f)) (h0 : f < romWords e) (hw : f + k ≤ romWords e) :
    rsRomReadBody x s =
      .done stOk (imageTlvs 0x400 65 ((List.range k).map (fun i => beInt 4 (romWord e (f + i)))).flatten) s := by
  subst he hf hk
  unfold rsRomReadBody
  dsimp only
  rw [if_neg (by simp [hp]), if_neg (by omega), if_neg (by omega)]

/-- Settles O11: a query's row runs its own rules, these answer OK with what the entry names, and the answer becomes the one reply. -/
theorem queriesReportAndChangeNothing : Obligations.QueriesReportAndChangeNothing := by
  unfold Obligations.QueriesReportAndChangeNothing
  rintro p s u c v rfl
  refine ⟨?devQuery, ?blockQuery, ?chQuery, ?flowQuery, ?srtpQuery, ?peCounters, ?echoQuery, ?echoCoefRead, ?playoutQuery, ?codecQuery,
    ?resampleQuery, ?tableQuery, ?tableRead, ?promptQuery, ?tdmQuery, ?timeQuery, ?shutterQuery, ?portCounters, ?stackQuery, ?fwQuery,
    ?userKernelQuery, ?clockQuery, ?powerQuery, ?errorLogRead, ?sensorQuery, ?rsRomRead⟩
  case devQuery => exact fun h => reports_of_done (body := devQueryBody) h rfl rfl
  case blockQuery => exact fun h => reports_of_done (body := blockQueryBody) h rfl rfl
  case chQuery => exact fun h => reports_of_done (body := chQueryBody) h rfl rfl
  case flowQuery => exact fun e h he => reports_of_done h rfl (flowQueryBody_found he)
  case srtpQuery =>
    rintro i k d h rfl hk rfl
    exact reports_of_done h rfl (srtpQueryBody_found hk)
  case peCounters => exact fun h => reports_of_done (body := peCountersBody) h rfl rfl
  case echoQuery =>
    exact fun h => ⟨fun hv => reports_of_done h rfl (echoQueryBody_idle hv), fun hv => reports_of_done h rfl (echoQueryBody_busy hv)⟩
  case echoCoefRead => exact fun f k h hf hk hv h0 hw => reports_of_done h rfl (echoCoefReadBody_within hf hk hv h0 hw)
  case playoutQuery => exact fun h => reports_of_done (body := playoutQueryBody) h rfl rfl
  case codecQuery =>
    rintro l h rfl hl
    exact reports_of_done h rfl (codecQueryBody_rtp hl)
  case resampleQuery =>
    rintro l h rfl
    exact reports_of_done (body := resampleQueryBody) h rfl rfl
  case tableQuery =>
    exact fun h => ⟨fun hi => reports_of_done h rfl (tableQueryBody_all hi), fun i hi hs => reports_of_done h rfl (tableQueryBody_one hi hs)⟩
  case tableRead => exact fun g h hg => reports_of_done h rfl (tableReadBody_found hg)
  case promptQuery =>
    rintro tail t h rfl rfl
    exact ⟨fun hi => reports_of_done h rfl (promptQueryBody_all hi), fun i q hi hq => reports_of_done h rfl (promptQueryBody_one hi hq)⟩
  case tdmQuery =>
    exact fun h => ⟨fun g hg hh hn => reports_of_done h rfl (tdmQueryBody_group hg hh hn),
      fun w n hg hh hn hb => reports_of_done h rfl (tdmQueryBody_slot hg hh hn hb),
      fun w hg hh hn => reports_of_done h rfl (tdmQueryBody_highway hg hh hn)⟩
  case timeQuery =>
    rintro t h rfl
    exact reports_of_done (body := timeQueryBody) h rfl rfl
  case shutterQuery => exact fun h => reports_of_done (body := shutterQueryBody) h rfl rfl
  case portCounters =>
    rintro q h rfl
    exact reports_of_done (body := portCountersBody) h rfl rfl
  case stackQuery => exact fun h => reports_of_done (body := stackQueryBody) h rfl rfl
  case fwQuery => exact fun h => reports_of_done (body := fwQueryBody) h rfl rfl
  case userKernelQuery => exact fun h => reports_of_done (body := userKernelQueryBody) h rfl rfl
  case clockQuery => exact fun h => reports_of_done (body := clockQueryBody) h rfl rfl
  case powerQuery => exact fun h => reports_of_done (body := powerQueryBody) h rfl rfl
  case errorLogRead => exact fun h => reports_of_done (body := errorLogReadBody) h rfl rfl
  case sensorQuery => exact fun h => reports_of_done (body := sensorQueryBody) h rfl rfl
  case rsRomRead => exact fun e f k h hp he hf hk h0 hw => reports_of_done h rfl (rsRomReadBody_within hp he hf hk h0 hw)

end Sys2Proof.Machine
end

section
/-! What an interrupt, a log entry and a correctable error leave of the board, and what they count in the log (R513, R524). -/

namespace Sys2Proof.Machine

/-- A board without its interrupt bits: DEV_IRQ_STATUS, the pending bits and what has been sent. -/
def Board.quiet (b : Board) : Board := { b with devIrq := 0, pba := [], msixSent := [] }

theorem Board.barOutside_of_quiet {b c : Board} (h : b.quiet = c.quiet) : b.barOutside = c.barOutside :=
  (congrArg Board.barOutside h :)

theorem Board.bootPhase_of_quiet {b c : Board} (h : b.quiet = c.quiet) : b.bootPhase = c.bootPhase := (congrArg Board.bootPhase h :)

theorem Board.bootError_of_quiet {b c : Board} (h : b.quiet = c.quiet) : b.bootError = c.bootError := (congrArg Board.bootError h :)

@[simp] theorem State.signal_quiet (s : State) (v : Nat) : (s.signal v).board.quiet = s.board.quiet := by
  unfold State.signal
  split <;> rfl

@[simp] theorem State.deviceIrq_quiet (s : State) (i : Nat) : (s.deviceIrq i).board.quiet = s.board.quiet := by
  unfold State.deviceIrq
  split
  · rfl
  · dsimp only
    split
    · rfl
    · exact State.signal_quiet _ 0

/-- A log entry: appended to the log, and told of by an interrupt and a notice. -/
theorem State.logError_appends (s : State) (cause level action unit channel detail memory address : Nat) :
    ∃ e r f b, s.logError cause level action unit channel detail memory address =
      { s with rings := r, fylos := f, log := logAppend s.log e, board := b } ∧ e.cause = cause ∧ b.quiet = s.board.quiet := by
  unfold State.logError
  dsimp only
  generalize he : LogEntry.mk _ _ _ _ _ _ _ _ _ _ = e
  have hcause : e.cause = cause := by rw [← he]
  have hirq : ∃ b, b.quiet = s.board.quiet ∧
      (if s.log.uncorrected < (logAppend s.log e).uncorrected then State.deviceIrq { s with log := logAppend s.log e } 2
        else { s with log := logAppend s.log e }) = { s with log := logAppend s.log e, board := b } := by
    split
    · obtain ⟨b, hb⟩ := State.deviceIrq_frame { s with log := logAppend s.log e } 2
      have hq := State.deviceIrq_quiet { s with log := logAppend s.log e } 2
      rw [hb] at hq
      exact ⟨b, hq, hb⟩
    · exact ⟨s.board, rfl, rfl⟩
  obtain ⟨b, hq, hb⟩ := hirq
  rw [hb]
  split
  · obtain ⟨r, f, h⟩ := State.notify_frame { s with log := logAppend s.log e, board := b } .fault 0x0F15 (levelTarget level unit).1
      (levelTarget level unit).2 [beBytes 1 cause, beBytes 1 action, beBytes 4 s.log.next]
    exact ⟨e, r, f, b, h, hcause, hq⟩
  · exact ⟨e, s.rings, s.fylos, b, rfl, hcause, hq⟩

@[simp] theorem State.logError_quiet (s : State) (cause level action unit channel detail memory address : Nat) :
    (s.logError cause level action unit channel detail memory address).board.quiet = s.board.quiet := by
  obtain ⟨e, r, f, b, h, -, hq⟩ := s.logError_appends cause level action unit channel detail memory address
  rw [h, hq]

@[simp] theorem State.logError_corrected (s : State) (cause level action unit channel detail memory address : Nat) :
    (s.logError cause level action unit channel detail memory address).log.corrected = s.log.corrected := by
  obtain ⟨e, r, f, b, h, -, -⟩ := s.logError_appends cause level action unit channel detail memory address
  simp only [h, logAppend]

theorem State.logError_uncorrected (s : State) (cause level action unit channel detail memory address : Nat) :
    (s.logError cause level action unit channel detail memory address).log.uncorrected =
      if uncorrectedCause cause then satAdd 32 s.log.uncorrected 1 else s.log.uncorrected := by
  obtain ⟨e, r, f, b, h, rfl, -⟩ := s.logError_appends cause level action unit channel detail memory address
  simp only [h, logAppend]

/-- A correctable error is counted once; of the rest it changes the log's entries and thresholds, and tells of them. -/
theorem State.correctable_counts {s t : State} {cause level unit memory address kind kindUnit : Nat}
    (ht : s.correctable cause level unit memory address kind kindUnit = t) :
    t.board.quiet = s.board.quiet ∧ t.store = s.store ∧ t.log.corrected = satAdd 32 s.log.corrected 1 := by
  rw [← ht]
  unfold State.correctable
  dsimp only
  generalize hm : (if s.log.entries.any _ then _ else _ : State) = m
  have hkept : m.board.quiet = s.board.quiet ∧ m.store = s.store ∧ m.log.corrected = s.log.corrected := by
    rw [← hm]
    split <;> simp
  obtain ⟨hq, hstore, hcount⟩ := hkept
  split
  · split <;> simp [hq, hstore, hcount]
  · simp [hq, hstore, hcount]

end Sys2Proof.Machine
end

section
/-! What the host's registers do: the contact sheets, the writes and reads of BAR0, and BASE of BAR2. -/

namespace Sys2Proof.Machine

/-! ## Contact sheets (R122, R126) -/

theorem csPopStep_of_not_owner {s : State} {inner : Bool} (p : Nat) (h : s.time.hostOwner = inner) : csPopStep p inner s = s :=
  if_neg (by simp [State.sheetActs, h])

theorem csPopStep_of_owner {s : State} {inner : Bool} (p : Nat) (h : s.time.hostOwner ≠ inner) : csPopStep p inner s = s.popSheet p :=
  if_pos (by simp [State.sheetActs, h])

theorem csFlushStep_of_not_owner {s : State} {inner : Bool} (p : Nat) (h : s.time.hostOwner = inner) : csFlushStep p inner s = s :=
  if_neg (by simp [State.sheetActs, h])

theorem csFlushStep_of_owner {s : State} {inner : Bool} (p : Nat) (h : s.time.hostOwner ≠ inner) :
    csFlushStep p inner s = s.flushSheet p :=
  if_pos (by simp [State.sheetActs, h])

theorem popSheet_empty {s : State} {p : Nat} (h : (s.sheet p).entries = []) : s.popSheet p = s := by
  simp only [State.popSheet, h]

theorem popSheet_cons {s : State} {p : Nat} {e : SheetEntry} {r : List SheetEntry} (h : (s.sheet p).entries = e :: r) :
    s.popSheet p = (s.setSheet p { s.sheet p with entries := r }).gapIfLost p := by
  simp only [State.popSheet, h]

theorem csLostTotalReadStep_host (p : Nat) (s : State) :
    csLostTotalReadStep p false s = if s.time.hostOwner
      then { s.setSheet p { s.sheet p with lostTotal := 0 } with board := { s.board with readData := leBytes 4 (s.sheet p).lostTotal } }
      else { s with board := { s.board with readData := leBytes 4 0 } } := by
  cases h : s.time.hostOwner <;> simp [csLostTotalReadStep, State.sheetActs, h, State.setSheet]

theorem csLostTotalReadStep_inner (p : Nat) (s : State) :
    csLostTotalReadStep p true s = if s.time.hostOwner then s else s.setSheet p { s.sheet p with lostTotal := 0 } := by
  cases h : s.time.hostOwner <;> simp [csLostTotalReadStep, State.sheetActs, h]

/-! ## Registers (R14, R15, R561) -/

theorem registerWriteStep_closed {s : State} (h : s.hostOpen = false) (o : BitVec 24) (v : Word) (be : BitVec 4) :
    registerWriteStep o v be s = s := if_pos (by simp [h])

/-- A write that does not cover its dword, the MSI-X table and the pending bits apart. -/
theorem registerWriteStep_partial {s : State} (h : s.hostOpen = true) {o : BitVec 24} (v : Word) {be : BitVec 4}
    (ht : o.toNat < 0xF00000 ∨ 0xF00400 ≤ o.toNat) (hp : o.toNat < 0xF00800 ∨ 0xF00808 ≤ o.toNat) (hbe : be ≠ 0xF) :
    registerWriteStep o v be s = { s with board := { s.board with barPartial := satAdd 32 s.board.barPartial 1 } } := by
  unfold registerWriteStep
  dsimp only
  rw [if_neg (by simp [h]), if_neg (by omega), if_neg (by omega), if_pos hbe]
  rfl

theorem registerWriteStep_pendingBits {s : State} {o : BitVec 24} (v : Word) (be : BitVec 4)
    (hlo : 0xF00800 ≤ o.toNat) (hhi : o.toNat < 0xF00808) : registerWriteStep o v be s = s := by
  unfold registerWriteStep
  dsimp only
  rw [if_neg (c := 0xF00000 ≤ o.toNat / 4 * 4 ∧ _) (by omega), if_pos (c := 0xF00800 ≤ o.toNat / 4 * 4 ∧ _) (by omega), ite_self]

/-- A whole dword written below the MSI-X table is written to the register it falls on. -/
theorem registerWriteStep_whole {s : State} (h : s.hostOpen = true) {o : BitVec 24} (v : Word) (ho : o.toNat < 0xF00000) :
    registerWriteStep o v 0xF s = s.barWrite (o.toNat / 4 * 4) v := by
  unfold registerWriteStep
  dsimp only
  rw [if_neg (by simp [h]), if_neg (by omega), if_neg (by omega), if_neg (by simp)]

theorem barWrite_scratch (s : State) (v : Word) : s.barWrite 0x3030C v = { s with life := { s.life with scratch := v } } := rfl

theorem barWrite_resetCounts (s : State) (v : Word) :
    s.barWrite 0x30304 v = { s with life := { s.life with warmResets := v.toNat % 65536, watchdogResets := v.toNat / 65536 } } := rfl

theorem barWrite_devIrq (s : State) (v : Word) :
    s.barWrite 0x48 v = { s with board := { s.board with devIrq := s.board.devIrq &&& ~~~(v.setWidth 3) } } := rfl

theorem barWrite_devIrqMask (s : State) (v : Word) :
    s.barWrite 0x4C v = { s with board := { s.board with devIrqMask := v.setWidth 3 } } := rfl

theorem barWrite_debugDenied (s : State) (v : Word) :
    s.barWrite 0x50140 v = { s with board := { s.board with debugDenied := s.board.debugDenied && !v.getLsbD 2 } } := rfl

theorem barWrite_timeStatus (s : State) (v : Word) :
    s.barWrite 0x20004 v =
      { s with time := { s.time with stepped := s.time.stepped && !v.getLsbD 7, suspect := s.time.suspect && !v.getLsbD 8 } } := rfl

theorem barWrite_bootAddrLo (s : State) (v : Word) :
    s.barWrite 0x24 v = if s.waitsHost then { s with board := { s.board with bootAddrLo := v } } else s := rfl

theorem barWrite_bootAddrHi (s : State) (v : Word) :
    s.barWrite 0x28 v = if s.waitsHost then { s with board := { s.board with bootAddrHi := v } } else s := rfl

theorem barWrite_bootLen (s : State) (v : Word) :
    s.barWrite 0x2C v = if s.waitsHost then { s with board := { s.board with bootLen := v.setWidth 25 } } else s := rfl

/-- The power domain block holds no register that takes a write. -/
theorem barWrite_powerBlock {s : State} {a : Nat} (v : Word) (hlo : 0x40000 ≤ a) (hhi : a < 0x50000) : s.barWrite a v = s := by
  unfold State.barWrite
  rw [if_neg (by omega), if_neg (by omega), if_neg (by omega), if_neg (by omega), if_neg (by omega), if_neg (by omega)]

theorem bar2BaseStep_closed {s : State} (h : s.hostOpen = false) (hi : Bool) (v : Word) : bar2BaseStep hi v s = s :=
  if_neg (by simp [h])

theorem bar2BaseStep_open {s : State} (h : s.hostOpen = true) (hi : Bool) (v : Word) {b : Nat}
    (hb : b = if hi then s.store.bar2Base % 2 ^ 32 + v.toNat % 4 * 2 ^ 32 else s.store.bar2Base / 2 ^ 32 * 2 ^ 32 + v.toNat / 2 ^ 20 * 2 ^ 20) :
    bar2BaseStep hi v s = if hostStart ≤ b ∧ b + 2 ^ 20 ≤ s.hostEnd then { s with store := { s.store with bar2Base := b } } else s := by
  subst hb
  simp only [bar2BaseStep, h, true_and]

theorem diagPartialStep_open {s : State} (h : s.hostOpen = true) :
    diagPartialStep s = { s with board := { s.board with readData := leBytes 4 s.board.barPartial, barPartial := 0 } } := if_pos h

theorem diagOutsideStep_open {s : State} (h : s.hostOpen = true) :
    diagOutsideStep s = { s with board := { s.board with readData := leBytes 4 s.board.barOutside, barOutside := 0 } } := if_pos h

theorem diagPartialStep_closed {s : State} (h : s.hostOpen = false) : diagPartialStep s = s := if_neg (by simp [h])

theorem diagOutsideStep_closed {s : State} (h : s.hostOpen = false) : diagOutsideStep s = s := if_neg (by simp [h])

end Sys2Proof.Machine
end

section
/-! Accesses of BAR2 to device DRAM (R569). -/

namespace Sys2Proof.Machine

theorem countOutside_inside {s : State} {n : Nat} (h : n < s.hostEnd) : s.countOutside n = s := if_neg (by omega)

theorem countOutside_beyond {s : State} {n : Nat} (h : s.hostEnd ≤ n) :
    s.countOutside n = { s with board := { s.board with barOutside := satAdd 32 s.board.barOutside 1 } } := if_pos h

theorem bar2Step_closed {s : State} (h : s.hostOpen = false) (o : BitVec 30) (d : Option (List Byte)) (k : Nat) (e : Ecc) :
    bar2Step o d k e s = s := if_pos (by simp [h])

/-- BAR2 takes accesses: the endpoint is open, and no failed training has closed DRAM (R574). -/
structure Bar2Open (s : State) : Prop where
  host : s.hostOpen = true
  trained : s.board.bootPhase ≠ .failed ∨ s.board.bootError ≠ .dram

theorem Bar2Open.not_refused {s : State} (h : Bar2Open s) : ¬ (¬ s.hostOpen ∨ (s.board.bootPhase = .failed ∧ s.board.bootError = .dram)) := by
  rintro (hclosed | ⟨hfailed, hdram⟩)
  · exact hclosed h.host
  · exact h.trained.elim (· hfailed) (· hdram)

/-- The machine with the bytes that a read returns on its bus. -/
def State.withReadData (s : State) (l : List Byte) : State := s.withBoard (fun b => { b with readData := l })

theorem withReadData_readData (s : State) (l : List Byte) : (s.withReadData l).board.readData = l := rfl
theorem withReadData_barOutside (s : State) (l : List Byte) : (s.withReadData l).board.barOutside = s.board.barOutside := rfl
theorem withReadData_store (s : State) (l : List Byte) : (s.withReadData l).store = s.store := rfl
theorem withReadData_log (s : State) (l : List Byte) : (s.withReadData l).log = s.log := rfl

/-- The machine with other DRAM. -/
def State.withDram (s : State) (m : List Host.Cell) : State := { s with store := { s.store with dram := m } }

theorem withDram_board (s : State) (m : List Host.Cell) : (s.withDram m).board = s.board := rfl
theorem withDram_dram (s : State) (m : List Host.Cell) : (s.withDram m).store.dram = m := rfl

@[simp] theorem countOutside_store (s : State) (n : Nat) : (s.countOutside n).store = s.store := by
  unfold State.countOutside
  split <;> rfl

/-- What a read of BAR2 returns: the bytes of DRAM, and zeros from HOST_END on. -/
def State.windowBytes (s : State) (a k : Nat) : List Byte :=
  (List.range k).map (fun i => if a + i < s.hostEnd then memByte s.store.dram (a + i) else 0)

theorem windowBytes_inside {s : State} {a k : Nat} (h : a + k ≤ s.hostEnd) :
    s.windowBytes a k = (List.range k).map (fun i => memByte s.store.dram (a + i)) := by
  refine List.map_congr_left fun i hi => if_pos ?_
  have := List.mem_range.mp hi
  omega

section
variable {s : State} {a : Nat} {o : BitVec 30} (h : Bar2Open s) (ha : a = s.store.bar2Base + o.toNat)
include h ha

theorem bar2Step_write (d : List Byte) (k : Nat) (e : Ecc) :
    bar2Step o (some d) k e s =
      (s.countOutside (a + d.length - 1)).withDram (memWrite s.store.dram a (d.take (s.hostEnd - a))) := by
  subst ha
  unfold bar2Step State.withDram
  dsimp only
  rw [if_neg h.not_refused, countOutside_store]

theorem bar2Step_read_clean (k : Nat) :
    bar2Step o none k .clean s = (s.countOutside (a + k - 1)).withReadData (s.windowBytes a k) := by
  subst ha
  unfold bar2Step State.windowBytes State.withReadData
  dsimp only
  rw [if_neg h.not_refused, if_neg (by simp)]

theorem bar2Step_read_corrected (k : Nat) :
    bar2Step o none k .corrected s =
      ((s.countOutside (a + k - 1)).correctable 0x12 4 0 4 a 4 0).withReadData (s.windowBytes a k) := by
  subst ha
  unfold bar2Step State.windowBytes State.withReadData
  dsimp only
  rw [if_neg h.not_refused, if_pos rfl]

theorem bar2Step_read_uncorrectable (k : Nat) :
    bar2Step o none k .uncorrectable s = ((s.countOutside (a + k - 1)).logError 0x24 4 8 0 0xFFFF 0 4 a).withReadData [] := by
  subst ha
  unfold bar2Step State.withReadData
  dsimp only
  rw [if_neg h.not_refused]

/-- A read leaves the stores, and counts as outside what `countOutside` counts. -/
theorem bar2Step_read_keeps (k : Nat) (e : Ecc) :
    (bar2Step o none k e s).store = s.store ∧
      (bar2Step o none k e s).board.barOutside = (s.countOutside (a + k - 1)).board.barOutside := by
  have hstore := countOutside_store s (a + k - 1)
  cases e with
  | clean =>
    rw [bar2Step_read_clean h ha, withReadData_store, withReadData_barOutside]
    exact ⟨hstore, rfl⟩
  | corrected =>
    rw [bar2Step_read_corrected h ha, withReadData_store, withReadData_barOutside]
    generalize ht : State.correctable _ _ _ _ _ _ _ _ = t
    obtain ⟨hq, hs, -⟩ := State.correctable_counts ht
    exact ⟨hs.trans hstore, Board.barOutside_of_quiet hq⟩
  | uncorrectable =>
    rw [bar2Step_read_uncorrectable h ha, withReadData_store, withReadData_barOutside, State.logError_store]
    exact ⟨hstore, Board.barOutside_of_quiet (State.logError_quiet _ _ _ _ _ _ _ _ _)⟩

/-- An access that reaches past HOST_END is counted, and leaves what lies there. -/
theorem bar2Step_beyond {d : Option (List Byte)} {k n : Nat} (e : Ecc) (hn : n = match d with | some l => l.length | none => k)
    (h0 : 0 < n) (hend : s.hostEnd < a + n) :
    (bar2Step o d k e s).board.barOutside = satAdd 32 s.board.barOutside 1 ∧
      ∀ b, s.hostEnd ≤ b → memByte (bar2Step o d k e s).store.dram b = memByte s.store.dram b := by
  have hcount : (s.countOutside (a + n - 1)).board.barOutside = satAdd 32 s.board.barOutside 1 := by
    rw [countOutside_beyond (by omega)]
  cases d with
  | none =>
    obtain ⟨hs, hb⟩ := bar2Step_read_keeps h ha k e
    obtain rfl : n = k := hn
    exact ⟨hb.trans hcount, fun b _ => by rw [hs]⟩
  | some l =>
    obtain rfl : n = l.length := hn
    rw [bar2Step_write h ha, withDram_board, withDram_dram]
    refine ⟨hcount, fun b hb => memByte_memWrite_out _ _ _ _ ?_⟩
    rw [List.length_take]
    omega

end

end Sys2Proof.Machine
end

section
/-! The pairs that a link reset disables, and the boot from an image of the host. -/

namespace Sys2Proof.Machine

/-! ## A link reset and D3hot (R500, R560) -/

theorem foldl_disableRing_enable (l : List Nat) (s : State) (n : Nat) :
    ((l.foldl State.disableRing s).ring n).enable = (!l.contains n && (s.ring n).enable) := by
  induction l generalizing s with
  | nil => simp
  | cons m l ih =>
    rw [List.foldl_cons, ih]
    by_cases hm : n = m
    · subst hm
      simp [State.disableRing]
    · simp [State.disableRing, State.modRing_ring_ne _ _ _ _ hm, hm]

/-- Nothing but the rings changes where the pairs are disabled, and all four are. -/
theorem State.disableRings_frame (s : State) :
    ∃ r, s.disableRings = { s with rings := r } ∧ ∀ n, n < 4 → (State.ring { s with rings := r } n).enable = false := by
  have hframe : ∃ r, s.disableRings = { s with rings := r } :=
    fold_frame (fun s t => ∃ r, t = { s with rings := r }) (fun s => ⟨s.rings, rfl⟩)
      (fun _ _ _ h1 h2 => by obtain ⟨_, rfl⟩ := h1; obtain ⟨_, rfl⟩ := h2; exact ⟨_, rfl⟩) State.disableRing (fun _ _ => ⟨_, rfl⟩) _ s
  obtain ⟨r, hr⟩ := hframe
  refine ⟨r, hr, fun n hn => ?_⟩
  have hmem : [0, 1, 2, 3].contains n = true := by
    simp only [List.contains_iff_mem, List.mem_cons, List.not_mem_nil]
    omega
  rw [← hr, State.disableRings, foldl_disableRing_enable, hmem]
  rfl

/-! ## BOOT_GO (R573 to R575) -/

/-- A phase of the boot changes the board alone. -/
theorem State.bootPhase_frame (s : State) (p : BootPhase) :
    ∃ b, s.bootPhase p = { s with board := b } ∧ b.quiet = { s.board with bootPhase := p }.quiet := by
  have hirq : ∃ b, (s.withBoard (fun b => { b with bootPhase := p })).deviceIrq 0 = { s with board := b } ∧
      b.quiet = { s.board with bootPhase := p }.quiet := by
    obtain ⟨b, hb⟩ := (s.withBoard (fun b => { b with bootPhase := p })).deviceIrq_frame 0
    have hq := (s.withBoard (fun b => { b with bootPhase := p })).deviceIrq_quiet 0
    rw [hb] at hq
    exact ⟨b, hb, hq⟩
  cases p with
  | waitHost | failed | running => exact hirq
  | reset | flashSelect | flashLoad | verify | hostVerify | start => exact ⟨_, rfl, rfl⟩

theorem foldl_channels {α : Type} {f : State → α → State} (hf : ∀ s x, (f s x).channels = s.channels) (l : List α) (s : State) :
    (l.foldl f s).channels = s.channels :=
  fold_frame (fun s t => t.channels = s.channels) (fun _ => rfl) (fun _ _ _ h1 h2 => h2.trans h1) f hf l s

@[simp] theorem State.loadTemplates_channels (s : State) (b : Nat) : (s.loadTemplates b).channels = s.channels :=
  State.modBlock_channels _ _ _

@[simp] theorem State.startCell_channels (s : State) (n : Nat) : (s.startCell n).channels = s.channels :=
  State.modCell_channels _ _ _

/-- Every block told to run slot `k`, its staging list templates loaded, and every cell filled (R574). -/
def State.filledFrom (s : State) (k : Nat) : State :=
  (List.range 128).foldl State.startCell
    ((List.range 16).foldl (fun s b => (s.modBlock b (fun x => { x with firmware := k })).loadTemplates b) s)

@[simp] theorem State.filledFrom_channels (s : State) (k : Nat) : (s.filledFrom k).channels = s.channels :=
  (foldl_channels State.startCell_channels _ _).trans (foldl_channels (fun s b => by simp) _ _)

/-- The boot ends in RUNNING, with its interrupt (R502). -/
theorem State.bootPhase_running (s : State) :
    ∃ b, (s.bootPhase .running).deviceIrq 1 = { s with board := b } ∧ b.bootPhase = .running := by
  obtain ⟨b, hb, hq⟩ := s.bootPhase_frame .running
  rw [hb]
  obtain ⟨b', hb'⟩ := State.deviceIrq_frame { s with board := b } 1
  have hq' := State.deviceIrq_quiet { s with board := b } 1
  rw [hb'] at hq' ⊢
  exact ⟨b', rfl, Board.bootPhase_of_quiet (hq'.trans hq)⟩

/-- The machine as Damium, running slot `k`, which holds `v`, begins service (R502). -/
def State.inService (s : State) (k : Nat) (v : FwSlot) : State :=
  { s with life := { s.life with management := k, fwSource := k + 1, fwVersion := v.version, fwFormat := v.format, progress := 8 },
           fylos := { s.fylos with ready := true }, clocks := { s.clocks with mediaNs := 0, mediaFrac := 0, lastOrigin := none } }

theorem inService_runs (u : State) (k : Nat) (v : FwSlot) {t : State} (ht : ((u.inService k v).bootPhase .running).deviceIrq 1 = t) :
    t.channels = u.channels ∧ t.life.management = k ∧ t.life.fwSource = k + 1 ∧ t.life.progress = 8 ∧ t.fylos.ready = true ∧
      t.board.bootPhase = .running := by
  obtain ⟨b, hb, hrun⟩ := (u.inService k v).bootPhase_running
  rw [← ht, hb]
  exact ⟨rfl, rfl, rfl, rfl, rfl, hrun⟩

theorem State.startImage_eq (s : State) (k : Nat) :
    s.startImage k = (((s.filledFrom k).inService k (s.fwSlot k)).bootPhase .running).deviceIrq 1 := by
  unfold State.startImage State.filledFrom State.inService
  dsimp only

/-- An image that starts runs as slot `k` of Damium, and the boot is over (R502). -/
theorem State.startImage_runs {s t : State} {k : Nat} (ht : s.startImage k = t) :
    t.channels = s.channels ∧ t.life.management = k ∧ t.life.fwSource = k + 1 ∧ t.life.progress = 8 ∧ t.fylos.ready = true ∧
      t.board.bootPhase = .running := by
  rw [State.startImage_eq] at ht
  rw [← s.filledFrom_channels k]
  exact inService_runs _ k _ ht

/-- The first check that the image of `k` bytes at `a`, written by the host, fails, as BOOT_STATUS.ERROR numbers it; 0 for none (R573). -/
def State.hostImageError (s : State) (a k : Nat) : Nat :=
  if ¬ s.inHostArea a k then 8 else firmwareError s.life (memRead s.store.dram a k) (min k (16 * mib))

theorem bootGoStep_not_waiting {s : State} (h : s.waitsHost = false) : bootGoStep s = s := if_pos (by simp [h])

theorem bootGoStep_closed {s : State} (h : s.hostOpen = false) : bootGoStep s = s := if_pos (by simp [h])

/-- The machine with image `img`, from the host, in the slot that the host's image takes. -/
def State.withHostImage (s : State) (img : List Byte) : State :=
  { s with life := { s.life with slots := tabSet s.life.slots 2 (slotOf img) {} } }

theorem withHostImage_channels (s : State) (img : List Byte) : (s.withHostImage img).channels = s.channels := rfl

section
variable {s t : State} {a k : Nat} (ho : s.hostOpen = true) (hw : s.waitsHost = true)
  (ha : a = s.board.bootAddrLo.toNat + s.board.bootAddrHi.toNat * 2 ^ 32) (hk : k = s.board.bootLen.toNat)
include ho hw ha hk

theorem bootGoStep_waiting :
    bootGoStep s = if s.hostImageError a k ≠ 0
      then ((s.bootPhase .hostVerify).withBoard (fun b => { b with bootError := bootErrorOf (s.hostImageError a k) })).bootPhase .waitHost
      else ((s.bootPhase .hostVerify).withHostImage (memRead s.store.dram a k)).startImage 2 := by
  subst ha hk
  unfold bootGoStep State.hostImageError State.withHostImage
  dsimp only
  rw [if_neg (by simp [ho, hw])]

theorem bootGoStep_passes (he : s.hostImageError a k = 0) (ht : bootGoStep s = t) :
    t.channels = s.channels ∧ t.life.management = 2 ∧ t.life.fwSource = 3 ∧ t.life.progress = 8 ∧ t.fylos.ready = true ∧
      t.board.bootPhase = .running := by
  rw [bootGoStep_waiting ho hw ha hk, if_neg (by simp [he])] at ht
  obtain ⟨hchannels, hruns⟩ := State.startImage_runs ht
  obtain ⟨b, hb, -⟩ := s.bootPhase_frame .hostVerify
  rw [withHostImage_channels, hb] at hchannels
  exact ⟨hchannels, hruns⟩

/-- An image that fails leaves the device waiting for another, with the error that BOOT_STATUS reports. -/
theorem bootGoStep_fails (he : s.hostImageError a k ≠ 0) :
    ∃ b, bootGoStep s = { s with board := b } ∧ b.bootPhase = .waitHost ∧ b.bootError = bootErrorOf (s.hostImageError a k) := by
  rw [bootGoStep_waiting ho hw ha hk, if_pos he]
  generalize s.hostImageError a k = e
  obtain ⟨b, hb, -⟩ := s.bootPhase_frame .hostVerify
  rw [hb]
  obtain ⟨b', hb', hq⟩ := State.bootPhase_frame (State.withBoard { s with board := b } (fun b => { b with bootError := bootErrorOf e })) .waitHost
  exact ⟨b', hb', Board.bootPhase_of_quiet hq, Board.bootError_of_quiet hq⟩

end

end Sys2Proof.Machine
end

section
/-! The rows of the registers and of the boot, each carried out by its step; and what O20 says of them. -/

namespace Sys2Proof.Machine

theorem exec_tsSnap (s : State) : exec .tsSnap s = .next (tsSnapStep s) := rfl
theorem exec_csPop (p : Nat) (inner : Bool) (s : State) : exec (.csPop ⟨p, inner⟩) s = .next (csPopStep p inner s) := rfl
theorem exec_csFlush (p : Nat) (inner : Bool) (s : State) : exec (.csFlush ⟨p, inner⟩) s = .next (csFlushStep p inner s) := rfl
theorem exec_csLostTotalRead (p : Nat) (inner : Bool) (s : State) :
    exec (.csLostTotalRead ⟨p, inner⟩) s = .next (csLostTotalReadStep p inner s) := rfl
theorem exec_registerWrite (o : BitVec 24) (v : Word) (be : BitVec 4) (s : State) :
    exec (.registerWrite o v be) s = .next (registerWriteStep o v be s) := rfl
theorem exec_diagBar0PartialRead (s : State) : exec .diagBar0PartialRead s = .next (diagPartialStep s) := rfl
theorem exec_diagBar2OutsideRead (s : State) : exec .diagBar2OutsideRead s = .next (diagOutsideStep s) := rfl
theorem exec_bar2Access (o : BitVec 30) (d : Option (List Byte)) (k : Nat) (e : Ecc) (s : State) :
    exec (.bar2Access o d k e) s = .next (bar2Step o d k e s) := rfl
theorem exec_bar2BaseWrite (hi : Bool) (v : Word) (s : State) : exec (.bar2BaseWrite hi v) s = .next (bar2BaseStep hi v s) := rfl
theorem exec_bootGo (s : State) : exec .bootGo s = .next (bootGoStep s) := rfl
theorem exec_pcieLinkReset (s : State) : exec .pcieLinkReset s = .next (pcieLinkResetStep s) := rfl
theorem exec_d3hot (e : Bool) (s : State) : exec (.d3hot e) s = .next (d3hotStep e s) := rfl

/-- A whole dword written to a register below the MSI-X table. -/
theorem exec_registerWrite_whole {s : State} (h : s.hostOpen = true) {o : BitVec 24} (v : Word) {a : Nat} (ho : o.toNat < 0xF00000)
    (ha : o.toNat / 4 * 4 = a) : exec (.registerWrite o v 0xF) s = .next (s.barWrite a v) := by
  rw [exec_registerWrite, registerWriteStep_whole h v ho, ha]

/-- Settles O20: each row is its step, and the step's lemma for the case says what it does. -/
theorem registerAndBootCommandsComplete : Obligations.RegisterAndBootCommandsComplete := by
  unfold Obligations.RegisterAndBootCommandsComplete
  refine ⟨?timeUnit, ?closed, ?registers, ?window, ?linkResets, ?bootGo, ?bootGoElsewhere⟩
  case timeUnit =>
    intro s
    refine ⟨exec_tsSnap s, ?foreign, ?owner, ?lostTotal⟩
    case foreign =>
      intro p inner h
      rw [exec_csPop, exec_csFlush, csPopStep_of_not_owner p h, csFlushStep_of_not_owner p h]
      exact ⟨rfl, rfl⟩
    case owner =>
      intro p inner h
      rw [exec_csPop, exec_csFlush, csPopStep_of_owner p h, csFlushStep_of_owner p h]
      exact ⟨fun he => by rw [popSheet_empty he], fun e r he => by rw [popSheet_cons he], rfl⟩
    case lostTotal =>
      rintro p v rfl
      rw [exec_csLostTotalRead, exec_csLostTotalRead, csLostTotalReadStep_host, csLostTotalReadStep_inner]
      exact ⟨rfl, rfl⟩
  case closed =>
    intro s h
    refine ⟨fun o v be => ?_, ?_, ?_, fun o d k e => ?_, fun hi v => ?_, ?_⟩
    · rw [exec_registerWrite, registerWriteStep_closed h]
    · rw [exec_diagBar0PartialRead, diagPartialStep_closed h]
    · rw [exec_diagBar2OutsideRead, diagOutsideStep_closed h]
    · rw [exec_bar2Access, bar2Step_closed h]
    · rw [exec_bar2BaseWrite, bar2BaseStep_closed h]
    · rw [exec_bootGo, bootGoStep_closed h]
  case registers =>
    intro s h
    refine ⟨?partialWrite, ?pendingBits, ?scratch, ?resetCounts, ?devIrq, ?devIrqMask, ?debugDenied, ?timeStatus, ?bootAddrLo, ?bootAddrHi,
      ?bootLen, ?powerBlock, ?barPartial, ?barOutside, ?bar2Base⟩
    case partialWrite =>
      intro o v be ht hp hbe
      rw [exec_registerWrite, registerWriteStep_partial h v ht hp hbe]
    case pendingBits =>
      intro o v be hlo hhi
      rw [exec_registerWrite, registerWriteStep_pendingBits v be hlo hhi]
    case powerBlock =>
      intro o v hlo hhi
      rw [exec_registerWrite_whole h v (by omega) rfl, barWrite_powerBlock v (by omega) (by omega)]
    case barPartial => rw [exec_diagBar0PartialRead, diagPartialStep_open h]
    case barOutside => rw [exec_diagBar2OutsideRead, diagOutsideStep_open h]
    case bar2Base =>
      intro hi v b hb
      rw [exec_bar2BaseWrite, bar2BaseStep_open h hi v hb]
    case scratch => exact fun v => by rw [exec_registerWrite_whole h v (a := 0x3030C) (by simp) (by simp), barWrite_scratch]
    case resetCounts => exact fun v => by rw [exec_registerWrite_whole h v (a := 0x30304) (by simp) (by simp), barWrite_resetCounts]
    case devIrq => exact fun v => by rw [exec_registerWrite_whole h v (a := 0x48) (by simp) (by simp), barWrite_devIrq]
    case devIrqMask => exact fun v => by rw [exec_registerWrite_whole h v (a := 0x4C) (by simp) (by simp), barWrite_devIrqMask]
    case debugDenied => exact fun v => by rw [exec_registerWrite_whole h v (a := 0x50140) (by simp) (by simp), barWrite_debugDenied]
    case timeStatus => exact fun v => by rw [exec_registerWrite_whole h v (a := 0x20004) (by simp) (by simp), barWrite_timeStatus]
    case bootAddrLo => exact fun v => by rw [exec_registerWrite_whole h v (a := 0x24) (by simp) (by simp), barWrite_bootAddrLo]
    case bootAddrHi => exact fun v => by rw [exec_registerWrite_whole h v (a := 0x28) (by simp) (by simp), barWrite_bootAddrHi]
    case bootLen => exact fun v => by rw [exec_registerWrite_whole h v (a := 0x2C) (by simp) (by simp), barWrite_bootLen]
  case window =>
    intro s o a ha ho ht
    have h : Bar2Open s := ⟨ho, ht⟩
    refine ⟨?write, ?clean, ?corrected, ?uncorrectable, ?beyond⟩
    case write =>
      intro d k e hd hend
      have h0 : 0 < d.length := List.length_pos_iff.mpr hd
      rw [exec_bar2Access, bar2Step_write h ha, countOutside_inside (by omega), List.take_of_length_le (by omega)]
      rfl
    case clean =>
      intro k h0 hend
      rw [exec_bar2Access, bar2Step_read_clean h ha, countOutside_inside (by omega), windowBytes_inside hend]
      rfl
    case corrected =>
      intro k h0 hend
      refine ⟨_, exec_bar2Access _ _ _ _ _, ?_⟩
      rw [bar2Step_read_corrected h ha, countOutside_inside (by omega), windowBytes_inside hend, withReadData_readData, withReadData_log,
        withReadData_store]
      obtain ⟨-, hstore, hcount⟩ := State.correctable_counts (s := s) rfl
      exact ⟨rfl, hcount, hstore⟩
    case uncorrectable =>
      intro k h0 hend
      refine ⟨_, exec_bar2Access _ _ _ _ _, ?_⟩
      rw [bar2Step_read_uncorrectable h ha, countOutside_inside (by omega), withReadData_readData, withReadData_log, withReadData_store,
        State.logError_uncorrected, State.logError_store]
      exact ⟨rfl, rfl, rfl⟩
    case beyond =>
      intro d k e h0 hend
      exact ⟨_, exec_bar2Access _ _ _ _ _, bar2Step_beyond h ha e rfl h0 hend⟩
  case linkResets =>
    intro s
    obtain ⟨r, hr, hdisabled⟩ := s.disableRings_frame
    constructor
    · intro e
      refine ⟨_, exec_d3hot e s, ?_⟩
      cases e with
      | false => exact ⟨rfl, rfl, rfl, fun _ => rfl, nofun⟩
      | true =>
        rw [d3hotStep, if_pos rfl, hr]
        exact ⟨rfl, rfl, rfl, nofun, fun _ => hdisabled⟩
    · refine ⟨_, exec_pcieLinkReset s, ?_⟩
      rw [pcieLinkResetStep, hr]
      exact ⟨rfl, rfl, rfl, hdisabled⟩
  case bootGo =>
    intro s a k e ho hw ha hk he
    have herr : e = s.hostImageError a k := by rw [he, State.hostImageError, ite_not]
    refine ⟨_, exec_bootGo s, ?_⟩
    by_cases h0 : e = 0
    · rw [if_pos h0]
      exact bootGoStep_passes ho hw ha hk (herr ▸ h0) rfl
    · rw [if_neg h0]
      obtain ⟨b, hb, hphase, hreported⟩ := bootGoStep_fails ho hw ha hk (herr ▸ h0)
      rw [hb, herr]
      exact ⟨rfl, rfl, rfl, rfl, hphase, hreported⟩
  case bootGoElsewhere =>
    intro s h
    rw [exec_bootGo, bootGoStep_not_waiting h]

end Sys2Proof.Machine
end

section
/-! The dispatch gives every command a next state (R24). -/

namespace Sys2Proof.Machine

open Sys2Proof.Safety

/-- A word that is not one of the set traps its cell, and one that decodes after all is issued: the machine goes on either way. -/
theorem execIllegalWord_goesOn (i : Issue) (w : BitVec 64) (s : State) : goesOn (execIllegalWord i w s) := by
  unfold execIllegalWord
  split
  · exact ⟨_, rfl⟩
  · exact ⟨_, rfl⟩

/-- Settles O2: each row's meaning is a next state, that of an illegal word in either of its cases. -/
theorem everyCommandGoesOn : Obligations.EveryCommandGoesOn := by
  unfold Obligations.EveryCommandGoesOn
  intro i s
  cases i
  case illegalWord i w => exact execIllegalWord_goesOn i w s
  all_goals exact ⟨_, rfl⟩

end Sys2Proof.Machine
end

section
/-! The settings and plays of a channel's units: what each command's rules answer where its conditions hold, and that the answer becomes the
one reply (R38, R196, R198, R220, R243, R277, R279, R281, R292, R348). -/

namespace Sys2Proof.Machine

open Sys2Proof.Safety

/-- An admitted command whose own rules answer `st` over `t`, with nothing to carry, replies so (R406). -/
theorem replies_of_admitted {op : Nat} {p : Packet} {s u : State} {c : Ctx} {i : Instr} {body : Body} (h : Admitted op p s u c)
    (he : exec i s = .next (fylosRun op body p s)) {st : Nat} {t : State} (hb : body c u = .done st [] t) : Replies i s c st [] t := by
  unfold Replies
  rw [he, fylosRun_admitted h, hb, giveAnswer_done_nil]

section
variable {x : Ctx} {s : State} {v : Channel} (hv : v = s.channel x.id)
include hv

/-! ## Echo, playout and hooks (R196, R265, R348) -/

theorem echoSetBody_admits {l : List (Nat × List Byte)} (hl : l = settingsOf .echo 0 (x.params.filter (fun q => q.typ != 19)))
    (h : s.admitChange v (chargeOf v.wide (mergeSettings v.accepted l) v.legA v.legB) = none) :
    echoSetBody x s = .done stOk [] (if paramFlag x.params 19 false then (s.acceptSettings x.id l).postCommand x.id .echoReset
      else s.acceptSettings x.id l) := by
  subst hv hl
  simp only [echoSetBody, h]

theorem playoutSetBody_ordered {l : List (Nat × List Byte)} {mn mx ini : Nat}
    (hl : l = settingsOf .playout 0 (x.params.filter (fun q => q.typ != 9)))
    (hmn : mn = settingNat (mergeSettings v.accepted l) .playout 0 2 (ms 20))
    (hmx : mx = settingNat (mergeSettings v.accepted l) .playout 0 3 (ms 200))
    (hini : ini = settingNat (mergeSettings v.accepted l) .playout 0 4 (ms 40)) (hlo : mn ≤ ini) (hhi : ini ≤ mx) :
    playoutSetBody x s = .done stOk [] (if paramFlag x.params 9 false then (s.acceptSettings x.id l).postCommand x.id .windowRestart
      else s.acceptSettings x.id l) := by
  subst hv hl
  unfold playoutSetBody
  dsimp only
  rw [← hmn, ← hmx, ← hini, if_neg (by omega), if_neg (by omega)]

theorem userHookSetBody_admits {l : List (Nat × List Byte)} (hl : l = x.params.map (fun q => (setKey .hook 0 q.typ, q.val)))
    (hentry : ∀ t ∈ [0x40, 0x41], ∀ i, paramNat? x.params t = some i → i = noneValue ∨ i < s.kernelEntries)
    (h : s.admitChange v (chargeOf v.wide (mergeSettings v.accepted l) v.legA v.legB) = none) :
    userHookSetBody x s = .done stOk [] (s.acceptSettings x.id l) := by
  subst hv hl
  unfold userHookSetBody
  dsimp only
  split
  · next t hbad =>
      have hrefused := List.find?_some hbad
      split at hrefused
      · next i hi =>
          obtain ⟨hne, hle⟩ : i ≠ noneValue ∧ s.kernelEntries ≤ i := by simpa using hrefused
          exact absurd (hentry t (List.mem_of_find?_eq_some hbad) i hi) (by omega)
      · cases hrefused
  · simp only [h]

/-! ## Codecs and resampling (R198, R220, R243) -/

theorem codecSetBody_fits {leg n : Nat} {l : List (Nat × List Byte)} (hleg : leg = paramNat x.params 0x40 0)
    (hkind : (v.leg leg).kind = .rtp) (hl : codecOutcome x s = .inl l)
    (h : s.admitChange v (chargeOf v.wide (mergeSettings v.accepted l) v.legA v.legB) = none)
    (hn : n = s.legUnits (mergeSettings v.accepted l) v.rate leg (v.leg leg)) (hfit : s.unitsFit v.block (v.reservedAt leg) n = true) :
    codecSetBody x s = .done stOk [] ((s.setChannel x.id (v.reserve leg n)).acceptSettings x.id l) := by
  subst hv hleg hn
  simp only [codecSetBody, hkind, hl, h, hfit, ne_eq, not_true_eq_false, if_false]

theorem resampleSetBody_fits {n : Nat} {l : List (Nat × List Byte)} {t : Tab (List Byte)} {w : Channel}
    (hn : paramNat? x.params 1 = some n) (hl : l = settingsOf .resample n (x.params.filter (fun q => q.typ != 1)))
    (ht : t = mergeSettings v.accepted l)
    (hchain : ∀ k ∈ namedKeys n, (v.stream k).present = true → chainPermitted t n (v.stream k).chain.fin (v.stream k).chain.fout = true)
    (hw : w = s.reservedWith v t) (hfit : s.unitsFit v.block v.reservedUnits w.reservedUnits = true) :
    resampleSetBody x s = .done stOk [] ((s.setChannel x.id w).acceptSettings x.id l) := by
  subst hv hl ht hw
  have hn' : paramNat x.params 1 0 = n := by rw [paramNat, hn, Option.getD_some]
  unfold resampleSetBody
  dsimp only
  rw [hn', if_neg (by simpa using hchain), if_neg (by simp [hfit])]

omit hv in
theorem resampleResetBody_all (h : paramNat? x.params 1 = none) :
    resampleResetBody x s = .done stOk [] (s.postCommand x.id (.resampleReset none)) := by
  simp only [resampleResetBody, h]

theorem resampleResetBody_present {n : Nat} (hn : paramNat? x.params 1 = some n) (h : ∃ k ∈ namedKeys n, (v.stream k).present = true) :
    resampleResetBody x s = .done stOk [] (s.postCommand x.id (.resampleReset (some n))) := by
  subst hv
  simp only [resampleResetBody, hn]
  exact if_pos (List.any_eq_true.mpr h)

theorem resampleResetBody_absent {n : Nat} (hn : paramNat? x.params 1 = some n) (h : ∀ k ∈ namedKeys n, (v.stream k).present = false) :
    resampleResetBody x s = .done stNoChange [] s := by
  subst hv
  simp only [resampleResetBody, hn]
  exact if_neg (by simpa using h)

/-! ## Tones and gains (R277, R279, R281) -/

theorem toneDetectSetBody_holds {leg : Nat} {given : List (List Byte)} {ids : List Nat} (hleg : leg = paramNat x.params 0x40 0)
    (hgiven : given = paramAll x.params 1) (hids : ids = (given.filter (fun b => b != [])).map beNat) (hempty : [] ∈ given → given.length = 1)
    (htable : ∀ i ∈ ids, s.holdsKind i .detector = true ∧ (s.tableKind i).map (·.2) = some (v.rate * 1000))
    (hbase : paramHas x.params 2 = true → ∀ i, i < 21 →
      s.holdsKind ((paramNat? x.params 2).getD (eventToneBase v.accepted v.wide leg) + i) .generator = true)
    (hmany : given ≠ [] → ids.length + (detectorIds v.accepted v.wide (1 - leg)).length ≤ 4) :
    toneDetectSetBody x s = .done stOk [] (s.acceptSettings x.id
      (settingsOf .tone leg (x.params.filter (fun q => q.typ != 1)) ++
        (if given = [] then [] else [(setKey .tone leg 1, (ids.map uintV).flatten)]))) := by
  subst hv hleg hgiven
  unfold toneDetectSetBody
  dsimp only
  have hform : ¬ ((paramAll x.params 1).contains [] = true ∧ (paramAll x.params 1).length ≠ 1) :=
    fun ⟨he, hne⟩ => hne (hempty (List.contains_iff_mem.mp he))
  have hdetectors : ¬ ids.any (fun i => !(s.holdsKind i .detector)) = true := by
    simpa using fun i hi => (htable i hi).1
  have hgenerators : ¬ (paramHas x.params 2 = true ∧ ¬ (List.range 21).all (fun i =>
      s.holdsKind ((paramNat? x.params 2).getD (eventToneBase (s.channel x.id).accepted (s.channel x.id).wide
        (paramNat x.params 0x40 0)) + i) .generator) = true) := by
    simpa using hbase
  have hrate : ¬ ids.any (fun i => (s.tableKind i).map (·.2) != some ((s.channel x.id).rate * 1000)) = true := by
    simpa using fun i hi => (htable i hi).2
  rw [← hids, if_neg hform, if_neg hdetectors, if_neg hgenerators, if_neg hrate, if_neg]
  rintro ⟨hne, hover⟩
  rw [if_neg hne] at hover
  exact absurd (hmany hne) (by omega)

theorem tonePlayBody_fits {leg id rate n : Nat} {w : Channel} (hleg : leg = paramNat x.params 0x40 0) (hid : id = paramNat x.params 0x41 0)
    (ht : s.tableKind id = some (.generator, rate)) (hn : n = playerUnits v.accepted v leg (rate / 1000))
    (hfit : s.unitsFit v.block (v.reservedAt (2 + leg)) n = true) (hw : w = v.reserve (2 + leg) n) :
    tonePlayBody x s = .done stOk [] ((s.setChannel x.id (w.setLegMedia leg
        { w.legMedia leg with toneWanted := true, toneRate := rate / 1000 })).postCommand x.id
      (.tone leg id (paramNat x.params 0x42 0) ((paramInt? x.params 0x43).getD 0))) := by
  subst hv hleg hid hn hw
  simp only [tonePlayBody, ht, hfit, not_true_eq_false, if_false]

theorem toneStopBody_wanted {leg : Nat} (hleg : leg = paramNat x.params 0x40 0) (h : (v.legMedia leg).toneWanted = true) :
    toneStopBody x s = .done stOk []
      ((s.setChannel x.id (v.setLegMedia leg { v.legMedia leg with toneWanted := false })).postCommand x.id (.stopTone leg)) := by
  subst hv hleg
  exact if_neg (by simp [h])

theorem toneStopBody_unwanted {leg : Nat} (hleg : leg = paramNat x.params 0x40 0) (h : (v.legMedia leg).toneWanted = false) :
    toneStopBody x s = .done stNoChange [] s := by
  subst hv hleg
  exact if_pos (by simp [h])

omit hv in
theorem gainSetBody_holds
    (h : ∀ e ∈ [(3, TableKind.gainCurve), (4, TableKind.gainCurve), (5, TableKind.agc), (6, TableKind.agc)], ∀ i,
      paramNat? x.params e.1 = some i → i = noneValue ∨ s.holdsKind i e.2 = true) :
    gainSetBody x s = .done stOk [] (s.acceptSettings x.id (settingsOf .gain (paramNat x.params 0x40 0) x.params)) := by
  unfold gainSetBody
  dsimp only
  split
  · next e hbad =>
      have hrefused := List.find?_some hbad
      split at hrefused
      · next i hi => rcases h e (List.mem_of_find?_eq_some hbad) i hi with h | h <;> simp [h] at hrefused
      · cases hrefused
  · rfl

/-! ## Prompts (R220, R292) -/

theorem promptPlayBody_fits {leg n : Nat} {ids rates : List Nat} {queue : Bool} {m : LegMedia} (hleg : leg = paramNat x.params 0x40 0)
    (hids : ids = (paramAll x.params 0x41).map beNat) (hqueue : queue = paramFlag x.params 0x46 false) (hm : m = v.legMedia leg)
    (hheld : ∀ i ∈ ids, (tabFind? s.store.prompts i).isSome = true) (hline : queue = true → m.playsWanted < 5)
    (hrates : rates = (if queue then m.playRates else []) ++
      ids.map (fun i => match tabFind? s.store.prompts i with | some q => q.rate / 1000 | none => v.rate))
    (hn : n = promptUnits v.accepted v leg rates) (hfit : s.unitsFit v.block (v.reservedAt (4 + leg)) n = true) :
    promptPlayBody x s = .done stOk [] ((s.setChannel x.id ((v.reserve (4 + leg) n).setLegMedia leg
        { m with playsWanted := if queue then m.playsWanted + 1 else 1, playRates := rates })).postCommand x.id
      (.play leg ids (paramNat x.params 0x42 1) (paramNat x.params 0x43 0) ((paramInt? x.params 0x44).getD 0)
        (paramFlag x.params 0x45 true) queue)) := by
  subst hv hleg hids hm hn hrates
  unfold promptPlayBody
  dsimp only
  rw [← hqueue, if_neg (by simpa [Option.isSome_iff_ne_none] using hheld), if_neg (fun ⟨hq, hfull⟩ => absurd (hline hq) (by omega))]
  cases queue with
  | false => exact if_neg (not_not_intro hfit)
  | true => exact if_neg (not_not_intro hfit)

theorem promptStopBody_wanted {leg : Nat} (hleg : leg = paramNat x.params 0x40 0) (h : (v.legMedia leg).playsWanted ≠ 0) :
    promptStopBody x s = .done stOk []
      ((s.setChannel x.id (v.setLegMedia leg { v.legMedia leg with playsWanted := 0 })).postCommand x.id (.stopPlay leg)) := by
  subst hv hleg
  exact if_neg h

theorem promptStopBody_unwanted {leg : Nat} (hleg : leg = paramNat x.params 0x40 0) (h : (v.legMedia leg).playsWanted = 0) :
    promptStopBody x s = .done stNoChange [] s := by
  subst hv hleg
  exact if_pos h

end

/-- Settles O6: each row runs its command's rules, these answer OK, or NO_CHANGE, over the state that the entry names, and the answer becomes
the one reply. -/
theorem channelUnitCommandsComplete : Obligations.ChannelUnitCommandsComplete := by
  unfold Obligations.ChannelUnitCommandsComplete
  intro p s u c v hv
  refine ⟨?echoSet, ?playoutSet, ?codecSet, ?resampleSet, ?resampleReset, ?toneDetectSet, ?tonePlay, ?toneStop, ?gainSet, ?promptPlay,
    ?promptStop, ?userHookSet⟩
  case echoSet => exact fun l h hl ha => replies_of_admitted h rfl (echoSetBody_admits hv hl ha)
  case playoutSet =>
    exact fun l mn mx ini h hl hmn hmx hini hlo hhi => replies_of_admitted h rfl (playoutSetBody_ordered hv hl hmn hmx hini hlo hhi)
  case codecSet =>
    exact fun leg l n h hleg hk hl ha hn hf => replies_of_admitted h rfl (codecSetBody_fits hv hleg hk hl ha hn hf)
  case resampleSet =>
    exact fun n l t w h hn hl ht hc hw hf => replies_of_admitted h rfl (resampleSetBody_fits hv hn hl ht hc hw hf)
  case resampleReset =>
    exact fun h => ⟨fun hn => replies_of_admitted h rfl (resampleResetBody_all hn), fun n hn =>
      ⟨fun hp => replies_of_admitted h rfl (resampleResetBody_present hv hn hp),
        fun hp => replies_of_admitted h rfl (resampleResetBody_absent hv hn hp)⟩⟩
  case toneDetectSet =>
    exact fun leg given ids h hleg hg hi he ht hb hm => replies_of_admitted h rfl (toneDetectSetBody_holds hv hleg hg hi he ht hb hm)
  case tonePlay =>
    exact fun leg id rate n w h hleg hid ht hn hf hw => replies_of_admitted h rfl (tonePlayBody_fits hv hleg hid ht hn hf hw)
  case toneStop =>
    exact fun leg h hleg => ⟨fun hw => replies_of_admitted h rfl (toneStopBody_wanted hv hleg hw),
      fun hw => replies_of_admitted h rfl (toneStopBody_unwanted hv hleg hw)⟩
  case gainSet => exact fun h ht => replies_of_admitted h rfl (gainSetBody_holds ht)
  case promptPlay =>
    exact fun leg ids rates queue n m h hleg hi hq hm hh hl hr hn hf =>
      replies_of_admitted h rfl (promptPlayBody_fits hv hleg hi hq hm hh hl hr hn hf)
  case promptStop =>
    exact fun leg h hleg => ⟨fun hw => replies_of_admitted h rfl (promptStopBody_wanted hv hleg hw),
      fun hw => replies_of_admitted h rfl (promptStopBody_unwanted hv hleg hw)⟩
  case userHookSet => exact fun l h hl he ha => replies_of_admitted h rfl (userHookSetBody_admits hv hl he ha)

end Sys2Proof.Machine
end

section
/-! What a command event makes of its channel, how a run ends, and which runs TICK_RUN takes (R29, R31, R38, R42 to R44, R292, R480). -/

namespace Sys2Proof.Machine

/-! ## What the updates of a channel read back -/

@[simp] theorem Channel.setLegMedia_legMedia_same (v : Channel) (leg : Nat) (m : LegMedia) : (v.setLegMedia leg m).legMedia leg = m := by
  unfold Channel.setLegMedia Channel.legMedia
  split <;> rfl

@[simp] theorem Channel.setLegMedia_runState (v : Channel) (leg : Nat) (m : LegMedia) : (v.setLegMedia leg m).runState = v.runState := by
  unfold Channel.setLegMedia
  split <;> rfl

@[simp] theorem Channel.setStream_runState (v : Channel) (k : Nat) (x : Stream) : (v.setStream k x).runState = v.runState := rfl

@[simp] theorem Channel.reserve_runState (v : Channel) (k n : Nat) : (v.reserve k n).runState = v.runState := rfl

@[simp] theorem realignEcho_runState (v : Channel) : (realignEcho v).runState = v.runState := rfl

@[simp] theorem State.modLeg_legMedia_same (s : State) (c leg : Nat) (f : LegMedia → LegMedia) :
    ((s.modLeg c leg f).channel c).legMedia leg = f ((s.channel c).legMedia leg) := by
  simp [State.modLeg]

@[simp] theorem State.setRun_runState (s : State) (c : Nat) (r : ChState) : ((s.setRun c r).channel c).runState = r := by
  simp [State.setRun]

/-- What changes a channel leg by leg and keeps its run state at each keeps it. -/
theorem foldl_runState {f : Channel → Nat → Channel} (hf : ∀ v i, (f v i).runState = v.runState) (l : List Nat) (v : Channel) :
    (l.foldl f v).runState = v.runState := by
  induction l generalizing v with
  | nil => rfl
  | cons i r ih => rw [List.foldl_cons, ih, hf]

@[simp] theorem releasePlayers_runState (v : Channel) : (releasePlayers v).runState = v.runState := by
  refine foldl_runState (fun w i => ?_) _ v
  have htone : (if (w.legMedia i).toneWanted = true ∨ (w.legMedia i).generator.isSome = true then w
      else w.reserve (2 + i) 0).runState = w.runState := by
    split <;> rfl
  dsimp only
  split
  · exact htone
  · rw [Channel.setLegMedia_runState, Channel.reserve_runState, htone]

/-! ## Command events (R38) -/

@[simp] theorem State.resetKey_runState (s : State) (c k : Nat) : ((s.resetKey c k).channel c).runState = (s.channel c).runState := by
  unfold State.resetKey
  rw [State.modChannel_channel_same]
  dsimp only
  split
  · split <;> rfl
  · rfl

/-- A synchronising reset of streams leaves the run state as it is. -/
@[simp] theorem foldl_resetKey_runState (l : List Nat) (s : State) (c : Nat) :
    ((l.foldl (fun s k => s.resetKey c k) s).channel c).runState = (s.channel c).runState :=
  fold_frame (fun s t => (t.channel c).runState = (s.channel c).runState) (fun _ => rfl) (fun _ _ _ h1 h2 => h2.trans h1) _
    (fun s k => s.resetKey_runState c k) l s

theorem takeEvent_drain_runState (s : State) (c : Nat) : ((s.takeEvent c .drain).channel c).runState = .draining := by
  unfold State.takeEvent
  dsimp only
  split <;> simp

/-- Plays that end by a command leave the leg with none current and none queued (R294). -/
theorem endRunPlays_legMedia (s : State) (c leg reason : Nat) :
    let m := ((s.endRunPlays c leg reason).channel c).legMedia leg
    m.prompt = none ∧ m.queue = [] := by
  simp [State.endRunPlays]

theorem playTake_queued {s : State} {c leg : Nat} (p : Prompting) (h : ((s.channel c).legMedia leg).prompt ≠ none) :
    s.playTake c leg p true = s.modLeg c leg (fun m => { m with queue := m.queue ++ [p] }) :=
  if_pos ⟨rfl, Option.isSome_iff_ne_none.mpr h⟩

/-! ## The end of a run -/

theorem endRun_of_not_draining {s : State} {c : Nat} (h : (s.channel c).runState ≠ .draining) : s.endRun c = s := if_pos h

/-- The outputs that a channel's TDM_IN streams hold for its runs, dropped. -/
def clearTdmIn (v : Channel) : Channel :=
  [0, 1].foldl (fun v i => v.setStream (tdmInKey i) { v.stream (tdmInKey i) with out := [] }) v

@[simp] theorem clearTdmIn_runState (v : Channel) : (clearTdmIn v).runState = v.runState := rfl

@[simp] theorem foldl_dropPacket_channel (l : List RxPacket) (s : State) (c : Nat) : (l.foldl State.dropPacket s).channel c = s.channel c := by
  rw [State.channel, foldl_channels (f := State.dropPacket) (fun _ _ => rfl), State.channel]

/-- `n` packets counted in FROST_DISCARD. -/
def State.countFrostDiscards (s : State) (n : Nat) : State :=
  { s with clocks := { s.clocks with counts := countAdd s.clocks.counts ClockCount.frostDiscard.ctorIdx n } }

@[simp] theorem State.countFrostDiscards_channel (s : State) (n c : Nat) : (s.countFrostDiscards n).channel c = s.channel c := rfl

theorem frostRun_of_frosted {s : State} {c draw : Nat} {l : List RxPacket} (h : (s.channel c).media.frosted = true) :
    s.frostRun c draw l = s.countFrostDiscards l.length := if_pos h

section
variable {s s1 : State} {c : Nat} {l : List PendEntry} (h1 : s1 = s.drawn.runStep1 c (entryEvents l))
include h1

/-- A run in HOLD or OPENED frees its packets unread (R42, R43). -/
theorem channelRun_at_rest (h : (s1.channel c).runState = .hold ∨ (s1.channel c).runState = .opened) :
    s.channelRun c l = (((entryPackets l).foldl State.dropPacket s1).modChannel c clearTdmIn).modChannel c releasePlayers := by
  unfold State.channelRun
  dsimp only
  rw [← h1, if_neg (by rcases h with h | h <;> simp [h])]
  have hend : State.endRun ((((entryPackets l).foldl State.dropPacket s1).modChannel c clearTdmIn).modChannel c releasePlayers) c =
      (((entryPackets l).foldl State.dropPacket s1).modChannel c clearTdmIn).modChannel c releasePlayers :=
    endRun_of_not_draining (by rcases h with h | h <;> simp [h])
  rcases h with h | h
  · simp only [h]
    exact hend
  · simp only [h]
    exact hend

/-- A run under Frost that has sent its last descriptors counts its packets, and no more (R480). -/
theorem channelRun_frosted (hf : s1.clocks.frost = true) (hr : (s1.channel c).runState = .active)
    (hm : (s1.channel c).media.frosted = true) :
    s.channelRun c l = (s1.countFrostDiscards (entryPackets l).length).modChannel c releasePlayers := by
  unfold State.channelRun
  dsimp only
  rw [← h1, if_pos (by simp [hf, hr]), frostRun_of_frosted hm]
  exact endRun_of_not_draining (by simp [hr])

end

/-! ## TICK_RUN -/

theorem tickRunStep_of_stopped {s : State} {c : Nat} (h : (s.channel c).state = .idle ∨ (s.channel c).state = .faulted) :
    tickRunStep c s = s := by
  unfold tickRunStep
  dsimp only
  split
  · rfl
  · rw [if_pos (h.elim (fun h => .inr (.inl h)) .inl)]

section
variable {s : State} {c t : Nat} (ht : (s.channel c).slot = some t) (hidle : (s.channel c).state ≠ .idle)
  (hfault : (s.channel c).state ≠ .faulted) (hruns : (s.channel c).runsIn s.tick = true)
include ht hidle hfault hruns

theorem tickRunStep_running (h : (s.thread (s.channel c).block t).state = .running) :
    tickRunStep c s = (s.cellRun c (s.thread (s.channel c).block t).taken).sendLegBlocks := by
  simp only [tickRunStep, ht, hidle, hfault, hruns, h, not_true_eq_false, or_self, if_false]

theorem tickRunStep_waits (h : (s.thread (s.channel c).block t).state = .waiting ∨ (s.thread (s.channel c).block t).state = .ready) :
    tickRunStep c s = (s.wholeRun c (s.channel c).block t (s.thread (s.channel c).block t).pending).sendLegBlocks := by
  rcases h with h | h <;> simp only [tickRunStep, ht, hidle, hfault, hruns, h, not_true_eq_false, or_self, if_false]

end

theorem exec_tickRun (c : Nat) (s : State) : exec (.tickRun c) s = .next (tickRunStep c s) := rfl

/-- Settles O35: the cases of TICK_RUN, of the run that it takes, and of the command events of a run. -/
theorem runsAndCommandsTakeEffect : Obligations.RunsAndCommandsTakeEffect := by
  unfold Obligations.RunsAndCommandsTakeEffect Safety.Becomes
  constructor
  case left =>
    intro c s
    simp only [exec_tickRun]
    refine ⟨?stopped, ?running, ?waits, ?rest, ?frosted⟩
    case stopped => exact fun h => by rw [tickRunStep_of_stopped h]
    case running => exact fun t ht hi hf hr h => by rw [tickRunStep_running ht hi hf hr h]
    case waits => exact fun t ht hi hf hr h => by rw [tickRunStep_waits ht hi hf hr h]
    case rest => exact fun l h => channelRun_at_rest rfl h
    case frosted => exact fun l hf hr hm => channelRun_frosted rfl hf hr hm
  case right =>
    intro c s
    refine ⟨State.setRun_runState _ c _, State.setRun_runState _ c _, takeEvent_drain_runState s c, ?resume, fun _ _ => rfl, ?tone, ?stopTone,
      ?stopPlay, ?play⟩
    case resume => simp [State.takeEvent]
    case tone => exact fun leg _ _ _ _ => by simp [State.takeEvent]
    case stopTone => exact fun leg _ => by simp [State.takeEvent]
    case stopPlay => exact fun leg _ => endRunPlays_legMedia s c leg 1
    case play =>
      intro leg ids rp mode level n _ hp
      simp only [State.takeEvent, playTake_queued _ hp, State.modLeg_legMedia_same, and_self]

end Sys2Proof.Machine
end

section
/-! A frame or fragment received: the checks of the MAC in their order, and the reassembly of a preempted frame
(R26, R64, R66, R84, R88, R89, R605). -/

namespace Sys2Proof.Machine

/-! ## A whole frame (R605) -/

/-- The machine once the ingress buffer's error bits are looked at: a corrected error is counted (R64, R605). -/
def State.bufferChecked (s : State) (i : Nat) (ecc : Ecc) : State :=
  if ecc = .corrected then s.drawn.correctable 0x13 4 i 5 s.freeValue 5 0 else s

section
variable {s : State} {i powered : Nat} {bytes : List Byte} {fcs : Bool} {stamp : Stamp} {ecc lookup : Ecc}

theorem wholeFrame_no_room : s.wholeFrame i bytes fcs false stamp powered ecc lookup = s.bumpPort i .rxBufferDiscard := rfl

theorem wholeFrame_uncorrectable :
    s.wholeFrame i bytes fcs true stamp powered .uncorrectable lookup =
      (s.bumpPort i .rxBufferDiscard).drawn.logError 0x41 4 8 i 0xFFFF 0 5 s.freeValue := rfl

variable (hecc : ecc ≠ .uncorrectable)
include hecc

theorem wholeFrame_bad_length (h : bytes.length + 4 < 64 ∨ (s.port i).maxFrame < bytes.length + 4) :
    s.wholeFrame i bytes fcs true stamp powered ecc lookup = (s.bufferChecked i ecc).bumpPort i .rxLengthError := by
  unfold State.wholeFrame
  dsimp only
  rw [if_neg (by simp), if_neg hecc, if_pos h]
  rfl

variable (hmin : 64 ≤ bytes.length + 4) (hmax : bytes.length + 4 ≤ (s.port i).maxFrame)
include hmin hmax

/-- What a frame of a fit length in a sound buffer comes to: its FCS, its address, and whether it is MAC control, in that order. -/
theorem wholeFrame_fit :
    s.wholeFrame i bytes fcs true stamp powered ecc lookup =
      if fcs = false then (s.bufferChecked i ecc).bumpPort i .rxFcsError
      else if (s.bufferChecked i ecc).accepts i bytes = false then (s.bufferChecked i ecc).bumpPort i .rxAddrDiscard
      else if ((s.bufferChecked i ecc).bumpPort i .rxFrames).takesControl i bytes = true then
        ((s.bufferChecked i ecc).bumpPort i .rxFrames).modPort i
          (Port.control ((s.bufferChecked i ecc).bumpPort i .rxFrames).now10 bytes)
      else ((s.bufferChecked i ecc).bumpPort i .rxFrames).examine i bytes stamp powered lookup := by
  unfold State.wholeFrame
  dsimp only
  rw [if_neg (by simp), if_neg hecc, if_neg (by omega)]
  simp only [Bool.not_eq_true]
  rfl

end

/-! ## Fragments (R88) -/

section
variable {s : State} {f : RxFrame}

theorem fragment_first (h : f.framing = .first true) :
    s.fragment f = s.setPort f.port
      { (if (s.port f.port).reassembly.isSome then (s.port f.port).dropPartial false else s.port f.port) with
        fragmentDue := false
        reassembly := some { bytes := f.bytes, next := 0, stamp := s.ingressStamp (s.port f.port) f.bytes.length f.vary,
                             powered := s.ingressPowered (s.port f.port) f.bytes.length f.vary } } := by
  simp only [State.fragment, h, not_true_eq_false, if_false]

theorem fragment_first_bad (h : f.framing = .first false) :
    s.fragment f = s.setPort f.port
      ((if (s.port f.port).reassembly.isSome then (s.port f.port).dropPartial false else s.port f.port).dropPartial true) := by
  simp only [State.fragment, h, Bool.false_eq_true, not_false_eq_true, if_true]

theorem fragment_unexpected {k : Nat} {good last : Bool} (h : f.framing = .continuation k good last)
    (hp : (s.port f.port).reassembly = none) :
    s.fragment f = if last then s.setPort f.port { s.port f.port with fragmentDue := false } else s := by
  simp only [State.fragment, h, hp]

variable {r : Reassembly} (hr : (s.port f.port).reassembly = some r)
include hr

theorem fragment_out_of_order {k : Nat} {good last : Bool} (h : f.framing = .continuation k good last)
    (hbad : k ≠ r.next ∨ (last = false ∧ good = false)) :
    s.fragment f = s.setPort f.port ((s.port f.port).dropPartial (!last)) := by
  simp only [State.fragment, h, hr]
  rw [if_pos (by simpa using hbad)]

theorem fragment_joins (h : f.framing = .continuation r.next true false) :
    s.fragment f = s.setPort f.port { s.port f.port with
      reassembly := some { r with bytes := r.bytes ++ f.bytes, next := (r.next + 1) % 4 } } := by
  simp only [State.fragment, h, hr]
  rw [if_neg (by simp), if_neg (by simp)]

theorem fragment_completes {good : Bool} {q : Port} (h : f.framing = .continuation r.next good true)
    (hq : q = { s.port f.port with reassembly := none }) :
    s.fragment f = (s.setPort f.port q).wholeFrame f.port (r.bytes ++ f.bytes) f.fcsGood
      (q.ingressRoom (r.bytes.length + f.bytes.length) f.room) r.stamp r.powered f.ecc f.lookup := by
  subst hq
  simp only [State.fragment, h, hr]
  rw [if_neg (by simp), if_pos trivial]

end

/-! ## FRAME_RECEIVED -/

theorem exec_frameReceived (f : RxFrame) (s : State) : exec (.frameReceived f) s = .next (frameReceivedStep f s) := rfl

section
variable {f : RxFrame} {s : State} (hi : f.port < 4) (hm : s.macReceives f.port = true)
include hi hm

theorem frameReceivedStep_down (hf : f.framing = .express) (hup : (s.port f.port).up = false) :
    frameReceivedStep f s =
      (s.setPort f.port { s.port f.port with reassembly := none, fragmentDue := false }).bumpPort f.port .rxNotUp := by
  unfold frameReceivedStep
  simp only [hf, hup, hm, not_true_eq_false, or_false, if_true, Bool.false_eq_true, not_false_eq_true]
  rw [if_neg (by omega)]

variable (hup : (s.port f.port).up = true)
include hup

theorem frameReceivedStep_express (hf : f.framing = .express) :
    frameReceivedStep f s = (s.setPort f.port (s.port f.port).expressBeforeFragment).wholeFrame f.port f.bytes f.fcsGood
      ((s.port f.port).ingressRoom f.bytes.length f.room) (s.ingressStamp (s.port f.port) f.bytes.length f.vary)
      (s.ingressPowered (s.port f.port) f.bytes.length f.vary) f.ecc f.lookup := by
  unfold frameReceivedStep
  simp only [hf, hup, hm, not_true_eq_false, or_false, if_false]
  rw [if_neg (by omega)]

theorem frameReceivedStep_fragment (hf : f.framing ≠ .express) :
    frameReceivedStep f s = if (s.port f.port).preempt = 0 then s else s.fragment f := by
  unfold frameReceivedStep
  dsimp only
  rw [if_neg (by simp [hm, hi]), if_neg (by simp [hup])]
  cases hk : f.framing with
  | express => exact absurd hk hf
  | first good => rfl
  | continuation k good last => rfl

end

theorem frameReceivedStep_no_receiver {f : RxFrame} {s : State} (h : 4 ≤ f.port ∨ ¬ s.macReceives f.port = true) :
    frameReceivedStep f s = s := if_pos h

/-- With PREEMPT OFF a fragment is no frame (R84). -/
theorem frameReceivedStep_preempt_off {f : RxFrame} {s : State} (hf : f.framing ≠ .express) (hup : (s.port f.port).up = true)
    (hp : (s.port f.port).preempt = 0) : frameReceivedStep f s = s := by
  by_cases hrx : 4 ≤ f.port ∨ ¬ s.macReceives f.port = true
  · exact frameReceivedStep_no_receiver hrx
  · obtain ⟨hi, hm⟩ := not_or.mp hrx
    rw [frameReceivedStep_fragment (Nat.lt_of_not_le hi) (Decidable.not_not.mp hm) hup hf, if_pos hp]

/-- Settles O38: an express frame is checked as a whole frame, a fragment goes into the reassembly, and each case says what becomes of it. -/
theorem receivedFramesAreChecked : Obligations.ReceivedFramesAreChecked := by
  unfold Obligations.ReceivedFramesAreChecked Safety.Becomes
  simp only [exec_frameReceived]
  refine ⟨?express, ?fragments, ?preemptOff⟩
  case express =>
    rintro f s i n p rfl rfl rfl hf hi hm
    refine ⟨fun hup => by rw [frameReceivedStep_down hi hm hf hup], ?_⟩
    rintro u hup rfl
    rw [frameReceivedStep_express hi hm hup hf]
    refine ⟨?noRoom, ?uncorrectable, ?checked⟩
    case noRoom => exact fun hroom => by rw [hroom, wholeFrame_no_room]
    case uncorrectable => exact fun hroom he => by rw [hroom, he, wholeFrame_uncorrectable]
    case checked =>
      intro w v hroom he hw hv
      obtain rfl : w = State.bufferChecked _ _ _ := hw
      subst hv
      rw [hroom]
      refine ⟨fun h => by rw [wholeFrame_bad_length he h], ?fcs, ?address, ?control, ?examined⟩
      case fcs => exact fun h1 h2 h3 => by rw [wholeFrame_fit he h1 h2, if_pos h3]
      case address => exact fun h1 h2 h3 h4 => by rw [wholeFrame_fit he h1 h2, if_neg (by simp [h3]), if_pos h4]
      case control =>
        intro h1 h2 h3 h4 h5
        rw [wholeFrame_fit he h1 h2, if_neg (by simp [h3]), if_neg (by simp [h4]), if_pos h5]
      case examined =>
        intro h1 h2 h3 h4 h5
        rw [wholeFrame_fit he h1 h2, if_neg (by simp [h3]), if_neg (by simp [h4]), if_neg (by simp [h5])]
  case fragments =>
    rintro f s i p x rfl rfl hi hm hup hp rfl
    have hstep : f.framing ≠ .express → frameReceivedStep f s = s.fragment f :=
      fun hf => by rw [frameReceivedStep_fragment hi hm hup hf, if_neg hp]
    refine ⟨?first, ?unexpected, ?joins, ?completes, ?outOfOrder⟩
    case first =>
      rintro q rfl
      exact ⟨fun h => by rw [hstep (by simp [h]), fragment_first h], fun h => by rw [hstep (by simp [h]), fragment_first_bad h]⟩
    case unexpected => exact fun k good last hr h => by rw [hstep (by simp [h]), fragment_unexpected h hr]
    case joins =>
      rintro r y hr h rfl
      rw [hstep (by simp [h]), fragment_joins hr h]
    case completes => exact fun r q good hr h hq => by rw [hstep (by simp [h]), fragment_completes hr h hq]
    case outOfOrder => exact fun r k good last hr h hbad => by rw [hstep (by simp [h]), fragment_out_of_order hr h hbad]
  case preemptOff => exact fun f s hf hup hp => by rw [frameReceivedStep_preempt_off hf hup hp]

end Sys2Proof.Machine
end

section
/-! What the reset state holds: every part reads as its default (R501, R502). -/

namespace Sys2Proof.Machine

@[simp] theorem reset_channel (c : Nat) : State.reset.channel c = {} := rfl
@[simp] theorem reset_ring (n : Nat) : State.reset.ring n = ringDefault n := rfl
@[simp] theorem reset_cell (n : Nat) : State.reset.cell n = {} := rfl
@[simp] theorem reset_powerDomain (d : Nat) : State.reset.powerDomain d = {} := rfl
@[simp] theorem memByte_nil (a : Nat) : memByte [] a = 0 := rfl

/-- A device whose fuses are all whole, as the reset state has them, is in the first life-cycle state (R506). -/
theorem reset_lifeCycle_fused : State.reset.life.lifeCycle = fusedState State.reset.life := by decide

/-- Settles O56: each part of the reset state is its default, which holds the stated values. -/
theorem resetLeavesTheStatedValues : Obligations.ResetLeavesTheStatedValues := by
  unfold Obligations.ResetLeavesTheStatedValues
  refine ⟨?channels, ?rings, rfl, rfl, rfl, rfl, rfl, ?memories, ?dram, ?cells, rfl, rfl, rfl, rfl, rfl, rfl, rfl, rfl, rfl, rfl,
    reset_lifeCycle_fused, rfl, rfl, rfl, ?power, rfl, rfl⟩
  case channels => exact fun c => by rw [reset_channel]; exact ⟨rfl, rfl⟩
  case rings => exact fun n => by rw [reset_ring]; exact ⟨rfl, rfl⟩
  case memories => exact fun n a => by rw [reset_cell]; exact ⟨memByte_nil a, memByte_nil a⟩
  case dram => exact memByte_nil
  case cells => exact fun n => by rw [reset_cell]; exact ⟨rfl, rfl⟩
  case power => exact fun d => by rw [reset_powerDomain]

end Sys2Proof.Machine
end

section
/-! The state commands of a channel: what each command's rules answer where its conditions hold, and that the answer becomes the reply
(R46, R47, R51, R397, R443, R544). -/

namespace Sys2Proof.Machine

open Sys2Proof.Safety

/-- An admitted command whose own rules are ACCEPTED over `t`, and whose source has room, goes on from there as they say (R406, R409). -/
theorem becomes_of_accepted {op : Nat} {p : Packet} {s u : State} {c : Ctx} {i : Instr} {body : Body} (h : Admitted op p s u c)
    (he : exec i s = .next (fylosRun op body p s)) (hroom : hasRoom u c) {t : State} {after : State → State}
    (hb : body c u = .accepted t after) {v : State} (hv : after (acceptedOver c t) = v) : Becomes i s v := by
  subst hv
  have hlt : ¬ 1024 ≤ outstandingOf u c.ref.source := Nat.not_le.mpr hroom
  unfold Becomes
  rw [he, fylosRun_admitted h, hb, giveAnswer_accepted, if_neg hlt]
  rfl

/-! ## What leaves the channels as they are -/

@[simp] theorem State.postCommandTo_channels (s : State) (b t : Nat) (e : ChEvent) : (s.postCommandTo b t e).channels = s.channels := rfl

@[simp] theorem State.postCommand_channels (s : State) (c : Nat) (e : ChEvent) : (s.postCommand c e).channels = s.channels := by
  unfold State.postCommand
  split <;> rfl

@[simp] theorem State.takeSlot_channels (s : State) (b t c : Nat) : (s.takeSlot b t c).channels = s.channels := rfl

@[simp] theorem State.bindSlots_channels (s : State) (c leg : Nat) (l : Leg) : (s.bindSlots c leg l).channels = s.channels := by
  unfold State.bindSlots
  refine foldl_channels (fun s k => ?_) _ s
  rfl

@[simp] theorem State.completeOpt_channels (s : State) (r : Option CmdRef) (st : Nat) : (s.completeOpt r st).channels = s.channels := by
  cases r with
  | none => rfl
  | some r => exact State.complete_channels s r st []

@[simp] theorem State.setPower_channels (s : State) (p : Nat) (v : PowerDomain) : (s.setPower p v).channels = s.channels := rfl

@[simp] theorem State.powerNotice_channels (s : State) (p : Nat) (m : PowerMode) (cause : Nat) :
    (s.powerNotice p m cause).channels = s.channels := State.notify_channels _ _ _ _ _ _

@[simp] theorem State.endEntry_channels (s : State) (p : Nat) : (s.endEntry p).channels = s.channels := by
  unfold State.endEntry
  dsimp only
  split <;> simp

@[simp] theorem State.wakeDomain_channels (s : State) (p : Nat) : (s.wakeDomain p).channels = s.channels := by
  unfold State.wakeDomain
  dsimp only
  split <;> simp

@[simp] theorem State.startWakeDomain_channels (s : State) (p : Nat) : (s.startWakeDomain p).channels = s.channels := by
  unfold State.startWakeDomain
  dsimp only
  split <;> simp

/-- A block woken for a channel that comes to it leaves every channel as it is (R497). -/
@[simp] theorem State.wakeFor_channels (s : State) (b : Nat) : (s.wakeFor b).channels = s.channels := by
  unfold State.wakeFor
  split
  · rfl
  · exact foldl_channels State.wakeDomain_channels _ s
  · exact foldl_channels State.startWakeDomain_channels _ s

/-! ## CH_OPEN (R49 to R51) -/

section
variable {x : Ctx} {s v : State} {b t : Nat} (hidle : (s.channel x.id).state = .idle)
  (hb : blockOf x.id (paramNat x.params 0x41 0xFF) = some b) (ht : s.place b x.id = .inl t)
  (hv : v = (s.openAt x.id b t (paramNat x.params 0x40 0 == 1)).channelNotice x.id .idle .opened 0 0)
include hidle hb ht hv

theorem chOpenBody_awake (h : s.blockMode b = .run) : chOpenBody x s = .done stOk [] v := by
  simp only [chOpenBody, hidle, hb, ht, h, hv]

theorem chOpenBody_sleeping (h : s.blockMode b = .sleep) : chOpenBody x s = .done stOk [] (v.wakeBlock b) := by
  simp only [chOpenBody, hidle, hb, ht, h, hv]

theorem chOpenBody_deepSleeping (h : s.blockMode b = .deepSleep) :
    chOpenBody x s = .accepted ((v.modChannel x.id (fun k => { k with wakeRef := some x.ref })).startWake b) := by
  simp only [chOpenBody, hidle, hb, ht, h, hv]

end

/-! ## CH_SET_LEG (R220, R443) -/

/-- Channel `v` with its leg `leg` accepted as `l`, under the settings `t` and with `n` resampler units; a leg of no type keeps no units
for its players (R220). -/
def Channel.withLeg (v : Channel) (leg : Nat) (l : Leg) (t : Tab (List Byte)) (n : Nat) : Channel :=
  let w := (v.setLeg leg l).reserve leg n
  { (if l.kind = .none then (w.reserve (2 + leg) 0).reserve (4 + leg) 0 else w) with accepted := t }

@[simp] theorem Channel.reserve_legA (v : Channel) (k n : Nat) : (v.reserve k n).legA = v.legA := rfl
@[simp] theorem Channel.reserve_legB (v : Channel) (k n : Nat) : (v.reserve k n).legB = v.legB := rfl
@[simp] theorem Channel.reserve_state (v : Channel) (k n : Nat) : (v.reserve k n).state = v.state := rfl

@[simp] theorem Channel.setLeg_state (v : Channel) (leg : Nat) (l : Leg) : (v.setLeg leg l).state = v.state := by
  unfold Channel.setLeg
  split <;> rfl

section
variable (v : Channel) (leg : Nat) (l : Leg) (t : Tab (List Byte)) (n : Nat)

@[simp] theorem Channel.withLeg_legA : (v.withLeg leg l t n).legA = (v.setLeg leg l).legA := by
  unfold Channel.withLeg
  dsimp only
  split <;> simp

@[simp] theorem Channel.withLeg_legB : (v.withLeg leg l t n).legB = (v.setLeg leg l).legB := by
  unfold Channel.withLeg
  dsimp only
  split <;> simp

@[simp] theorem Channel.withLeg_accepted : (v.withLeg leg l t n).accepted = t := rfl

@[simp] theorem Channel.withLeg_state : (v.withLeg leg l t n).state = v.state := by
  unfold Channel.withLeg
  dsimp only
  split <;> simp

end

/-- The settings that stay under a leg accepted as `l`: a new RTP binding drops those of its codecs (R443). -/
def Channel.keptSettings (v : Channel) (leg : Nat) (l : Leg) (fresh : Bool) : Tab (List Byte) :=
  if fresh = true ∧ l.kind = .rtp then dropSettings v.accepted .codec leg else v.accepted

theorem strayParam_eq_none {l : List Param} {k : LegKind} (h : ∀ q ∈ l, q.typ = 0x40 ∨ q.typ = 0x41 ∨ q.typ ∈ legTypes k) :
    strayParam l k = none := by
  refine List.find?_eq_none.mpr fun q hq => ?_
  rcases h q hq with h | h | h <;> simp [h]

section
variable {s : State} {c leg : Nat} {l : Leg} {fresh : Bool} {v : Channel} {t : Tab (List Byte)} {n : Nat} (hv : v = s.channel c)
  (ht : t = v.keptSettings leg l fresh) (hn : n = s.legUnits t v.rate leg l)
  (hadmit : s.admitChange v (chargeOf v.wide t (v.setLeg leg l).legA (v.setLeg leg l).legB) = none)
  (hfit : s.unitsFit v.block (v.reservedAt leg) n = true)
include hv ht hn hadmit hfit

theorem acceptLeg_fits :
    s.acceptLeg c leg l fresh =
      .done stOk [] (((s.setChannel c (v.withLeg leg l t n)).bindSlots c leg l).postCommand c (.bind leg l fresh)) := by
  subst hv hn
  unfold Channel.keptSettings at ht
  unfold State.acceptLeg
  dsimp only
  rw [← ht]
  simp only [hadmit, hfit, not_true_eq_false, if_false]
  rfl

/-- A leg accepted is the only change of the channels. -/
theorem acceptLeg_changes_channel :
    ∃ u, s.acceptLeg c leg l fresh = .done stOk [] u ∧ u.channel c = v.withLeg leg l t n ∧ ∀ k, k ≠ c → u.channel k = s.channel k := by
  have hchannel : ∀ k, (((s.setChannel c (v.withLeg leg l t n)).bindSlots c leg l).postCommand c (.bind leg l fresh)).channel k =
      (s.setChannel c (v.withLeg leg l t n)).channel k := fun k => by simp [State.channel]
  refine ⟨_, acceptLeg_fits hv ht hn hadmit hfit, ?_, fun k hk => ?_⟩
  · rw [hchannel, State.setChannel_channel_same]
  · rw [hchannel, State.setChannel_channel_ne _ _ _ _ hk]

end

/-- A CH_SET_LEG that gives what its type needs, and nothing that the type does not have, has its leg accepted. -/
theorem chSetLegBody_asks {x : Ctx} {s : State} {leg : Nat} {old l : Leg} (hstate : settingsRow (s.channel x.id).state = none)
    (hleg : leg = paramNat x.params 0x40 0) (hold : old = (s.channel x.id).leg leg) (hl : l = s.askedLeg x.params old)
    (hneeds : ∀ k ∈ askedNeeds x.params old l, paramHas x.params k = true)
    (htypes : ∀ q ∈ x.params, q.typ = 0x40 ∨ q.typ = 0x41 ∨ q.typ ∈ legTypes l.kind)
    (hnone : l.kind = .none → leg = 0 → paramHas x.params 0x41 = false) (hrefusal : s.legRefusal x.id leg l = none) :
    chSetLegBody x s = (if drawsSsrc x.params old then s.drawn else s).acceptLeg x.id leg l (freshBinding x.params old) := by
  have hgiven : (askedNeeds x.params old l).find? (fun t => !(paramHas x.params t)) = none :=
    List.find?_eq_none.mpr fun k hk => by simp [hneeds k hk]
  have hunbound : ¬ (l.kind = .none ∧ leg = 0 ∧ paramHas x.params 0x41 = true) := by
    rintro ⟨hk, h0, hp⟩
    rw [hnone hk h0] at hp
    cases hp
  unfold chSetLegBody
  dsimp only
  rw [← hleg, ← hold, ← hl]
  simp only [hstate, hgiven, strayParam_eq_none htypes, hrefusal]
  rw [if_neg hunbound]

/-- A draw for the SSRC changes nothing that admission and the units look at. -/
theorem chSetLegBody_accepts {x : Ctx} {s : State} {leg n : Nat} {l : Leg} {v : Channel} {t : Tab (List Byte)} {draws fresh : Bool}
    (hbody : chSetLegBody x s = (if draws then s.drawn else s).acceptLeg x.id leg l fresh) (hv : v = s.channel x.id)
    (ht : t = v.keptSettings leg l fresh) (hn : n = s.legUnits t v.rate leg l)
    (hadmit : s.admitChange v (chargeOf v.wide t (v.setLeg leg l).legA (v.setLeg leg l).legB) = none)
    (hfit : s.unitsFit v.block (v.reservedAt leg) n = true) :
    ∃ u, chSetLegBody x s = .done stOk [] u ∧ u.channel x.id = v.withLeg leg l t n ∧ ∀ k, k ≠ x.id → u.channel k = s.channel k := by
  rw [hbody]
  cases draws with
  | false => exact acceptLeg_changes_channel hv ht hn hadmit hfit
  | true => exact acceptLeg_changes_channel (s := s.drawn) hv ht hn hadmit hfit

/-! ## CH_ACTIVATE, CH_HOLD, CH_RESUME, CH_DRAIN, CH_CLOSE (Table 2.3) -/

section
variable {x : Ctx} {s : State}

theorem chActivateBody_active (h : (s.channel x.id).state = .active) : chActivateBody x s = .done stNoChange [] s := by
  simp only [chActivateBody, h]

theorem chActivateBody_opened (h : (s.channel x.id).state = .opened) (hbound : (s.channel x.id).legA.bound = true)
    (hkind : (s.channel x.id).legA.kind ≠ .none) (hother : (s.channel x.id).legB.kind = .none ∨ (s.channel x.id).legB.bound = true)
    (hadmit : s.admission (s.channel x.id).block (0, 0) (s.channel x.id).charge = none) :
    chActivateBody x s = .done stOk [] ((s.toState x.id .active 0).postCommand x.id .activate) := by
  simp only [chActivateBody, h, hadmit]
  rw [if_neg]
  rintro (hfree | hnone | ⟨hb, hfree⟩)
  · exact hfree hbound
  · exact hkind hnone
  · exact hother.elim hb hfree

theorem chHoldBody_hold (h : (s.channel x.id).state = .hold) : chHoldBody x s = .done stNoChange [] s := by
  simp only [chHoldBody, h]

theorem chHoldBody_active (h : (s.channel x.id).state = .active) :
    chHoldBody x s = .done stOk [] ((s.toState x.id .hold 0).postCommand x.id .hold) := by
  simp only [chHoldBody, h]

theorem chResumeBody_active (h : (s.channel x.id).state = .active) : chResumeBody x s = .done stNoChange [] s := by
  simp only [chResumeBody, h]

theorem chResumeBody_hold (h : (s.channel x.id).state = .hold) :
    chResumeBody x s = .done stOk [] ((s.toState x.id .active 0).postCommand x.id .resume) := by
  simp only [chResumeBody, h]

theorem chDrainBody_draining (h : (s.channel x.id).state = .draining) : chDrainBody x s = .done stNoChange [] s := by
  simp only [chDrainBody, h]

theorem chDrainBody_opened (h : (s.channel x.id).state = .opened) : chDrainBody x s = .done stOk [] (s.toIdle x.id 0) := by
  simp only [chDrainBody, h]

theorem chDrainBody_runs (h : (s.channel x.id).state = .active ∨ (s.channel x.id).state = .hold) :
    chDrainBody x s = .done stOk [] ((s.toState x.id .draining 0).postCommand x.id .drain) := by
  rcases h with h | h <;> simp only [chDrainBody, h]

theorem chCloseBody_idle (h : (s.channel x.id).state = .idle) : chCloseBody x s = .done stNoChange [] s := by
  simp only [chCloseBody, h]

theorem chCloseBody_open (hi : (s.channel x.id).state ≠ .idle) (hm : (s.channel x.id).state ≠ .migrating) :
    chCloseBody x s = .done stOk [] (s.toIdle x.id 0) := by
  unfold chCloseBody
  dsimp only
  split
  · next h => exact absurd h hm
  · next h => exact absurd h hi
  all_goals rfl

theorem toState_eq {c : Nat} {old new : ChState} (h : (s.channel c).state = old) :
    s.toState c new 0 = (s.modChannel c (fun v => { v with state := new })).channelNotice c old new 0 0 := by
  rw [State.toState, h]

theorem toIdle_eq {c : Nat} {old : ChState} (h : (s.channel c).state = old) :
    s.toIdle c 0 = (s.enterIdle c).channelNotice c old .idle 0 0 := by
  rw [State.toIdle, h]

/-! ## CH_MOVE (R46, R544) -/

section
variable {d : Nat} (hd : d = paramNat x.params 0x40 s.stack.number)
  (hstate : (s.channel x.id).state = .opened ∨ (s.channel x.id).state = .active ∨ (s.channel x.id).state = .hold)
include hd hstate

theorem chMoveBody_here {b t : Nat} (h : d = s.stack.number) (hb : blockOf x.id (paramNat x.params 0x41 0xFF) = some b)
    (ht : s.slotHere b x.id = .inl t) : chMoveBody x s = .accepted s (fun s => s.moveHere x.id b t (some x.ref)) := by
  rcases hstate with hs | hs | hs <;> simp only [chMoveBody, hs, ← hd, if_pos h, hb, ht]

theorem chMoveBody_away (h : d ≠ s.stack.number) (ha : s.awayRefusal x.id d = none) :
    chMoveBody x s = .accepted s (fun s => s.moveAway x.id d (paramNat x.params 0x41 0xFF) (some x.ref)) := by
  rcases hstate with hs | hs | hs <;> simp only [chMoveBody, hs, ← hd, if_neg h, ha]

end

end

/-! ## CH_RECOVER (R47) -/

/-- Channel `v` OPEN again in slot `t` of block `b`: its runs begin anew from the settings and legs accepted last, with the units that it
has reserved. -/
def Channel.recovered (v : Channel) (b t : Nat) : Channel :=
  { v with state := .opened, block := b, slot := some t, runState := .opened, applied := v.accepted, runA := v.legA, runB := v.legB,
           position := 0, media := { reserved := v.media.reserved } }

theorem chRecoverBody_finds {x : Ctx} {s : State} {b t : Nat} (h : (s.channel x.id).state = .faulted)
    (hp : s.recoverPlace x.id = .inl (b, t)) :
    ∃ u, chRecoverBody x s = .accepted u ∧ u.channel x.id = (s.channel x.id).recovered b t := by
  simp only [chRecoverBody, h, hp]
  refine ⟨_, rfl, ?_⟩
  rw [State.channel, State.postCommandTo_channels, State.channelNotice_channels, State.wakeFor_channels, ← State.channel,
    State.setChannel_channel_same]
  rfl

/-- Settles O4: each row runs its command's rules, these answer over the state that the entry names, and the answer becomes the reply. -/
theorem channelStateCommandsComplete : Obligations.ChannelStateCommandsComplete := by
  unfold Obligations.ChannelStateCommandsComplete
  intro p s u c
  refine ⟨?chOpen, ?chSetLeg, ?chActivate, ?chHold, ?chResume, ?chDrain, ?chClose, ?chMove, ?chRecover, ?chSchedSet⟩
  case chOpen =>
    intro b t v h hidle hb ht hv
    exact ⟨fun hm => replies_of_admitted h rfl (chOpenBody_awake hidle hb ht hv hm),
      fun hm => replies_of_admitted h rfl (chOpenBody_sleeping hidle hb ht hv hm),
      fun hm hroom => becomes_of_accepted h rfl hroom (chOpenBody_deepSleeping hidle hb ht hv hm) rfl⟩
  case chSetLeg =>
    intro leg old l t h hstate hleg hold hl hneeds htypes hnone hrefusal ht hadmit hfit
    have hasks := chSetLegBody_asks hstate hleg hold hl hneeds htypes hnone hrefusal
    obtain ⟨v, hbody, hchannel, hothers⟩ := chSetLegBody_accepts hasks rfl ht rfl hadmit hfit
    refine ⟨v, replies_of_admitted h rfl hbody, ?_, ?_, ?_, ?_, hothers⟩
    all_goals simp [hchannel]
  case chActivate =>
    intro h
    refine ⟨fun hs => replies_of_admitted h rfl (chActivateBody_active hs), fun hs hbound hkind hother hadmit => ?_⟩
    rw [← toState_eq hs]
    exact replies_of_admitted h rfl (chActivateBody_opened hs hbound hkind hother hadmit)
  case chHold =>
    intro h
    refine ⟨fun hs => replies_of_admitted h rfl (chHoldBody_hold hs), fun hs => ?_⟩
    rw [← toState_eq hs]
    exact replies_of_admitted h rfl (chHoldBody_active hs)
  case chResume =>
    intro h
    refine ⟨fun hs => replies_of_admitted h rfl (chResumeBody_active hs), fun hs => ?_⟩
    rw [← toState_eq hs]
    exact replies_of_admitted h rfl (chResumeBody_hold hs)
  case chDrain =>
    intro h
    refine ⟨fun hs => replies_of_admitted h rfl (chDrainBody_draining hs), fun hs => ?_, fun hs => ?_⟩
    · rw [← toIdle_eq hs]
      exact replies_of_admitted h rfl (chDrainBody_opened hs)
    · exact replies_of_admitted h rfl (chDrainBody_runs hs)
  case chClose =>
    exact fun h => ⟨fun hs => replies_of_admitted h rfl (chCloseBody_idle hs),
      fun hi hm => replies_of_admitted h rfl (chCloseBody_open hi hm)⟩
  case chMove =>
    intro d h hroom hd hstate
    exact ⟨fun b t hhere hb ht => becomes_of_accepted h rfl hroom (chMoveBody_here hd hstate hhere hb ht) rfl,
      fun haway ha => becomes_of_accepted h rfl hroom (chMoveBody_away hd hstate haway ha) rfl⟩
  case chRecover =>
    intro b t h hroom hs hp
    obtain ⟨v, hbody, hchannel⟩ := chRecoverBody_finds hs hp
    refine ⟨v, becomes_of_accepted h rfl hroom hbody rfl, ?_⟩
    rw [hchannel]
    exact ⟨rfl, rfl, rfl, rfl, rfl, rfl, rfl⟩
  case chSchedSet =>
    rintro l h rfl
    exact replies_of_admitted (body := chSchedSetBody) h rfl rfl

end Sys2Proof.Machine
end

section
/-! The events of a channel: a new SSRC, an event that times out, a cleared context slot, and the timers and declarations of the canceller
(R48, R176, R256 to R260, R263, R280, Table 9.4). -/

namespace Sys2Proof.Machine

/-! ## The rows, each carried out by its step -/

theorem exec_ssrcAdoption (c leg : Nat) (s : State) :
    exec (.ssrcAdoption c leg) s = .next (s.modLeg c leg (fun m => { m with play := adoptSsrc m.play })) := rfl
theorem exec_eventExtendTimeout (c leg : Nat) (s : State) : exec (.eventExtendTimeout c leg) s = .next (extendTimeout c leg s) := rfl
theorem exec_contextCleared (c : Nat) (s : State) : exec (.contextCleared c) s = .next (contextClearedStep c s) := rfl
theorem exec_dtHangEnd (c : Nat) (s : State) : exec (.dtHangEnd c) s = .next (s.modEcho c (fun _ e => endDoubleTalk e)) := rfl
theorem exec_nlpHangEnd (c : Nat) (s : State) : exec (.nlpHangEnd c) s = .next (s.modEcho c (fun _ e => endNlp e)) := rfl
theorem exec_pathChange (c : Nat) (s : State) : exec (.pathChange c) s = .next (pathChangeStep c s) := rfl
theorem exec_divergence (c : Nat) (s : State) : exec (.divergence c) s = .next (divergenceStep c s) := rfl
theorem exec_converged (c : Nat) (s : State) : exec (.converged c) s = .next (convergedStep c s) := rfl
theorem exec_toneDisableEnd (c : Nat) (s : State) : exec (.toneDisableEnd c) s = .next (toneDisableEndStep c s) := rfl

/-! ## SSRC_ADOPTION (R176) -/

theorem setLegMedia_legMedia_other {leg : Nat} (h : leg < 2) (v : Channel) (m : LegMedia) :
    (v.setLegMedia leg m).legMedia (1 - leg) = v.legMedia (1 - leg) := by
  obtain rfl | rfl : leg = 0 ∨ leg = 1 := by omega
  · rfl
  · rfl

@[simp] theorem Channel.setLegMedia_applied (v : Channel) (leg : Nat) (m : LegMedia) : (v.setLegMedia leg m).applied = v.applied := by
  unfold Channel.setLegMedia
  split <;> rfl

theorem State.modLeg_channel_same (s : State) (c leg : Nat) (f : LegMedia → LegMedia) :
    (s.modLeg c leg f).channel c = (s.channel c).setLegMedia leg (f ((s.channel c).legMedia leg)) :=
  State.modChannel_channel_same _ _ _

theorem State.modLeg_channel_ne (s : State) (c leg : Nat) (f : LegMedia → LegMedia) {d : Nat} (h : d ≠ c) :
    (s.modLeg c leg f).channel d = s.channel d := State.modChannel_channel_ne _ _ _ _ h

theorem adoptSsrc_third {p : Play} {x : Nat} {k : Nat} (h : p.candidate = some (x, k)) (hk : 3 ≤ k) :
    adoptSsrc p = { p with ssrc := x, stale := some p.ssrc, candidate := none, adopted := true } := by
  simp only [adoptSsrc, h]
  exact if_neg (by omega)

/-! ## EVENT_EXTEND_TIMEOUT (R280) -/

/-- The first event of a leg that has run EVENT_EXTEND past its last duration. -/
def overdueEvent (v : Channel) (leg : Nat) : Option RxEvent :=
  (v.legMedia leg).play.events.find? (fun e => !e.ended && decide (extendLen v leg ≤ e.extended))

/-- The machine with event `e` of a leg ended. -/
def State.endEvent (s : State) (c leg : Nat) (e : RxEvent) : State :=
  s.modLeg c leg (fun m => { m with play := { m.play with
    events := m.play.events.map (fun z => if z = e then { z with ended := true } else z) } })

section
variable {s : State} {c leg : Nat}

theorem extendTimeout_none (h : overdueEvent (s.channel c) leg = none) : extendTimeout c leg s = s := by
  unfold overdueEvent at h
  simp only [extendTimeout, h]

theorem extendTimeout_unreported {e : RxEvent} (h : overdueEvent (s.channel c) leg = some e) (hr : e.reported = none) :
    extendTimeout c leg s = s.endEvent c leg e := by
  unfold overdueEvent at h
  simp only [extendTimeout, h, hr, State.endEvent]

theorem extendTimeout_reported {e : RxEvent} {id : Nat} (h : overdueEvent (s.channel c) leg = some e) (hr : e.reported = some id) :
    extendTimeout c leg s =
      ((s.endEvent c leg e).toneEvent c leg id 4 (if e.event ≤ 16 then 1 else 6) e.event e.pos e.pos (e.duration / (s.channel c).rate) 2
        noneValue (-(e.volume : Int))).stopEvent c (1 - leg) e.event
          (channelPos (s.channel c) leg (e.pos + (e.duration + e.extended : Nat))) := by
  unfold overdueEvent at h
  simp only [extendTimeout, h, hr, State.endEvent]

end

/-! ## CONTEXT_CLEARED (R48) -/

/-- A thread reads as what it was made, where its change is made. -/
theorem State.modThread_thread_same (s : State) (b t : Nat) (f : Thread → Thread) : (s.modThread b t f).thread b t = f (s.thread b t) := by
  simp [State.modThread, State.thread, blockSetThread, blockThread]

theorem contextClearedStep_channels (c : Nat) (s : State) :
    (contextClearedStep c s).channels = (s.modChannel c (fun v => { v with clearing := false, openWaits := false })).channels := by
  unfold contextClearedStep
  dsimp only
  split <;> rfl

theorem contextClearedStep_channel (c : Nat) (s : State) :
    (contextClearedStep c s).channel c = { s.channel c with clearing := false, openWaits := false } := by
  rw [State.channel, contextClearedStep_channels, ← State.channel, State.modChannel_channel_same]

theorem contextClearedStep_channel_ne (s : State) {c d : Nat} (h : d ≠ c) : (contextClearedStep c s).channel d = s.channel d := by
  rw [State.channel, contextClearedStep_channels, ← State.channel, State.modChannel_channel_ne _ _ _ _ h]

/-- The opening that waited for the clearing is applied: its thread wakes at the next tick. -/
theorem contextClearedStep_wakes {s : State} {c t : Nat} (hw : (s.channel c).openWaits = true) (ht : (s.channel c).slot = some t) :
    ((contextClearedStep c s).thread (s.channel c).block t).wakeTick = true := by
  simp only [contextClearedStep, hw, ht, State.modThread_thread_same]

/-! ## The canceller (R256 to R263, Table 9.4) -/

theorem State.modEcho_echo (s : State) (c : Nat) (f : Channel → Echo → Echo) :
    ((s.modEcho c f).channel c).media.echo = f (s.channel c) (s.channel c).media.echo := by
  simp [State.modEcho]

@[simp] theorem State.echoNotice_at_channel (s : State) (c k d : Nat) : (s.echoNotice c k).channel d = s.channel d := by
  unfold State.echoNotice
  dsimp only
  split <;> rfl

/-- An event of a canceller leaves it as it says; its notices leave it alone. -/
theorem State.echoEvent_echo (s : State) (c : Nat) (declared : Bool) (e : Echo) :
    ((s.echoEvent c declared e).channel c).media.echo = e := by
  have hset : ((s.modChannel c (fun v => { v with media := { v.media with echo := e } })).channel c).media.echo = e := by simp
  unfold State.echoEvent
  dsimp only
  split <;> split <;> simp only [State.echoNotice_at_channel, hset]

theorem endDoubleTalk_expired {e : Echo} (h : e.hang = 0) : endDoubleTalk e = { e with doubleTalk := false } := if_pos h

theorem endNlp_expired {e : Echo} (h : e.nlpHang = 0) : endNlp e = { e with nlp := false } := if_pos h

section
variable {s : State} {c : Nat} {e : Echo} (he : e = (s.channel c).media.echo)
include he

theorem pathChangeStep_echo (h : 500 ≤ e.energyMs) :
    ((pathChangeStep c s).channel c).media.echo =
      countEcho { e with doubleTalk := false, hang := 0, energyMs := 0, convergeRun := 0, state := .converging } .pathChange 1 := by
  subst he
  unfold pathChangeStep
  dsimp only
  rw [if_neg (Nat.not_lt.mpr h), State.echoEvent_echo]

theorem divergenceStep_echo (h : 4 ≤ e.divergeRun) (ha : adapting e.state = true) :
    ((divergenceStep c s).channel c).media.echo =
      countEcho { mapParts (s.channel c) (fun _ p => halvePart p) e with divergeRun := 0, convergeRun := 0, state := .converging }
        .divergence 1 := by
  subst he
  unfold divergenceStep
  dsimp only
  rw [if_neg (not_or.mpr ⟨Nat.not_lt.mpr h, not_not_intro ha⟩), State.echoEvent_echo]

theorem convergedStep_echo (h : e.state = .converging) (hrun : convergeBlocks (s.channel c).wide ≤ e.convergeRun) :
    ((convergedStep c s).channel c).media.echo = { e with state := .converged, convergeRun := 0 } := by
  subst he
  unfold convergedStep
  dsimp only
  rw [if_neg (not_or.mpr ⟨not_not_intro h, Nat.not_lt.mpr hrun⟩), State.echoEvent_echo]

theorem toneDisableEndStep_echo (h : 250 ≤ e.quietMs) :
    ((toneDisableEndStep c s).channel c).media.echo =
      if e.state = .toneDisabled then { e with nlpDisabled := false, state := e.before } else { e with nlpDisabled := false } := by
  subst he
  unfold toneDisableEndStep
  dsimp only
  rw [if_neg (Nat.not_lt.mpr h), State.echoEvent_echo]

end

/-- Settles O36: each row is its step, and the step's lemma for the case says what it makes of the leg, the channel or the canceller. -/
theorem channelEventsComplete : Obligations.ChannelEventsComplete := by
  unfold Obligations.ChannelEventsComplete Safety.Becomes
  refine ⟨?leg, ?canceller⟩
  case leg =>
    intro c leg s hleg
    refine ⟨?ssrc, ?unreported, ?reported, ?noEvent, ?cleared⟩
    case ssrc =>
      intro x k hx hk
      refine ⟨_, exec_ssrcAdoption c leg s, ?_⟩
      rw [State.modLeg_channel_same, adoptSsrc_third hx hk, Channel.setLegMedia_legMedia_same, Channel.setLegMedia_applied,
        setLegMedia_legMedia_other hleg]
      exact ⟨rfl, rfl, rfl, rfl, rfl, rfl, fun d hd => State.modLeg_channel_ne _ _ _ _ hd⟩
    case unreported =>
      intro e h hr
      rw [exec_eventExtendTimeout, extendTimeout_unreported h hr, State.endEvent]
    case reported =>
      rintro e id u h hr rfl
      rw [exec_eventExtendTimeout, extendTimeout_reported h hr, State.endEvent]
    case noEvent => exact fun h => by rw [exec_eventExtendTimeout, extendTimeout_none h]
    case cleared =>
      refine ⟨_, exec_contextCleared c s, ?_⟩
      rw [contextClearedStep_channel]
      exact ⟨rfl, rfl, rfl, fun d hd => contextClearedStep_channel_ne s hd, fun t hw ht => contextClearedStep_wakes hw ht⟩
  case canceller =>
    intro c s
    refine ⟨?doubleTalk, ?nlp, ?pathChange, ?divergence, ?converged, ?toneDisable⟩
    case doubleTalk =>
      exact fun h => ⟨_, exec_dtHangEnd c s, (s.modEcho_echo c _).trans (endDoubleTalk_expired h)⟩
    case nlp => exact fun h => ⟨_, exec_nlpHangEnd c s, (s.modEcho_echo c _).trans (endNlp_expired h)⟩
    case pathChange =>
      intro h
      refine ⟨_, exec_pathChange c s, ?_⟩
      have hecho := pathChangeStep_echo rfl h
      dsimp only
      rw [hecho]
      exact ⟨rfl, rfl, rfl, rfl, rfl⟩
    case divergence =>
      intro h ha
      refine ⟨_, exec_divergence c s, ?_⟩
      have hecho := divergenceStep_echo rfl h ha
      dsimp only
      rw [hecho]
      exact ⟨rfl, rfl, rfl, rfl⟩
    case converged =>
      intro h hrun
      refine ⟨_, exec_converged c s, ?_⟩
      have hecho := convergedStep_echo rfl h hrun
      dsimp only
      rw [hecho]
      exact ⟨rfl, rfl⟩
    case toneDisable =>
      intro h
      refine ⟨_, exec_toneDisableEnd c s, ?_⟩
      have hecho := toneDisableEndStep_echo rfl h
      dsimp only
      rw [hecho]
      split
      · exact ⟨rfl, rfl⟩
      · exact ⟨rfl, rfl⟩

end Sys2Proof.Machine
end

section
/-! The egress of a port: what EGRESS_PARTITION_ACCEPT takes from each source, what FRAME_COMMIT starts, and what the SFD of a frame leaves
(R65, R71, R76, R85, R97, R121, R128, R607). -/

namespace Sys2Proof.Machine

theorem exec_egressPartitionAccept (i : Nat) (src : EgSource) (s : State) :
    exec (.egressPartitionAccept i src) s = .next (egressPartitionAcceptStep i src s) := rfl
theorem exec_frameCommit (i vary : Nat) (s : State) : exec (.frameCommit i vary) s = .next (frameCommitStep i vary s) := rfl
theorem exec_frameSfdTx (i vary : Nat) (s : State) : exec (.frameSfdTx i vary) s = .next (frameSfdTxStep i vary s) := rfl

/-! ## EGRESS_PARTITION_ACCEPT (R65) -/

theorem egressPartitionAcceptStep_stands {i : Nat} {s : State} (src : EgSource) (h : s.senderOf i ≠ some i ∨ s.macRuns i = false) :
    egressPartitionAcceptStep i src s = s := if_pos (by simpa using h)

theorem not_stands_of_sends {i : Nat} {s : State} (hsend : s.senderOf i = some i) (hmac : s.macRuns i = true) :
    ¬ (s.senderOf i ≠ some i ∨ ¬ s.macRuns i = true) := not_or.mpr ⟨not_not_intro hsend, not_not_intro hmac⟩

section
variable {i : Nat} {s u : State} (hsend : s.senderOf i = some i) (hmac : s.macRuns i = true)
  (hu : u = (s.modPort i (fun p => p.settle s.now10)).modPort (s.egressKey i) (fun w => w.withoutOwn i))
include hsend hmac hu

theorem egressPartitionAcceptStep_region_empty {r : Nat} (h : tabGet (u.region r).egress (s.egressKey i) [] = []) :
    egressPartitionAcceptStep i (.region r) s = u := by
  simp only [egressPartitionAcceptStep, ← hu, if_neg (not_stands_of_sends hsend hmac), h]

theorem egressPartitionAcceptStep_region_cons {r : Nat} {f : EgFrame} {l : List EgFrame}
    (h : tabGet (u.region r).egress (s.egressKey i) [] = f :: l) :
    egressPartitionAcceptStep i (.region r) s = if (u.port i).roomFor f then
      (u.modRegion r (fun g => { g with egress := tabSet g.egress (s.egressKey i) l [] })).acceptFrame i f else u := by
  simp only [egressPartitionAcceptStep, ← hu, if_neg (not_stands_of_sends hsend hmac), h]

theorem egressPartitionAcceptStep_damium : egressPartitionAcceptStep i .damium s = u.acceptWaiting i := by
  simp only [egressPartitionAcceptStep, ← hu, if_neg (not_stands_of_sends hsend hmac)]

theorem egressPartitionAcceptStep_ptpEngine (f : List Byte) (ts one : Bool) (id : Nat) :
    egressPartitionAcceptStep i (.ptpEngine f ts one id) s =
      if s.time.hostOwner = true ∨ u.frameLimit i < f.length + 4 ∨ (one = true ∧ ¬ isSync f = true) then u
      else (u.queuePtp i f ts one id).acceptWaiting i := by
  simp only [egressPartitionAcceptStep, ← hu, if_neg (not_stands_of_sends hsend hmac)]

theorem egressPartitionAcceptStep_fylos_none (h : u.nextDatagram i = none) : egressPartitionAcceptStep i .fylos s = u := by
  simp only [egressPartitionAcceptStep, ← hu, if_neg (not_stands_of_sends hsend hmac), h]

theorem egressPartitionAcceptStep_fylos_some {d : Datagram} {l : List Datagram} {f : EgFrame} (h : u.nextDatagram i = some (d, l))
    (hf : f = { media := false, length := datagramLength d, content := .fylos d }) :
    egressPartitionAcceptStep i .fylos s = if (u.port i).roomFor f then
      (State.acceptFrame { u with fylos := { u.fylos with udpOut := l } } i f).fenceLeft d.part.fence else u := by
  simp only [egressPartitionAcceptStep, ← hu, if_neg (not_stands_of_sends hsend hmac), h, ← hf]

end

theorem acceptWaiting_none {i : Nat} {u : State} (h : (u.port i).nextWaiting (u.port (u.egressKey i)) = none) : u.acceptWaiting i = u := by
  simp only [State.acceptWaiting, h]

theorem acceptWaiting_some {i : Nat} {u : State} {f : EgFrame} (h : (u.port i).nextWaiting (u.port (u.egressKey i)) = some f) :
    u.acceptWaiting i = (u.modPort (u.egressKey i) (fun p => { p with waiting := p.waiting.erase f })).acceptFrame i f := by
  simp only [State.acceptWaiting, h]

/-! ## FRAME_COMMIT (R71, R76, R85, R607) -/

section
variable {i vary : Nat} {s u : State} {p : Port} (hu : u = (s.modPort i (fun p => p.settle s.now10)).dropTooLong i) (hp : p = u.port i)
include hu hp

theorem frameCommitStep_stands (h : p.up = false ∨ u.senderOf i ≠ some i ∨ u.macRuns i = false) : frameCommitStep i vary s = u := by
  subst hu hp
  exact if_pos (by simpa using h)

section
variable (hup : p.up = true) (hsend : u.senderOf i = some i) (hmac : u.macRuns i = true)
include hup hsend hmac

theorem frameCommitStep_nothing (h : u.startOf p = .nothing) : frameCommitStep i vary s = u := by
  simp only [frameCommitStep, ← hu, ← hp, if_neg (not_or.mpr ⟨not_not_intro hup, not_stands_of_sends hsend hmac⟩), h]

theorem frameCommitStep_cut (h : u.startOf p = .cut) : frameCommitStep i vary s = u.setPort i (p.requestCut s.now10) := by
  simp only [frameCommitStep, ← hu, ← hp, if_neg (not_or.mpr ⟨not_not_intro hup, not_stands_of_sends hsend hmac⟩), h]

theorem frameCommitStep_media {f : EgFrame} (h : u.startOf p = .media f) :
    frameCommitStep i vary s = (u.setPort i (Port.guardEnds { p with media := p.media.drop 1 })).commitFrame i vary f 0 := by
  simp only [frameCommitStep, ← hu, ← hp, if_neg (not_or.mpr ⟨not_not_intro hup, not_stands_of_sends hsend hmac⟩), h]

theorem frameCommitStep_bulk {f : EgFrame} (h : u.startOf p = .bulk f) :
    frameCommitStep i vary s = (u.setPort i { p with bulk := p.bulk.drop 1 }).commitFrame i vary f 0 := by
  simp only [frameCommitStep, ← hu, ← hp, if_neg (not_or.mpr ⟨not_not_intro hup, not_stands_of_sends hsend hmac⟩), h]

theorem frameCommitStep_rest {r : InFlight} (h : u.startOf p = .rest r) :
    frameCommitStep i vary s = (u.setPort i { p with remainder := none }).commitFrame i vary r.frame r.from_ := by
  simp only [frameCommitStep, ← hu, ← hp, if_neg (not_or.mpr ⟨not_not_intro hup, not_stands_of_sends hsend hmac⟩), h]

end

end

/-! ## FRAME_SFD_TX (R113, R121) -/

section
variable {i : Nat} {s : State} {p : Port} (hp : p = (s.port i).settle s.now10)
include hp

theorem frameSfdTxStep_no_begin (vary : Nat) (h : p.committed = [] ∨ p.flight.isSome = true) :
    frameSfdTxStep i vary s = s.setPort i p := by
  subst hp
  unfold frameSfdTxStep
  dsimp only
  split
  · next f l hc hf => simp [hc, hf] at h
  · rfl

theorem frameSfdTxStep_begins (vary : Nat) {f : InFlight} {l : List InFlight} {q : Port} {u : State} {t : TimeUnit}
    (hc : p.committed = f :: l) (hf : p.flight = none)
    (hq : q = { p with committed := l, flight := some { f with sfdAt := s.now10 } })
    (hu : u = s.setPort i (if f.from_ ≠ 0 then bumpPortCount q .fragmentsTx else q))
    (ht : t = counterAt {} ((s.counter48 : Int) + p.txCorrection vary)) :
    frameSfdTxStep i vary s = if f.frame.tsReq = true ∧ f.from_ = 0 then
      u.record i { kind := .stamp, epoch := s.time.epoch.toNat, frameId := f.frame.frameId, seconds := t.seconds, ns := t.ns,
                   frac := t.frac32 }
    else u := by
  subst hp hq hu ht
  simp only [frameSfdTxStep, hc, hf]

end

/-- Settles O40: each row is its step, and the step's lemma for the source, the start or the frame says what it leaves. -/
theorem egressEventsComplete : Obligations.EgressEventsComplete := by
  unfold Obligations.EgressEventsComplete Safety.Becomes
  intro i vary s
  refine ⟨?stands, ?accept, ?commit, ?sfd⟩
  case stands => exact fun src h => by rw [exec_egressPartitionAccept, egressPartitionAcceptStep_stands src h]
  case accept =>
    rintro k u hsend hmac rfl hu
    simp only [exec_egressPartitionAccept]
    refine ⟨?empty, ?room, ?full, ?noFrame, ?frame, ?ptpStays, ?ptpSends, ?noDatagram, ?datagram⟩
    case empty => exact fun r h => by rw [egressPartitionAcceptStep_region_empty hsend hmac hu h]
    case room => exact fun r f l h hroom => by rw [egressPartitionAcceptStep_region_cons hsend hmac hu h, if_pos hroom]
    case full => exact fun r f l h hfull => by rw [egressPartitionAcceptStep_region_cons hsend hmac hu h, if_neg (by simp [hfull])]
    case noFrame => exact fun h => by rw [egressPartitionAcceptStep_damium hsend hmac hu, acceptWaiting_none h]
    case frame => exact fun f h => by rw [egressPartitionAcceptStep_damium hsend hmac hu, acceptWaiting_some h]
    case ptpStays =>
      exact fun f ts one id h => by rw [egressPartitionAcceptStep_ptpEngine hsend hmac hu, if_pos (by simpa using h)]
    case ptpSends =>
      intro f ts one id howner hlimit hone
      rw [egressPartitionAcceptStep_ptpEngine hsend hmac hu, if_neg]
      rintro (h | h | ⟨h1, h2⟩)
      · simp [howner] at h
      · omega
      · exact h2 (hone h1)
    case noDatagram => exact fun h => by rw [egressPartitionAcceptStep_fylos_none hsend hmac hu h]
    case datagram =>
      rintro d l f w h hf rfl
      rw [egressPartitionAcceptStep_fylos_some hsend hmac hu h hf]
  case commit =>
    intro u p hu hp
    simp only [exec_frameCommit]
    refine ⟨fun h => by rw [frameCommitStep_stands hu hp h], fun hup hsend hmac => ⟨?nothing, ?cut, ?media, ?bulk, ?rest⟩⟩
    case nothing => exact fun h => by rw [frameCommitStep_nothing hu hp hup hsend hmac h]
    case cut => exact fun h => by rw [frameCommitStep_cut hu hp hup hsend hmac h]
    case media => exact fun f q h hq => by rw [frameCommitStep_media hu hp hup hsend hmac h, hq]
    case bulk => exact fun f h => by rw [frameCommitStep_bulk hu hp hup hsend hmac h]
    case rest => exact fun r h => by rw [frameCommitStep_rest hu hp hup hsend hmac h]
  case sfd =>
    intro p hp
    simp only [exec_frameSfdTx]
    exact ⟨fun h => by rw [frameSfdTxStep_no_begin hp vary h],
      fun f l q u t hc hf hq hu ht => by rw [frameSfdTxStep_begins hp vary hc hf hq hu ht]⟩

end Sys2Proof.Machine
end

section
/-! The shutters, pauses and verify exchange of a port: what each event leaves, case by case (R73, R80, R82, R84, R87, R90, R93). -/

namespace Sys2Proof.Machine

theorem exec_shutterInterval (i : Nat) (s : State) : exec (.shutterInterval i) s = .next (shutterIntervalStep i s) := rfl
theorem exec_shutterCycleBoundary (i : Nat) (s : State) :
    exec (.shutterCycleBoundary i) s = .next (shutterCycleBoundaryStep i s) := rfl
theorem exec_guardBandStart (i : Nat) (s : State) : exec (.guardBandStart i) s = .next (guardBandStartStep i s) := rfl
theorem exec_pauseTimerExpiry (i : Nat) (k : Option Nat) (s : State) :
    exec (.pauseTimerExpiry i k) s = .next (pauseTimerExpiryStep i k s) := rfl
theorem exec_verifyResponse (i : Nat) (s : State) : exec (.verifyResponse i) s = .next (verifyResponseStep i s) := rfl
theorem exec_verifyTimeout (i : Nat) (s : State) : exec (.verifyTimeout i) s = .next (verifyTimeoutStep i s) := rfl

/-! ## SHUTTER_CYCLE_BOUNDARY (R80, R82) -/

section
variable {i : Nat} {s : State} {p : Port} (hp : p = (s.port i).settle s.now10)
include hp

theorem shutterCycleBoundaryStep_due {k : PendSchedule} (hk : p.pendingSchedule = some k) (hdue : k.due s.count10 = true) :
    shutterCycleBoundaryStep i s =
      ((s.setPort i { p with schedule := some k.schedule, pendingSchedule := none, stepHold := false }).gateStep i).complete k.ref stOk [] := by
  simp only [shutterCycleBoundaryStep, ← hp, hk, if_pos hdue]

section
variable (hnot : ∀ k, p.pendingSchedule = some k → k.due s.count10 = false)
include hnot

theorem shutterCycleBoundaryStep_unscheduled (hs : p.schedule = none) : shutterCycleBoundaryStep i s = (s.setPort i p).gateStep i := by
  simp only [shutterCycleBoundaryStep, ← hp, hs]
  split
  · next k hk => rw [if_neg (by simp [hnot k hk])]
  · rfl

theorem shutterCycleBoundaryStep_goes_on {c : Schedule} (hs : p.schedule = some c) :
    shutterCycleBoundaryStep i s =
      (s.setPort i (if p.holdFrom ≤ c.lastBoundary s.count10 then { p with stepHold := false } else p)).gateStep i := by
  simp only [shutterCycleBoundaryStep, ← hp, hs]
  split
  · next k hk => rw [if_neg (by simp [hnot k hk])]
  · rfl

end

/-! ## GUARD_BAND_START (R87, R93) -/

theorem guardBandStartStep_no_media (h : p.media = []) : guardBandStartStep i s = s.setPort i p := by
  simp only [guardBandStartStep, ← hp, h]

theorem guardBandStartStep_media {f : EgFrame} {l : List EgFrame} {q : Port} (h : p.media = f :: l) (hq : q = p.asOf f) :
    guardBandStartStep i s = if q.mediaPaused = true ∨ ¬ within (q.opensIn s.count10) (p.guardNs * 100) = true then s.setPort i p
      else s.setPort i { p.requestCut s.now10 with guard := true } := by
  simp only [guardBandStartStep, ← hp, h, ← hq]

end

/-! ## PAUSE_TIMER_EXPIRY (R90) -/

section
variable {i : Nat} {s : State}

theorem pauseTimerExpiryStep_pause_over (h : (s.port i).pauseTimer ≤ s.now10) :
    pauseTimerExpiryStep i none s = s.setPort i { s.port i with pauseTimer := 0 } := by
  simp only [pauseTimerExpiryStep, State.modPort, if_pos h]

theorem pauseTimerExpiryStep_pause_runs (h : s.now10 < (s.port i).pauseTimer) :
    pauseTimerExpiryStep i none s = s.setPort i (s.port i) := by
  simp only [pauseTimerExpiryStep, State.modPort, if_neg (Nat.not_le.mpr h)]

theorem pauseTimerExpiryStep_priority_over {k : Nat} (h : tabGet (s.port i).pfcTimers k 0 ≤ s.now10) :
    pauseTimerExpiryStep i (some k) s = s.setPort i { s.port i with pfcTimers := tabSet (s.port i).pfcTimers k 0 0 } := by
  simp only [pauseTimerExpiryStep, State.modPort, if_pos h]

theorem pauseTimerExpiryStep_priority_runs {k : Nat} (h : s.now10 < tabGet (s.port i).pfcTimers k 0) :
    pauseTimerExpiryStep i (some k) s = s.setPort i (s.port i) := by
  simp only [pauseTimerExpiryStep, State.modPort, if_neg (Nat.not_le.mpr h)]

/-! ## VERIFY_RESPONSE and VERIFY_TIMEOUT (R84) -/

theorem verifyResponseStep_verifying {t : Nat} (h : (s.port i).verifying = some t) :
    verifyResponseStep i s = s.setPort i { s.port i with preemptActive := true, verifying := none } := by
  simp [verifyResponseStep, State.modPort, h]

theorem verifyResponseStep_idle (h : (s.port i).verifying = none) : verifyResponseStep i s = s.setPort i (s.port i) := by
  simp [verifyResponseStep, State.modPort, h]

theorem verifyTimeoutStep_idle (h : (s.port i).verifying = none) : verifyTimeoutStep i s = s.setPort i (s.port i) := by
  simp only [verifyTimeoutStep, State.modPort, h]

section
variable {t : Nat} (h : (s.port i).verifying = some t)
include h

theorem verifyTimeoutStep_waits (hnow : s.time.powered < t + 10000000) : verifyTimeoutStep i s = s.setPort i (s.port i) := by
  simp only [verifyTimeoutStep, State.modPort, h, if_pos hnow]

theorem verifyTimeoutStep_asks_again (hnow : t + 10000000 ≤ s.time.powered) (hleft : (s.port i).verifyAttempts < 3) :
    verifyTimeoutStep i s =
      s.setPort i { s.port i with verifyAttempts := (s.port i).verifyAttempts + 1, verifying := some s.time.powered } := by
  simp only [verifyTimeoutStep, State.modPort, h, if_neg (Nat.not_lt.mpr hnow), if_pos hleft]

theorem verifyTimeoutStep_gives_up (hnow : t + 10000000 ≤ s.time.powered) (hnone : 3 ≤ (s.port i).verifyAttempts) :
    verifyTimeoutStep i s = s.setPort i (bumpPortCount { s.port i with verifying := none } .verifyFailed) := by
  simp only [verifyTimeoutStep, State.modPort, h, if_neg (Nat.not_lt.mpr hnow), if_neg (Nat.not_lt.mpr hnone)]

end

end

/-- A row that puts `q` in port `i` ends in a state whose port `i` is `q` and whose other ports stay. -/
theorem becomes_setPort {c : Instr} {s t : State} {i : Nat} {q : Port} (he : exec c s = .next t) (ht : t = s.setPort i q) :
    ∃ u : State, Safety.Becomes c s u ∧ u.port i = q ∧ ∀ j, j ≠ i → u.port j = s.port j :=
  ⟨t, he, by rw [ht, State.setPort_port_same], fun j hj => by rw [ht, State.setPort_port_ne _ _ _ _ hj]⟩

/-- Settles O41: each row is its step, and the step's lemma for the case says what it leaves of the port. -/
theorem shutterPauseAndVerifyEventsComplete : Obligations.ShutterPauseAndVerifyEventsComplete := by
  unfold Obligations.ShutterPauseAndVerifyEventsComplete
  refine ⟨?shuttersAndPauses, ?verifying, ?idle⟩
  case shuttersAndPauses =>
    intro i s p hp
    refine ⟨exec_shutterInterval i s, ?due, ?running, ?noMedia, ?media, ?pauseOver, ?pauseRuns, ?priorityOver, ?priorityRuns⟩
    case due => exact fun k hk hdue => (exec_shutterCycleBoundary i s).trans (by rw [shutterCycleBoundaryStep_due hp hk hdue])
    case running =>
      exact fun hnot => ⟨fun hs => (exec_shutterCycleBoundary i s).trans (by rw [shutterCycleBoundaryStep_unscheduled hp hnot hs]),
        fun c hs => (exec_shutterCycleBoundary i s).trans (by rw [shutterCycleBoundaryStep_goes_on hp hnot hs])⟩
    case noMedia => exact fun h => (exec_guardBandStart i s).trans (by rw [guardBandStartStep_no_media hp h])
    case media =>
      refine fun f l q h hq => ⟨fun hstays => (exec_guardBandStart i s).trans ?_, fun hpaused hopens => (exec_guardBandStart i s).trans ?_⟩
      · rw [guardBandStartStep_media hp h hq, if_pos (by simpa using hstays)]
      · rw [guardBandStartStep_media hp h hq, if_neg (by simp [hpaused, hopens])]
    case pauseOver =>
      intro h
      obtain ⟨u, hu, hport, hothers⟩ := becomes_setPort (exec_pauseTimerExpiry i none s) (pauseTimerExpiryStep_pause_over h)
      exact ⟨u, hu, by rw [hport], by rw [hport], hothers⟩
    case pauseRuns =>
      intro h
      obtain ⟨u, hu, hport, -⟩ := becomes_setPort (exec_pauseTimerExpiry i none s) (pauseTimerExpiryStep_pause_runs h)
      exact ⟨u, hu, hport⟩
    case priorityOver =>
      intro k h
      obtain ⟨u, hu, hport, -⟩ := becomes_setPort (exec_pauseTimerExpiry i (some k) s) (pauseTimerExpiryStep_priority_over h)
      refine ⟨u, hu, ?_⟩
      rw [hport]
      dsimp only
      exact ⟨tabGet_tabSet_same _ _ _ _, fun j hj => tabGet_tabSet_ne _ _ _ _ _ _ hj, rfl⟩
    case priorityRuns =>
      intro k h
      obtain ⟨u, hu, hport, -⟩ := becomes_setPort (exec_pauseTimerExpiry i (some k) s) (pauseTimerExpiryStep_priority_runs h)
      exact ⟨u, hu, hport⟩
  case verifying =>
    intro i t s h
    refine ⟨?response, ?waits, ?asksAgain, ?givesUp⟩
    case response =>
      obtain ⟨u, hu, hport, -⟩ := becomes_setPort (exec_verifyResponse i s) (verifyResponseStep_verifying h)
      exact ⟨u, hu, by rw [hport], by rw [hport]⟩
    case waits =>
      intro hnow
      obtain ⟨u, hu, hport, -⟩ := becomes_setPort (exec_verifyTimeout i s) (verifyTimeoutStep_waits h hnow)
      exact ⟨u, hu, hport⟩
    case asksAgain =>
      intro hnow hleft
      obtain ⟨u, hu, hport, -⟩ := becomes_setPort (exec_verifyTimeout i s) (verifyTimeoutStep_asks_again h hnow hleft)
      exact ⟨u, hu, by rw [hport], by rw [hport], by rw [hport]⟩
    case givesUp =>
      intro hnow hnone
      obtain ⟨u, hu, hport, -⟩ := becomes_setPort (exec_verifyTimeout i s) (verifyTimeoutStep_gives_up h hnow hnone)
      refine ⟨u, hu, ?_⟩
      rw [hport]
      exact ⟨rfl, rfl, rfl⟩
  case idle =>
    intro i s h
    obtain ⟨u, hu, hresponse, -⟩ := becomes_setPort (exec_verifyResponse i s) (verifyResponseStep_idle h)
    obtain ⟨v, hv, htimeout, -⟩ := becomes_setPort (exec_verifyTimeout i s) (verifyTimeoutStep_idle h)
    exact ⟨⟨u, hu, hresponse⟩, ⟨v, hv, htimeout⟩⟩

end Sys2Proof.Machine
end

section
/-! The links: what a condition lost or regained, a link that goes down or comes up and the revert of a pair leave of a port (R63, R97, R98,
R604). -/

namespace Sys2Proof.Machine

theorem exec_pcsConditionLost (i : Nat) (c : PcsCondition) (s : State) :
    exec (.pcsConditionLost i c) s = .next (pcsConditionLostStep i c s) := rfl
theorem exec_pcsConditionRegained (i : Nat) (c : PcsCondition) (s : State) :
    exec (.pcsConditionRegained i c) s = .next (pcsConditionRegainedStep i c s) := rfl
theorem exec_linkDown (i : Nat) (s : State) : exec (.linkDown i) s = .next (linkDownStep i s) := rfl
theorem exec_linkUp (i : Nat) (s : State) : exec (.linkUp i) s = .next (linkUpStep i s) := rfl
theorem exec_revertHoldExpiry (k : Nat) (s : State) : exec (.revertHoldExpiry k) s = .next (revertHoldExpiryStep k s) := rfl

/-! ## Conditions (R63) -/

section
variable {i : Nat} {s : State} {c : PcsCondition}

theorem pcsConditionLostStep_new (hmode : (s.port i).mode ≠ .disabled) (hnew : (s.port i).failed.any (fun e => e.1 == c) = false)
    (hfec : c = .fecLock → (s.port i).mode.fec = true) :
    pcsConditionLostStep i c s = s.setPort i { s.port i with failed := (s.port i).failed ++ [(c, s.time.powered)] } := by
  refine congrArg (s.setPort i) (if_neg ?_)
  rintro (h | h | ⟨hc, h⟩)
  · exact hmode h
  · simp [hnew] at h
  · exact h (hfec hc)

theorem pcsConditionLostStep_ignored
    (h : (s.port i).mode = .disabled ∨ (s.port i).failed.any (fun e => e.1 == c) = true ∨ (c = .fecLock ∧ (s.port i).mode.fec = false)) :
    pcsConditionLostStep i c s = s.setPort i (s.port i) := congrArg (s.setPort i) (if_pos (by simpa using h))

theorem pcsConditionRegainedStep_failed {l : List (PcsCondition × Nat)} {q : Port}
    (h : (s.port i).failed.any (fun e => e.1 == c) = true) (hl : l = (s.port i).failed.filter (fun e => e.1 != c))
    (hq : q = { s.port i with failed := l, regained := some (latestRegained (s.port i).regained c s.time.powered) }) :
    pcsConditionRegainedStep i c s =
      s.setPort i (if l = [] ∧ (s.port i).up = true then bumpPortCount q .rxPcsInterrupt else q) := by
  subst hl hq
  exact congrArg (s.setPort i) (if_pos h)

theorem pcsConditionRegainedStep_holding (h : (s.port i).failed.any (fun e => e.1 == c) = false) :
    pcsConditionRegainedStep i c s = s.setPort i (s.port i) := congrArg (s.setPort i) (if_neg (by simp [h]))

end

/-! ## LINK_DOWN and LINK_UP (R63) -/

section
variable {i : Nat} {s : State}

theorem linkDownStep_no_failure (h : (s.port i).failed = []) : linkDownStep i s = s := by
  simp only [linkDownStep, h]

theorem linkDownStep_failure {c : PcsCondition} {t : Nat} {l : List (PcsCondition × Nat)} (h : (s.port i).failed = (c, t) :: l) :
    linkDownStep i s = if (s.port i).up = true ∧ t + 100000 ≤ s.time.powered then s.takeDown i c.ctorIdx else s := by
  simp only [linkDownStep, h]

theorem linkDownStep_down (h : (s.port i).up = false) : linkDownStep i s = s := by
  cases hl : (s.port i).failed with
  | nil => exact linkDownStep_no_failure hl
  | cons e l => rw [linkDownStep_failure hl, if_neg (by simp [h])]

theorem linkUpStep_stays (h : (s.port i).regained = none ∨ (s.port i).up = true ∨ (s.port i).mode = .disabled ∨ (s.port i).failed ≠ []) :
    linkUpStep i s = s := by
  unfold linkUpStep
  dsimp only
  split
  · rfl
  · next c t hr =>
    rw [if_pos]
    rcases h with h | h | h | h
    · simp [hr] at h
    · exact .inl h
    · exact .inr (.inl h)
    · exact .inr (.inr (.inl h))

theorem linkUpStep_comes_up {c : PcsCondition} {t : Nat} (hr : (s.port i).regained = some (c, t)) (hup : (s.port i).up = false)
    (hmode : (s.port i).mode ≠ .disabled) (hf : (s.port i).failed = []) (ht : t + 100000 ≤ s.time.powered) :
    linkUpStep i s = ((s.setPort i ({ s.port i with up := true, upSince := s.time.powered }.applyPreempt s.time.powered)).linkNotice i 1
      c.ctorIdx).pairUp i := by
  simp only [linkUpStep, hr]
  rw [if_neg]
  rintro (h | h | h | h)
  · simp [hup] at h
  · exact hmode h
  · exact h hf
  · omega

end

/-! ## REVERT_HOLD_EXPIRY (R98) -/

section
variable {k : Nat} {s : State}

theorem revertHoldExpiryStep_reverts (hjoined : (s.pair k).joined = true) (hrevert : (s.pair k).revert = true)
    (hup : (s.port (2 * k)).up = true) (hactive : (s.pair k).active = some (2 * k + 1))
    (hheld : (s.port (2 * k)).upSince + (s.pair k).revertHold ≤ s.time.powered) :
    revertHoldExpiryStep k s = s.switchPair k (2 * k + 1) (2 * k) 2 := if_pos ⟨hjoined, hrevert, hup, hactive, hheld⟩

theorem revertHoldExpiryStep_stays (h : (s.pair k).joined = false ∨ (s.pair k).revert = false ∨ (s.port (2 * k)).up = false ∨
    (s.pair k).active ≠ some (2 * k + 1) ∨ s.time.powered < (s.port (2 * k)).upSince + (s.pair k).revertHold) :
    revertHoldExpiryStep k s = s := by
  refine if_neg ?_
  rintro ⟨hjoined, hrevert, hup, hactive, hheld⟩
  rcases h with h | h | h | h | h
  · simp [hjoined] at h
  · simp [hrevert] at h
  · simp [hup] at h
  · exact h hactive
  · omega

end

/-! ## The entries of a contact sheet leave the ports as they are (R121 to R125) -/

@[simp] theorem State.watermark_ports (s : State) (i : Nat) : (s.watermark i).ports = s.ports := by
  unfold State.watermark
  dsimp only
  split
  · rfl
  · split
    · split <;> simp [State.setSheet]
    · rfl

@[simp] theorem State.record_ports (s : State) (i : Nat) (e : SheetEntry) : (s.record i e).ports = s.ports := by
  unfold State.record
  dsimp only
  split
  · rfl
  · exact State.watermark_ports _ i

@[simp] theorem State.discardEntry_ports (s : State) (i : Nat) (f : EgFrame) : (s.discardEntry i f).ports = s.ports := by
  unfold State.discardEntry
  split
  · exact State.record_ports s i _
  · rfl

theorem foldl_ports {α : Type} {f : State → α → State} (hf : ∀ s x, (f s x).ports = s.ports) (l : List α) (s : State) :
    (l.foldl f s).ports = s.ports :=
  fold_frame (fun s t => t.ports = s.ports) (fun _ => rfl) (fun _ _ _ h1 h2 => h2.trans h1) f hf l s

/-! ## A link taken down (R604) -/

/-- Whether a committed frame goes back to its partition: it is whole, and its preamble has not begun at `t`. -/
def InFlight.goesBack (t : Nat) (f : InFlight) : Bool := !decide (f.sfdAt ≤ t) && f.from_ == 0

/-- Port `p` once its link is down: the frames of `back` are at the head of their partitions, and every other frame committed, in transmission
or held is aborted. -/
def Port.aborted (p : Port) (back : List InFlight) : Port :=
  { p with
    flight := none, remainder := none, committed := [], up := false, preemptActive := false, verifying := none, verifyAttempts := 0,
    guard := false, media := (back.filter (fun f => f.frame.media)).map (·.frame) ++ p.media,
    bulk := (back.filter (fun f => !f.frame.media)).map (·.frame) ++ p.bulk,
    counts := countAdd p.counts PortCount.txAborted.ctorIdx
      (p.flight.toList.length + p.remainder.toList.length + (p.committed.length - back.length)) }

theorem length_filter_add_not {α : Type} (g : α → Bool) (l : List α) :
    l.length = (l.filter g).length + (l.filter (fun a => !g a)).length := by
  have hcount := List.length_eq_countP_add_countP (p := g) (l := l)
  simp only [List.countP_eq_length_filter, decide_not, Bool.decide_eq_true] at hcount
  exact hcount

/-- The frames begun and the remainders among the others are all that do not go back. -/
theorem length_aborted (t : Nat) (l : List InFlight) :
    (l.filter (fun f => decide (f.sfdAt ≤ t))).length +
      ((l.filter (fun f => !decide (f.sfdAt ≤ t))).filter (fun f => f.from_ != 0)).length = l.length - (l.filter (InFlight.goesBack t)).length := by
  have hbegun := length_filter_add_not (fun f : InFlight => decide (f.sfdAt ≤ t)) l
  have hwhole := length_filter_add_not (fun f : InFlight => f.from_ == 0) (l.filter (fun f => !decide (f.sfdAt ≤ t)))
  have hback : (l.filter (fun f => !decide (f.sfdAt ≤ t))).filter (fun f => f.from_ == 0) = l.filter (InFlight.goesBack t) := by
    rw [List.filter_filter]
    exact List.filter_congr fun f _ => Bool.and_comm _ _
  rw [hback] at hwhole
  have hrest : (fun f : InFlight => f.from_ != 0) = fun f => !(f.from_ == 0) := rfl
  rw [hrest]
  omega

/-- The whole frames of a kind among those not begun are those that go back. -/
theorem filter_goesBack (t : Nat) (l : List InFlight) (g : InFlight → Bool) :
    (l.filter (fun f => !decide (f.sfdAt ≤ t))).filter (fun f => f.from_ == 0 && g f) = (l.filter (InFlight.goesBack t)).filter g := by
  rw [List.filter_filter, List.filter_filter]
  refine List.filter_congr fun f _ => ?_
  rw [Bool.and_right_comm, Bool.and_comm (f.from_ == 0), Bool.and_comm (g f)]
  rfl

theorem State.abortPort_ports {s : State} {i : Nat} {p : Port} (hp : p = (s.port i).settle s.now10) :
    (s.abortPort i).ports =
      (s.setPort i (p.aborted (p.committed.filter (InFlight.goesBack (s.now10 + preambleBytes * p.mode.byteTime))))).ports := by
  unfold State.abortPort
  dsimp only
  rw [foldl_ports (f := fun s (f : InFlight) => s.discardEntry i f.frame) (fun s f => s.discardEntry_ports i f.frame), ← hp]
  congr 2
  unfold Port.takeBack Port.aborted
  simp only [filter_goesBack, List.length_append, ← length_aborted, Nat.add_assoc, beq_true, beq_false]

theorem State.abortPort_port {s : State} {i : Nat} {p : Port} (hp : p = (s.port i).settle s.now10) :
    (s.abortPort i).port i = p.aborted (p.committed.filter (InFlight.goesBack (s.now10 + preambleBytes * p.mode.byteTime))) := by
  rw [State.port, State.abortPort_ports hp, ← State.port, State.setPort_port_same]

theorem State.abortPort_port_ne (s : State) {i j : Nat} (h : j ≠ i) : (s.abortPort i).port j = s.port j := by
  rw [State.port, State.abortPort_ports rfl, ← State.port, State.setPort_port_ne _ _ _ _ h]

/-- Settles O42: each row is its step, and the step's lemma for the case says what it leaves; a link taken down leaves the port aborted. -/
theorem linksComeAndGo : Obligations.LinksComeAndGo := by
  unfold Obligations.LinksComeAndGo Safety.Becomes
  refine ⟨?rows, ?down⟩
  case rows =>
    intro i s
    simp only [exec_pcsConditionLost, exec_pcsConditionRegained, exec_linkDown, exec_linkUp, exec_revertHoldExpiry]
    refine ⟨?lost, ?ignored, ?regained, ?holding, ?goesDown, ?early, ?noFailure, ?alreadyDown, ?comesUp, ?staysDown, ?reverts, ?keeps⟩
    case lost => exact fun c hmode hnew hfec => by rw [pcsConditionLostStep_new hmode hnew hfec]
    case ignored => exact fun c h => by rw [pcsConditionLostStep_ignored h]
    case regained =>
      intro c l h hl
      refine ⟨_, rfl, ?_⟩
      rw [pcsConditionRegainedStep_failed h hl rfl, State.setPort_port_same]
      split
      · exact ⟨rfl, rfl, rfl⟩
      · exact ⟨rfl, rfl, rfl⟩
    case holding => exact fun c h => by rw [pcsConditionRegainedStep_holding h]
    case goesDown => exact fun c t l h hup ht => by rw [linkDownStep_failure h, if_pos ⟨hup, ht⟩]
    case early => exact fun c t l h ht => by rw [linkDownStep_failure h, if_neg (by omega)]
    case noFailure => exact fun h => by rw [linkDownStep_no_failure h]
    case alreadyDown => exact fun h => by rw [linkDownStep_down h]
    case comesUp => exact fun c t hr hup hmode hf ht => by rw [linkUpStep_comes_up hr hup hmode hf ht]
    case staysDown => exact fun h => by rw [linkUpStep_stays h]
    case reverts =>
      exact fun hjoined hrevert hup hactive hheld => by rw [revertHoldExpiryStep_reverts hjoined hrevert hup hactive hheld]
    case keeps => exact fun h => by rw [revertHoldExpiryStep_stays h]
  case down =>
    rintro i lead s t p rfl hp rfl
    rw [State.abortPort_port hp]
    refine ⟨rfl, rfl, rfl, rfl, rfl, rfl, fun j hj => s.abortPort_port_ne hj, ?_⟩
    rintro back rfl
    exact ⟨rfl, rfl, rfl⟩

end Sys2Proof.Machine
end

section
/-! The commands of the ports, the clocks and the power domains: what each command's rules answer where its conditions hold, and that the answer
becomes the reply (R80, R94, R96, R98, R99, R104, R472, R487 to R490, R496, R593). -/

namespace Sys2Proof.Machine

open Sys2Proof.Safety

/-- An admitted command whose own rules are ACCEPTED and completed at once over `t`, and whose source has room, does both (R406, R409). -/
theorem becomes_of_completed {op : Nat} {p : Packet} {s u : State} {c : Ctx} {i : Instr} {body : Body} (h : Admitted op p s u c)
    (he : exec i s = .next (fylosRun op body p s)) (hroom : hasRoom u c) {t : State} (hb : body c u = .completed stOk [] t) :
    Becomes i s (completedOver c t) := by
  have hlt : ¬ 1024 ≤ outstandingOf u c.ref.source := Nat.not_le.mpr hroom
  unfold Becomes
  rw [he, fylosRun_admitted h, hb, giveAnswer_completed, if_neg hlt]
  rfl

section
variable {x : Ctx} {s : State}

/-! ## PORT_CONFIG (R96, R99, R104) -/

theorem portConfigBody_agrees {o q : Port} {m : PortMode} {v w : State} (ho : o = (s.port x.id).settle s.now10)
    (hq : q = portWith x.params o) (hm : m = match paramNat? x.params 1 with | some n => portModeOf n | none => o.mode)
    (hmac : fieldAt ((paramBytes? x.params 2).getD [0]) 0 1 % 2 = 0) (hpfc : q.bulkPfcMask.testBit q.mediaPcp = false)
    (hmode : m = o.mode ∨ m = .disabled ∨ ((s.pair (x.id / 2)).joined = false ∧ (s.powerDomain (56 + x.id)).mode = .run))
    (hv : v = s.setPort x.id (if q.preempt ≠ o.preempt ∧ o.up = true then q.applyPreempt s.time.powered else q))
    (hw : w = if m ≠ o.mode then v.changeMode x.id m else v) :
    portConfigBody x s = .done stOk [] ((w.gateStep x.id).dropTooLong x.id) := by
  have hpair : ¬ (m ≠ o.mode ∧ m ≠ .disabled ∧ (s.pair (x.id / 2)).joined = true) := by
    rintro ⟨hchange, hon, hjoined⟩
    rcases hmode with h | h | ⟨h, -⟩
    · exact hchange h
    · exact hon h
    · simp [h] at hjoined
  have hpower : ¬ (m ≠ o.mode ∧ m ≠ .disabled ∧ (s.powerDomain (56 + x.id)).mode ≠ .run) := by
    rintro ⟨hchange, hon, hasleep⟩
    rcases hmode with h | h | ⟨-, h⟩
    · exact hchange h
    · exact hon h
    · exact hasleep h
  subst hw hv hm hq ho
  exact (if_neg (by omega)).trans ((if_neg (by simp [hpfc])).trans ((if_neg hpair).trans (if_neg hpower)))

/-! ## SHUTTER_LOAD (R80) -/

theorem shutterLoadBody_good {b : List Byte} {g : Schedule} {v : State} (hb : paramBytes? x.params 0x43 = some b)
    (hg : g = { cycle := paramNat x.params 0x40 0, baseSeconds := paramNat x.params 0x41 0, baseNs := paramNat x.params 0x42 0,
                list := listWords 16384 b })
    (hgood : scheduleFault g b.length = none)
    (hv : v = match (s.port x.id).pendingSchedule with
      | some k => (s.bumpPort x.id .shutterReplaced).complete k.ref stShutterReplaced []
      | none => s) :
    shutterLoadBody x s = .accepted (v.modPort x.id (fun q =>
      { q with pendingSchedule := some { schedule := g, ref := x.ref, notBefore := s.count10 } })) := by
  simp only [shutterLoadBody, hb, Option.getD_some, ← hg, hgood]
  subst hv
  rfl

/-! ## PORT_PAIR (R94, R98) -/

section
variable {k : Nat} {o : Pair} (heven : x.id % 2 = 0) (hk : k = x.id / 2) (ho : o = s.pair k)
include heven hk ho

theorem portPairBody_dissolves (hjoin : paramFlag x.params 0x40 false = false) (hjoined : o.joined = true) :
    portPairBody x s = .done stOk [] ((s.setPair k {}).pairNotice k none 5) := by
  subst ho hk
  exact (if_neg (by omega)).trans ((if_pos (by simp [hjoin])).trans (if_pos hjoined))

theorem portPairBody_apart (hjoin : paramFlag x.params 0x40 false = false) (hjoined : o.joined = false) :
    portPairBody x s = .done stNoChange [] s := by
  subst ho hk
  exact (if_neg (by omega)).trans ((if_pos (by simp [hjoin])).trans (if_neg (by simp [hjoined])))

section
variable {q : Pair} (hjoin : paramFlag x.params 0x40 false = true) (hmode : (s.port x.id).mode = (s.port (x.id + 1)).mode)
  (hq : q = { o with joined := true, revert := paramFlag x.params 0x41 o.revert, revertHold := paramNat x.params 0x42 o.revertHold })
include hjoin hmode hq

theorem portPairBody_joined (hjoined : o.joined = true) :
    portPairBody x s = if q = o then .done stNoChange [] s else .done stOk [] (s.setPair k q) := by
  have hodd : ¬ x.id % 2 = 1 := by omega
  simp only [portPairBody, if_neg hodd, ← hk, ← ho, hjoin, ← hq, hmode, hjoined, ne_eq, not_true_eq_false, if_false, if_true]

theorem portPairBody_forms {a : Option Nat} (hjoined : o.joined = false)
    (ha : a = if (s.port x.id).up then some x.id else if (s.port (x.id + 1)).up then some (x.id + 1) else none) :
    portPairBody x s = .done stOk [] ((s.setPair k { q with active := a }).pairNotice k a 0) := by
  have hodd : ¬ x.id % 2 = 1 := by omega
  subst hq
  simp only [portPairBody, if_neg hodd, ← hk, ← ho, hjoin, hmode, hjoined, ← ha, ne_eq, not_true_eq_false, if_false, Bool.false_eq_true]

end

end

/-! ## CLOCK_CONFIG (R472) -/

theorem not_unnamed {k : Clocks} {codes : List Nat} (h : k.frost = true ∨ codes.any (fun c => k.qualified.contains c) = true) :
    ¬ (¬ k.frost = true ∧ ¬ codes.any (fun c => k.qualified.contains c) = true) :=
  fun ⟨hcold, hunlisted⟩ => h.elim hcold hunlisted

section
variable {codes : List Nat} {v : State} (hrep : repeatedParam x.params [] = none) (hcodes : codes = x.params.map (fun q => beNat q.val))
  (hlist : s.clocks.frost = true ∨ codes.any (fun k => s.clocks.qualified.contains k) = true)
  (hv : v = { s with clocks := { s.clocks with order := codes } })
include hrep hcodes hlist hv

theorem clockConfigBody_free (h : s.clocks.ctrl = .start ∨ s.clocks.ctrl = .coast) : clockConfigBody x s = .done stOk [] v := by
  subst hv
  simp only [clockConfigBody, hrep, ← hcodes, if_neg (not_unnamed hlist)]
  rcases h with h | h <;> simp only [h]

theorem clockConfigBody_frost (h : s.clocks.ctrl = .frost) : clockConfigBody x s = .done stOk [] v.acquire := by
  subst hv
  simp only [clockConfigBody, hrep, ← hcodes, if_neg (not_unnamed hlist), h]

theorem clockConfigBody_busy (h : s.clocks.ctrl = .hold ∨ s.clocks.ctrl = .acquire ∨ s.clocks.ctrl = .ramp) :
    clockConfigBody x s = .done stOk [] { v with clocks := { v.clocks with recheck := true } } := by
  subst hv
  simp only [clockConfigBody, hrep, ← hcodes, if_neg (not_unnamed hlist)]
  rcases h with h | h | h <;> simp only [h]

section
variable (h : s.clocks.ctrl = .locked)
include h

theorem clockConfigBody_locked_none (hb : v.clocks.best = none) : clockConfigBody x s = .done stOk [] v := by
  subst hv
  simp only [clockConfigBody, hrep, ← hcodes, if_neg (not_unnamed hlist), hb]
  simp only [h]

theorem clockConfigBody_locked_best {b : Nat} (hb : v.clocks.best = some b) :
    clockConfigBody x s = .done stOk [] (if s.clocks.selected = some b then v else v.beginSwitch b) := by
  subst hv
  simp only [clockConfigBody, hrep, ← hcodes, if_neg (not_unnamed hlist), hb]
  simp only [h]

end

end

/-! ## DOMAIN_GATE (R487) -/

theorem domainGateBody_gates {d m : Nat} (hd : d = paramNat x.params 0x40 0) (hm : m = paramNat x.params 0x41 0) (hgated : ungated d = false)
    (hfree : 48 ≤ d ∨ m.testBit 0 = true ∨ s.holdsChannels (d % 16) = false) :
    domainGateBody x s = .accepted (s.addGate { ref := some x.ref, use := .enables d m, touches := [d] }) State.runGates := by
  subst hd hm
  refine (if_neg (by simp [hgated])).trans (if_neg ?_)
  rintro ⟨hlt, hoff, hholds⟩
  rcases hfree with h | h | h
  · omega
  · simp [h] at hoff
  · simp [h] at hholds

/-! ## CLKOUT_SET and TCLK_OUT_SET (R488, R490, R593) -/

section
variable {d : Option Nat} {n : Nat} (hdomain : paramNat? x.params 0x40 ≠ some 98)
  (hd : d = match paramNat? x.params 0x40 with | some d => some d | none => s.clocks.clkoutDomain)
  (hn : n = paramNat x.params 0x42 s.clocks.clkoutDivide)
include hdomain hd hn

theorem clkoutSetBody_drives {k : Nat} (hk : d = some k) (hdiv : 24 ≤ divisorOf k * n) :
    clkoutSetBody x s = .done stOk [] { s with clocks := { s.clocks with
      clkoutDomain := some k, clkoutDivide := n, clkoutOn := paramFlag x.params 0x43 s.clocks.clkoutOn,
      clkoutSlew := clockSlew 3000000000 (divisorOf k * n) } } := by
  cases hp : paramNat? x.params 0x40 with
  | some j =>
    rw [hp] at hdomain hd
    obtain rfl : j = k := Option.some.inj (hd.symm.trans hk)
    simp only [clkoutSetBody, hp, if_neg hdomain, ← hn, if_neg (Nat.not_lt.mpr hdiv)]
  | none =>
    rw [hp] at hdomain hd
    have hkept : s.clocks.clkoutDomain = some k := hd.symm.trans hk
    simp only [clkoutSetBody, hp, if_neg hdomain, hkept, ← hn, if_neg (Nat.not_lt.mpr hdiv)]

theorem clkoutSetBody_off (hnone : d = none) (hoff : paramFlag x.params 0x43 s.clocks.clkoutOn = false) :
    clkoutSetBody x s = .done stOk [] { s with clocks := { s.clocks with clkoutDivide := n } } := by
  cases hp : paramNat? x.params 0x40 with
  | some j =>
    rw [hp] at hd
    cases hd.symm.trans hnone
  | none =>
    rw [hp] at hdomain hd
    have hkept : s.clocks.clkoutDomain = none := hd.symm.trans hnone
    simp only [clkoutSetBody, hp, if_neg hdomain, hkept, ← hn, hoff, Bool.false_eq_true, if_false]

end

theorem tclkOutSetBody_holds {f : Nat} {on : Bool} {k : Clocks} (hf : f = paramNat x.params 0x40 s.clocks.tclkFreq)
    (hon : on = paramFlag x.params 0x41 s.clocks.tclkOn) (hk : k = { s.clocks with tclkFreq := f, tclkOn := on, tclkSlew := clockSlew f 1 }) :
    tclkOutSetBody x s = .done stOk [] { s with clocks := if f ≠ s.clocks.tclkFreq ∨ (on = true ∧ s.clocks.tclkOn = false) then
      { k with tclkStarted := false, tclkPhase := 0, tclkError := 0, tclkAligns := false } else k } := by
  subst hk
  simp only [tclkOutSetBody, ← hf, ← hon, Bool.not_eq_true]

/-! ## POWER_SET (R489, R496) -/

section
variable {d : Nat} {v : State} (hd : d = paramNat x.params 0x40 0) (hauto : paramHas x.params 0x42 = true → d < 16)
  (hv : v = match paramNat? x.params 0x42 with | some n => s.setPower d { s.powerDomain d with auto := n != 0 } | none => s)
include hd hauto hv

theorem powerSetBody_no_mode (h : paramNat? x.params 0x41 = none) : powerSetBody x s = .completed stOk [] v := by
  have hblock : ¬ (paramHas x.params 0x42 = true ∧ 16 ≤ d) := fun h => absurd (hauto h.1) (Nat.not_lt.mpr h.2)
  simp only [powerSetBody, ← hd, if_neg hblock, h]
  subst hv
  rfl

theorem powerSetBody_mode {n : Nat} {m : PowerMode} (h : paramNat? x.params 0x41 = some n) (hm : m = powerModeOf n)
    (hdepth : s.depthKept d m = true) (hrun : m = .run ∨ s.mustRun d = false) :
    powerSetBody x s =
      if s.plannedMode d = m ∧ (s.powerDomain d).mode = m ∧ (s.powerDomain d).changing = none then .completed stOk [] v
      else .accepted (v.addGate { ref := some x.ref, use := .power [d] m, touches := powerClocks d }) State.runGates := by
  have hblock : ¬ (paramHas x.params 0x42 = true ∧ 16 ≤ d) := fun h => absurd (hauto h.1) (Nat.not_lt.mpr h.2)
  have hallowed : ¬ (¬ s.depthKept d m = true ∨ (m ≠ .run ∧ s.mustRun d = true)) := by
    rintro (h | ⟨hm, hr⟩)
    · exact h hdepth
    · rcases hrun with h | h
      · exact hm h
      · simp [h] at hr
  simp only [powerSetBody, ← hd, if_neg hblock, h, ← hm, if_neg hallowed]
  subst hv
  rfl

end

end

/-- Settles O9: each row runs its command's rules, these answer over the state that the entry names, and the answer becomes the reply. -/
theorem portAndClockCommandsComplete : Obligations.PortAndClockCommandsComplete := by
  unfold Obligations.PortAndClockCommandsComplete
  intro p s u c
  refine ⟨?portConfig, ?shutterLoad, ?portPair, ?clockConfig, ?domainGate, ?clkoutSet, ?tclkOutSet, ?powerSet⟩
  case portConfig =>
    exact fun o q m v w h ho hq hm hmac hpfc hmode hv hw => replies_of_admitted h rfl (portConfigBody_agrees ho hq hm hmac hpfc hmode hv hw)
  case shutterLoad =>
    exact fun b g v h hroom hb hg hgood hv => becomes_of_accepted h rfl hroom (shutterLoadBody_good hb hg hgood hv) rfl
  case portPair =>
    intro k o q h heven hk ho hq
    refine ⟨fun hjoin hjoined => replies_of_admitted h rfl (portPairBody_dissolves heven hk ho hjoin hjoined),
      fun hjoin hjoined => replies_of_admitted h rfl (portPairBody_apart heven hk ho hjoin hjoined), fun hjoin hmode => ⟨?_, ?_, ?_⟩⟩
    · exact fun hjoined hsame =>
        replies_of_admitted h rfl ((portPairBody_joined heven hk ho hjoin hmode hq hjoined).trans (if_pos hsame))
    · exact fun hjoined hnew =>
        replies_of_admitted h rfl ((portPairBody_joined heven hk ho hjoin hmode hq hjoined).trans (if_neg hnew))
    · exact fun a hjoined ha => replies_of_admitted h rfl (portPairBody_forms heven hk ho hjoin hmode hq hjoined ha)
  case clockConfig =>
    intro codes v h hrep hcodes hlist hv
    refine ⟨fun hc => replies_of_admitted h rfl (clockConfigBody_free hrep hcodes hlist hv hc),
      fun hc => replies_of_admitted h rfl (clockConfigBody_frost hrep hcodes hlist hv hc),
      fun hc => replies_of_admitted h rfl (clockConfigBody_busy hrep hcodes hlist hv hc), fun hc => ?_⟩
    cases hb : v.clocks.best with
    | some b => exact replies_of_admitted h rfl (clockConfigBody_locked_best hrep hcodes hlist hv hc hb)
    | none => exact replies_of_admitted h rfl (clockConfigBody_locked_none hrep hcodes hlist hv hc hb)
  case domainGate =>
    exact fun d m h hroom hd hm hgated hfree => becomes_of_accepted h rfl hroom (domainGateBody_gates hd hm hgated hfree) rfl
  case clkoutSet =>
    exact fun d n h hdomain hd hn => ⟨fun k hk hdiv => replies_of_admitted h rfl (clkoutSetBody_drives hdomain hd hn hk hdiv),
      fun hnone hoff => replies_of_admitted h rfl (clkoutSetBody_off hdomain hd hn hnone hoff)⟩
  case tclkOutSet => exact fun f on k h hf hon hk => replies_of_admitted h rfl (tclkOutSetBody_holds hf hon hk)
  case powerSet =>
    intro d v h hroom hd hauto hv
    refine ⟨fun hmode => becomes_of_completed h rfl hroom (powerSetBody_no_mode hd hauto hv hmode), fun n m hmode hm hdepth hrun => ?_⟩
    have hbody := powerSetBody_mode hd hauto hv hmode hm hdepth hrun
    split
    · next hsame => exact becomes_of_completed h rfl hroom (hbody.trans (if_pos hsame))
    · next hchange => exact becomes_of_accepted h rfl hroom (hbody.trans (if_neg hchange)) rfl

end Sys2Proof.Machine
end

section
/-! The PI computation and the steps of the time unit: the bounds of the servo's two results, and what a step leaves (R120, R129, R133). -/

namespace Sys2Proof.Machine

/-! ## The PI computation (R129; its products wrap and its sums are exact before the clamp: log entry 89) -/

theorem clampFreq_le (v : Int) : clampFreq v ≤ freqMax := by unfold clampFreq freqMax; omega

theorem neg_freqMax_le_clampFreq (v : Int) : -freqMax ≤ clampFreq v := Int.le_max_left _ _

/-- A result that is not reported as clamped is what the sums give. -/
theorem piStep_unclamped {kp ki : Nat} {log2 integ x : Int} {r : Int × Int × Bool} (hr : r = piStep kp ki log2 integ x) (h : r.2.2 = false) :
    r.1 = integ + wrap64 ((ki * ((x * 2 ^ 16).tdiv (sampleNs log2))) / 2 ^ 16) ∧
      r.2.1 = -(wrap64 ((kp * ((x * 2 ^ 16).tdiv (sampleNs log2))) / 2 ^ 16) + r.1) := by
  subst hr
  obtain ⟨hinteg, hcorr⟩ := not_or.mp (of_decide_eq_false h)
  exact ⟨Decidable.not_not.mp hinteg, Decidable.not_not.mp hcorr⟩

/-! ## What the parts of a step change -/

/-- `unlocked` leaves LOCKED, and changes nothing but the state and the lock count. -/
theorem unlocked_frame (t : TimeUnit) : ∃ x n, x ≠ .locked ∧ unlocked t = { t with state := x, lockRun := n } := by
  unfold unlocked
  split
  · exact ⟨.set, 0, nofun, rfl⟩
  · next h => exact ⟨t.state, t.lockRun, h, rfl⟩

/-- `becomeSet` does not lock, and changes nothing but the state and the lock count. -/
theorem becomeSet_frame {t : TimeUnit} (h : t.state ≠ .locked) :
    ∃ x n, x ≠ .locked ∧ becomeSet t = { t with state := x, lockRun := n } := by
  unfold becomeSet
  split
  · exact ⟨.set, 0, nofun, rfl⟩
  · exact ⟨t.state, t.lockRun, h, rfl⟩

/-- `State.timeIrq` changes nothing but board. -/
theorem State.timeIrq_frame (s : State) : ∃ b, s.timeIrq = { s with board := b } := by
  unfold State.timeIrq
  split
  · exact State.signal_frame s 10
  · exact ⟨s.board, rfl⟩

/-- `State.shiftTclk` changes nothing but clocks. -/
theorem State.shiftTclk_frame (s : State) (a : Int) : ∃ k, s.shiftTclk a = { s with clocks := k } := by
  unfold State.shiftTclk
  split
  · exact ⟨_, rfl⟩
  · exact ⟨s.clocks, rfl⟩

/-- `State.driftTclk` changes nothing but clocks. -/
theorem State.driftTclk_frame (s : State) (a : Int) : ∃ k, s.driftTclk a = { s with clocks := k } := by
  unfold State.driftTclk
  split
  · exact ⟨_, rfl⟩
  · exact ⟨s.clocks, rfl⟩

@[simp] theorem State.timeIrq_time (s : State) : s.timeIrq.time = s.time := by
  obtain ⟨_, h⟩ := s.timeIrq_frame
  rw [h]
@[simp] theorem State.timeIrq_channels (s : State) : s.timeIrq.channels = s.channels := by
  obtain ⟨_, h⟩ := s.timeIrq_frame
  rw [h]
@[simp] theorem State.timeIrq_blocks (s : State) : s.timeIrq.blocks = s.blocks := by
  obtain ⟨_, h⟩ := s.timeIrq_frame
  rw [h]
@[simp] theorem State.timeIrq_stack (s : State) : s.timeIrq.stack = s.stack := by
  obtain ⟨_, h⟩ := s.timeIrq_frame
  rw [h]
@[simp] theorem State.shiftGroups_time (s : State) (a : Int) : (s.shiftGroups a).time = s.time := rfl
@[simp] theorem State.shiftGroups_channels (s : State) (a : Int) : (s.shiftGroups a).channels = s.channels := rfl
@[simp] theorem State.shiftGroups_blocks (s : State) (a : Int) : (s.shiftGroups a).blocks = s.blocks := rfl
@[simp] theorem State.shiftGroups_stack (s : State) (a : Int) : (s.shiftGroups a).stack = s.stack := rfl
@[simp] theorem State.shiftTclk_time (s : State) (a : Int) : (s.shiftTclk a).time = s.time := by
  obtain ⟨_, h⟩ := s.shiftTclk_frame a
  rw [h]
@[simp] theorem State.shiftTclk_channels (s : State) (a : Int) : (s.shiftTclk a).channels = s.channels := by
  obtain ⟨_, h⟩ := s.shiftTclk_frame a
  rw [h]
@[simp] theorem State.shiftTclk_blocks (s : State) (a : Int) : (s.shiftTclk a).blocks = s.blocks := by
  obtain ⟨_, h⟩ := s.shiftTclk_frame a
  rw [h]
@[simp] theorem State.shiftTclk_stack (s : State) (a : Int) : (s.shiftTclk a).stack = s.stack := by
  obtain ⟨_, h⟩ := s.shiftTclk_frame a
  rw [h]
@[simp] theorem State.driftTclk_time (s : State) (a : Int) : (s.driftTclk a).time = s.time := by
  obtain ⟨_, h⟩ := s.driftTclk_frame a
  rw [h]
@[simp] theorem State.driftTclk_channels (s : State) (a : Int) : (s.driftTclk a).channels = s.channels := by
  obtain ⟨_, h⟩ := s.driftTclk_frame a
  rw [h]

theorem State.relayStep_not_stacked {s : State} (h : s.stacked = false) (amount : Int) (epoch : Nat) :
    s.relayStep amount epoch = s := if_neg (by simp [h])

/-! ## A step (R120, R133) -/

/-- The time unit of `s` with its counter and epoch put on by step `k`. -/
def State.steppedTime (s : State) (k : StepKind) : TimeUnit :=
  { counterAt s.time (s.counter48 + s.stepAmount k) with
    epoch := stepEpoch s.time.epoch k, lastAccepted := 0, stepped := true, lastStep := some (s.now10, s.stepAmount k, s.time.epoch) }

/-- The state after a step: LOCKED is left, and a sample's step or a TIME_SET leaves UNSET too. -/
def stepState (k : StepKind) (t : TimeUnit) : TimeUnit :=
  match k with | .sample _ | .set _ _ _ => becomeSet (unlocked t) | .command _ | .relayed _ _ => unlocked t

/-- `stepState` leaves LOCKED, and changes nothing but the state and the lock count. -/
theorem stepState_frame (k : StepKind) (t : TimeUnit) : ∃ x n, x ≠ .locked ∧ stepState k t = { t with state := x, lockRun := n } := by
  obtain ⟨x, n, hx, hu⟩ := unlocked_frame t
  obtain ⟨y, m, hy, hb⟩ := becomeSet_frame (t := { t with state := x, lockRun := n }) hx
  cases k with
  | sample | set => exact ⟨y, m, hy, (congrArg becomeSet hu).trans hb⟩
  | command | relayed => exact ⟨x, n, hx, hu⟩

/-- `s` with its counter put on by step `k`, the step counted, and every port told of it. -/
def State.moved (s : State) (k : StepKind) : State :=
  let s1 := { s with time := stepState k (s.steppedTime k) }
  let s2 := s1.bumpTime (if s.stepAmount k < 0 then TimeCount.stepsBackward.ctorIdx else TimeCount.stepsForward.ctorIdx)
  { s2 with ports := s2.ports.map (fun e => (e.1, stepPort (((s1.counter48 * 100 / oneNs : Nat) : Int)) e.2)) }

theorem State.applyStep_eq (s : State) (k : StepKind) :
    s.applyStep k = (((((s.moved k).shiftGroups (s.stepAmount k)).shiftTclk (s.stepAmount k)).timeIrq).notify .time 0x0F0B 0 0
      [beInt 8 (s.stepAmount k / 2 ^ 16), beBytes 2 (stepState k (s.steppedTime k)).epoch.toNat, beBytes 1 (stepSource k)]).relayStep
        (s.stepAmount k / 2 ^ 16) (stepState k (s.steppedTime k)).epoch.toNat := rfl

section
variable {s : State} (hs : s.stacked = false) (k : StepKind)
include hs

/-- Outside a stack, a step ends in its notice. -/
theorem State.applyStep_not_stacked :
    ∃ l, s.applyStep k =
      (((s.moved k).shiftGroups (s.stepAmount k)).shiftTclk (s.stepAmount k)).timeIrq.notify .time 0x0F0B 0 0 l := by
  refine ⟨_, (s.applyStep_eq k).trans (State.relayStep_not_stacked ?_ _ _)⟩
  rw [State.stacked, State.notify_stack, State.timeIrq_stack, State.shiftTclk_stack, State.shiftGroups_stack]
  exact hs

theorem State.applyStep_time : (s.applyStep k).time = (s.moved k).time := by
  obtain ⟨l, h⟩ := State.applyStep_not_stacked hs k
  rw [h, State.notify_time, State.timeIrq_time, State.shiftTclk_time, State.shiftGroups_time]

theorem State.applyStep_channels : (s.applyStep k).channels = s.channels := by
  obtain ⟨l, h⟩ := State.applyStep_not_stacked hs k
  rw [h, State.notify_channels, State.timeIrq_channels, State.shiftTclk_channels, State.shiftGroups_channels]
  rfl

theorem State.applyStep_blocks : (s.applyStep k).blocks = s.blocks := by
  obtain ⟨l, h⟩ := State.applyStep_not_stacked hs k
  rw [h, State.notify_blocks, State.timeIrq_blocks, State.shiftTclk_blocks, State.shiftGroups_blocks]
  rfl

end

/-- The time unit after a step is `stepState` of the stepped one, but for its counts. -/
theorem State.moved_time (s : State) (k : StepKind) : ∃ c, (s.moved k).time = { stepState k (s.steppedTime k) with counts := c } := ⟨_, rfl⟩

/-- Settles O44: the results of the computation are clamped sums, and a step leaves the stepped time unit in a state other than LOCKED. -/
theorem servoAndSteps : Obligations.ServoAndSteps := by
  unfold Obligations.ServoAndSteps
  refine ⟨?servo, ?step⟩
  case servo =>
    exact fun kp ki log2 integ x => ⟨clampFreq_le _, neg_freqMax_le_clampFreq _, neg_freqMax_le_clampFreq _, clampFreq_le _,
      fun h => (piStep_unclamped rfl h).2, fun h => (piStep_unclamped rfl h).1⟩
  case step =>
    intro k s hs
    obtain ⟨c, htime⟩ := s.moved_time k
    obtain ⟨x, n, hx, hstate⟩ := stepState_frame k (s.steppedTime k)
    dsimp only
    rw [State.applyStep_time hs, State.applyStep_channels hs, State.applyStep_blocks hs, htime, hstate]
    exact ⟨rfl, rfl, hx, rfl, rfl, rfl, rfl, rfl, rfl, rfl, rfl⟩

end Sys2Proof.Machine
end

section
/-! What becomes of an offset sample, and the events of the time unit: the end of a quarantine or slew, a pending step and an edge of PPS_IN
(R117, R120, R128, R131, R132, R134, R137, R538, R594). -/

namespace Sys2Proof.Machine

/-! ## classify (R132) -/

section
variable {s : State} {x thr : Int} (hthr : thr = q32 s.time.stepThreshold)
include hthr

theorem State.classify_below (h : x < -thr) : s.classify x = s.stepDue (.sample (-x)) := by
  subst hthr
  exact if_pos h

theorem State.classify_between (hlow : -thr ≤ x) (hhigh : x ≤ thr) (hten : x ≤ q32 10000000) : s.classify x = s.pi x := by
  subst hthr
  exact (if_neg (by omega)).trans ((if_neg (by omega)).trans (if_neg (by omega)))

theorem State.classify_above (hlow : -thr ≤ x) (hhigh : thr < x) (hten : x ≤ q32 10000000) : s.classify x = s.startSlew x := by
  subst hthr
  exact (if_neg (by omega)).trans (if_pos ⟨hhigh, hten⟩)

theorem State.classify_far_above (hlow : -thr ≤ x) (hten : q32 10000000 < x) :
    s.classify x = if s.time.backwardStep then s.stepDue (.sample (-x)) else s.startSlew x := by
  subst hthr
  exact (if_neg (by omega)).trans ((if_neg (by omega)).trans (if_pos hten))

end

/-! ## A sample in RUN (R131, R132, R137; a discarded one counts toward the lock: log entry 36) -/

section
variable {s u : State} {x : Int} {b e : Bool} (hu : u = { s with time := lockStep s.time x })
include hu

theorem State.runSample_slewing (h : s.time.slew ≠ none) : s.runSample x b e = u.bumpTime TimeCount.samplesDiscarded.ctorIdx := by
  subst hu
  obtain ⟨v, hv⟩ := Option.ne_none_iff_exists'.mp h
  simp only [State.runSample, hv]

section
variable {far : Bool} (hfar : far = decide (q32 s.time.suspectThreshold < (x - s.time.lastAccepted).natAbs)) (hslew : s.time.slew = none)
include hfar hslew

theorem State.runSample_quarantined {q : Quarantine} (hq : s.time.quarantine = some q) :
    s.runSample x b e =
      if far then { u with time := { u.time with quarantine := some { q with latest := x } } } else (u.endQuarantine 0).classify x := by
  subst hu hfar
  simp only [State.runSample, hslew, hq]

theorem State.runSample_open (hq : s.time.quarantine = none) :
    s.runSample x b e =
      if s.time.state = .locked ∧ 0 < s.time.quarantineLimit ∧ far = true ∧ ¬ b = true ∧ ¬ e = true then s.beginQuarantine x
      else u.classify x := by
  subst hu hfar
  simp only [State.runSample, hslew, hq]

end

end

/-! ## A sample handled (R128, R131, R538) -/

theorem State.sample_eq {s u : State} {x : Int} {b : Bool}
    (hu : u = { s with time := { s.time with clockEvent := false, lastSample := some s.time.powered } }) :
    s.sample x b = if s.time.mode = .run then u.runSample x b s.time.clockEvent else u.bumpTime TimeCount.samplesDiscarded.ctorIdx := by
  subst hu
  cases h : s.time.mode <;> simp only [State.sample, h] <;> rfl

section
variable {s : State} {x : Int} {b : Bool}

theorem offsetSampleStep_ignored (h : s.time.hostOwner = true ∨ s.isFollower = true) : offsetSampleStep x b s = s := if_pos h

theorem offsetSampleStep_owned (howner : s.time.hostOwner = false) (hroot : s.isFollower = false) :
    offsetSampleStep x b s = s.ownerSample x b := if_neg (by simp [howner, hroot])

theorem State.ownerSample_settled (h : s.stack.holdUntil = false) : s.ownerSample x b = s.sample x b := if_neg (by simp [h])

theorem State.ownerSample_held (h : s.stack.holdUntil = true) {u : State}
    (hu : u = { s with stack := { s.stack with holdUntil := false }, time := { s.time with mode := .run } }) :
    s.ownerSample x b = u.sample x b := by
  subst hu
  exact if_pos h

end

/-! ## QUARANTINE_END, SLEW_END and STEP_APPLY (R120, R134, R137; pending steps one at a time: log entry 38) -/

section
variable {s : State}

theorem quarantineEndStep_none (h : s.time.quarantine = none) : quarantineEndStep s = s := by
  simp only [quarantineEndStep, h]

theorem quarantineEndStep_some {q : Quarantine} (h : s.time.quarantine = some q) :
    quarantineEndStep s = if s.time.powered < q.since + s.time.quarantineLimit then s else (s.endQuarantine 1).classify q.latest := by
  simp only [quarantineEndStep, h]

/-- A slew that is dropped is cleared from the time unit; the counter and the channels stay. -/
theorem State.dropSlew_slewing {left : Nat} (h : s.time.slew = some left) :
    s.dropSlew.time = { s.time with slew := none, slewOf := 0 } ∧ s.dropSlew.channels = s.channels := by
  simp only [State.dropSlew, h, State.driftTclk_time, State.driftTclk_channels, State.shiftGroups_time, State.shiftGroups_channels, and_self]

theorem slewEndStep_over (h : s.time.slew = some 0) :
    (slewEndStep s).time = { s.time with slew := none, slewOf := 0, lastAccepted := 0 } ∧ (slewEndStep s).channels = s.channels := by
  obtain ⟨htime, hchannels⟩ := State.dropSlew_slewing h
  have hstep : slewEndStep s = { s.dropSlew with time := { s.dropSlew.time with lastAccepted := 0 } } := if_pos h
  rw [hstep, htime]
  exact ⟨rfl, hchannels⟩

theorem slewEndStep_not_over (h : s.time.slew ≠ some 0) : slewEndStep s = s := if_neg h

theorem stepApplyStep_pending {k : StepKind} {r : List StepKind} (h : s.time.steps = k :: r) :
    stepApplyStep s = if s.holdsCommitment then s else ({ s with time := { s.time with steps := r } } : State).applyStep k := by
  simp only [stepApplyStep, h]

theorem stepApplyStep_waits (h : s.time.steps = [] ∨ s.holdsCommitment = true) : stepApplyStep s = s := by
  cases hsteps : s.time.steps with
  | nil => simp only [stepApplyStep, hsteps]
  | cons k r => rw [stepApplyStep_pending hsteps, if_pos (by simpa [hsteps] using h)]

/-! ## PPS_EDGE (R117, R594; the cycles of the filter: log entry 81) -/

theorem ppsEdgeStep_short {high : Nat} (h : high < if s.clocks.frost then 25 else 50) : ppsEdgeStep high s = s := if_pos h

theorem ppsEdgeStep_lasting {high : Nat} (h : (if s.clocks.frost then 25 else 50) ≤ high) {t : TimeUnit} {n : BitVec 32} {p : PpsEdge}
    {u : State}
    (ht : t = counterAt {} (s.counterAgo 10000).1) (hn : n = s.time.pps.count + 1)
    (hp : p = { seconds := t.seconds, ns := t.ns, epoch := (s.counterAgo 10000).2, count := n })
    (hu : u = { s with time := { s.time with pps := p } }) :
    ppsEdgeStep high s = if s.time.hostOwner then u.signal 9 else u := by
  subst hu hp hn ht
  exact if_neg (Nat.not_lt.mpr h)

end

/-! ## The rows, each carried out by its step -/

theorem exec_offsetSample (x : Int) (b : Bool) (s : State) : exec (.offsetSample x b) s = .next (offsetSampleStep x b s) := rfl
theorem exec_quarantineEnd (s : State) : exec .quarantineEnd s = .next (quarantineEndStep s) := rfl
theorem exec_slewEnd (s : State) : exec .slewEnd s = .next (slewEndStep s) := rfl
theorem exec_stepApply (s : State) : exec .stepApply s = .next (stepApplyStep s) := rfl
theorem exec_ppsEdge (high : Nat) (s : State) : exec (.ppsEdge high) s = .next (ppsEdgeStep high s) := rfl

/-- Settles O43: a sample is handled by the case that the time unit and the thresholds give, and each row is its step, whose lemma for the case
says what it does. -/
theorem timeEventsAndSamples : Obligations.TimeEventsAndSamples := by
  unfold Obligations.TimeEventsAndSamples Safety.Becomes
  refine ⟨?samples, ?events⟩
  case samples =>
    rintro x thr s u t rfl hthr hu
    refine ⟨State.classify_below hthr, State.classify_between hthr, State.classify_above hthr, State.classify_far_above hthr,
      fun b e hslew => State.runSample_slewing hu hslew, fun far hfar hslew => ⟨?latest, ?withdrawn, ?begins, ?accepted⟩⟩
    case latest => exact fun q b e hq h => (State.runSample_quarantined hu hfar hslew hq).trans (if_pos h)
    case withdrawn => exact fun q b e hq h => (State.runSample_quarantined hu hfar hslew hq).trans (if_neg (by simp [h]))
    case begins => exact fun hq hstate hlimit h => (State.runSample_open hu hfar hslew hq).trans (if_pos ⟨hstate, hlimit, h, nofun, nofun⟩)
    case accepted =>
      intro b e hq h
      refine (State.runSample_open hu hfar hslew hq).trans (if_neg ?_)
      rintro ⟨hstate, hlimit, hfar, hmaster, hevent⟩
      rcases h with h | h | h | h | h
      · exact h hstate
      · omega
      · simp [h] at hfar
      · exact hmaster h
      · exact hevent h
  case events =>
    intro s
    simp only [exec_offsetSample, exec_quarantineEnd, exec_slewEnd, exec_stepApply, exec_ppsEdge]
    refine ⟨?ignored, ?settled, ?held, ?sample, ?accepted, ?lasts, ?none, ?slewOver, ?slewRuns, ?applied, ?waits, ?short, ?edge⟩
    case ignored => exact fun x b h => by rw [offsetSampleStep_ignored h]
    case settled => exact fun x b howner hroot h => by rw [offsetSampleStep_owned howner hroot, State.ownerSample_settled h]
    case held => exact fun x b u howner hroot h hu => by rw [offsetSampleStep_owned howner hroot, State.ownerSample_held h hu]
    case sample => exact fun x b u hu => State.sample_eq hu
    case accepted => exact fun q hq h => by rw [quarantineEndStep_some hq, if_neg (Nat.not_lt.mpr h)]
    case lasts => exact fun q hq h => by rw [quarantineEndStep_some hq, if_pos h]
    case none => exact fun h => by rw [quarantineEndStep_none h]
    case slewOver =>
      intro h
      obtain ⟨htime, hchannels⟩ := slewEndStep_over h
      refine ⟨_, rfl, ?_⟩
      rw [htime]
      exact ⟨rfl, rfl, rfl, rfl, hchannels⟩
    case slewRuns => exact fun h => by rw [slewEndStep_not_over h]
    case applied => exact fun k r hsteps h => by rw [stepApplyStep_pending hsteps, if_neg (by simp [h])]
    case waits => exact fun h => by rw [stepApplyStep_waits h]
    case short => exact fun high h => by rw [ppsEdgeStep_short h]
    case edge => exact fun high t n u p h ht hn hp hu => by rw [ppsEdgeStep_lasting h ht hn hp hu]

end Sys2Proof.Machine
end

section
/-! The commands of the TDM groups and highways and of the time unit: what each command's rules answer where its conditions hold, and that the
answer becomes the reply (R118, R128, R131, R132, R302, R305, R308, R312, R537). -/

namespace Sys2Proof.Machine

open Sys2Proof.Safety

section
variable {x : Ctx} {s : State}

/-! ## Groups and highways (R302, R305, R308, R312; the notice of a change of settings: log entry 15) -/

theorem tdmGroupConfigBody_sets {g : TdmGroup} (hg : g = s.carryM (s.group x.id) (groupWith x.params (s.group x.id)))
    (hpower : g.master = true → (s.group x.id).master = true ∨ (s.powerDomain 62).mode = .run) :
    tdmGroupConfigBody x s = .done stOk [] (if reframes (s.group x.id) g then
      (s.setGroup x.id (reframe g)).groupNotice x.id .search .config else s.setGroup x.id (shiftGrid (s.group x.id) g)) := by
  subst hg
  refine (if_neg ?_).trans (apply_ite (Answer.done stOk []) _ _ _).symm
  rintro ⟨hmaster, hslave, hasleep⟩
  exact (hpower hmaster).elim hslave hasleep

theorem tdmHighwayConfigBody_sets {h : Highway} {m : HwMode} (hh : h = s.highway x.id)
    (hm : m = match paramNat? x.params 1 with | some n => hwModeOf n | none => h.mode)
    (hmode : m = h.mode ∨ (s.highwayBound x.id = false ∧ (m = .disabled ∨ (s.powerDomain 62).mode = .run))) :
    tdmHighwayConfigBody x s = .done stOk [] (s.setHighway x.id
      { h with mode := m, bitOffset := paramNat x.params 2 h.bitOffset,
               unusedIdle := match paramNat? x.params 3 with | some n => n == 0 | none => h.unusedIdle,
               idleCode := BitVec.ofNat 8 (paramNat x.params 4 h.idleCode.toNat) }) := by
  have hbound : ¬ (m ≠ h.mode ∧ s.highwayBound x.id = true) := by
    rintro ⟨hchange, hbound⟩
    rcases hmode with hsame | ⟨hfree, -⟩
    · exact hchange hsame
    · simp [hfree] at hbound
  have hpower : ¬ (m ≠ h.mode ∧ m ≠ .disabled ∧ (s.powerDomain 62).mode ≠ .run) := by
    rintro ⟨hchange, hon, hasleep⟩
    rcases hmode with hsame | ⟨-, hoff | hawake⟩
    · exact hchange hsame
    · exact hon hoff
    · exact hasleep hawake
  subst hm hh
  exact (if_neg hbound).trans (if_neg hpower)

theorem tdmLoopbackBody_highway (hslot : paramNat? x.params 0x41 = none) :
    tdmLoopbackBody x s =
      .done stOk [] (s.setHighway x.id { s.highway x.id with loop := loopModeOf (paramNat x.params 0x40 0) }) := by
  simp only [tdmLoopbackBody, hslot]

theorem tdmLoopbackBody_slot {n : Nat} (hslot : paramNat? x.params 0x41 = some n) (hn : (s.highway x.id).beyond n = false) :
    tdmLoopbackBody x s = .done stOk []
      (s.setTdmSlot (slotKey x.id n) { s.tdmSlot (slotKey x.id n) with loop := loopModeOf (paramNat x.params 0x40 0) }) := by
  simp only [tdmLoopbackBody, hslot, hn, Bool.false_eq_true, if_false]

/-! ## The commands of the time root (R128, R131, R135, R537) -/

theorem rootOnly_root (h : s.isFollower = false) (b : Body) : rootOnly b x s = b x s := if_neg (by simp [h])

section
variable (hroot : s.isFollower = false)
include hroot

theorem timeConfigBody_keeps
    (h : paramNat? x.params 1 = none ∨ ∃ k, paramNat? x.params 1 = some k ∧ s.time.hostOwner = (k == 1)) :
    timeConfigBody x s = .done stOk [] s := by
  refine (rootOnly_root hroot _).trans ?_
  rcases h with h | ⟨k, hk, howner⟩
  · simp only [h]
  · simp only [hk, if_pos howner]

theorem timeConfigBody_changes {k : Nat} {v : State} (hk : paramNat? x.params 1 = some k) (howner : s.time.hostOwner ≠ (k == 1))
    (hv : v = [0, 1, 2, 3].foldl (fun t i => t.flushSheet i) s) :
    timeConfigBody x s = .done stOk [] (State.servoMode { v with time := { v.time with hostOwner := k == 1 } } .hold) := by
  refine (rootOnly_root hroot _).trans ?_
  simp only [hk, if_neg howner, ← hv]

theorem timeSetBody_steps : timeSetBody x s = .done stOk [] (s.commandStep
    (.set (paramNat x.params 0x40 0) (paramNat x.params 0x41 0) (paramNat x.params 0x42 0))) := rootOnly_root hroot _

theorem timeStepBody_amount {a : Int} (ha : paramInt? x.params 0x40 = some a) :
    timeStepBody x s = if a = 0 then .done stNoChange [] s else .done stOk [] (s.commandStep (.command a)) := by
  refine (rootOnly_root hroot _).trans ?_
  simp only [ha, Option.getD_some]

theorem servoSampleBody_sample (howner : s.time.hostOwner = true) :
    servoSampleBody x s = .done stOk [] (s.ownerSample ((paramInt? x.params 0x40).getD 0) (paramFlag x.params 0x41 false)) :=
  (rootOnly_root hroot _).trans (if_neg (by simp [howner]))

end

/-! ## SERVO_CONFIG (R132, R537) -/

/-- The time unit with the settings that a SERVO_CONFIG of parameters `l` gives, MODE apart. -/
def servoSettings (l : List Param) (t : TimeUnit) : TimeUnit :=
  { t with
    kp := paramNat l 2 t.kp, ki := paramNat l 3 t.ki, sampleLog2 := (paramInt? l 4).getD t.sampleLog2,
    manualFreq := (paramInt? l 5).getD t.manualFreq, lockCount := paramNat l 6 t.lockCount,
    stepThreshold := paramNat l 7 t.stepThreshold, slewRate := paramNat l 8 t.slewRate,
    backwardStep := paramFlag l 9 t.backwardStep, suspectThreshold := paramNat l 10 t.suspectThreshold,
    quarantineLimit := paramNat l 11 t.quarantineLimit }

section
variable {v : State} (hmember : s.isFollower = true → paramNat? x.params 1 = none ∧ paramNat? x.params 11 = none)
  (hv : v = { s with time := servoSettings x.params s.time })
include hmember

theorem not_servoConfig_of_member :
    ¬ (s.isFollower = true ∧ ((paramNat? x.params 1).isSome = true ∨ (paramNat? x.params 11).isSome = true)) := by
  rintro ⟨hf, h⟩
  obtain ⟨hmode, hlimit⟩ := hmember hf
  simp [hmode, hlimit] at h

include hv

theorem servoConfigBody_no_mode (hmode : paramNat? x.params 1 = none) :
    servoConfigBody x s = .done stOk [] { v with time := followManual v.time } := by
  subst hv
  refine (if_neg (not_servoConfig_of_member hmember)).trans ?_
  simp only [hmode]
  rfl

theorem servoConfigBody_mode {k : Nat} {w : State} (hmode : paramNat? x.params 1 = some k)
    (hw : w = State.servoMode { v with stack := { v.stack with holdUntil := false } } (if k = 0 then .off else if k = 1 then .run else .hold)) :
    servoConfigBody x s = .done stOk [] { w with time := followManual w.time } := by
  subst hw hv
  refine (if_neg (not_servoConfig_of_member hmember)).trans ?_
  simp only [hmode]
  rfl

end

/-! ## PTP_SEND (R118, R128) -/

theorem ptpSendBody_queues {f : List Byte} (hf : paramBytes? x.params 0x40 = some f) (hfits : f.length + 4 ≤ s.frameLimit x.id)
    (howner : s.time.hostOwner = true) (hsync : paramFlag x.params 0x42 false = true → isSync f = true) :
    ptpSendBody x s = .done stOk [] (s.queuePtp x.id f (paramFlag x.params 0x41 false) (paramFlag x.params 0x42 false)
      (paramNat x.params 0x43 0)) := by
  have hone : ¬ (paramFlag x.params 0x42 false = true ∧ ¬ isSync f = true) := fun ⟨hone, hother⟩ => hother (hsync hone)
  simp only [ptpSendBody, hf, Option.getD_some, if_neg (Nat.not_lt.mpr hfits), howner, not_true_eq_false, if_false, if_neg hone]

end

/-- Settles O8: each row runs its command's rules, these answer over the state that the entry names, and the answer becomes the reply. -/
theorem tdmAndTimeCommandsComplete : Obligations.TdmAndTimeCommandsComplete := by
  unfold Obligations.TdmAndTimeCommandsComplete
  intro p s u c
  refine ⟨?group, ?highway, ?loopback, ?timeConfig, ?timeSet, ?timeStep, ?servoConfig, ?servoSample, ?portTs, ?ptpSend⟩
  case group => exact fun g h hg hpower => replies_of_admitted h rfl (tdmGroupConfigBody_sets hg hpower)
  case highway => exact fun v m h hv hm hmode => replies_of_admitted h rfl (tdmHighwayConfigBody_sets hv hm hmode)
  case loopback =>
    rintro m h rfl
    exact ⟨fun hslot => replies_of_admitted h rfl (tdmLoopbackBody_highway hslot),
      fun n hslot hn => replies_of_admitted h rfl (tdmLoopbackBody_slot hslot hn)⟩
  case timeConfig =>
    exact fun h hroot => ⟨fun hkeeps => replies_of_admitted h rfl (timeConfigBody_keeps hroot hkeeps),
      fun k v hk howner hv => replies_of_admitted h rfl (timeConfigBody_changes hroot hk howner hv)⟩
  case timeSet => exact fun h hroot => replies_of_admitted h rfl (timeSetBody_steps hroot)
  case timeStep =>
    exact fun a h hroot ha => ⟨fun hstep => replies_of_admitted h rfl ((timeStepBody_amount hroot ha).trans (if_neg hstep)),
      fun hzero => replies_of_admitted h rfl ((timeStepBody_amount hroot ha).trans (if_pos hzero))⟩
  case servoConfig =>
    exact fun v h hmember hv => ⟨fun hmode => replies_of_admitted h rfl (servoConfigBody_no_mode hmember hv hmode),
      fun k w hmode hw => replies_of_admitted h rfl (servoConfigBody_mode hmember hv hmode hw)⟩
  case servoSample => exact fun h hroot howner => replies_of_admitted h rfl (servoSampleBody_sample hroot howner)
  case portTs => exact fun h => replies_of_admitted (body := portTsConfigBody) h rfl rfl
  case ptpSend => exact fun f h hf hfits howner hsync => replies_of_admitted h rfl (ptpSendBody_queues hf hfits howner hsync)

end Sys2Proof.Machine
end

section
/-! The commands of the flow table, the SRTP contexts, the templates and the packet engine: what each command's rules answer where its conditions
hold, and that the answer becomes the reply (R142 to R144, R154, R163, R168, R446, R540). -/

namespace Sys2Proof.Machine

open Sys2Proof.Safety

theorem paramNat_of_some {l : List Param} {t n : Nat} (h : paramNat? l t = some n) (d : Nat) : paramNat l t d = n := by
  rw [paramNat, h, Option.getD_some]

section
variable {x : Ctx} {s : State}

/-! ## Flow changes (R142 to R144, R540) -/

section
variable {e : FlowChange}

theorem State.flowCommand_alone (halone : s.stacked = false) (hgood : s.flowRefusal e = none) (hplace : (applyChange s.flows e).2 = true) :
    s.flowCommand x e = .done stOk [] { s with flows := (applyChange s.flows e).1 } := by
  simp only [State.flowCommand, halone, hgood, hplace, Bool.false_eq_true, if_false, if_true]

theorem State.flowCommand_stacked (hstack : s.stacked = true) {v : State}
    (hv : v = { s with stack := { s.stack with changes := s.stack.changes ++ [(some x.ref, e)] } }) :
    s.flowCommand x e = .accepted (if s.isFollower then v.sendMessage s.stackRoot 0x11 (changeContent e) else v) := by
  subst hv
  exact if_pos hstack

/-- A flow command whose rules are those of the change `e`: applied and answered by a device alone, accepted in a stack, where a follower sends
the change to the sequencer. -/
theorem flowCommand_completes {op : Nat} {p : Packet} {s u : State} {c : Ctx} {i : Instr} {body : Body} (h : Admitted op p s u c)
    (he : exec i s = .next (fylosRun op body p s)) (hb : body c u = u.flowCommand c e) :
    (u.stacked = false → u.flowRefusal e = none → (applyChange u.flows e).2 = true →
      Replies i s c stOk [] { u with flows := (applyChange u.flows e).1 }) ∧
    (u.stacked = true → hasRoom u c → ∀ v, v = { u with stack := { u.stack with changes := u.stack.changes ++ [(some c.ref, e)] } } →
      (u.isFollower = false → Becomes i s (acceptedOver c v)) ∧
      (u.isFollower = true → Becomes i s (acceptedOver c (v.sendMessage u.stackRoot 0x11 (changeContent e))))) := by
  refine ⟨fun halone hgood hplace => replies_of_admitted h he (hb.trans (State.flowCommand_alone halone hgood hplace)), ?_⟩
  intro hstack hroom v hv
  have haccepted := hb.trans (State.flowCommand_stacked hstack hv)
  constructor
  · intro hroot
    rw [hroot] at haccepted
    exact becomes_of_accepted h he hroom haccepted rfl
  · intro hmember
    rw [hmember] at haccepted
    exact becomes_of_accepted h he hroom haccepted rfl

end

/-! ## SRTP contexts (R152, R154, R446) -/

section
variable {i : Nat} (hi : paramNat? x.params 0x40 = some i)
include hi

theorem srtpSetBody_sets {old : Option SrtpCtx} {k d : SrtpCtx} (hold : old = tabFind? s.flows.contexts i)
    (hk : k = contextWith x.params (old.getD newContext)) (hnew : old = none → ∀ t ∈ [1, 2, 3], paramHas x.params t = true)
    (hfault : s.contextFault i old k = none)
    (hd : d = if old.isNone = true ∨ paramFlag x.params 10 false = true then contextFresh x.params k else k) :
    srtpSetBody x s = .done stOk [] { s with flows := { s.flows with contexts := tabPut s.flows.contexts i d } } := by
  have hgiven : (if old.isNone then [1, 2, 3].find? (fun t => !paramHas x.params t) else none) = none := by
    refine ite_eq_right_iff.mpr fun hnone => List.find?_eq_none.mpr fun t ht => ?_
    simp [hnew (Option.isNone_iff_eq_none.mp hnone) t ht]
  simp only [srtpSetBody, paramNat_of_some hi, ← hold, hgiven, ← hk, hfault, ← hd]

theorem srtpClearBody_clears (hheld : (tabFind? s.flows.contexts i).isSome = true) (hfree : s.contextInUse i = false) :
    srtpClearBody x s = .done stOk [] { s with flows := { s.flows with contexts := tabDrop s.flows.contexts i } } := by
  have hsome : (tabFind? s.flows.contexts i).isNone = false := by rw [← Option.not_isSome, hheld]; rfl
  simp only [srtpClearBody, paramNat_of_some hi, hsome, hfree, Bool.false_eq_true, if_false]

/-! ## Templates (R163) -/

theorem templateLoadBody_holds {b : List Byte} {k : Template} (hb : paramBytes? x.params 0x43 = some b)
    (hparses : templateParses (paramNat x.params 0x41 0) b = true)
    (hcsum : paramFlag x.params 0x42 true = true ∨ templateIpv6 b = false)
    (hplace : tabHas s.flows.templates i = true ∨ s.flows.templates.length < 4096)
    (hk : k = { kind := paramNat x.params 0x41 0, udpCsum := paramFlag x.params 0x42 true, bytes := b }) :
    templateLoadBody x s = .done stOk [] { s with flows := { s.flows with templates := tabPut s.flows.templates i k } } := by
  have hsum : ¬ (¬ paramFlag x.params 0x42 true = true ∧ templateIpv6 b = true) := by
    rintro ⟨hoff, hsix⟩
    rcases hcsum with hon | hfour
    · exact hoff hon
    · simp [hsix] at hfour
  have hfull : ¬ (¬ tabHas s.flows.templates i = true ∧ 4096 ≤ s.flows.templates.length) := by
    rintro ⟨hnew, hmany⟩
    exact hplace.elim hnew (Nat.not_lt.mpr hmany)
  subst hk
  simp only [templateLoadBody, paramNat_of_some hi, hb, Option.getD_some, hparses, not_true_eq_false, if_false, if_neg hsum, if_neg hfull]

theorem templateRemoveBody_removes (hheld : tabHas s.flows.templates i = true)
    (hfree : s.egressRecords.any (fun l => l.template == i) = false) :
    templateRemoveBody x s = .done stOk [] { s with flows := { s.flows with templates := tabDrop s.flows.templates i } } := by
  simp only [templateRemoveBody, paramNat_of_some hi, hheld, hfree, not_true_eq_false, Bool.false_eq_true, if_false]

end

/-! ## PE_CONFIG (R168) -/

theorem peConfigBody_sets {q : Nat} (hq : q = paramNat x.params 0x43 s.flows.udpPort)
    (hfree : q = s.flows.udpPort ∨ (flowAll s.flows).any (fun e => keyPort e.key == q) = false) :
    peConfigBody x s = .done stOk [] { s with flows := { s.flows with
      hostMiss := (match paramNat? x.params 0x40 with | some v => v == 1 | none => s.flows.hostMiss),
      hostRate := paramNat x.params 0x41 s.flows.hostRate, holdLimit := paramNat x.params 0x42 s.flows.holdLimit, udpPort := q } } := by
  subst hq
  refine if_neg ?_
  rintro ⟨hchange, htaken⟩
  rcases hfree with hsame | hfree
  · exact hchange hsame
  · exact Bool.false_ne_true (hfree.symm.trans htaken)

end

/-- Settles O5: each row runs its command's rules, these answer over the state that the entry names, and the answer becomes the reply. -/
theorem flowAndPacketCommandsComplete : Obligations.FlowAndPacketCommandsComplete := by
  unfold Obligations.FlowAndPacketCommandsComplete
  intro p s u c
  refine ⟨?flow, ?srtpSet, ?srtpClear, ?templateLoad, ?templateRemove, ?peConfig⟩
  case flow =>
    rintro i op e (⟨rfl, rfl, rfl⟩ | ⟨rfl, rfl, rfl⟩ | ⟨rfl, rfl, rfl⟩) h
    · exact flowCommand_completes (body := flowInsertBody) h rfl rfl
    · exact flowCommand_completes (body := flowRemoveBody) h rfl rfl
    · exact flowCommand_completes (body := flowModifyBody) h rfl rfl
  case srtpSet =>
    exact fun i old k d h hi hold hk hnew hfault hd => replies_of_admitted h rfl (srtpSetBody_sets hi hold hk hnew hfault hd)
  case srtpClear => exact fun i h hi hheld hfree => replies_of_admitted h rfl (srtpClearBody_clears hi hheld hfree)
  case templateLoad =>
    exact fun i b k h hi hb hparses hcsum hplace hk => replies_of_admitted h rfl (templateLoadBody_holds hi hb hparses hcsum hplace hk)
  case templateRemove => exact fun i h hi hheld hfree => replies_of_admitted h rfl (templateRemoveBody_removes hi hheld hfree)
  case peConfig => exact fun q h hq hfree => replies_of_admitted h rfl (peConfigBody_sets hq hfree)

end Sys2Proof.Machine
end

section
/-! The packets of the packet engine and of other members: where a matched datagram goes, what a held packet and a descriptor become, and what
each message of a member does (R145, R146, R161, R162, R164, R166, R411, R539). -/

namespace Sys2Proof.Machine

theorem exec_heldPacketPost (b : Nat) (s : State) : exec (.heldPacketPost b) s = .next (heldPacketPostStep b s) := rfl
theorem exec_peDescriptor (r : Nat) (s : State) : exec (.peDescriptor r) s = .next (peDescriptorStep r s) := rfl
theorem exec_forwardedPacket (d : Nat) (q : StackPacket) (s : State) :
    exec (.forwardedPacket d q) s = .next (forwardedPacketStep d q s) := rfl
theorem exec_forwardedFylos (d : Nat) (m : StackFylos) (s : State) : exec (.forwardedFylos d m) s = .next (forwardedFylosStep d m s) := rfl

/-! ## A matched datagram (R145, R146) -/

section
variable {a : Arrival} {s u : State} {f : Flows}
  (hf : f = flowCount (flowCount s.flows a.flow.id .rxPackets 1) a.flow.id .rxBytes (a.frame.length + 4)) (hu : u = { s with flows := f })
include hf hu

theorem State.matched_own (h : a.flow.device = s.stack.number) : s.matched a = u.takeDatagram a := by
  subst hu hf
  exact if_pos h

theorem State.matched_member (h : a.flow.device ≠ s.stack.number) :
    s.matched a = if u.canReach a.flow.device then (u.bumpStack .forwardedPackets).sendMessage a.flow.device 0x01 (arrivalContent a)
      else u.bumpStack .unreachableDiscard := by
  subst hu hf
  exact if_neg h

end

/-! ## HELD_PACKET_POST (R161, R162) -/

section
variable {b : Nat} {s : State} {k : Block} (hk : k = s.block b)
include hk

theorem heldPacketPostStep_empty (h : k.packetHold = []) : heldPacketPostStep b s = s := by
  simp only [heldPacketPostStep, ← hk, h]

theorem heldPacketPostStep_cons {a : Arrival} {r : List Arrival} (h : k.packetHold = a :: r) :
    heldPacketPostStep b s = if canPost k a.payload.length then
      (s.setBlock b { k with packetHold := r }).cryptoPacket a (rxKindOf (flowActionOf a.flow.action) a.payload) else s := by
  simp only [heldPacketPostStep, ← hk, h]

end

/-! ## PE_DESCRIPTOR (R164, R166) -/

section
variable {r : Nat} {s u : State} {e d : Descriptor} {l : List Descriptor} (hl : (s.region r).descriptors = e :: l) (hd : d = plainUdptl e)
  (hu : u = s.setRegion r { s.region r with descriptors := l })
include hl hd hu

theorem peDescriptorStep_no_template (h : tabFind? s.flows.templates d.record.template = none) : peDescriptorStep r s = u := by
  simp only [peDescriptorStep, hl, ← hd, ← hu, h]

section
variable {t : Template} {n : Nat} (ht : tabFind? s.flows.templates d.record.template = some t) (hn : udpEnd t.bytes = some n)
include ht hn

omit hu in
theorem peDescriptorStep_stands (hclock : s.clockRuns (52 + r) = false) : peDescriptorStep r s = s := by
  simp only [peDescriptorStep, hl, ← hd, ht, hn, hclock, Bool.false_eq_true, not_false_eq_true, if_true]

theorem peDescriptorStep_own {k : Nat} (hclock : s.clockRuns (52 + r) = true) (hdev : egressDevice d.record.egress = s.stack.number)
    (hk : k = s.egressKey (egressPort d.record.egress)) :
    peDescriptorStep r s = if egressRoom < (s.region r).queued k + s.frameLength d t n then s else u.assemble r k d t n := by
  simp only [peDescriptorStep, hl, ← hd, ← hu, ht, hn, hclock, hdev, ← hk, not_true_eq_false, if_false, if_true, true_and]

theorem peDescriptorStep_member (hclock : s.clockRuns (52 + r) = true) (hdev : egressDevice d.record.egress ≠ s.stack.number) :
    peDescriptorStep r s = u.assemble r (egressPort d.record.egress) d t n := by
  simp only [peDescriptorStep, hl, ← hd, ← hu, ht, hn, hclock, hdev, not_true_eq_false, if_false, false_and]

end

end

/-! ## FORWARDED_PACKET (R146, R166, R539) -/

section
variable (dev : Nat) (f : FlowSettings) (port : Nat) {frame : List Byte} (stamp : Stamp) (s : State)

theorem forwardedPacketStep_datagram {n : Nat} (h : udpOffset frame = some n) :
    forwardedPacketStep dev (.flow f port frame stamp) s = (s.takeMessage dev 0x01).takeDatagram (arrivalOf f port frame n stamp) := by
  simp only [forwardedPacketStep, h]

theorem forwardedPacketStep_no_datagram (h : udpOffset frame = none) :
    forwardedPacketStep dev (.flow f port frame stamp) s = s.takeMessage dev 0x01 := by
  simp only [forwardedPacketStep, h]

end

/-! ## FORWARDED_FYLOS (R411) -/

section
variable {u w : State} {k : Nat} {r : CmdRef} (st : Nat) (l : List Tlv)

theorem State.relayReply_unknown (h : ({ device := k, ref := r } : Forwarded) ∉ u.stack.forwarded) : u.relayReply k r st l = u :=
  if_pos (by simpa using h)

theorem State.relayReply_known {e : Forwarded} (he : e = { device := k, ref := r }) (h : e ∈ u.stack.forwarded)
    (hw : w = { u with
      stack := { u.stack with forwarded := u.stack.forwarded.erase e },
      fylos := { u.fylos with outstanding := if st = stAccepted then u.fylos.outstanding ++ [r] else u.fylos.outstanding } }) :
    u.relayReply k r st l = w.relay .reply k r st l := by
  subst hw he
  refine (if_neg (by simpa using h)).trans ?_
  by_cases hst : st = stAccepted
  · simp only [if_pos hst]
  · simp only [if_neg hst]

theorem State.relayCompletion_unknown (h : r ∉ u.fylos.outstanding) : u.relayCompletion k r st l = u := if_pos (by simpa using h)

theorem State.relayCompletion_known (h : r ∈ u.fylos.outstanding)
    (hw : w = { u with fylos := { u.fylos with outstanding := u.fylos.outstanding.erase r } }) :
    u.relayCompletion k r st l =
      if w.deliverable r.source then w.relay .completion k r st l else w.bumpFylos .droppedCompletions := by
  subst hw
  exact if_neg (by simpa using h)

end

/-- Settles O39: a matched datagram goes where its entry says; each row is its step, and the step's lemma for the packet says what it leaves. -/
theorem packetsReachTheirDevice : Obligations.PacketsReachTheirDevice := by
  unfold Obligations.PacketsReachTheirDevice Safety.Becomes
  refine ⟨?matched, ?held, ?descriptor, ?forwarded⟩
  case matched =>
    intro a s u f hf hu
    exact ⟨State.matched_own hf hu, fun h hreach => (State.matched_member hf hu h).trans (if_pos hreach),
      fun h hlost => (State.matched_member hf hu h).trans (if_neg (by simp [hlost]))⟩
  case held =>
    intro b s k hk
    simp only [exec_heldPacketPost]
    exact ⟨fun h => by rw [heldPacketPostStep_empty hk h], fun a r h hroom => by rw [heldPacketPostStep_cons hk h, if_pos hroom],
      fun a r h hfull => by rw [heldPacketPostStep_cons hk h, if_neg (by simp [hfull])]⟩
  case descriptor =>
    intro r s u e d l hl hd hu
    simp only [exec_peDescriptor]
    refine ⟨fun h => by rw [peDescriptorStep_no_template hl hd hu h], fun t n ht hn => ⟨?stands, ?own, ?member⟩⟩
    case stands => exact fun hclock => by rw [peDescriptorStep_stands hl hd ht hn hclock]
    case own =>
      intro k hclock hdev hk
      rw [peDescriptorStep_own hl hd hu ht hn hclock hdev hk]
      exact ⟨fun hfull => by rw [if_pos hfull], fun hroom => by rw [if_neg (Nat.not_lt.mpr hroom)]⟩
    case member => exact fun hclock hdev => by rw [peDescriptorStep_member hl hd hu ht hn hclock hdev]
  case forwarded =>
    intro s dev
    simp only [exec_forwardedPacket, exec_forwardedFylos]
    refine ⟨?datagram, ?noDatagram, fun _ _ _ => rfl, ?egress, fun _ _ _ => rfl, ?answers, fun _ _ _ _ _ _ => rfl⟩
    case datagram => exact fun f port frame stamp n h => by rw [forwardedPacketStep_datagram dev f port stamp s h]
    case noDatagram => exact fun f port frame stamp h => by rw [forwardedPacketStep_no_datagram dev f port stamp s h]
    case egress =>
      rintro region port frame k n f rfl rfl rfl
      rfl
    case answers =>
      rintro k r st l u rfl
      simp only [forwardedFylosStep]
      exact ⟨fun h => by rw [State.relayReply_unknown st l h], fun e w he h hw => by rw [State.relayReply_known st l he h hw],
        fun h => by rw [State.relayCompletion_unknown st l h], fun w h hw => by rw [State.relayCompletion_known st l h hw]⟩

end Sys2Proof.Machine
end

section
/-! Fatal errors and patrol scrubbing: a fatal error is logged and resets the device, and a scrub of a memory that is not in DEEP_SLEEP counts a
corrected error or does what Table 20.1 says of an uncorrectable one (R222, R512, R515 to R517, R523). -/

namespace Sys2Proof.Machine

open Sys2Proof.Safety

theorem exec_chipWatchdog (s : State) : exec .chipWatchdog s = .next (chipWatchdogStep s) := rfl
theorem exec_damiumLockstepMismatch (s : State) : exec .damiumLockstepMismatch s = .next (lockstepStep s) := rfl
theorem exec_patrolScrub (p : ErrorPlace) (a : Nat) (b : Bool) (s : State) :
    exec (.patrolScrub p a b) s = .next (patrolScrubStep p a b s) := rfl

/-! ## Fatal errors (R512, R523) -/

/-- The ADDRESS of an entry that names no memory is free, whatever address it is written with (log entry 1). -/
theorem State.logError_free_address (s : State) {cause : Nat} (h : 0x10 ≤ cause) (level action unit channel detail a b : Nat) :
    s.logError cause level action unit channel detail 6 a = s.logError cause level action unit channel detail 6 b := by
  simp only [State.logError, h, and_self, if_true]

theorem chipWatchdogStep_runs {s : State} (hrun : s.board.bootPhase = .running) (hfree : s.fylos.halted = false) :
    chipWatchdogStep s = s.fatal 0x45 6 0 := if_neg (by simp [hrun, hfree])

theorem chipWatchdogStep_paused {s : State} (h : s.board.bootPhase ≠ .running ∨ s.fylos.halted = true) : chipWatchdogStep s = s := if_pos h

/-- A fabric error names no memory (MEMORY 6 of Table 20.4), so the scrubbed address does not reach its entry. -/
theorem State.scrubFault_fabric (s : State) (a : Nat) :
    s.scrubFault .fabric a = (s.logError 0x44 4 7 0 0xFFFF 0 6 0).beginReset .watchdog :=
  congrArg (State.beginReset .watchdog) (s.logError_free_address (by decide) 4 7 0 0xFFFF 0 a 0)

/-! ## PATROL_SCRUB (R515 to R517; what Table 20.1 leaves open: log entry 59) -/

section
variable {p : ErrorPlace} {s : State}

theorem patrolScrubStep_asleep {d : Nat} (hd : scrubDomain p = some d) (h : (s.powerDomain d).mode = .deepSleep) (a : Nat) (b : Bool) :
    patrolScrubStep p a b s = s := by
  simp [patrolScrubStep, hd, h]

/-- A place whose memory is awake, or can not sleep, is scrubbed. -/
theorem patrolScrubStep_awake (h : ∀ d, scrubDomain p = some d → (s.powerDomain d).mode ≠ .deepSleep) (a : Nat) (b : Bool) :
    patrolScrubStep p a b s = if b then s.scrubFault p a else s.scrubCorrected p a := by
  refine if_neg ?_
  cases hd : scrubDomain p with
  | none => simp
  | some d => simp [h d hd]

variable {a : Nat} {u : State} (hu : s.scrubFault p a = u)
include hu

/-- An uncorrectable error of a memory that is awake does what its place asks. -/
theorem becomes_scrubFault_of_awake {d : Nat} (hd : scrubDomain p = some d) (h : (s.powerDomain d).mode ≠ .deepSleep) :
    Becomes (.patrolScrub p a true) s u := by
  have hawake : ∀ e, scrubDomain p = some e → (s.powerDomain e).mode ≠ .deepSleep := by
    intro e he
    rwa [← Option.some.inj (hd.symm.trans he)]
  rw [Becomes, exec_patrolScrub, patrolScrubStep_awake hawake, if_pos rfl, hu]

/-- An uncorrectable error of a memory that can not sleep does what its place asks. -/
theorem becomes_scrubFault_of_sleepless (hd : scrubDomain p = none) : Becomes (.patrolScrub p a true) s u := by
  rw [Becomes, exec_patrolScrub, patrolScrubStep_awake (by simp [hd]), if_pos rfl, hu]

end

section
variable {s : State}

theorem State.scrubFault_dispatcher_isolated {b : Nat} (h : (s.block b).isolated = true) (a : Nat) : s.scrubFault (.dispatcher b) a = s := if_pos h

theorem State.scrubFault_contextSlot_held {c : Nat} (h : (s.channel c).slot.isSome = true) (a : Nat) :
    s.scrubFault (.contextSlot c) a = s.modChannel c (fun v => { v with slotBad := true }) := if_pos h

theorem State.scrubFault_contextSlot_free {c : Nat} (h : (s.channel c).slot = none) (a : Nat) : s.scrubFault (.contextSlot c) a = s :=
  if_neg (by simp [h])

theorem State.scrubFault_table_lost {id : Nat} {both : Bool} (h : both = true ∧ tabHas s.store.tables id = true) (a : Nat) :
    s.scrubFault (.tableStore id both) a = (s.loseTable id).logError 0x23 4 3 0 0xFFFF 0 4 a := if_neg (by simp [h])

theorem State.scrubFault_table_stands {id : Nat} {both : Bool} (h : both = false ∨ tabHas s.store.tables id = false) (a : Nat) :
    s.scrubFault (.tableStore id both) a = s.logError 0x23 4 0 0 0xFFFF 0 4 a := if_pos (by simpa using h)

end

/-- Settles O51: a fatal error is its entry and the reset; a scrub passes a sleeping memory over, counts a corrected error, and else does what
`scrubFault` says of the place. -/
theorem fatalErrorsAndScrubs : Obligations.FatalErrorsAndScrubs := by
  unfold Obligations.FatalErrorsAndScrubs
  refine ⟨?fatal, ?scrub⟩
  case fatal =>
    simp only [Becomes, exec_chipWatchdog, exec_damiumLockstepMismatch]
    exact fun s => ⟨fun hrun hfree => by rw [chipWatchdogStep_runs hrun hfree]; rfl, fun h => by rw [chipWatchdogStep_paused (.inr h)],
      fun h => by rw [chipWatchdogStep_paused (.inl h)], rfl⟩
  case scrub =>
    intro a s
    refine ⟨?corrected, ?asleep, ?cell, ?block, ?region, ?port, ?tdm, ?slotHeld, ?slotFree, ?record, ?tableLost, ?tableStands, ?context, ?flow,
      ?prompt, ?job, ?window, ?dram, ?flowTable, ?sram, ?fabric⟩
    case corrected =>
      intro p h
      have hawake : ∀ d, scrubDomain p = some d → (s.powerDomain d).mode ≠ .deepSleep := by
        intro d hd
        rw [hd] at h
        exact h
      rw [Becomes, exec_patrolScrub, patrolScrubStep_awake hawake]
      rfl
    case asleep => exact fun p d hd h b => by rw [Becomes, exec_patrolScrub, patrolScrubStep_asleep hd h]
    case cell => exact fun n m h => becomes_scrubFault_of_awake rfl rfl h
    case block =>
      exact fun b h => ⟨fun l => becomes_scrubFault_of_awake rfl rfl h, fun c key => becomes_scrubFault_of_awake rfl rfl h,
        becomes_scrubFault_of_awake rfl rfl h, becomes_scrubFault_of_awake rfl rfl h,
        fun hisolated => becomes_scrubFault_of_awake (State.scrubFault_dispatcher_isolated hisolated a) rfl h⟩
    case region => exact fun r h => ⟨becomes_scrubFault_of_awake rfl rfl h, fun b n => becomes_scrubFault_of_awake rfl rfl h⟩
    case port => exact fun i h => ⟨becomes_scrubFault_of_awake rfl rfl h, fun m n => becomes_scrubFault_of_awake rfl rfl h⟩
    case tdm => exact fun h n hawake => becomes_scrubFault_of_awake rfl rfl hawake
    case slotHeld =>
      refine fun c h => ⟨_, becomes_scrubFault_of_sleepless (State.scrubFault_contextSlot_held h a) rfl, ?_, ?_,
        fun d hd => State.modChannel_channel_ne s c d _ hd⟩
      · rw [State.modChannel_channel_same]
      · rw [State.modChannel_channel_same]
    case slotFree => exact fun c h => becomes_scrubFault_of_sleepless (State.scrubFault_contextSlot_free h a) rfl
    case record => exact fun b t => becomes_scrubFault_of_sleepless rfl rfl
    case tableLost => exact fun id both h => becomes_scrubFault_of_sleepless (State.scrubFault_table_lost h a) rfl
    case tableStands => exact fun id both h => becomes_scrubFault_of_sleepless (State.scrubFault_table_stands h a) rfl
    case context => exact fun i => ⟨becomes_scrubFault_of_sleepless rfl rfl, becomes_scrubFault_of_sleepless rfl rfl⟩
    case flow => exact fun i => ⟨becomes_scrubFault_of_sleepless rfl rfl, becomes_scrubFault_of_sleepless rfl rfl⟩
    case prompt => exact fun i k => becomes_scrubFault_of_sleepless rfl rfl
    case job => exact fun r => ⟨becomes_scrubFault_of_sleepless rfl rfl, becomes_scrubFault_of_sleepless rfl rfl⟩
    case window => exact becomes_scrubFault_of_sleepless rfl rfl
    case dram => exact becomes_scrubFault_of_sleepless rfl rfl
    case flowTable => exact fun r => becomes_scrubFault_of_sleepless rfl rfl
    case sram => exact becomes_scrubFault_of_sleepless rfl rfl
    case fabric => exact becomes_scrubFault_of_sleepless (s.scrubFault_fabric a) rfl

end Sys2Proof.Machine
end

section
/-! The events of the resampler streams and of a tick's origin: what RS_IN_RECORD, DISSOLVE_END, SETTLE_END and FILL_MEASUREMENT leave of the
stream they name, and what TICK_ORIGIN applies (R221, R233, R237, R239, R240, R286, R381, R397, R545). -/

namespace Sys2Proof.Machine

theorem exec_rsInRecord (c k tick : Nat) (l : List (BitVec 16)) (s : State) :
    exec (.rsInRecord c k tick l) s = .next (rsInStep c k tick l s) := rfl
theorem exec_dissolveEnd (c k : Nat) (s : State) : exec (.dissolveEnd c k) s = .next (dissolveEndStep c k s) := rfl
theorem exec_settleEnd (c k : Nat) (s : State) : exec (.settleEnd c k) s = .next (settleEndStep c k s) := rfl
theorem exec_fillMeasurement (c k : Nat) (s : State) : exec (.fillMeasurement c k) s = .next (fillMeasureStep c k s) := rfl
theorem exec_tickOrigin (s : State) : exec .tickOrigin s = .next (tickOriginStep s) := rfl

/-! ## Reading a stream back -/

@[simp] theorem Channel.setStream_stream_same (v : Channel) (k : Nat) (x : Stream) : (v.setStream k x).stream k = x := by
  simp [Channel.setStream, Channel.stream]

@[simp] theorem realignFor_stream (k : Nat) (v : Channel) (j : Nat) : (realignFor k v).stream j = v.stream j := by
  unfold realignFor
  split <;> rfl

@[simp] theorem moveAlignment_stream (k : Nat) (m : Int) (v : Channel) (j : Nat) : (moveAlignment k m v).stream j = v.stream j := by
  unfold moveAlignment
  dsimp only
  split <;> rfl

/-! ## RS_IN_RECORD (R221) -/

section
variable {s : State} {v : Channel} {k tick : Nat} {ins : List Int}

theorem handOver_absent (h : (v.stream k).present = false) : (handOver s v k tick ins).1 = v := by
  simp [handOver, h]

section
variable (hp : (v.stream k).present = true)
include hp

theorem handOver_again (h : (v.stream k).lastTick = some tick) :
    (handOver s v k tick ins).1 = v.setStream k (countStream (v.stream k) .dupBlock 1) := by
  simp [handOver, hp, h]

variable (h : (v.stream k).lastTick ≠ some tick) {x : Stream} (hx : x = streamPush { v.stream k with lastTick := some tick } ins)
include h hx

theorem handOver_crossing (hc : crossing k = true) : (handOver s v k tick ins).1 = v.setStream k { x with last := [] } := by
  subst hx
  simp [handOver, hp, h, hc]

theorem handOver_local (hc : crossing k = false) {y : List (Int × Bool) × Stream}
    (hy : y = streamTake (s.drift v k) (dissolveLen v k) (settlePass v k) (x.chain.fout * 10) x) :
    (handOver s v k tick ins).1 = v.setStream k { y.2 with last := y.1 } := by
  subst hy hx
  simp [handOver, hp, h, hc]

end

end

/-- While its array and its media run, the channel takes the block that is handed over. -/
theorem rsInStep_channel {s : State} {c : Nat} (ha : s.arrayRuns (s.channel c).block = true) (hm : mediaRuns (s.channel c).runState = true)
    (k tick : Nat) (l : List (BitVec 16)) :
    (rsInStep c k tick l s).channel c = (handOver s (s.channel c) k tick (l.map BitVec.toInt)).1 := by
  rw [rsInStep, if_pos ⟨ha, hm⟩, State.setChannel_channel_same]

/-! ## DISSOLVE_END and SETTLE_END (R237, R239, R240) -/

section
variable {st : Stream} {d : Dissolve} {len : Nat} (hd : st.dissolve = some d)
include hd

theorem endDissolve_early (h : d.count < settleCount st.chain + len) (n : Chain) : endDissolve st len n = st := by
  simp only [endDissolve, hd, if_pos h]

theorem endDissolve_due (h : settleCount st.chain + len ≤ d.count) (n : Chain) :
    endDissolve st len n =
      if st.held then startDissolve { st with dissolve := none } n st.heldZeros st.heldMove else { st with dissolve := none } := by
  simp only [endDissolve, hd, if_neg (Nat.not_lt.mpr h)]

end

/-- DISSOLVE_END ends the cross-fade of its stream; the echo canceller's alignment, which may follow it, is no part of the stream. -/
theorem dissolveEndStep_stream (c k : Nat) (s : State) {v : Channel} (hv : v = s.channel c) {st : Stream} (hst : st = v.stream k) :
    ((dissolveEndStep c k s).channel c).stream k = endDissolve st (dissolveLen v k) (streamChain v k st.inRate st.chain.fout) := by
  subst hst hv
  rw [dissolveEndStep, State.modChannel_channel_same]
  dsimp only
  cases hd : ((s.channel c).stream k).dissolve with
  | none => simp only [endDissolve, hd]
  | some d =>
    dsimp only
    split
    next hearly => rw [endDissolve_early hd hearly]
    next => simp

theorem settleEndStep_stream (c k : Nat) (s : State) {st : Stream} (hst : st = (s.channel c).stream k) :
    ((settleEndStep c k s).channel c).stream k = if st.settle = 0 then { st with settling := false } else st := by
  subst hst
  rw [settleEndStep, State.modChannel_channel_same]
  dsimp only
  split <;> simp

/-! ## FILL_MEASUREMENT (R233) -/

section
variable {tick : Nat} {st now : Stream} {fill : Int}

theorem measureFill_again (h : st.measured = some tick) : measureFill tick st = (st, none) := if_pos h

variable (hfill : fill = st.chain.newest - st.chain.pos) (hnow : now = { st with fill := fill, measured := some tick })
  (h : st.measured ≠ some tick)
include hfill hnow h

theorem measureFill_first (ht : st.target = none) : measureFill tick st = ({ now with target := some fill }, none) := by
  subst hnow hfill
  simp only [measureFill, if_neg h, ht]

section
variable {t : Int} (ht : st.target = some t)
include ht

theorem measureFill_near (hn : (fill - t).natAbs ≤ 4) : measureFill tick st = ({ now with trim := trimOf (fill - t) }, none) := by
  subst hnow hfill
  simp only [measureFill, if_neg h, ht, if_neg (Nat.not_lt.mpr hn)]

theorem measureFill_far (hn : 4 < (fill - t).natAbs) :
    measureFill tick st = (now, if st.held ∧ st.heldMove ≠ 0 then none else some (fill - t)) := by
  subst hnow hfill
  simp only [measureFill, if_neg h, ht, if_pos hn]

end

end

section
variable {s : State} {c k : Nat} {v : Channel} {st x : Stream} (hv : v = s.channel c) (hst : st = v.stream k) (hc : crossing k = true)
  (hp : st.present = true)
include hv hst hc hp

/-- A measurement that asks for nothing is the whole of what FILL_MEASUREMENT does to its stream. -/
theorem fillMeasureStep_stream_quiet (hm : measureFill s.tick st = (x, none)) : ((fillMeasureStep c k s).channel c).stream k = x := by
  subst hst hv
  simp [fillMeasureStep, hc, hp, hm]

/-- A measurement that asks for a realignment requests the cross-fade that makes it. -/
theorem fillMeasureStep_stream_realigns {e : Int} (hm : measureFill s.tick st = (x, some e)) :
    ((fillMeasureStep c k s).channel c).stream k = requestDissolve x (streamChain v k st.inRate st.chain.fout) (marginOf k) false e := by
  subst hst hv
  simp [fillMeasureStep, hc, hp, hm]

end

/-! ## TICK_ORIGIN (R286, R381, R397, R545; its order: log entry 70) -/

theorem tickOriginStep_again {s : State} (h : s.clocks.lastOrigin = some s.tick) : tickOriginStep s = s := if_pos h

theorem tickOriginStep_first {s s0 : State} (h : s.clocks.lastOrigin ≠ some s.tick)
    (hs : s0 = { s with clocks := { s.clocks with lastOrigin := some s.tick },
                        stack := { s.stack with commitFormat := s.stack.equinox.map (fun (e : Equinox) => e.format) } }) :
    tickOriginStep s = ((((((((s0.commitTables).eachBlock State.applySchedule).eachBlock State.applySpare).eachMoving
      State.completeMove).eachMoving State.lateContext).eachBlock State.rebind).eachBlock State.evacuate)) := by
  subst hs
  exact if_neg h

/-- Settles O37: each row is its step, and the step's lemma for the case says what it leaves of the stream, or applies at the tick's origin. -/
theorem streamAndTickEventsComplete : Obligations.StreamAndTickEventsComplete := by
  unfold Obligations.StreamAndTickEventsComplete Safety.Becomes
  refine ⟨?stream, ?tick⟩
  case stream =>
    intro c k s v st after
    simp only [exec_rsInRecord, exec_dissolveEnd, exec_settleEnd, exec_fillMeasurement]
    refine ⟨?record, ?dissolve, fun h => ⟨_, rfl, ?settled⟩, fun h => ⟨_, rfl, ?settling⟩, ?fill⟩
    case record =>
      intro tick l ha hm
      have hstream : after (rsInStep c k tick l s) = (handOver s v k tick (l.map BitVec.toInt)).1.stream k :=
        congrArg (Channel.stream · k) (rsInStep_channel ha hm k tick l)
      refine ⟨fun h => ⟨_, rfl, ?absent⟩, fun hp h => ⟨_, rfl, ?again⟩, fun x hp h hx => ⟨_, rfl, fun hc => ?crosses, fun y hc hy => ?here⟩⟩
      case absent => rw [hstream, handOver_absent h]
      case again => rw [hstream, handOver_again hp h, Channel.setStream_stream_same]
      case crosses => rw [hstream, handOver_crossing hp h hx hc, Channel.setStream_stream_same]
      case here => rw [hstream, handOver_local hp h hx hc hy, Channel.setStream_stream_same]
    case dissolve =>
      intro d hd
      have hstream := dissolveEndStep_stream c k s (v := v) rfl (st := st) rfl
      exact ⟨fun h => ⟨_, rfl, hstream.trans (endDissolve_early hd h _)⟩, fun h => ⟨_, rfl, hstream.trans (endDissolve_due hd h _)⟩⟩
    case settled => exact (settleEndStep_stream c k s rfl).trans (if_pos h)
    case settling => exact (settleEndStep_stream c k s rfl).trans (if_neg h)
    case fill =>
      intro fill now hc hp hfill hnow
      refine ⟨_, rfl, fun h => ?again, fun h ht => ?first, fun t h ht => ⟨fun hn => ?near, fun hn hheld hmove => ?held, fun hn hfree => ?far⟩⟩
      case again => exact fillMeasureStep_stream_quiet rfl rfl hc hp (measureFill_again h)
      case first => exact fillMeasureStep_stream_quiet rfl rfl hc hp (measureFill_first hfill hnow h ht)
      case near => exact fillMeasureStep_stream_quiet rfl rfl hc hp (measureFill_near hfill hnow h ht hn)
      case held =>
        have hm := (measureFill_far hfill hnow h ht hn).trans (by rw [if_pos ⟨hheld, hmove⟩])
        exact fillMeasureStep_stream_quiet rfl rfl hc hp hm
      case far =>
        have hask : ¬ (st.held = true ∧ st.heldMove ≠ 0) := by
          rintro ⟨hheld, hmove⟩
          rcases hfree with hnone | hzero
          · exact Bool.false_ne_true (hnone.symm.trans hheld)
          · exact hmove hzero
        have hm := (measureFill_far hfill hnow h ht hn).trans (by rw [if_neg hask])
        exact fillMeasureStep_stream_realigns rfl rfl hc hp hm
  case tick =>
    intro s
    simp only [exec_tickOrigin]
    exact ⟨fun h => by rw [tickOriginStep_again h], fun h => by rw [tickOriginStep_first h rfl]⟩

end Sys2Proof.Machine
end

section
/-! The commands of the stores: what the rules of the tables, the prompts, the layout of DRAM, the trace and the user kernel answer where their
conditions hold, and that the answer becomes the reply (R285, R289, R291, R347, R568, R569). -/

namespace Sys2Proof.Machine

open Sys2Proof.Safety

section
variable {x : Ctx} {s : State}

/-! ## Tables (R285) -/

theorem loadSource_chunks {chunks : List (List Byte)} (hc : chunks = paramAll x.params 0x43) (hgiven : chunks ≠ [])
    (halone : ∀ e ∈ x.params, e.typ ≠ 0x41 ∧ e.typ ≠ 0x42) : loadSource x s = .inl (.bytes chunks.flatten) := by
  have hnone : x.params.find? (fun q => q.typ == 0x41 || q.typ == 0x42) = none :=
    List.find?_eq_none.mpr fun e he => by simp [halone e he]
  simp only [loadSource, ← hc, if_pos hgiven, hnone]

theorem loadSource_window (hc : paramAll x.params 0x43 = []) (ha : paramHas x.params 0x41 = true) (hn : paramHas x.params 0x42 = true)
    (hsight : s.inSight (paramNat x.params 0x41 0) (paramNat x.params 0x42 0) = true) :
    loadSource x s = .inl (.dram (paramNat x.params 0x41 0) (paramNat x.params 0x42 0)) := by
  simp only [loadSource, hc, ha, hn, hsight, ne_eq, not_true_eq_false, if_false, sourceOf]

theorem tableLoadBody_waits {id : Nat} {q : JobSource} {v : State} (hid : paramNat? x.params 0x40 = some id)
    (hsource : loadSource x s = .inl q) (hfree : 0x100 ≤ id) (hfits : originalOver (s.sourceBytes q) 65536 = false)
    (hplace : s.store.loads.length ≤ 16)
    (hv : v = { s with store := { s.store with loads := s.store.loads ++ [{ ref := x.ref, id := id, source := q }] } }) :
    tableLoadBody x s = .accepted (if s.store.loads = [] then v.runLoad else v) := by
  subst hv
  have hline : ¬ loadLimit < s.store.loads.length := Nat.not_lt.mpr hplace
  simp only [tableLoadBody, paramNat_of_some hid, hsource, if_neg (Nat.not_lt.mpr hfree), hfits, Bool.false_eq_true, if_false, if_neg hline]

theorem tableDeleteBody_removes {id : Nat} (hid : paramNat? x.params 0x40 = some id) (hheld : (s.tableImage id).isSome = true)
    (hfree : 0x100 ≤ id) (hunused : s.tableUses id = 0) :
    tableDeleteBody x s = .done stOk [] { s with store := { s.store with tables := tabDrop s.store.tables id } } := by
  have hsome : (s.tableImage id).isNone = false := by rw [← Option.not_isSome, hheld]; rfl
  simp only [tableDeleteBody, paramNat_of_some hid, hsome, Bool.false_eq_true, if_false, if_neg (Nat.not_lt.mpr hfree), hunused, ne_eq,
    not_true_eq_false]

/-! ## Prompts (R289, R291) -/

theorem promptLoadBody_queues {id a k : Nat} (hid : id = paramNat x.params 0x40 0) (ha : a = paramNat x.params 0x41 0)
    (hk : k = paramNat x.params 0x42 0) (hsight : s.inSight a k = true) (hheader : promptHeaderOk (memRead s.store.dram a k) = true)
    (hpieces : promptPiecesOk (memRead s.store.dram a k) = true) (hunplayed : s.playing id = 0)
    (hroom : s.promptBytes + s.promptsComing + k - s.promptSize id ≤ s.store.storeSize) :
    promptLoadBody x s = .accepted (s.queueJob (newJob s x (.prompt id) (.dram a k) none)) := by
  simp only [promptLoadBody, ← hid, ← ha, ← hk, hsight, hheader, hpieces, hunplayed, ne_eq, not_true_eq_false, or_self, if_false,
    if_neg (Nat.not_lt.mpr hroom)]

theorem promptDeleteBody_removes {id : Nat} (hid : paramNat? x.params 0x40 = some id) (hheld : (tabFind? s.store.prompts id).isSome = true)
    (hunplayed : s.playing id = 0) :
    promptDeleteBody x s = .done stOk [] { s with store := { s.store with
      prompts := tabDrop s.store.prompts id, cache := s.store.cache.filter (fun e => e.prompt != id),
      badPieces := s.store.badPieces.filter (fun e => e.1 != id) } } := by
  have hsome : (tabFind? s.store.prompts id).isNone = false := by rw [← Option.not_isSome, hheld]; rfl
  simp only [promptDeleteBody, paramNat_of_some hid, hsome, hunplayed, Bool.false_eq_true, if_false, ne_eq, not_true_eq_false, uncache]

/-! ## The layout of DRAM and the trace (R568) -/

theorem promptStoreConfigBody_resizes {a b : Nat} (ha : a = paramNat x.params 0x40 s.store.storeSize)
    (hb : b = paramNat x.params 0x41 s.store.cacheSize) (hmost : a ≤ 1073741824) (hwhole : a % mib = 0) (hlo : 4 * mib ≤ b)
    (hhi : b ≤ 256 * mib) (hfits : s.resizeRefusal a b s.store.traceSize = none) (hempty : s.store.prompts = []) :
    promptStoreConfigBody x s = .done stOk [] (s.resized a b s.store.traceSize) := by
  have hstore : ¬ (1073741824 < a ∨ a % mib ≠ 0) := not_or.mpr ⟨Nat.not_lt.mpr hmost, fun hpart => hpart hwhole⟩
  have hcache : ¬ (b < 4 * mib ∨ 256 * mib < b) := not_or.mpr ⟨Nat.not_lt.mpr hlo, Nat.not_lt.mpr hhi⟩
  simp only [promptStoreConfigBody, ← ha, ← hb, if_neg hstore, if_neg hcache, hfits, hempty, ne_eq, not_true_eq_false, if_false]

/-- The machine once a TRACE_CONFIG gave the settings `l`, its trace area of `size` bytes. -/
def State.traceSet (s : State) (l : List Param) (size : Nat) : State :=
  let on := paramFlag l 0x40 s.store.traceOn
  let s1 := s.resized s.store.storeSize s.store.cacheSize size
  { s1 with store := { s1.store with traceOn := on, traceRan := on || (s.store.traceRan && size == s.store.traceSize),
                                     traceMask := paramNat l 0x41 s.store.traceMask } }

/-- The definition of the rules is opened as an equation of functions and its size generalized before the refusal is rewritten: to compare the
rules' value on a command with its unfolded form, the kernel would run `resizeRefusal`, and with it count `usableBytes` in unary. -/
theorem traceConfigBody_sets {size : Nat} (hsize : size = match paramNat? x.params 0x42 with | some n => n * mib | none => s.store.traceSize)
    (hfits : s.resizeRefusal s.store.storeSize s.store.cacheSize size = none) :
    traceConfigBody x s = .done stOk [] (s.traceSet x.params size) := by
  generalize hbody : traceConfigBody = body
  delta traceConfigBody at hbody
  refine (congrFun (congrFun hbody x) s).symm.trans ?_
  extract_lets +onlyGivenNames asked
  obtain rfl : size = asked := hsize
  rw [hfits]
  rfl

theorem traceDumpBody_queues {a : Nat} (hgiven : paramHas x.params 0x43 = true) (ha : a = paramNat x.params 0x43 0) (haligned : a % 16 = 0)
    (hsight : s.inSight a 16 = true) :
    traceDumpBody x s = .accepted (s.drawn.queueJob (newJob s x .traceDump (.bytes s.traceBytes) (some a))) := by
  simp only [traceDumpBody, hgiven, ← ha, haligned, hsight, ne_eq, not_true_eq_false, or_self, if_false]

/-! ## The user kernel (R347) -/

theorem userKernelLoadBody_queues {a k : Nat} (ha : a = paramNat x.params 0x41 0) (hk : k = paramNat x.params 0x42 0)
    (hsight : s.inSight a k = true) (hfits : originalOver (memRead s.store.dram a k) 16448 = false) (hunhooked : s.hookedChannels = 0) :
    userKernelLoadBody x s = .accepted (s.queueJob (newJob s x .kernel (.dram a k) none)) := by
  simp only [userKernelLoadBody, ← ha, ← hk, hsight, hfits, hunhooked, ne_eq, not_true_eq_false, Bool.false_eq_true, if_false]

end

/-- Settles O7: each row runs its command's rules, these answer over the state that the entry names, and the answer becomes the reply. -/
theorem storeCommandsComplete : Obligations.StoreCommandsComplete := by
  unfold Obligations.StoreCommandsComplete
  intro p s u c
  refine ⟨?tableLoad, ?tableDelete, ?promptLoad, ?promptDelete, ?promptStoreConfig, ?traceConfig, ?traceDump, ?kernelLoad⟩
  case tableLoad =>
    rintro id chunks q v h hroom hid hc (⟨hgiven, halone, rfl⟩ | ⟨hnone, ha, hn, hsight, rfl⟩) hfree hfits hplace hv
    · exact becomes_of_accepted h rfl hroom (tableLoadBody_waits hid (loadSource_chunks hc hgiven halone) hfree hfits hplace hv) rfl
    · have hsource := loadSource_window (hc.symm.trans hnone) ha hn hsight
      exact becomes_of_accepted h rfl hroom (tableLoadBody_waits hid hsource hfree hfits hplace hv) rfl
  case tableDelete =>
    exact fun id h hid hheld hfree hunused => replies_of_admitted h rfl (tableDeleteBody_removes hid hheld hfree hunused)
  case promptLoad =>
    intro id a k h hroom hid ha hk hsight hheader hpieces hunplayed hfits
    exact becomes_of_accepted h rfl hroom (promptLoadBody_queues hid ha hk hsight hheader hpieces hunplayed hfits) rfl
  case promptDelete => exact fun id h hid hheld hunplayed => replies_of_admitted h rfl (promptDeleteBody_removes hid hheld hunplayed)
  case promptStoreConfig =>
    intro a b h ha hb hmost hwhole hlo hhi hfits hempty
    exact replies_of_admitted h rfl (promptStoreConfigBody_resizes ha hb hmost hwhole hlo hhi hfits hempty)
  case traceConfig =>
    intro size h hsize hfits
    exact ⟨u.traceSet c.params size, replies_of_admitted h rfl (traceConfigBody_sets hsize hfits), rfl, rfl, rfl, rfl, rfl, rfl⟩
  case traceDump =>
    intro a h hroom hgiven ha haligned hsight
    exact becomes_of_accepted h rfl hroom (traceDumpBody_queues hgiven ha haligned hsight) rfl
  case kernelLoad =>
    intro a k h hroom ha hk hsight hfits hunhooked
    exact becomes_of_accepted h rfl hroom (userKernelLoadBody_queues ha hk hsight hfits hunhooked) rfl

end Sys2Proof.Machine
end

section
/-! The events of the TDM groups: how a group is FRAMED, lost, fitted and started, and what a frame of a group does (R300 to R304, R376). -/

namespace Sys2Proof.Machine

/-! ## Reading a group back -/

@[simp] theorem State.setGroup_group_same (s : State) (g : Nat) (v : TdmGroup) : (s.setGroup g v).group g = v := by
  simp [State.setGroup, State.group]

theorem State.setGroup_group_ne (s : State) (g h : Nat) (v : TdmGroup) (hne : h ≠ g) : (s.setGroup g v).group h = s.group h := by
  simp [State.setGroup, State.group, tabGet_tabSet_ne _ _ _ _ _ _ hne]

@[simp] theorem State.groupNotice_group (s : State) (g h : Nat) (f : Framing_) (r : GroupReason) :
    (s.groupNotice g f r).group h = s.group h := by
  simp [State.groupNotice, State.group]

/-! ## A group lost (R302, R304) -/

/-- A group that is lost is counted under LOS and searches afresh; its m is held. -/
theorem loseGroup_group_same (g : Nat) (r : GroupReason) (s : State) :
    (loseGroup g r s).group g = { bumpGroup (s.group g) .los with framing := .search, fsRun := 0, fsMissed := 0 } := by
  simp [loseGroup]

theorem loseGroup_group_ne {g h : Nat} (hne : h ≠ g) (r : GroupReason) (s : State) : (loseGroup g r s).group h = s.group h := by
  simp [loseGroup, State.setGroup_group_ne _ _ _ _ hne]

section
variable {g : Nat} {s : State} {v : TdmGroup} (hv : v = s.group g)
include hv

/-! ## TDM_FRAMED (R302, R304; REFRAMES counts a return only: log entry 15) -/

theorem tdmFramedStep_frames (hslave : v.master = false) (hsearch : v.framing = .search) (hrun : 16 ≤ v.fsRun) {x w : TdmGroup} {u : State}
    (hx : x = { v with framing := .framed, fsRun := 0, fsMissed := 0, framesIn := 0, stamps := [], ever := true })
    (hw : w = if v.ever then bumpGroup x .reframes else x) (hu : u = (s.setGroup g w).groupNotice g .framed .fs) :
    tdmFramedStep g s = (u.groupLegs g).foldl resetTdmLeg u := by
  subst hu hw hx hv
  exact if_neg (by simp [hslave, hsearch, hrun])

theorem tdmFramedStep_waits (h : v.master = true ∨ v.framing ≠ .search ∨ v.fsRun < 16) : tdmFramedStep g s = s := by
  subst hv
  exact if_pos h

/-! ## TDM_GROUP_LOST (R302) -/

theorem tdmGroupLostStep_framed (clk : Bool) (hslave : v.master = false) (hframed : v.framing = .framed) :
    tdmGroupLostStep g clk s = if clk then loseGroup g .clk s else if 3 ≤ v.fsMissed then loseGroup g .fs s else s := by
  subst hv
  exact if_neg (by simp [hslave, hframed])

theorem tdmGroupLostStep_not_framed (clk : Bool) (h : v.master = true ∨ v.framing ≠ .framed) : tdmGroupLostStep g clk s = s := by
  subst hv
  exact if_pos h

theorem tdmGroupLostStep_few_missed (h : v.fsMissed < 3) : tdmGroupLostStep g false s = s := by
  by_cases hframed : v.master = true ∨ v.framing ≠ .framed
  · exact tdmGroupLostStep_not_framed hv false hframed
  · obtain ⟨hslave, hframing⟩ := not_or.mp hframed
    rw [tdmGroupLostStep_framed hv false (Bool.eq_false_iff.mpr hslave) (Decidable.not_not.mp hframing), if_neg Bool.false_ne_true,
      if_neg (Nat.not_le.mpr h)]

/-! ## TDM_M_UPDATE (R303; the unit of the fit: log entry 109) -/

theorem tdmMUpdateStep_fits {fit : Int} {up : Bool} (hslave : v.master = false) (hframed : v.framing = .framed) (hframes : 80 ≤ v.framesIn)
    (hstamps : 2 ≤ v.stamps.length) (hfit : fit = frameOffset up v.stamps) :
    tdmMUpdateStep g up s = if 281474976711 < fit.natAbs then loseGroup g .range s else s.setGroup g { v with m := fit } := by
  subst hfit hv
  refine if_neg ?_
  rintro (hmaster | hother | hearly | hfew)
  · exact Bool.false_ne_true (hslave.symm.trans hmaster)
  · exact hother hframed
  · exact Nat.not_lt.mpr hframes hearly
  · exact Nat.not_lt.mpr hstamps hfew

theorem tdmMUpdateStep_waits (up : Bool) (h : v.master = true ∨ v.framing ≠ .framed ∨ v.framesIn < 80 ∨ v.stamps.length < 2) :
    tdmMUpdateStep g up s = s := by
  subst hv
  exact if_pos h

/-! ## TDM_MASTER_START (R300; within 4 ns of the grid: log entry 109) -/

theorem tdmMasterStartStep_starts (hmaster : v.master = true) (hnew : v.started = false) (hgrid : s.onGrid v = true) {u : State}
    (hu : u = s.setGroup g { v with started := true, phaseError := 0, m := 0, slewing := false }) :
    tdmMasterStartStep g s = (u.groupLegs g).foldl resetTdmLeg u := by
  subst hu hv
  exact if_neg (by simp [hmaster, hnew, hgrid])

theorem tdmMasterStartStep_waits (h : v.master = false ∨ v.started = true ∨ s.onGrid v = false) : tdmMasterStartStep g s = s := by
  subst hv
  exact if_pos (by simpa using h)

end

/-! ## TDM_FRAME (R301, R302, R376) -/

section
variable {g : Nat} {good : Bool} {rx : Tab (List Byte)} {s : State}

theorem tdmFrameStep_gated (h : s.clockRuns 89 = false) : tdmFrameStep g good rx s = s := if_pos (by simp [h])

theorem tdmFrameStep_clocked (h : s.clockRuns 89 = true) {v w x : TdmGroup} {u t : State} {b : Tab Block}
    (hv : v = fsStep (s.group g) good (s.time.powered * 65536 + s.time.poweredFrac / 2 ^ 32 : Nat))
    (hw : w = trackStep (if groupRuns v then bumpGroup v .frames else v))
    (hx : x = if s.clocks.frost = true ∧ groupRuns v = true then bumpGroup w .frostFrames else w) (hu : u = s.setGroup g x)
    (ht : t = (u.groupSlots g).foldl (slotFrame rx s.clocks.frost (groupRuns v)) u)
    (hb : b = t.blocks.map (fun e => (e.1,
      if s.arrayRuns e.1 = true ∧ s.clockRuns (16 + e.1) = true then wakeByFrame g s.clocks.mediaNs e.2 else e.2))) :
    tdmFrameStep g good rx s = { t with blocks := b } := by
  subst hb ht hu hx hw hv
  exact if_neg (by simp [h])

end

/-! ## The rows, each carried out by its step -/

theorem exec_tdmFramed (g : Nat) (s : State) : exec (.tdmFramed g) s = .next (tdmFramedStep g s) := rfl
theorem exec_tdmGroupLost (g : Nat) (clk : Bool) (s : State) : exec (.tdmGroupLost g clk) s = .next (tdmGroupLostStep g clk s) := rfl
theorem exec_tdmMUpdate (g : Nat) (up : Bool) (s : State) : exec (.tdmMUpdate g up) s = .next (tdmMUpdateStep g up s) := rfl
theorem exec_tdmMasterStart (g : Nat) (s : State) : exec (.tdmMasterStart g) s = .next (tdmMasterStartStep g s) := rfl
theorem exec_tdmFrame (g : Nat) (good : Bool) (rx : Tab (List Byte)) (s : State) :
    exec (.tdmFrame g good rx) s = .next (tdmFrameStep g good rx s) := rfl

/-- Settles O45: each row is its step, whose lemma for the case says what it does; what a lost group becomes is read back from `loseGroup`. -/
theorem tdmGroupEventsComplete : Obligations.TdmGroupEventsComplete := by
  unfold Obligations.TdmGroupEventsComplete Safety.Becomes
  simp only [exec_tdmFramed, exec_tdmGroupLost, exec_tdmMUpdate, exec_tdmMasterStart, exec_tdmFrame]
  refine ⟨?events, ?frame⟩
  case events =>
    intro g s v hv
    refine ⟨?framed, ?searches, ?noClock, ?threeMissed, ?fewMissed, ?notFramed, ?fit, ?noFit, ?starts, ?noStart, ?lost⟩
    case framed => exact fun x w u hslave hsearch hrun hx hw hu => by rw [tdmFramedStep_frames hv hslave hsearch hrun hx hw hu]
    case searches => exact fun h => by rw [tdmFramedStep_waits hv h]
    case noClock => exact fun hslave hframed => by rw [tdmGroupLostStep_framed hv true hslave hframed, if_pos rfl]
    case threeMissed =>
      exact fun hslave hframed h => by rw [tdmGroupLostStep_framed hv false hslave hframed, if_neg Bool.false_ne_true, if_pos h]
    case fewMissed => exact fun h => by rw [tdmGroupLostStep_few_missed hv h]
    case notFramed => exact fun clk h => by rw [tdmGroupLostStep_not_framed hv clk h]
    case fit =>
      intro fit up hslave hframed hframes hstamps hfit
      rw [tdmMUpdateStep_fits hv hslave hframed hframes hstamps hfit]
      exact ⟨fun h => by rw [if_neg (Nat.not_lt.mpr h)], fun h => by rw [if_pos h]⟩
    case noFit => exact fun up h => by rw [tdmMUpdateStep_waits hv up h]
    case starts => exact fun u hmaster hnew hgrid hu => by rw [tdmMasterStartStep_starts hv hmaster hnew hgrid hu]
    case noStart => exact fun h => by rw [tdmMasterStartStep_waits hv h]
    case lost =>
      rintro r w rfl
      rw [hv, loseGroup_group_same]
      exact ⟨rfl, rfl, rfl, fun h hne => loseGroup_group_ne hne r s⟩
  case frame =>
    intro g good rx s
    exact ⟨fun h => by rw [tdmFrameStep_gated h],
      fun v w x u t b h hv hw hx hu ht hb => by rw [tdmFrameStep_clocked h hv hw hx hu ht hb]⟩

end Sys2Proof.Machine
end

section
/-! The words of the vector operations: what each writes, and that it carries its word out (R325 to R328, R353, R363). -/

namespace Sys2Proof.Machine

open Sys2Proof.Safety

/-- A compute row carries its word out with the writes that its operation makes. -/
theorem computes_of_writes {c : Instr} {i : Issue} {k : Comp} {r : CompRest} {s : State} {l : List WriteReq}
    (h : exec c s = .next (issueStep i (compWord k r) s)) (hl : ∀ bank rep, compute (viewOf i s) bank rep k = l) : Computes c i k r s l :=
  hl _ _ ▸ computes_of_step h

/-! ## Products (Table 13.5, R325 to R327) -/

theorem doCmac4_writes (v : View) (k a b : Nat) (cja neg clr : Bool) :
    doCmac4 v k a b cja neg clr = accumulate k (if clr then (0, 0) else v.acc k .accumulate) neg
      (2 * (((v.complex a).zip (v.complex b)).map (fun p => (prod30 cja p).1)).sum,
       2 * (((v.complex a).zip (v.complex b)).map (fun p => (prod30 cja p).2)).sum) := by
  simp only [doCmac4, List.map_map]
  rfl

/-! ## Sums and differences (Table 13.5, R327) -/

/-- VADD and VSUB: the lanes shifted, and saturated where asked. -/
theorem narrowLanes_map (d sh : Nat) (satm : Bool) (f : Int × Int → Int) (l : List (Int × Int)) :
    narrowLanes d sh satm (l.map f) = (let x := l.map (fun p => rne (f p) sh)
      if satm then toV d (x.map sat16) :: setSat (x.any saturates) else [toV d x]) := by
  unfold narrowLanes
  rw [List.map_map]
  rfl

/-- Settles O22: each row issues its word, and the operation's writes are those of Table 13.5. -/
theorem vectorWordsIssue : Obligations.VectorWordsIssue := by
  unfold Obligations.VectorWordsIssue
  refine ⟨?products, ?lanes, ?places⟩
  case products =>
    intro i r s v
    refine ⟨?cmac4, ?cmac4v, ?cmul4, ?vcmac4⟩
    case cmac4 => exact fun k a b cja neg clr => computes_of_writes rfl fun _ _ => doCmac4_writes v k a b cja neg clr
    case cmac4v => exact fun hi a b cja neg clr => computes_of_writes rfl fun _ _ => rfl
    case cmul4 => exact fun d a b cja sh => computes_of_writes rfl fun _ _ => rfl
    case vcmac4 => exact fun d c a b cja sh => computes_of_writes rfl fun _ _ => rfl
  case lanes =>
    intro i r s v
    refine ⟨?rmac8, ?vmul8, ?bfly, ?vadd, ?vsub, ?vshr, ?vshl⟩
    case rmac8 => exact fun k a b neg clr => computes_of_writes rfl fun _ _ => rfl
    case vmul8 => exact fun d a b sh => computes_of_writes rfl fun _ _ => rfl
    case bfly => exact fun dh a b sh => computes_of_writes rfl fun _ _ => rfl
    case vadd => exact fun d a b sh satm => computes_of_writes rfl fun _ _ => narrowLanes_map d sh satm _ _
    case vsub => exact fun d a b sh satm => computes_of_writes rfl fun _ _ => narrowLanes_map d sh satm _ _
    case vshr => exact fun d a sh => computes_of_writes rfl fun _ _ => rfl
    case vshl => exact fun d a sh => computes_of_writes rfl fun _ _ => rfl
  case places =>
    intro i r s v
    refine ⟨?czip, ?cunzip, ?vmov, ?vbcast, ?vmaxa, ?pack, ?acshr, ?acadd, ?actod, ?dtoac⟩
    case czip => exact fun dh a b => computes_of_writes rfl fun _ _ => rfl
    case cunzip => exact fun dh a b => computes_of_writes rfl fun _ _ => rfl
    case vmov => exact fun d a => computes_of_writes rfl fun _ _ => rfl
    case vbcast => exact fun d a => computes_of_writes rfl fun _ _ => rfl
    case vmaxa => exact fun d a pair => computes_of_writes rfl fun _ _ => rfl
    case pack => exact fun d hi sh => computes_of_writes rfl fun _ _ => rfl
    case acshr => exact fun k sh => computes_of_writes rfl fun _ _ => rfl
    case acadd => exact fun d e => computes_of_writes rfl fun _ _ => rfl
    case actod => exact fun d k sh => computes_of_writes rfl fun _ _ => rfl
    case dtoac => exact fun k a => computes_of_writes rfl fun _ _ => rfl

end Sys2Proof.Machine
end

section
/-! The checks of a word at D: what its fetch, its own rules and its accesses make of it, one case after another (R317, R320, R334 to R336, R350,
R353, R354, R361, R367, R369, R370). -/

namespace Sys2Proof.Machine

open Sys2Proof.Safety

/-! ## The fetch (R320, R350, R367) -/

section
variable {i : Issue} {s : State} {next : State → State}

theorem fetchWord_idle (h : s.cellIssues i.cell = false) : s.fetchWord i next = s := if_pos (by simp [h])

theorem not_firmware_of_place (hplace : (s.cell i.cell).active.user = true → 0x1800 ≤ (s.cell i.cell).active.pc.toNat) :
    ¬ ((s.cell i.cell).active.user = true ∧ (s.cell i.cell).active.pc.toNat < 0x1800) := fun h => Nat.not_lt.mpr (hplace h.1) h.2

variable (hrun : s.cellIssues i.cell = true)
include hrun

/-- A fetch from the firmware's memory in user mode. -/
theorem fetchWord_firmware (huser : (s.cell i.cell).active.user = true) (hpc : (s.cell i.cell).active.pc.toNat < 0x1800) :
    s.fetchWord i next = s.trap i.cell .privilege 0 6 (s.cell i.cell).active.pc.toNat := by
  simp only [State.fetchWord, hrun, not_true_eq_false, if_false, if_pos (And.intro huser hpc)]

variable (hplace : (s.cell i.cell).active.user = true → 0x1800 ≤ (s.cell i.cell).active.pc.toNat)
include hplace

theorem fetchWord_clean (hclean : i.fetch = .clean) : s.fetchWord i next = next s := by
  simp only [State.fetchWord, hrun, not_true_eq_false, if_false, if_neg (not_firmware_of_place hplace), hclean]

theorem fetchWord_uncorrectable (hbad : i.fetch = .uncorrectable) :
    s.fetchWord i next = s.cellTrap i.cell .uncorrectableI 0 2 (8 * (s.cell i.cell).active.pc.toNat) := by
  simp only [State.fetchWord, hrun, not_true_eq_false, if_false, if_neg (not_firmware_of_place hplace), hbad]

end

/-! ## The word's own rules (Table 12.12) -/

section
variable {c : Cell} {v : View} {entries : Nat} {w : VeWord}

theorem wordTrap_illegal (h : legalWord w = false) : wordTrap c v entries w = some .illegalWord := if_pos (by simp [h])

theorem wordTrap_forbidden (hlegal : legalWord w = true) (huser : v.bank.user = true) (h : userForbids w = true) :
    wordTrap c v entries w = some .privilege := by
  simp [wordTrap, hlegal, huser, h]

section
variable (hlegal : legalWord w = true) (hmode : v.bank.user = true → userForbids w = false)
include hmode

theorem not_forbidden_of_mode : ¬ (v.bank.user = true ∧ userForbids w = true) := fun h => by simp [hmode h.1] at h

include hlegal

theorem wordTrap_branch_delayed (hdelay : c.delay.isSome = true) (h : branchClass w = true) : wordTrap c v entries w = some .illegalSequence := by
  simp [wordTrap, hlegal, not_forbidden_of_mode hmode, hdelay, h]

theorem wordTrap_beside_q31 (hbranch : branchClass w = false) (hshadow : c.mpyShadow = true) (h : computes w = true) :
    wordTrap c v entries w = some .illegalSequence := by
  simp [wordTrap, hlegal, not_forbidden_of_mode hmode, hbranch, hshadow, h]

theorem wordTrap_control_repeated (hdelay : c.delay = none) (hshadow : c.mpyShadow = false) (hrep : 0 < c.rep) (h : controlOp w = true) :
    wordTrap c v entries w = some .illegalSequence := by
  simp [wordTrap, hlegal, not_forbidden_of_mode hmode, hdelay, hshadow, hrep, h]

end

/-- RETU in kernel mode: whatever check it comes to, it is out of sequence (R369). -/
theorem wordTrap_retu {m : TwoMoves} (hlegal : legalWord (ctlWord .retu m) = true) (huser : v.bank.user = false) :
    wordTrap c v entries (ctlWord .retu m) = some .illegalSequence := by
  simp only [wordTrap, hlegal, huser, not_true_eq_false, Bool.false_eq_true, false_and, if_false]
  split
  case isTrue => rfl
  case isFalse =>
    split
    case isTrue => rfl
    case isFalse =>
      split
      case isTrue => rfl
      case isFalse => rfl

/-- CALLU past the entries of the kernel (R369). -/
theorem wordTrap_callu {e : Fin 16} {m : TwoMoves} (hlegal : legalWord (ctlWord (.callu e) m) = true) (huser : v.bank.user = false)
    (h : entries ≤ e.val) : wordTrap c v entries (ctlWord (.callu e) m) = some .illegalSequence := by
  simp only [wordTrap, hlegal, huser, not_true_eq_false, Bool.false_eq_true, false_and, if_false]
  split
  case isTrue => rfl
  case isFalse =>
    split
    case isTrue => rfl
    case isFalse =>
      split
      case isTrue => rfl
      case isFalse => exact if_pos h

/-- TRAP is no operation of user mode (R350). -/
theorem user_of_wordTrap_trapOp {code : BitVec 8} {m : TwoMoves} (h : wordTrap c v entries (ctlWord (.trap code) m) = some .trapOp) :
    v.bank.user = false := by
  cases huser : v.bank.user with
  | false => rfl
  | true =>
    cases hl : legalWord (ctlWord (.trap code) m) with
    | false => cases h.symm.trans (wordTrap_illegal hl)
    | true => cases h.symm.trans (wordTrap_forbidden hl huser rfl)

end

/-! ## The word at D -/

section
variable {i : Issue} {w : VeWord} {s : State}

theorem issueWord_traps {k : TrapCause} (h : wordTrap ((settled i s).cell i.cell) (viewOf i s) s.kernelEntries w = some k) :
    s.issueWord i w = (settled i s).trap i.cell k (if k = .trapOp then trapCodeOf w else 0) 6 ((settled i s).cell i.cell).active.pc.toNat := by
  simp only [viewOf, settled] at h
  simp only [State.issueWord, settled, h]

theorem issueWord_access_traps (hpass : wordTrap ((settled i s).cell i.cell) (viewOf i s) s.kernelEntries w = none) {x : Access}
    (hx : (accessesOf (viewOf i s) w).head? = some x) {k : TrapCause}
    (hk : accessTrap ((settled i s).cell i.cell).bank (viewOf i s).bank.user (0 < ((settled i s).cell i.cell).rep) x = some k) :
    s.issueWord i w = (settled i s).trap i.cell k 0 6 ((settled i s).cell i.cell).active.pc.toNat := by
  have ht : accessTraps ((settled i s).cell i.cell) (viewOf i s) (accessesOf (viewOf i s) w) = some k := by
    obtain ⟨r, hr⟩ := List.head?_eq_some_iff.mp hx
    rw [hr, accessTraps, List.findSome?_cons, hk]
  simp only [viewOf, settled, accessesOf] at hpass ht
  simp only [State.issueWord, settled, hpass, ht]

end

end Sys2Proof.Machine
end

section
/-! The words that steer the sequence of a program, and what the checks at D make of a word: each row's writes and what follows its delay words
(R335, R353, R357, R366, R367, R369, Tables 13.4, 13.7, 13.9). -/

namespace Sys2Proof.Machine

open Sys2Proof.Safety

/-! ## Slots -/

/-- A slot row carries its word out with the writes that its slot makes. -/
theorem slotWrites_of_writes {c : Instr} {i : Issue} {t : Slot} {r : SlotRest} {s : State} {l : List WriteReq}
    (h : exec c s = .next (issueStep i (slotWord t r) s)) (hl : Machine.slotWrites (viewOf i s) t = l) : SlotWrites c i t r s l :=
  hl ▸ slotWrites_of_step h

/-! ## Control operations -/

/-- A control row carries its word out with the writes and the delayed effect that its operation has. -/
theorem controls_of_effect {c : Instr} {i : Issue} {k : Ctl} {m : TwoMoves} {s : State} {l : List WriteReq} {d : Delayed}
    (h : exec c s = .next (issueStep i (ctlWord k m) s)) (hi : Issues i (ctlWord k m) s)
    (hk : controlEffect (viewOf i s) (settled i s).store.kernel k = (l, d)) : Controls c i (ctlWord k m) s l d := by
  have hg : (settled i s).issueGood i.cell (viewOf i s) (ctlWord k m) =
      (settled i s).carryOut i.cell (viewOf i s) (ctlWord k m) (controlEffect (viewOf i s) (settled i s).store.kernel k).1
        (some (controlEffect (viewOf i s) (settled i s).store.kernel k).2) := rfl
  rw [Controls, h, issueStep_of_issues hi, hg, hk]

/-- BRLC counts LC down to 0 and branches while words remain (Table 13.9). -/
theorem controlEffect_brlc (v : View) (kernel : List Byte) (target : BitVec 13) :
    controlEffect v kernel (.brlc target) =
      (if v.nat rLC .loop = 0 then [] else [wrote .control rLC (v.nat rLC .loop - 1)],
       if 1 < v.nat rLC .loop then .jump target else .fall) := by
  simp only [controlEffect]
  rcases Nat.lt_trichotomy (v.nat rLC .loop) 1 with h | h | h
  · rw [if_pos (by omega), if_pos (by omega), if_neg (by omega)]
  · rw [if_neg (by omega), if_pos h, if_neg (by omega), if_neg (by omega)]
    rfl
  · rw [if_neg (by omega), if_neg (by omega), if_neg (by omega), if_pos h]
    rfl

/-- CALL where its condition holds keeps its link in D15; else nothing follows. -/
theorem controlEffect_call (v : View) (kernel : List Byte) (cond : Cond) (target : BitVec 13) :
    controlEffect v kernel (.call cond target) =
      (if v.holds cond then [wrote .compute (rD 15) ((v.bank.pc.toNat + 3) % 8192)] else [],
       if v.holds cond then .jump target else .fall) := by
  simp only [controlEffect]
  split <;> rfl

theorem settled_active_pc (i : Issue) (s : State) : ((settled i s).cell i.cell).active.pc = (s.cell i.cell).active.pc := by
  obtain ⟨-, -, -, -, -, -, -, -, hpc⟩ := settled_keeps i s
  exact hpc

theorem settled_active_user (i : Issue) (s : State) : ((settled i s).cell i.cell).active.user = (s.cell i.cell).active.user := by
  obtain ⟨-, -, -, -, -, -, -, huser, -⟩ := settled_keeps i s
  exact huser

/-- A TRAP operation traps at D with its code (R366). -/
theorem issueStep_trap {i : Issue} {code : BitVec 8} {m : TwoMoves} {s : State} (hrun : s.cellIssues i.cell = true) (hclean : i.fetch = .clean)
    (h : wordTrap ((settled i s).cell i.cell) (viewOf i s) s.kernelEntries (ctlWord (.trap code) m) = some .trapOp) :
    issueStep i (ctlWord (.trap code) m) s = (settled i s).trap i.cell .trapOp code.toNat 6 (s.cell i.cell).active.pc.toNat := by
  have hkernel : (s.cell i.cell).active.user = false := settled_active_user i s ▸ user_of_wordTrap_trapOp h
  have hplace : (s.cell i.cell).active.user = true → 0x1800 ≤ (s.cell i.cell).active.pc.toNat := fun q => absurd q (by simp [hkernel])
  rw [issueStep, fetchWord_clean hrun hplace hclean, issueWord_traps h, settled_active_pc]
  rfl

/-- Settles O25: each row issues its word, TRAP and words of no meaning trap at D. -/
theorem sequenceWordsIssue : Obligations.SequenceWordsIssue := by
  unfold Obligations.SequenceWordsIssue
  refine ⟨?slots, ?controls, ?illegal⟩
  case slots =>
    intro i r s v
    refine ⟨?aadd, ?amov, ?xferIn, ?xferOut, ?rep, ?replc, ?lci, ?asksN, ?asksLC, ?immediate, ?nop⟩
    case aadd => exact fun q k imm => slotWrites_of_writes rfl rfl
    case amov => exact fun dst di src si => slotWrites_of_writes rfl (by cases dst <;> rfl)
    case xferIn => exact fun cls idx d => slotWrites_of_writes rfl (by cases cls <;> rfl)
    case xferOut => exact fun cls idx d => slotWrites_of_writes rfl (by cases cls <;> rfl)
    case rep => exact fun n1 => slotWrites_of_writes rfl rfl
    case replc => exact slotWrites_of_writes rfl rfl
    case lci => exact fun imm => slotWrites_of_writes rfl rfl
    case asksN => exact fun n1 => rfl
    case asksLC => rfl
    case immediate => exact fun c dest hi => congrArg Host.Outcome.next (issueStep_of_issues hi)
    case nop => exact fun hi => congrArg Host.Outcome.next (issueStep_of_issues hi)
  case controls =>
    intro i m s v kernel
    refine ⟨?br, ?brlc, ?call, ?jmpr, ?callu, ?retu, ?done, ?trap⟩
    case br => exact fun cond target hi => controls_of_effect rfl hi rfl
    case brlc => exact fun target hi => controls_of_effect rfl hi (controlEffect_brlc v kernel target)
    case call => exact fun cond target hi => controls_of_effect rfl hi (controlEffect_call v kernel cond target)
    case jmpr => exact fun cond k hi => controls_of_effect rfl hi rfl
    case callu => exact fun entry hi => controls_of_effect rfl hi rfl
    case retu => exact fun hi => controls_of_effect rfl hi rfl
    case done => exact fun commit hi => controls_of_effect rfl hi rfl
    case trap => exact fun code hrun hclean htrap => congrArg Host.Outcome.next (issueStep_trap hrun hclean htrap)
  case illegal =>
    intro i w s hrun hclean hplace
    have hexec : exec (.illegalWord i w) s = execIllegalWord i w s := rfl
    rw [hexec, execIllegalWord]
    refine ⟨fun h => ?_, fun x h => ?_⟩
    · simp only [h, illegalStep, fetchWord_clean hrun hplace hclean]
    · simp only [h]

/-- Settles O26: the fetch first, then the word's own rules, then its accesses. -/
theorem wordsAreCheckedAtD : Obligations.WordsAreCheckedAtD := by
  unfold Obligations.WordsAreCheckedAtD
  refine ⟨?fetch, ?word⟩
  case fetch =>
    exact fun i w s => ⟨fetchWord_idle, fetchWord_firmware, fetchWord_uncorrectable⟩
  case word =>
    intro i w s hrun hclean hplace c trapped
    have raise : ∀ k, k ≠ .trapOp → wordTrap c (viewOf i s) s.kernelEntries w = some k → trapped k := fun k hk h => by
      change issueStep i w s = _
      rw [issueStep, fetchWord_clean hrun hplace hclean, issueWord_traps h, if_neg hk]
    refine ⟨?illegal, ?forbidden, ?delayed, ?besideQ31, ?repeated, ?retu, ?callu, ?access⟩
    case illegal => exact fun h => raise _ (by decide) (wordTrap_illegal h)
    case forbidden => exact fun hl hu h => raise _ (by decide) (wordTrap_forbidden hl hu h)
    case delayed => exact fun hl hm hd h => raise _ (by decide) (wordTrap_branch_delayed hl hm hd h)
    case besideQ31 => exact fun hl hm hb hs h => raise _ (by decide) (wordTrap_beside_q31 hl hm hb hs h)
    case repeated => exact fun hl hm hd hs hr h => raise _ (by decide) (wordTrap_control_repeated hl hm hd hs hr h)
    case retu => exact fun m hw hl hu => raise _ (by decide) (hw ▸ wordTrap_retu (hw ▸ hl) hu)
    case callu => exact fun e m hw hl hu h => raise _ (by decide) (hw ▸ wordTrap_callu (hw ▸ hl) hu h)
    case access =>
      intro x hx k hpass hk
      change issueStep i w s = _
      rw [issueStep, fetchWord_clean hrun hplace hclean, issueWord_access_traps hpass hx hk]

end Sys2Proof.Machine
end

section
/-! Data accesses and memories: where an address leads, what an access there may do, and what a memory answers after a store (R315 to R318, R336,
R343, R344, R350, R372, R396). -/

namespace Sys2Proof.Machine

open Sys2Proof.Safety

/-! ## Places (Tables 12.2, 12.10, 12.11 and 14.6) -/

section
variable {bank yside : Bool} {a : Nat}

theorem placeOf_pages (h : a < 0xC000) : placeOf bank yside a = .memory (pageBase bank + a) false := if_pos h

theorem placeOf_common (hlo : 0x10000 ≤ a) (hhi : a < 0x18000) : placeOf bank yside a = .memory (0x18000 + (a - 0x10000)) true := by
  rw [placeOf, if_neg (by omega), if_pos ⟨hlo, hhi⟩]

theorem placeOf_block (hx : yside = false) (hlo : 0x200000 ≤ a) (hhi : a < 0x400000) : placeOf bank yside a = .block (a - 0x200000) := by
  rw [placeOf, if_neg (by omega), if_neg (by omega), if_pos ⟨by simp [hx], hlo, hhi⟩]

theorem placeOf_port (hy : yside = true) (hlo : 0x400000 ≤ a) (hhi : a < 0x400500) : placeOf bank yside a = .port (a - 0x400000) := by
  rw [placeOf, if_neg (by omega), if_neg (by omega), if_neg (by simp [hy]), if_pos ⟨hy, hlo, hhi⟩]

theorem placeOf_status (hy : yside = true) (hlo : 0x401000 ≤ a) (hhi : a < 0x401100) : placeOf bank yside a = .status (a - 0x401000) := by
  rw [placeOf, if_neg (by omega), if_neg (by omega), if_neg (by simp [hy]), if_neg (by omega), if_pos ⟨hy, hlo, hhi⟩]

/-- The Y side has no block memory. -/
theorem placeOf_y_rsvd (hy : yside = true) (hlo : 0x200000 ≤ a) (hhi : a < 0x400000) : placeOf bank yside a = .rsvd := by
  rw [placeOf, if_neg (by omega), if_neg (by omega), if_neg (by simp [hy]), if_neg (by omega), if_neg (by omega)]

theorem placeOf_beyond (h : 0x401100 ≤ a) : placeOf bank yside a = .rsvd := by
  rw [placeOf, if_neg (by omega), if_neg (by omega), if_neg (by omega), if_neg (by omega), if_neg (by omega)]

end

/-! ## What an access may do -/

section
variable {bank user rep : Bool} {x : Access}

/-- Outside a repeated word a misaligned access traps as such wherever it leads (R317). -/
theorem accessTrap_misaligned (hrep : rep = false) (h : x.addr % x.width ≠ 0) : accessTrap bank user rep x = some .alignment := by
  unfold accessTrap
  split <;> simp [hrep, h]

/-- In the cell's own memories a misaligned access traps as such in a repeated word too (R317, R336). -/
theorem accessTrap_memory_misaligned {phys : Nat} {common : Bool} (hp : placeOf bank x.yside x.addr = .memory phys common)
    (h : x.addr % x.width ≠ 0) : accessTrap bank user rep x = some .alignment := by
  simp only [accessTrap, hp]
  rw [if_pos h]

theorem accessTrap_misaligned_reached (h : x.addr % x.width ≠ 0)
    (hreach : rep = false ∨ x.addr < 0xC000 ∨ (0x10000 ≤ x.addr ∧ x.addr < 0x18000)) : accessTrap bank user rep x = some .alignment := by
  rcases hreach with hrep | hpages | ⟨hlo, hhi⟩
  · exact accessTrap_misaligned hrep h
  · exact accessTrap_memory_misaligned (placeOf_pages hpages) h
  · exact accessTrap_memory_misaligned (placeOf_common hlo hhi) h

/-- Nothing stands at a reserved address (R316). -/
theorem accessTrap_rsvd (hp : placeOf bank x.yside x.addr = .rsvd) (hrep : rep = false) (h : x.addr % x.width = 0) :
    accessTrap bank user rep x = some .address := by
  simp [accessTrap, hp, hrep, h]

/-- The dispatcher's areas by their logical addresses (R396). -/
theorem dispatcherArea_logical {a : Nat} (h : 0x200000 ≤ a) : dispatcherArea (a - 0x200000) = true ↔ 0x3B0000 ≤ a ∧ a < 0x3E4000 := by
  rw [dispatcherArea, decide_eq_true_iff]
  omega

end

/-- Settles O30: the access's place, and what Table 12.2 lets it do there. -/
theorem accessesAreChecked : Obligations.AccessesAreChecked := by
  unfold Obligations.AccessesAreChecked
  intro bank user rep x t
  refine ⟨?pages, ?common, ?block, ?port, ?status, ?yBlock, ?beyond⟩
  case pages =>
    intro h
    simp only [t, accessTrap, placeOf_pages h, Bool.false_eq_true, if_false, decide_eq_true_eq]
  case common =>
    intro hlo hhi
    simp only [t, accessTrap, placeOf_common hlo hhi, if_true]
  case block =>
    intro hx hlo hhi
    simp only [t, accessTrap, placeOf_block hx hlo hhi, dispatcherArea_logical hlo]
  case port =>
    intro hy hlo hhi
    simp only [t, accessTrap, placeOf_port hy hlo hhi]
  case status =>
    intro hy hlo hhi
    simp only [t, accessTrap, placeOf_status hy hlo hhi]
  case yBlock => exact fun hy hlo hhi hrep h => accessTrap_rsvd (placeOf_y_rsvd hy hlo hhi) hrep h
  case beyond => exact fun hlo hrep h => accessTrap_rsvd (placeOf_beyond hlo) hrep h

/-- The widths of Table 13.3. -/
theorem moveWidth_of_pointer {m : Move} {q : Nat × AMode} (h : movePtr m = some q) :
    moveWidth m = 2 ∨ moveWidth m = 4 ∨ moveWidth m = 8 ∨ moveWidth m = 16 := by
  cases m <;> simp_all [movePtr, moveWidth]

theorem moveAccess_width {v : View} {y : Bool} {m : Move} {x : Access} {z : Option WriteReq} (h : moveAccess v y m = some (x, z)) :
    x.width = moveWidth m ∧ ∃ q, movePtr m = some q := by
  unfold moveAccess at h
  split at h
  · cases h
  · next hq =>
    cases h
    exact ⟨rfl, _, hq⟩

/-- Settles O29: the widths of Table 13.3, and the trap of the first access. -/
theorem misalignedAccessTraps : Obligations.MisalignedAccessTraps := by
  unfold Obligations.MisalignedAccessTraps
  refine ⟨?widths, ?traps, ?issues⟩
  case widths =>
    intro v y m x z h
    obtain ⟨hw, q, hq⟩ := moveAccess_width h
    rw [hw]
    exact moveWidth_of_pointer hq
  case traps => exact fun bank user rep x h hreach => accessTrap_misaligned_reached h hreach
  case issues =>
    intro i w s x hrun hclean hplace c hpass hx h hreach
    have hrep : decide (0 < c.rep) = false ∨ x.addr < 0xC000 ∨ (0x10000 ≤ x.addr ∧ x.addr < 0x18000) :=
      hreach.imp_left fun h0 => by simp [h0]
    rw [issueStep, fetchWord_clean hrun hplace hclean, issueWord_access_traps hpass hx (accessTrap_misaligned_reached h hrep)]

/-! ## Memories -/

theorem memRead_memWrite (m : List Host.Cell) (a : Nat) (l : List Byte) : memRead (memWrite m a l) a l.length = l := by
  refine List.ext_getElem (by simp [memRead]) fun i h _ => ?_
  have hi : i < l.length := by simpa [memRead] using h
  simp [memRead, memByte_memWrite_in l m a i hi]

/-- What is wiped reads 0. -/
theorem memByte_memWipe_in (m : List Host.Cell) {a n b : Nat} (hlo : a ≤ b) (hhi : b < a + n) : memByte (memWipe m a n) b = 0 := by
  induction m with
  | nil => rfl
  | cons e r ih =>
    obtain ⟨k, v⟩ := e
    by_cases hk : k < a ∨ a + n ≤ k
    · have hne : k ≠ b := by omega
      simpa [memByte, memWipe, hk, tabGet, hne] using ih
    · simpa [memByte, memWipe, hk] using ih

/-- Bytes outside what is wiped stay. -/
theorem memByte_memWipe_out (m : List Host.Cell) {a n b : Nat} (h : b < a ∨ a + n ≤ b) : memByte (memWipe m a n) b = memByte m b := by
  induction m with
  | nil => rfl
  | cons e r ih =>
    obtain ⟨k, v⟩ := e
    by_cases hk : k < a ∨ a + n ≤ k
    · by_cases he : k = b
      · subst he
        simp [memByte, memWipe, hk, tabGet]
      · simpa [memByte, memWipe, hk, tabGet, he] using ih
    · have hne : k ≠ b := fun he => hk (he ▸ h)
      simpa [memByte, memWipe, hk, tabGet, hne] using ih

theorem memRead_memWipe (m : List Host.Cell) (a n : Nat) : memRead (memWipe m a n) a n = zeroBytes n := by
  refine List.ext_getElem (by simp [memRead, zeroBytes]) fun i h _ => ?_
  have hi : i < n := by simpa [memRead] using h
  simp [memRead, zeroBytes, memByte_memWipe_in m (Nat.le_add_right a i) (Nat.add_lt_add_left hi a)]

/-- Settles O59: the memory laws, byte by byte. -/
theorem memoriesHoldWhatIsStored : Obligations.MemoriesHoldWhatIsStored := by
  unfold Obligations.MemoriesHoldWhatIsStored
  intro m a l hm
  refine ⟨memoryWf_memWrite a l hm, memRead_memWrite m a l, fun b h => memByte_memWrite_out l m a b h, fun n => ?_⟩
  exact ⟨memoryWf_memWipe a n hm, memRead_memWipe m a n, fun b h => memByte_memWipe_out m h⟩

end Sys2Proof.Machine
end

section
/-! What a word that moves no data leaves of its cell when it is carried out (R331, R332, R344). -/

namespace Sys2Proof.Machine

open Sys2Proof.Safety

/-- A cell with no thread in its shadow has nothing to swap to (R382). -/
theorem swapIfDue_no_shadow {s : State} {n : Nat} (h : (s.cell n).shadow = none) : s.swapIfDue n = s := by
  simp [State.swapIfDue, State.shadowReady, h]

/-- The cell once a word has issued in one cycle and left `b` in its active bank. -/
def movedOn (w : VeWord) (b : Bank) (c : Cell) : Cell :=
  { c.setActive b with mpyShadow := isQ31 (wordComp w), issued := c.issued + 1, cycle := c.cycle + 1, sinceSwap := c.sinceSwap + 1 }

@[simp] theorem movedOn_active (w : VeWord) (b : Bank) (c : Cell) : (movedOn w b c).active = b := setActive_active c b
@[simp] theorem movedOn_shadow (w : VeWord) (b : Bank) (c : Cell) : (movedOn w b c).shadow = c.shadow := setActive_shadow c b

section
variable {v : View} {w : VeWord} {c : Cell}

theorem noteCall_none (hcall : ∀ e, w ≠ .control (.callu e) (wordX w) (wordY w)) : noteCall v w c = c := by
  unfold noteCall
  split
  · exact absurd rfl (hcall _)
  · rfl

theorem repAsked_none (hrep : ∀ n, wordSlot w ≠ .rep n) (hreplc : wordSlot w ≠ .replc) : repAsked v w = none := by
  unfold repAsked
  split
  · next h => exact absurd h (hrep _)
  · next h => exact absurd h hreplc
  · rfl

/-- Outside a repetition and a delay place a word that asks for no repetition moves the PC one further (R367). -/
theorem stepPc_next (hrep : c.rep = 0) (hdelay : c.delay = none) (hasked : repAsked v w = none) :
    stepPc c v w none = { c.setActive { c.active with pc := c.active.pc + 1 } with mpyShadow := isQ31 (wordComp w) } := by
  simp [stepPc, hrep, hasked, hdelay]

end

/-- A cell after a word without stalls: its writes put into flight, and its PC and counts gone on. -/
def wordCarried (v : View) (w : VeWord) (l : List WriteReq) (c : Cell) : Cell :=
  let b := addWrites c.active v.now l
  let c2 := stepPc (noteCall v w (c.setActive (if b.user then { b with userCycles := b.userCycles + 1 } else b))) v w none
  { c2 with issued := c2.issued + 1, cycle := c2.cycle + 1, stall := c2.stall + 0, sinceSwap := c2.sinceSwap + 1 }

section
variable {v : View} {w : VeWord} (hx : wordX w = .nop) (hy : wordY w = .nop)
include hx hy

/-- A word without moves stalls for nothing: its cell changes, and what its delay place and a swap that is due ask for follows. -/
theorem carryOut_no_moves (s : State) (n : Nat) (l : List WriteReq) : s.carryOut n v w l none =
    (match (s.cell n).delay with
     | some (1, _) => (s.modCell n (wordCarried v w l)).afterDelay n
     | _ => s.modCell n (wordCarried v w l)).swapIfDue n := by
  rw [State.carryOut, hx, hy]
  rfl

variable (hcall : ∀ e, w ≠ .control (.callu e) .nop .nop) (hasked : repAsked v w = none)
include hcall hasked

/-- In firmware a word that neither is repeated nor asks for a repetition leaves its writes in flight and the PC one further. -/
theorem wordCarried_next {c : Cell} (hrep : c.rep = 0) (hdelay : c.delay = none) (huser : c.active.user = false) (l : List WriteReq) :
    wordCarried v w l c = movedOn w { addWrites c.active v.now l with pc := c.active.pc + 1 } c := by
  have hbank : (addWrites c.active v.now l).user = false := huser
  have hpc : (addWrites c.active v.now l).pc = c.active.pc := rfl
  simp only [wordCarried, hbank, Bool.false_eq_true, if_false]
  rw [noteCall_none (by rw [hx, hy]; exact hcall), stepPc_next (by simpa using hrep) (by simpa using hdelay) hasked]
  cases hb : c.bank <;> simp [movedOn, Cell.setActive, Cell.active, hb] at hbank hpc ⊢ <;> simp [hbank, hpc]

/-- The same of the machine, where no thread waits in the cell's shadow: nothing but the cell changes. -/
theorem carryOut_next {s : State} {n : Nat} (hrep : (s.cell n).rep = 0) (hdelay : (s.cell n).delay = none) (hshadow : (s.cell n).shadow = none)
    (huser : (s.cell n).active.user = false) (l : List WriteReq) : s.carryOut n v w l none =
      s.setCell n (movedOn w { addWrites (s.cell n).active v.now l with pc := (s.cell n).active.pc + 1 } (s.cell n)) := by
  rw [carryOut_no_moves hx hy, hdelay, ← wordCarried_next hx hy hcall hasked hrep hdelay huser]
  refine swapIfDue_no_shadow ?_
  rw [State.modCell_cell_same, wordCarried_next hx hy hcall hasked hrep hdelay huser, movedOn_shadow, hshadow]

end

/-- Settles O27: the settled cell, moved on by one word. -/
theorem carriedOutWordMovesOn : Obligations.CarriedOutWordMovesOn := by
  unfold Obligations.CarriedOutWordMovesOn
  intro i w l s hx hy hnorep hnolc hcall hrep hdelay hshadow huser t b c
  obtain ⟨krep, kdelay, kshadow, -, kissued, kcycle, kstall, kuser, -⟩ := settled_keeps i s
  have ht : t = (settled i s).setCell i.cell (movedOn w { addWrites b (viewOf i s).now l with pc := b.pc + 1 } ((settled i s).cell i.cell)) :=
    carryOut_next hx hy hcall (repAsked_none hnorep hnolc) (krep.trans hrep) (kdelay.trans hdelay) (kshadow.trans hshadow) (kuser.trans huser) l
  have hc : c = movedOn w { addWrites b (viewOf i s).now l with pc := b.pc + 1 } ((settled i s).cell i.cell) := by
    rw [← State.setCell_cell_same (settled i s) i.cell (movedOn _ _ _), ← ht]
  have hbank : c.active = { addWrites b (viewOf i s).now l with pc := b.pc + 1 } := by rw [hc, movedOn_active]
  refine ⟨?regs, ?pc, ?flight, ?user, ?issued, ?cycle, ?stall, ?others, ?channels, ?blocks⟩
  case regs => rw [hbank]; rfl
  case pc => rw [hbank]
  case flight => rw [hbank]
  case user => rw [hbank]; exact kuser.trans huser
  case issued => rw [hc, movedOn, kissued]
  case cycle => rw [hc, movedOn, kcycle]
  case stall => rw [hc, movedOn]; simpa using kstall
  case others =>
    intro m hm
    rw [ht, State.setCell_cell_ne _ _ _ _ hm, settled, State.modCell_cell_ne _ _ _ _ hm]
  case channels => rw [ht]; rfl
  case blocks => rw [ht]; rfl

end Sys2Proof.Machine
end

section
/-! What a halting trap leaves of its cell, and how a thread is released, begins its run and ends it (R29, R343, R346, R374, R391, R521). -/

namespace Sys2Proof.Machine

/-! ## Halting traps (R343, R346, R521) -/

section
variable {k : TrapCause} {code now : Nat} {c : Cell}

theorem haltCell_not_inService : cellInService (haltCell k code now c) = false := rfl

/-- Only a memory error retires a cell. -/
theorem haltCell_retired_other (h : 4 ≤ trapCode k) : (haltCell k code now c).retired = c.retired := by
  simp [haltCell, Nat.not_le.mpr h]

theorem haltCell_retired_memory (h : trapCode k ≤ 3) :
    (haltCell k code now c).retired = (c.retired || c.memTraps.any (fun t => decide (now < t + 86400000000000))) := by
  simp [haltCell, h]

theorem haltCell_first_of_day (h : trapCode k ≤ 3) (hold : ∀ t ∈ c.memTraps, t + 86400000000000 ≤ now) :
    (haltCell k code now c).retired = c.retired := by
  have hnone : c.memTraps.any (fun t => decide (now < t + 86400000000000)) = false := by simpa using hold
  rw [haltCell_retired_memory h, hnone, Bool.or_false]

theorem haltCell_second_of_day (h : trapCode k ≤ 3) (hold : ∃ t ∈ c.memTraps, now < t + 86400000000000) :
    (haltCell k code now c).retired = true := by
  have hsome : c.memTraps.any (fun t => decide (now < t + 86400000000000)) = true := by simpa using hold
  rw [haltCell_retired_memory h, hsome, Bool.or_true]

end

/-! ## Releases and ends of runs (R374, R391) -/

/-- A release makes a WAITING thread READY and leaves any other in its state. -/
theorem tickRelease_eq (p : Nat) (t : Thread) : tickRelease p t =
    { t with tickPend := true, tick := p / 80, deadline := 125000 * p + 1000 * t.budget, missed := false,
             skips := if t.tickPend then t.skips + 1 else t.skips, state := if t.state = .waiting then .ready else t.state } := by
  by_cases h : t.state = .waiting
  · simp only [tickRelease, if_pos h]
  · simp only [tickRelease, if_neg h]

/-- Settles O32: the halted cell, the released thread, the ended run and the begun one, field by field. -/
theorem trapsReleasesAndEndsOfRuns : Obligations.TrapsReleasesAndEndsOfRuns := by
  unfold Obligations.TrapsReleasesAndEndsOfRuns
  refine ⟨?halt, ?release, ?ended, ?begun⟩
  case halt =>
    exact fun k code now c => ⟨rfl, rfl, rfl, rfl, rfl, rfl, rfl, rfl, rfl, haltCell_not_inService, rfl, rfl, rfl,
      haltCell_retired_other, haltCell_first_of_day, haltCell_second_of_day⟩
  case release =>
    intro p t u
    have hu : u = _ := tickRelease_eq p t
    rw [hu]
    exact ⟨rfl, rfl, rfl, rfl, fun h => if_pos h, fun h => if_neg h, fun h => if_pos h, fun h => if_neg (by simp [h]), rfl, rfl, rfl, rfl⟩
  case ended =>
    intro t u
    refine ⟨fun h => if_pos h, fun h1 h2 h3 => if_neg (by simp [h1, h2, h3]), rfl, rfl, rfl, rfl⟩
  case begun => exact fun t => ⟨rfl, rfl, rfl, rfl, rfl, rfl⟩

end Sys2Proof.Machine
end

section
/-! The events of a block's threads, each carried out by its step: phases, staging and suspend records, commits, deadlines, signal and notice
records, and rebuilt contexts (R343, R374, R377 to R379, R382 to R384, R387, R388, R390, R392, R426, R519). -/

namespace Sys2Proof.Machine

open Sys2Proof.Safety

theorem exec_phaseBoundary (b : Nat) (s : State) : exec (.phaseBoundary b) s = .next (phaseBoundaryStep b s) := rfl
theorem exec_stagingStart (n : Nat) (e : Ecc) (s : State) : exec (.stagingStart n e) s = .next (stagingStartStep n e s) := rfl
theorem exec_stagingComplete (n : Nat) (s : State) : exec (.stagingComplete n) s = .next (stagingCompleteStep n s) := rfl
theorem exec_suspendSave (n : Nat) (s : State) : exec (.suspendSave n) s = .next (suspendSaveStep n s) := rfl
theorem exec_commitComplete (b : Nat) (e : Ecc) (s : State) : exec (.commitComplete b e) s = .next (commitCompleteStep b e s) := rfl
theorem exec_deadlineMiss (b t : Nat) (s : State) : exec (.deadlineMiss b t) s = .next (deadlineMissStep b t s) := rfl
theorem exec_signalRecord (b sender seq t value : Nat) (s : State) :
    exec (.signalRecord b sender seq t value) s = .next (signalRecordStep b sender seq t value s) := rfl
theorem exec_contextRebuilt (c : Nat) (s : State) : exec (.contextRebuilt c) s = .next (contextRebuiltStep c s) := rfl
theorem exec_noticeRecord (b : Nat) (s : State) : exec (.noticeRecord b) s = .next (noticeRecordStep b s) := rfl

/-! ## Reading a block's threads and records back -/

/-- A change of a block that is none of its threads leaves every thread as it was. -/
theorem State.modBlock_thread (s : State) (b d t : Nat) {f : Block → Block} (hf : ∀ k, (f k).threads = k.threads) :
    (s.modBlock b f).thread d t = s.thread d t := by
  unfold State.thread blockThread
  by_cases h : d = b
  · rw [h, State.modBlock_block_same, hf]
  · rw [State.modBlock_block_ne _ _ _ _ h]

@[simp] theorem State.bumpBlock_thread (s : State) (b d t : Nat) (c : BlockCount) : (s.bumpBlock b c).thread d t = s.thread d t :=
  s.modBlock_thread b d t (fun _ => by rfl)

@[simp] theorem State.bumpBlock_saves (s : State) (b : Nat) (c : BlockCount) : ((s.bumpBlock b c).block b).saves = (s.block b).saves := by
  rw [State.bumpBlock, State.modBlock_block_same]

@[simp] theorem State.modCell_thread (s : State) (n b t : Nat) (f : Cell → Cell) : (s.modCell n f).thread b t = s.thread b t := rfl

@[simp] theorem State.modChannel_thread (s : State) (c b t : Nat) (f : Channel → Channel) : (s.modChannel c f).thread b t = s.thread b t := rfl

@[simp] theorem tabFind?_tabPut_same {α : Type} (t : Tab α) (k : Nat) (v : α) : tabFind? (tabPut t k v) k = some v := by
  induction t with
  | nil => simp [tabPut, tabFind?]
  | cons e r ih =>
    obtain ⟨j, w⟩ := e
    simp only [tabPut]
    split
    · simp [tabFind?]
    · split
      · simp [tabFind?]
      · next h => simp [tabFind?, Ne.symm h, ih]

/-! ## PHASE_BOUNDARY (R374, R383) -/

/-- A release keeps the time. -/
theorem releaseOne_absPhase (s : State) (b p : Nat) (e : Nat × Thread) : (s.releaseOne b p e).absPhase = s.absPhase := by
  unfold State.releaseOne State.absPhase
  dsimp only
  split <;> simp only [State.bumpBlock_clocks, State.modThread_clocks]

/-- The releases of a phase are all of that phase. -/
theorem foldl_releaseOne_absPhase (b p : Nat) (l : List (Nat × Thread)) (s : State) (h : s.absPhase = p) :
    l.foldl (fun s e => s.releaseOne b p e) s = l.foldl (fun s e => s.releaseOne b s.absPhase e) s := by
  induction l generalizing s with
  | nil => simp only [List.foldl_nil]
  | cons e r ih =>
    simpa only [List.foldl_cons, h] using ih _ ((releaseOne_absPhase s b p e).trans h)

theorem phaseBoundaryStep_new {b : Nat} {s : State} (hrun : s.blockRuns b = true) (hnew : (s.block b).lastPhase ≠ some s.absPhase) :
    phaseBoundaryStep b s = (let s0 := s.modBlock b (fun k => { k with lastPhase := some s.absPhase })
      (List.range 8).foldl (fun s i => s.decideCell b i) ((s0.releasedSlots b s.absPhase).foldl (fun s e => s.releaseOne b s.absPhase e) s0)) := by
  have h : ¬ (¬ s.blockRuns b = true ∨ (s.block b).lastPhase = some s.absPhase) := by simp [hrun, hnew]
  simp only [phaseBoundaryStep, if_neg h]
  rw [foldl_releaseOne_absPhase b s.absPhase (h := by rfl)]

/-! ## Staging (R379, R382, R387) -/

theorem shadowBank_running (c : Cell) (k : Bank) : (shadowBank c k).running = c.running := by
  unfold shadowBank
  split <;> rfl

/-- What staging writes is in the cell alone. -/
theorem stageInto_cell (s : State) (b n i : Nat) (t : Thread) :
    (s.stageInto b n i t).blocks = s.blocks ∧ (s.stageInto b n i t).channels = s.channels ∧
      ((s.stageInto b n i t).cell n).running = (s.cell n).running := by
  unfold State.stageInto
  dsimp only
  split
  · simp only [State.modCell_blocks, State.modCell_channels, State.modCell_cell_same, restoreShadow, shadowBank_running, and_self]
  · simp only [State.drawn_blocks, State.drawn_channels, State.drawn_at_cell, State.modCell_blocks, State.modCell_channels,
      State.modCell_cell_same, fillShadow, shadowBank_running, and_self]

section
variable {n i : Nat} {t : Thread} {s : State}

/-- The machine once thread `t` of slot `i` is being staged into the empty shadow of cell `n`. -/
def State.staged (s : State) (n i : Nat) (t : Thread) : State :=
  ((s.stageInto (cellBlock n) n i t).modCell n (fun c => { c with shadow := some i })).modThread (cellBlock n) i
    (fun k => if k.state = .suspended then k else { k with state := .staging })

theorem stageNew_clean (hshadow : (s.cell n).shadow = none) (hgood : i < 1024 → (s.channel t.channel).slotBad = false) :
    s.stageNew (cellBlock n) n i t .clean = s.staged n i t := by
  have hfound : ¬ (i < 1024 ∧ t.state ≠ .suspended ∧ (s.channel t.channel).slotBad = true) := fun h => by simp [hgood h.1] at h
  simp only [State.stageNew, hshadow, if_neg hfound]
  rfl

theorem stagingStartStep_free (hrun : s.blockRuns (cellBlock n) = true) (hcell : cellInService (s.cell n) = true)
    (hshadow : (s.cell n).shadow = none) (hcopies : s.copiesLeft n = []) (hidle : (s.cell n).running ≠ some i)
    (hcand : candidate (s.absPhase + 1) s.mayRun (s.block (cellBlock n)) (cellLocal n) = some (i, t)) (e : Ecc) :
    stagingStartStep n e s = s.stageNew (cellBlock n) n i t e := by
  simp [stagingStartStep, hrun, hcell, hcopies, hcand, hshadow, hidle]

theorem staged_frame (ht : s.thread (cellBlock n) i = t) (hstate : t.state ≠ .suspended) :
    ((s.staged n i t).cell n).shadow = some i ∧ ((s.staged n i t).thread (cellBlock n) i).state = .staging ∧
      ((s.staged n i t).cell n).running = (s.cell n).running ∧ (s.staged n i t).channels = s.channels := by
  obtain ⟨hblocks, hchannels, hrunning⟩ := stageInto_cell s (cellBlock n) n i t
  have hthread : (s.stageInto (cellBlock n) n i t).thread (cellBlock n) i = t := by
    unfold State.thread State.block at ht ⊢
    rw [hblocks, ht]
  refine ⟨?_, ?_, ?_, hchannels⟩
  · simp [State.staged]
  · rw [State.staged, State.modThread_thread_same, State.modCell_thread, hthread, if_neg hstate]
  · simpa [State.staged] using hrunning

theorem stagingCompleteStep_staging (hshadow : (s.cell n).shadow = some i) (hstate : (s.thread (cellBlock n) i).state = .staging) :
    stagingCompleteStep n s = (s.modThread (cellBlock n) i (fun k => { k with state := .staged })).swapIfDue n := by
  simp [stagingCompleteStep, hshadow, hstate]

end

/-! ## SUSPEND_SAVE (R384) -/

/-- The bank and the page extents that a suspend record takes from the stage half of a cell. -/
def savedRecord (s : State) (n t : Nat) : SuspendRec :=
  let c := s.cell n
  let bank := drainBank (if c.bank then c.bank0 else c.bank1)
  let l := stageEntries (s.block (cellBlock n)).memory (s.thread (cellBlock n) t).stageList
  { bank := bank, xpage := pageOf c.xmem (pageBase (!c.bank)) (savedExtents l false bank.user),
    ypage := pageOf c.ymem (pageBase (!c.bank)) (savedExtents l true bank.user) }

theorem suspendSaveStep_saves {n t r : Nat} {s : State} (hshadow : (s.cell n).shadow = some t)
    (hstate : (s.thread (cellBlock n) t).state = .suspended) (hrec : (s.thread (cellBlock n) t).suspendRec = some r)
    (hleaves : s.staysNext n t = false) :
    suspendSaveStep n s = ((s.modBlock (cellBlock n) (fun k => { k with saves := tabPut k.saves r (savedRecord s n t) })).modCell n
      (fun c => { c with shadow := none })).bumpBlock (cellBlock n) .suspendSaves := by
  simp only [suspendSaveStep, hshadow, hstate, hrec, hleaves]
  rfl

/-! ## COMMIT_COMPLETE (R388) -/

theorem commitCompleteStep_ended {b : Nat} {k : CommitCopy} {r : List CommitCopy} {o : OpenRun} {l : List OpenRun} {s s1 : State} {c : Nat}
    (hcopy : (s.block b).commits = k :: r) (hslot : k.slot < 1024) (hheld : (s.thread b k.slot).state ≠ .free)
    (hc : c = (s.thread b k.slot).channel) (hruns : tabGet s.openRuns c [] = o :: l) (hended : o.ended = true)
    (hs1 : s1 = s.modBlock b (fun q => { q with commits := r })) :
    commitCompleteStep b .clean s =
      (({ s1 with openRuns := tabSet s.openRuns c l [] }.modChannel c
        (fun v => if v.state = ChState.idle then v else { v with format := s1.commitFormat b })).payOwed
          (owedBy (entryEvents o.entries))).contextLeaves c k.tick := by
  have hthread : s1.thread b k.slot = s.thread b k.slot := by rw [hs1]; exact s.modBlock_thread b b k.slot (fun _ => by rfl)
  have hopen : s1.openRuns = s.openRuns := by rw [hs1]; rfl
  have hgo : ¬ (1024 ≤ k.slot ∨ (s.thread b k.slot).state = .free) := by simp [hheld, hslot]
  simp only [commitCompleteStep, hcopy, ← hs1, hthread, if_neg hgo, ← hc, hopen, hruns, hended, reduceCtorEq, if_false,
    not_true_eq_false]

/-! ## DEADLINE_MISS (R390, R392) -/

theorem deadlineMissStep_late {b t : Nat} {s : State} (hopen : (s.thread b t).state = .running ∨ (s.thread b t).state = .suspended)
    (hfirst : (s.thread b t).missed = false) (hlate : (s.thread b t).deadline ≤ s.clocks.mediaNs) :
    deadlineMissStep b t s = if s.clocks.frost then (s.modThread b t (fun k => { k with missed := true })).bumpBlock b .frostMisses
      else (s.modThread b t (fun k => { k with missed := true, misses := k.misses + 1 })).bumpBlock b .misses := by
  refine if_neg ?_
  rcases hopen with h | h <;> simp [h, hfirst, Nat.not_lt.mpr hlate]

/-! ## SIGNAL_RECORD (R343, R378) -/

section
variable {b sender seq : Nat} {s : State} (hrun : s.blockRuns b = true) (hroom : (s.block b).fifo.length < fifoSize)
include hrun hroom

theorem signalRecordStep_first (t value : Nat) (h : (s.block b).taken.contains (sender, (s.thread b sender).tick, 4, seq) = false) :
    signalRecordStep b sender seq t value s = s.modBlock b (fun k =>
      { k with fifo := k.fifo ++ [(t, .signal value sender)], taken := k.taken ++ [(sender, (s.thread b sender).tick, 4, seq)],
               peakFifo := max k.peakFifo (k.fifo.length + 1) }) := by
  simp only [signalRecordStep, hrun, Nat.not_le.mpr hroom, h, not_true_eq_false, or_self, if_false, Bool.false_eq_true]

/-- A record taken already is discarded and counted (log entry 35). -/
theorem signalRecordStep_again (t value : Nat) (h : (s.block b).taken.contains (sender, (s.thread b sender).tick, 4, seq) = true) :
    signalRecordStep b sender seq t value s = s.bumpBlock b .signalDiscard := by
  simp only [signalRecordStep, hrun, Nat.not_le.mpr hroom, h, not_true_eq_false, or_self, if_false, if_true]

end

/-! ## CONTEXT_REBUILT (R519) -/

/-- The channel as its rebuilt context holds it. -/
def rebuiltChannel (v : Channel) : Channel :=
  { v with applied := v.accepted, runA := v.legA, runB := v.legB, counts := [], media := { v.media with restart := true, frosted := false } }

/-- A thread that can be staged again, on a context just rebuilt. -/
def rebuiltThread (k : Thread) : Thread := { k with rebuild := false, restart := true, first := true }

/-- The machine once the context of channel `c`, in slot `t`, is rebuilt. -/
def State.contextRebuilt (s : State) (c t : Nat) : State :=
  { s.modThread (s.channel c).block t rebuiltThread with openRuns := tabDrop s.openRuns c }.modChannel c rebuiltChannel

theorem contextRebuiltStep_rebuilds {c t : Nat} {s : State} (hslot : (s.channel c).slot = some t)
    (hrebuild : (s.thread (s.channel c).block t).rebuild = true) : contextRebuiltStep c s = s.contextRebuilt c t := by
  simp only [contextRebuiltStep, hslot, if_pos hrebuild]
  rfl

theorem contextRebuilt_thread (s : State) (c t : Nat) :
    (s.contextRebuilt c t).thread (s.channel c).block t = rebuiltThread (s.thread (s.channel c).block t) :=
  s.modThread_thread_same (s.channel c).block t rebuiltThread

theorem contextRebuilt_channel_same (s : State) (c t : Nat) : (s.contextRebuilt c t).channel c = rebuiltChannel (s.channel c) :=
  State.modChannel_channel_same _ c rebuiltChannel

theorem contextRebuilt_channel_ne (s : State) (t : Nat) {c d : Nat} (h : d ≠ c) : (s.contextRebuilt c t).channel d = s.channel d :=
  State.modChannel_channel_ne _ c d rebuiltChannel h

/-! ## NOTICE_RECORD (R343, R426) -/

theorem noticeRecordStep_cons {b : Nat} {k : NoticeRec} {r : List NoticeRec} {g : Group} {s : State} (hnext : (s.block b).notices = k :: r)
    (hg : [Group.system, .channel, .tone, .media, .flow, .time, .port, .tdm, .clockPower, .fault, .stack][k.group]? = some g) :
    noticeRecordStep b s = (s.modBlock b (fun q => { q with notices := r })).notice g k.v4 k.opcode k.target k.tlvs := by
  simp only [noticeRecordStep, hnext, hg]

/-- Settles O33: each event is its step, and the steps' equations say what they leave. -/
theorem threadEventsComplete : Obligations.ThreadEventsComplete := by
  unfold Obligations.ThreadEventsComplete Safety.Becomes
  simp only [exec_phaseBoundary, exec_stagingStart, exec_stagingComplete, exec_suspendSave, exec_commitComplete, exec_deadlineMiss,
    exec_signalRecord, exec_contextRebuilt, exec_noticeRecord, Host.Outcome.next.injEq]
  refine ⟨⟨?phase, ?start, ?complete, ?save⟩, ⟨?commit, ?deadline, ?signal, ?signalAgain, ?rebuilt⟩, ?notice⟩
  case phase => exact fun b s hrun hnew => phaseBoundaryStep_new hrun hnew
  case start =>
    intro n i t s hrun hcell hshadow hcopies hidle ht hcand hstate hgood
    refine ⟨s.staged n i t, ?_, staged_frame ht hstate⟩
    rw [stagingStartStep_free hrun hcell hshadow hcopies hidle hcand, stageNew_clean hshadow hgood]
  case complete => exact fun n t s hshadow hstate => stagingCompleteStep_staging hshadow hstate
  case save =>
    intro n t r s hshadow hstate hrec hleaves
    refine ⟨_, suspendSaveStep_saves hshadow hstate hrec hleaves, ?_, ?_, ?_, ?_⟩
    · simp
    · simpa [State.modBlock_thread] using hstate
    · simpa [State.modBlock_thread] using hrec
    · simp [savedRecord]
  case commit => exact fun b k r o l s hcopy hslot hheld hruns hended => commitCompleteStep_ended hcopy hslot hheld rfl hruns hended rfl
  case deadline =>
    intro b t s hopen hfirst hlate
    refine ⟨_, deadlineMissStep_late hopen hfirst hlate, ?_⟩
    cases hfrost : s.clocks.frost <;> simp [State.modThread_thread_same]
  case signal =>
    intro b sender seq t value s hrun hroom hnew
    refine ⟨_, signalRecordStep_first hrun hroom t value hnew, ?_, ?_, fun d hd => State.modBlock_block_ne _ _ _ _ hd⟩
    · rw [State.modBlock_block_same]
    · rw [State.modBlock_block_same]
  case signalAgain => exact fun b sender seq t value s hrun hroom h => signalRecordStep_again hrun hroom t value h
  case rebuilt =>
    intro c t s hslot hrebuild
    refine ⟨_, contextRebuiltStep_rebuilds hslot hrebuild, ?_⟩
    rw [contextRebuilt_thread, contextRebuilt_channel_same]
    exact ⟨rfl, rfl, rfl, rfl, rfl, fun d hd => contextRebuilt_channel_ne s t hd⟩
  case notice => exact fun b k r g s hnext hg => noticeRecordStep_cons hnext hg

end Sys2Proof.Machine
end

section
/-! The isolation of a block on a channel table that lists a channel twice (R522, Table 2.4). -/

namespace Sys2Proof.Machine

open Sys2Proof.Safety

/-- A move to block 0 of this device, from ACTIVE. -/
def moveToBlock0 : Move_ := { ref := none, from_ := .active, device := 0, block := 0, slot := 6, charge := (0, 0) }

/-- A machine whose channel table lists channel 5 twice: FAULTED in block 0 with a move left over, which is the entry that is read, and MIGRATING
into block 0 behind it. -/
def listedTwice : State :=
  { channels := [(5, { state := .faulted, slot := some 5, move := some moveToBlock0 }),
                 (5, { state := .migrating, slot := some 5, block := 1, move := some moveToBlock0 })] }

/-- Isolation leaves the FAULTED entry as it is, and finds the move of the entry behind it: the move it fails is that of the entry read, which goes
back to ACTIVE. -/
theorem isolationStep_listedTwice : ((isolationStep 0 false 0 listedTwice).channel 5).state = .active := by decide +kernel

/-- Refutes O31, in the last clause of BLOCK_ISOLATION: that every channel of the block ends FAULTED needs a channel table with one entry for each
channel, which the statement does not ask for. On `listedTwice` channel 5 of block 0 ends ACTIVE. -/
theorem not_cellAndBlockFaultEventsComplete : ¬ Obligations.CellAndBlockFaultEventsComplete := by
  unfold Obligations.CellAndBlockFaultEventsComplete
  rintro ⟨-, hisolation⟩
  obtain ⟨u, hexec, -, -, -, -, -, hfaults⟩ := (hisolation 0 0 false listedTwice).2 rfl
  have hstep : isolationStep 0 false 0 listedTwice = _ := Host.Outcome.next.inj hexec
  have hfaulted : (u.channel 5).state = .faulted := hfaults 5 (by decide) rfl (by decide)
  have hactive := isolationStep_listedTwice
  rw [hstep, State.logError_at_channel, hfaulted] at hactive
  cases hactive

end Sys2Proof.Machine
end

section
/-! The words of the vector engine and their 64 bits: at every level of Tables 13.1 to 13.10 a decoder answers exactly the values whose code it is
given (R352, R353). -/

namespace Sys2Proof

open Machine (compFits wordComp)

/-! ## Fields: a number is what its fields spell, at every cut -/

theorem bits_lt (w hi lo : Nat) : bits w hi lo < 2 ^ (hi + 1 - lo) := Nat.mod_lt _ (Nat.two_pow_pos _)

/-- The number that fields spell, each given by its width and its value, the lowest first. -/
@[simp] def packed : List (Nat × Nat) → Nat
  | [] => 0
  | (n, v) :: l => v + 2 ^ n * packed l

/-- The fields of `w` from bit `lo` up hold the values given. -/
@[simp] def Holds (w lo : Nat) : List (Nat × Nat) → Prop
  | [] => True
  | (n, v) :: l => bits w (lo + n - 1) lo = v ∧ Holds w (lo + n) l

theorem low_high_eq_iff {B a b x y : Nat} (ha : a < B) (hb : b < B) : a + B * x = b + B * y ↔ a = b ∧ x = y := by
  refine ⟨fun h => ?_, by rintro ⟨rfl, rfl⟩; rfl⟩
  have hlow := congrArg (· % B) h
  have hhigh := congrArg (· / B) h
  simp only [Nat.add_mul_mod_self_left, Nat.mod_eq_of_lt ha, Nat.mod_eq_of_lt hb] at hlow
  simp only [Nat.add_mul_div_left _ _ (Nat.zero_lt_of_lt ha), Nat.div_eq_of_lt ha, Nat.div_eq_of_lt hb, Nat.zero_add] at hhigh
  exact ⟨hlow, hhigh⟩

/-- Fields spell a number when each of its fields holds its value. -/
theorem packed_eq_iff (w lo : Nat) (l : List (Nat × Nat)) (hfits : ∀ p ∈ l, 0 < p.1 ∧ p.2 < 2 ^ p.1) :
    packed l = w / 2 ^ lo % 2 ^ (l.map Prod.fst).sum ↔ Holds w lo l := by
  induction l generalizing lo with
  | nil => simp [Nat.mod_one]
  | cons p l ih =>
    obtain ⟨n, v⟩ := p
    obtain ⟨hpos, hv⟩ := hfits (n, v) List.mem_cons_self
    have hn : lo + n - 1 + 1 - lo = n := by simp only at hpos; omega
    have hbits : bits w (lo + n - 1) lo = w / 2 ^ lo % 2 ^ n := by rw [bits, hn]
    rw [packed, Holds, ← ih (lo + n) fun q hq => hfits q (List.mem_cons_of_mem _ hq), hbits, List.map_cons, List.sum_cons, Nat.pow_add,
      Nat.mod_mul, Nat.div_div_eq_div_mul, ← Nat.pow_add, low_high_eq_iff hv (Nat.mod_lt _ (Nat.two_pow_pos n)), eq_comm (a := v)]

/-- A code made of fields is the number whose fields hold their values. -/
theorem code_eq_bits_iff {code w hi lo : Nat} (l : List (Nat × Nat)) (hw : hi + 1 - lo = (l.map Prod.fst).sum)
    (hfits : ∀ p ∈ l, 0 < p.1 ∧ p.2 < 2 ^ p.1) (hcode : code = packed l) : code = bits w hi lo ↔ Holds w lo l := by
  rw [← packed_eq_iff w lo l hfits, hcode, bits, hw]

theorem code_eq_iff {code w : Nat} (l : List (Nat × Nat)) (hw : w < 2 ^ (l.map Prod.fst).sum)
    (hfits : ∀ p ∈ l, 0 < p.1 ∧ p.2 < 2 ^ p.1) (hcode : code = packed l) : code = w ↔ Holds w 0 l := by
  rw [← packed_eq_iff w 0 l hfits, hcode, Nat.pow_zero, Nat.div_one, Nat.mod_eq_of_lt hw]

/-! ## Values in fields -/

@[simp] theorem keep_eq_some_iff {α : Type} {c : Bool} {v x : α} : keep c v = some x ↔ c = true ∧ v = x := by
  cases c <;> simp [keep]

theorem finOfNat_eq_iff {n : Nat} [NeZero n] {x : Nat} {i : Fin n} : Fin.ofNat n x = i ↔ x % n = i.val := by
  rw [← Fin.val_inj, Fin.val_ofNat]

theorem ofNat_eq_iff {n x : Nat} {i : BitVec n} : BitVec.ofNat n x = i ↔ x % 2 ^ n = i.toNat := by
  rw [BitVec.toNat_eq, BitVec.toNat_ofNat]

/-- A field as wide as the register number it holds. -/
theorem finOfNat_bits_eq_iff {n : Nat} [NeZero n] {w hi lo : Nat} (hn : 2 ^ (hi + 1 - lo) = n) {x : Fin n} :
    Fin.ofNat n (bits w hi lo) = x ↔ bits w hi lo = x.val := by
  rw [finOfNat_eq_iff, Nat.mod_eq_of_lt (hn ▸ bits_lt w hi lo)]

/-- A field as wide as the immediate it holds. -/
@[simp] theorem ofNat_bits_eq_iff {n w hi lo : Nat} (hn : hi + 1 - lo = n) {x : BitVec n} :
    BitVec.ofNat n (bits w hi lo) = x ↔ bits w hi lo = x.toNat := by
  rw [ofNat_eq_iff, Nat.mod_eq_of_lt (hn ▸ bits_lt w hi lo)]

@[simp] theorem f4_eq_iff {w lo : Nat} {x : Fin 4} : f4 w lo = x ↔ bits w (lo + 1) lo = x.val :=
  finOfNat_bits_eq_iff (congrArg (2 ^ ·) (by omega : lo + 1 + 1 - lo = 2))

@[simp] theorem f8_eq_iff {w lo : Nat} {x : Fin 8} : f8 w lo = x ↔ bits w (lo + 2) lo = x.val :=
  finOfNat_bits_eq_iff (congrArg (2 ^ ·) (by omega : lo + 2 + 1 - lo = 3))

@[simp] theorem f16_eq_iff {w lo : Nat} {x : Fin 16} : f16 w lo = x ↔ bits w (lo + 3) lo = x.val :=
  finOfNat_bits_eq_iff (congrArg (2 ^ ·) (by omega : lo + 3 + 1 - lo = 4))

@[simp] theorem f32_eq_iff {w lo : Nat} {x : Fin 32} : f32 w lo = x ↔ bits w (lo + 4) lo = x.val :=
  finOfNat_bits_eq_iff (congrArg (2 ^ ·) (by omega : lo + 4 + 1 - lo = 5))

@[simp] theorem codeBool_false : codeBool false = 0 := rfl

@[simp] theorem codeBool_true : codeBool true = 1 := rfl

@[simp] theorem codeBool_le (b : Bool) : codeBool b ≤ 1 := by cases b <;> decide

@[simp] theorem bit_eq_iff {w k : Nat} {b : Bool} : bit w k = b ↔ bits w k k = codeBool b := by
  cases b <;> simp [bit, bits, Nat.testBit_eq_decide_div_mod_eq]

@[simp] theorem codeMode_lt (k : AMode) : codeMode k < 4 := by cases k <;> decide

@[simp] theorem codeClass_lt (c : AClass) : codeClass c < 4 := by cases c <;> decide

theorem codeCond_lt (c : Cond) : codeCond c < 15 := by cases c <;> decide

@[simp] theorem modeAt_eq_iff {f : Nat} {k : AMode} : modeAt f = k ↔ bits f 2 1 = codeMode k := by
  have h : bits f 2 1 < 4 := bits_lt f 2 1
  unfold modeAt
  generalize bits f 2 1 = n at h ⊢
  interval_cases n <;> cases k <;> decide

theorem classAt_eq_iff {n : Nat} (hn : n < 4) {c : AClass} : classAt n = c ↔ n = codeClass c := by
  interval_cases n <;> cases c <;> decide

theorem condAt_eq_some_iff {n : Nat} {c : Cond} : condAt n = some c ↔ n = codeCond c := by
  constructor
  · intro h
    have hn : n < 15 := (List.getElem?_eq_some_iff.mp h).1
    interval_cases n <;> cases h <;> rfl
  · rintro rfl
    cases c <;> rfl

/-! ## Moves (Table 13.3) -/

/-- The operation number of a move, bits 12 to 10 of its field. -/
def moveOp (m : Move) : Nat :=
  match m with
  | .nop => 0 | .ldQ .. => 1 | .stQ .. => 2 | .ldW .. => 3 | .ldH .. => 3 | .stW .. => 4 | .stH .. => 4 | .ldA .. => 5 | .stAC .. => 6
  | .ldL .. => 7 | .stL .. => 7

theorem moveOp_of_decodeMove {f : Nat} {m : Move} (h : decodeMove f = some m) : bits f 12 10 = moveOp m := by
  have hlt : bits f 12 10 < 8 := bits_lt f 12 10
  unfold decodeMove at h
  split at h <;> simp only [keep_eq_some_iff, Option.some.injEq, ite_eq_iff] at h
  case h_1 hop | h_2 hop | h_3 hop =>
    obtain ⟨-, rfl⟩ := h
    exact hop
  case h_4 hop | h_5 hop => obtain ⟨-, rfl⟩ | ⟨-, rfl⟩ := h <;> exact hop
  case h_6 hop | h_7 hop => exact h ▸ hop
  case h_8 =>
    have hop : bits f 12 10 = 7 := by simp only [imp_false] at *; omega
    obtain ⟨-, ⟨-, rfl⟩ | ⟨-, rfl⟩⟩ := h <;> exact hop

theorem encodeMove_div (m : Move) : encodeMove m / 1024 = moveOp m := by
  cases m with
  | nop => rfl
  | ldA c i p k =>
    have := codeMode_lt k
    have := codeClass_lt c
    have : i.val / 2 < 4 := by omega
    have : i.val % 2 < 2 := by omega
    simp only [encodeMove, codePtr, moveOp]
    omega
  | stAC k s p form =>
    have := codeBool_le form
    simp only [encodeMove, moveOp]
    omega
  | ldQ r p k | stQ r p k | ldW r p k | ldH r p k | stW r p k | stH r p k | ldL r p k | stL r p k =>
    have := codeMode_lt k
    simp only [encodeMove, codePtr, moveOp]
    omega

theorem encodeMove_lt (m : Move) : encodeMove m < 2 ^ 13 := by
  have hop : moveOp m < 8 := by cases m <;> simp [moveOp]
  have := encodeMove_div m
  omega

theorem bits_encodeMove (m : Move) : bits (encodeMove m) 12 10 = moveOp m := by
  rw [← encodeMove_div m]
  exact Nat.mod_eq_of_lt (Nat.div_lt_of_lt_mul (encodeMove_lt m))

section
variable {f : Nat} (hf : f < 2 ^ 13) {n : Nat} (hop : bits f 12 10 = n)
include hf hop

/-- A vector register, bits 8 to 6, and a pointer with its mode. -/
theorem vectorMove_iff {r p : Fin 8} {k : AMode} :
    (!bit f 9 && !bit f 0) = true ∧ f8 f 6 = r ∧ f8 f 3 = p ∧ modeAt f = k ↔ n * 1024 + r.val * 64 + codePtr p k 0 = f := by
  have hn : n < 8 := hop ▸ bits_lt f 12 10
  rw [code_eq_iff [(1, 0), (2, codeMode k), (3, p), (3, r), (1, 0), (3, n)] hf (by simp [hn]) (by simp [codePtr]; omega)]
  simp [hop]
  tauto

/-- A D register, bits 9 to 6, a pointer with its mode, and the bit that tells two moves apart. -/
theorem scalarMove_iff {b : Bool} {r : Fin 16} {p : Fin 8} {k : AMode} :
    bit f 0 = b ∧ f16 f 6 = r ∧ f8 f 3 = p ∧ modeAt f = k ↔ n * 1024 + r.val * 64 + codePtr p k (codeBool b) = f := by
  have hn : n < 8 := hop ▸ bits_lt f 12 10
  rw [code_eq_iff [(1, codeBool b), (2, codeMode k), (3, p), (4, r), (3, n)] hf (by simp [hn]) (by simp [codePtr]; omega)]
  simp [hop]
  tauto

/-- The half of an even D register, bits 9 to 7, a pointer with its mode, and the bit that tells two moves apart. -/
theorem pairMove_iff {b : Bool} {h p : Fin 8} {k : AMode} :
    (!bit f 6) = true ∧ bit f 0 = b ∧ f8 f 7 = h ∧ f8 f 3 = p ∧ modeAt f = k ↔ n * 1024 + h.val * 128 + codePtr p k (codeBool b) = f := by
  have hn : n < 8 := hop ▸ bits_lt f 12 10
  rw [code_eq_iff [(1, codeBool b), (2, codeMode k), (3, p), (1, 0), (3, h), (3, n)] hf (by simp [hn]) (by simp [codePtr]; omega)]
  simp [hop]
  tauto

theorem ldA_iff {c : AClass} {i p : Fin 8} {k : AMode} :
    classAt (bits f 9 8) = c ∧ Fin.ofNat 8 (2 * bits f 7 6 + bits f 0 0) = i ∧ f8 f 3 = p ∧ modeAt f = k ↔
      n * 1024 + codeClass c * 256 + i.val / 2 * 64 + codePtr p k (i.val % 2) = f := by
  have hn : n < 8 := hop ▸ bits_lt f 12 10
  have hhigh : i.val / 2 < 4 := by omega
  have hlow : i.val % 2 < 2 := by omega
  have hidx : Fin.ofNat 8 (2 * bits f 7 6 + bits f 0 0) = i ↔ bits f 7 6 = i.val / 2 ∧ bits f 0 0 = i.val % 2 := by
    have h0 : bits f 0 0 < 2 := bits_lt f 0 0
    have h1 : bits f 7 6 < 4 := bits_lt f 7 6
    rw [finOfNat_eq_iff]
    omega
  rw [code_eq_iff [(1, i.val % 2), (2, codeMode k), (3, p), (2, i.val / 2), (2, codeClass c), (3, n)] hf (by simp [hn, hhigh, hlow])
    (by simp [codePtr]; omega), hidx, classAt_eq_iff (bits_lt f 9 8)]
  simp [hop]
  tauto

theorem stAC_iff {k s p : Fin 8} {b : Bool} :
    f8 f 7 = k ∧ f8 f 4 = s ∧ f8 f 1 = p ∧ bit f 0 = b ↔ n * 1024 + k.val * 128 + s.val * 16 + p.val * 2 + codeBool b = f := by
  have hn : n < 8 := hop ▸ bits_lt f 12 10
  rw [code_eq_iff [(1, codeBool b), (3, p), (3, s), (3, k), (3, n)] hf (by simp [hn]) (by simp; omega)]
  simp [hop]
  tauto

end

/-- Under its operation number a move is what its field says. -/
theorem decodeMove_row {f : Nat} (hf : f < 2 ^ 13) {m : Move} (hop : bits f 12 10 = moveOp m) : decodeMove f = some m ↔ encodeMove m = f := by
  cases m with
  | nop =>
    simp only [moveOp] at hop
    rw [code_eq_iff [(10, 0), (3, 0)] hf (by simp) (by simp [encodeMove])]
    simp [decodeMove, hop]
  | ldQ r p k =>
    simp only [decodeMove, hop, moveOp, keep_eq_some_iff, Move.ldQ.injEq]
    exact vectorMove_iff hf hop
  | stQ r p k =>
    simp only [decodeMove, hop, moveOp, keep_eq_some_iff, Move.stQ.injEq]
    exact vectorMove_iff hf hop
  | ldH r p k =>
    simp only [decodeMove, hop, moveOp, Option.some.injEq, ite_eq_iff, reduceCtorEq, and_false, or_false, Move.ldH.injEq]
    exact scalarMove_iff hf hop
  | ldW r p k =>
    simp only [decodeMove, hop, moveOp, Option.some.injEq, ite_eq_iff, reduceCtorEq, and_false, false_or, Move.ldW.injEq, Bool.not_eq_true]
    exact scalarMove_iff hf hop
  | stH r p k =>
    simp only [decodeMove, hop, moveOp, Option.some.injEq, ite_eq_iff, reduceCtorEq, and_false, or_false, Move.stH.injEq]
    exact scalarMove_iff hf hop
  | stW r p k =>
    simp only [decodeMove, hop, moveOp, Option.some.injEq, ite_eq_iff, reduceCtorEq, and_false, false_or, Move.stW.injEq, Bool.not_eq_true]
    exact scalarMove_iff hf hop
  | ldA c i p k =>
    simp only [decodeMove, hop, moveOp, Option.some.injEq, Move.ldA.injEq]
    exact ldA_iff hf hop
  | stAC k s p form =>
    simp only [decodeMove, hop, moveOp, Option.some.injEq, Move.stAC.injEq]
    exact stAC_iff hf hop
  | ldL h p k =>
    simp only [decodeMove, hop, moveOp, keep_eq_some_iff, ite_eq_iff, reduceCtorEq, and_false, false_or, Move.ldL.injEq, Bool.not_eq_true]
    exact pairMove_iff hf hop
  | stL h p k =>
    simp only [decodeMove, hop, moveOp, keep_eq_some_iff, ite_eq_iff, reduceCtorEq, and_false, or_false, Move.stL.injEq]
    exact pairMove_iff hf hop

theorem decodeMove_eq_some_iff {f : Nat} (hf : f < 2 ^ 13) {m : Move} : decodeMove f = some m ↔ encodeMove m = f :=
  ⟨fun h => (decodeMove_row hf (moveOp_of_decodeMove h)).mp h, fun h => (decodeMove_row hf (h ▸ bits_encodeMove m)).mpr h⟩

/-! ## Slots (Table 13.4) -/

/-- The operation number of a slot, bits 12 to 10 of its field. -/
def slotOp (t : Slot) : Nat :=
  match t with
  | .nop => 0 | .aadd .. => 1 | .amov .. => 2 | .xferIn .. => 3 | .xferOut .. => 3 | .rep .. => 4 | .replc => 5 | .lci .. => 6

theorem slotOp_of_decodeSlot {f : Nat} {t : Slot} (h : decodeSlot f = some t) : bits f 12 10 = slotOp t := by
  unfold decodeSlot at h
  split at h <;> simp only [keep_eq_some_iff, Option.some.injEq, ite_eq_iff, reduceCtorEq] at h
  case h_1 hop | h_6 hop =>
    obtain ⟨-, rfl⟩ := h
    exact hop
  case h_4 hop => obtain ⟨-, rfl⟩ | ⟨-, rfl⟩ := h <;> exact hop
  case h_2 hop | h_3 hop | h_5 hop | h_7 hop => exact h ▸ hop

theorem encodeSlot_div (t : Slot) : encodeSlot t / 1024 = slotOp t := by
  cases t with
  | nop | replc => rfl
  | rep n | lci n =>
    simp only [encodeSlot, slotOp]
    omega
  | aadd q k i =>
    have := codeBool_le q
    simp only [encodeSlot, slotOp]
    omega
  | amov c i d j =>
    have := codeClass_lt c
    have := codeClass_lt d
    simp only [encodeSlot, slotOp]
    omega
  | xferIn c i d | xferOut c i d =>
    have := codeClass_lt c
    simp only [encodeSlot, slotOp]
    omega

theorem encodeSlot_lt (t : Slot) : encodeSlot t < 2 ^ 13 := by
  have hop : slotOp t < 8 := by cases t <;> simp [slotOp]
  have := encodeSlot_div t
  omega

theorem bits_encodeSlot (t : Slot) : bits (encodeSlot t) 12 10 = slotOp t := by
  rw [← encodeSlot_div t]
  exact Nat.mod_eq_of_lt (Nat.div_lt_of_lt_mul (encodeSlot_lt t))

/-- An address register, bits 8 to 4, a D register, and the bit that tells the two ways of a transfer apart. -/
theorem slotXfer_iff {f : Nat} (hf : f < 2 ^ 13) {n : Nat} (hop : bits f 12 10 = n) {b : Bool} {c : AClass} {i : Fin 8} {d : Fin 16} :
    bit f 9 = b ∧ classAt (bits f 8 7) = c ∧ f8 f 4 = i ∧ f16 f 0 = d ↔
      n * 1024 + codeBool b * 512 + codeClass c * 128 + i.val * 16 + d.val = f := by
  have hn : n < 8 := hop ▸ bits_lt f 12 10
  rw [code_eq_iff [(4, d), (3, i), (2, codeClass c), (1, codeBool b), (3, n)] hf (by simp [hn]) (by simp; omega),
    classAt_eq_iff (bits_lt f 8 7)]
  simp [hop]
  tauto

/-- Under its operation number a slot is what its field says. -/
theorem decodeSlot_row {f : Nat} (hf : f < 2 ^ 13) {t : Slot} (hop : bits f 12 10 = slotOp t) : decodeSlot f = some t ↔ encodeSlot t = f := by
  cases t with
  | nop =>
    simp only [slotOp] at hop
    rw [code_eq_iff [(10, 0), (3, 0)] hf (by simp) (by simp [encodeSlot])]
    simp [decodeSlot, hop]
  | replc =>
    simp only [slotOp] at hop
    rw [code_eq_iff [(10, 0), (3, 5)] hf (by simp) (by simp [encodeSlot])]
    simp [decodeSlot, hop]
  | rep n =>
    simp only [slotOp] at hop
    rw [code_eq_iff [(10, n.toNat), (3, 4)] hf (by simp; omega) (by simp [encodeSlot]; omega)]
    simp [decodeSlot, hop]
  | lci n =>
    simp only [slotOp] at hop
    rw [code_eq_iff [(10, n.toNat), (3, 6)] hf (by simp; omega) (by simp [encodeSlot]; omega)]
    simp [decodeSlot, hop]
  | aadd q k i =>
    simp only [slotOp] at hop
    rw [code_eq_iff [(6, i.toNat), (3, k), (1, codeBool q), (3, 1)] hf (by simp; omega) (by simp [encodeSlot]; omega)]
    simp [decodeSlot, hop]
    tauto
  | amov c i d j =>
    simp only [slotOp] at hop
    rw [code_eq_iff [(3, j), (2, codeClass d), (3, i), (2, codeClass c), (3, 2)] hf (by simp) (by simp [encodeSlot]; omega)]
    simp [decodeSlot, hop, classAt_eq_iff (bits_lt f 9 8), classAt_eq_iff (bits_lt f 4 3)]
    tauto
  | xferIn c i d =>
    simp only [decodeSlot, hop, slotOp, Option.some.injEq, ite_eq_iff, reduceCtorEq, and_false, false_or, Slot.xferIn.injEq, Bool.not_eq_true]
    simpa only [encodeSlot, codeBool_false, Nat.zero_mul, Nat.add_zero] using slotXfer_iff hf (n := 3) hop (b := false)
  | xferOut c i d =>
    simp only [decodeSlot, hop, slotOp, Option.some.injEq, ite_eq_iff, reduceCtorEq, and_false, or_false, Slot.xferOut.injEq]
    exact slotXfer_iff hf hop

theorem decodeSlot_eq_some_iff {f : Nat} (hf : f < 2 ^ 13) {t : Slot} : decodeSlot f = some t ↔ encodeSlot t = f :=
  ⟨fun h => (decodeSlot_row hf (slotOp_of_decodeSlot h)).mp h, fun h => (decodeSlot_row hf (h ▸ bits_encodeSlot t)).mpr h⟩

/-! ## Compute fields (Table 13.5) -/

theorem testBit_bits (w hi lo j : Nat) : (bits w hi lo).testBit j = (decide (j < hi + 1 - lo) && w.testBit (j + lo)) := by
  rw [bits, Nat.testBit_mod_two_pow, Nat.testBit_div_two_pow]

/-- A word is within a mask when its fields outside it, `gaps`, are 0. -/
theorem within_iff {o mask : Nat} (ho : o < 2 ^ 16) (gaps : List (Nat × Nat))
    (hgaps : ∀ k < 16, mask.testBit k = gaps.all fun g => decide (k < g.2 ∨ g.1 < k)) :
    within o mask = true ↔ ∀ g ∈ gaps, bits o g.1 g.2 = 0 := by
  have hset : ∀ k, o.testBit k = true → k < 16 := fun k hk => by
    by_contra hge
    rw [Nat.testBit_lt_two_pow (lt_of_lt_of_le ho (Nat.pow_le_pow_right (by decide) (Nat.not_lt.mp hge)))] at hk
    cases hk
  rw [within, beq_iff_eq]
  constructor
  · intro h g hg
    refine Nat.eq_of_testBit_eq fun j => ?_
    rw [testBit_bits, Nat.zero_testBit, Bool.and_eq_false_imp, decide_eq_true_iff]
    intro hj
    by_contra hbit
    have hk : o.testBit (j + g.2) = true := by simpa using hbit
    have hmask : mask.testBit (j + g.2) = true := by
      rw [← h, Nat.testBit_and, Bool.and_eq_true] at hk
      exact hk.2
    rw [hgaps _ (hset _ hk), List.all_eq_true] at hmask
    have := of_decide_eq_true (hmask g hg)
    omega
  · intro h
    refine Nat.eq_of_testBit_eq fun k => ?_
    rw [Nat.testBit_and, Bool.and_eq_left_iff_imp]
    intro hk
    rw [hgaps k (hset k hk), List.all_eq_true]
    intro g hg
    by_contra hin
    simp at hin
    have hz := testBit_bits o g.1 g.2 (k - g.2)
    rw [h g hg, Nat.zero_testBit, show k - g.2 + g.2 = k by omega, hk, Bool.and_true, eq_comm, decide_eq_false_iff_not] at hz
    omega

/-! ### Operand bits: the places of Table 13.5 -/

section
variable {o : Nat} (ho : o < 2 ^ 16)
include ho

theorem cmac4_operands_iff {k a b : Fin 8} {j n r : Bool} :
    within o 0xFFF0 = true ∧ f8 o 13 = k ∧ f8 o 10 = a ∧ f8 o 7 = b ∧ bit o 6 = j ∧ bit o 5 = n ∧ bit o 4 = r ↔
      codeVec k a b 0 + codeBool j * 64 + codeBool n * 32 + codeBool r * 16 = o := by
  rw [within_iff ho [(3, 0)] (by decide),
    code_eq_iff [(4, 0), (1, codeBool r), (1, codeBool n), (1, codeBool j), (3, b), (3, a), (3, k)] ho (by simp) (by simp [codeVec]; omega)]
  simp
  tauto

theorem cmac4v_operands_iff {h : Bool} {a b : Fin 8} {j n r : Bool} :
    within o 0x9FF0 = true ∧ bit o 15 = h ∧ f8 o 10 = a ∧ f8 o 7 = b ∧ bit o 6 = j ∧ bit o 5 = n ∧ bit o 4 = r ↔
      codeBool h * 32768 + codeVec 0 a b 0 + codeBool j * 64 + codeBool n * 32 + codeBool r * 16 = o := by
  rw [within_iff ho [(3, 0), (14, 13)] (by decide),
    code_eq_iff [(4, 0), (1, codeBool r), (1, codeBool n), (1, codeBool j), (3, b), (3, a), (2, 0), (1, codeBool h)] ho (by simp)
      (by simp [codeVec]; omega)]
  simp
  tauto

theorem rmac8_operands_iff {k a b : Fin 8} {n r : Bool} :
    within o 0xFFB0 = true ∧ f8 o 13 = k ∧ f8 o 10 = a ∧ f8 o 7 = b ∧ bit o 5 = n ∧ bit o 4 = r ↔
      codeVec k a b 0 + codeBool n * 32 + codeBool r * 16 = o := by
  rw [within_iff ho [(3, 0), (6, 6)] (by decide),
    code_eq_iff [(4, 0), (1, codeBool r), (1, codeBool n), (1, 0), (3, b), (3, a), (3, k)] ho (by simp) (by simp [codeVec]; omega)]
  simp
  tauto

theorem cmul4_operands_iff {d a b s : Fin 8} {j : Bool} :
    within o 0xFFF8 = true ∧ f8 o 13 = d ∧ f8 o 10 = a ∧ f8 o 7 = b ∧ bit o 6 = j ∧ f8 o 3 = s ↔
      codeVec d a b s + codeBool j * 64 = o := by
  rw [within_iff ho [(2, 0)] (by decide),
    code_eq_iff [(3, 0), (3, s), (1, codeBool j), (3, b), (3, a), (3, d)] ho (by simp) (by simp [codeVec]; omega)]
  simp
  tauto

theorem vcmac4_operands_iff {d c a b s : Fin 8} {j : Bool} :
    f8 o 13 = d ∧ f8 o 10 = c ∧ f8 o 7 = a ∧ f8 o 4 = b ∧ bit o 3 = j ∧ f8 o 0 = s ↔
      codeVec d c a 0 + b.val * 16 + codeBool j * 8 + s.val = o := by
  rw [code_eq_iff [(3, s), (1, codeBool j), (3, b), (3, a), (3, c), (3, d)] ho (by simp) (by simp [codeVec]; omega)]
  simp
  tauto

theorem vmul8_operands_iff {d a b s : Fin 8} :
    within o 0xFFB8 = true ∧ f8 o 13 = d ∧ f8 o 10 = a ∧ f8 o 7 = b ∧ f8 o 3 = s ↔ codeVec d a b s = o := by
  rw [within_iff ho [(2, 0), (6, 6)] (by decide),
    code_eq_iff [(3, 0), (3, s), (1, 0), (3, b), (3, a), (3, d)] ho (by simp) (by simp [codeVec]; omega)]
  simp
  tauto

theorem bfly_operands_iff {h : Fin 4} {a b s : Fin 8} :
    within o 0xDFB8 = true ∧ f4 o 14 = h ∧ f8 o 10 = a ∧ f8 o 7 = b ∧ f8 o 3 = s ↔ h.val * 16384 + codeVec 0 a b s = o := by
  rw [within_iff ho [(2, 0), (6, 6), (13, 13)] (by decide),
    code_eq_iff [(3, 0), (3, s), (1, 0), (3, b), (3, a), (1, 0), (2, h)] ho (by simp) (by simp [codeVec]; omega)]
  simp
  tauto

/-- VADD and VSUB. -/
theorem vadd_operands_iff {d a b s : Fin 8} {t : Bool} :
    within o 0xFFBC = true ∧ f8 o 13 = d ∧ f8 o 10 = a ∧ f8 o 7 = b ∧ f8 o 3 = s ∧ bit o 2 = t ↔
      codeVec d a b s + codeBool t * 4 = o := by
  rw [within_iff ho [(1, 0), (6, 6)] (by decide),
    code_eq_iff [(2, 0), (1, codeBool t), (3, s), (1, 0), (3, b), (3, a), (3, d)] ho (by simp) (by simp [codeVec]; omega)]
  simp
  tauto

/-- VSHR and VSHL. -/
theorem vshift_operands_iff {d a s : Fin 8} :
    within o 0xFC38 = true ∧ f8 o 13 = d ∧ f8 o 10 = a ∧ f8 o 3 = s ↔ codeVec d a 0 s = o := by
  rw [within_iff ho [(2, 0), (9, 6)] (by decide),
    code_eq_iff [(3, 0), (3, s), (4, 0), (3, a), (3, d)] ho (by simp) (by simp [codeVec]; omega)]
  simp
  tauto

/-- CZIP and CUNZIP. -/
theorem czip_operands_iff {h : Fin 4} {a b : Fin 8} :
    within o 0xDF80 = true ∧ f4 o 14 = h ∧ f8 o 10 = a ∧ f8 o 7 = b ↔ h.val * 16384 + codeVec 0 a b 0 = o := by
  rw [within_iff ho [(6, 0), (13, 13)] (by decide),
    code_eq_iff [(7, 0), (3, b), (3, a), (1, 0), (2, h)] ho (by simp) (by simp [codeVec]; omega)]
  simp
  tauto

/-- VMOV and ACADD. -/
theorem vmov_operands_iff {d a : Fin 8} :
    within o 0xFC00 = true ∧ f8 o 13 = d ∧ f8 o 10 = a ↔ codeVec d a 0 0 = o := by
  rw [within_iff ho [(9, 0)] (by decide),
    code_eq_iff [(10, 0), (3, a), (3, d)] ho (by simp) (by simp [codeVec]; omega)]
  simp
  tauto

/-- VBCAST and DTOAC. -/
theorem vbcast_operands_iff {d : Fin 8} {a : Fin 16} :
    within o 0xFE00 = true ∧ f8 o 13 = d ∧ f16 o 9 = a ↔ d.val * 8192 + a.val * 512 = o := by
  rw [within_iff ho [(8, 0)] (by decide),
    code_eq_iff [(9, 0), (4, a), (3, d)] ho (by simp) (by simp; omega)]
  simp
  tauto

/-- VMAXA: a pair of vectors begins at an even one. -/
theorem vmaxa_operands_iff {d : Fin 16} {a : Fin 8} {p : Bool} :
    (within o 0xFF00 && !(bit o 8 && bit o 9)) = true ∧ f16 o 12 = d ∧ f8 o 9 = a ∧ bit o 8 = p ↔
      compFits (.vmaxa d a p) = true ∧ d.val * 4096 + a.val * 512 + codeBool p * 256 = o := by
  have heven : bits o 9 9 = bits o 11 9 % 2 := by simp only [bits]; omega
  rw [Bool.and_eq_true, within_iff ho [(7, 0)] (by decide),
    code_eq_iff [(8, 0), (1, codeBool p), (3, a), (4, d)] ho (by simp) (by simp; omega)]
  cases p <;> simp [compFits, heven] <;> grind

theorem pack_operands_iff {d : Fin 8} {h : Bool} {s : Fin 8} :
    within o 0xF038 = true ∧ f8 o 13 = d ∧ bit o 12 = h ∧ f8 o 3 = s ↔ d.val * 8192 + codeBool h * 4096 + s.val * 8 = o := by
  rw [within_iff ho [(2, 0), (11, 6)] (by decide),
    code_eq_iff [(3, 0), (3, s), (6, 0), (1, codeBool h), (3, d)] ho (by simp) (by simp; omega)]
  simp
  tauto

theorem acshr_operands_iff {k s : Fin 8} :
    within o 0xE038 = true ∧ f8 o 13 = k ∧ f8 o 3 = s ↔ codeVec k 0 0 s = o := by
  rw [within_iff ho [(2, 0), (12, 6)] (by decide),
    code_eq_iff [(3, 0), (3, s), (7, 0), (3, k)] ho (by simp) (by simp [codeVec]; omega)]
  simp
  tauto

theorem actod_operands_iff {d : Fin 16} {k s : Fin 8} :
    within o 0xFE38 = true ∧ f16 o 12 = d ∧ f8 o 9 = k ∧ f8 o 3 = s ↔ d.val * 4096 + k.val * 512 + s.val * 8 = o := by
  rw [within_iff ho [(2, 0), (8, 6)] (by decide),
    code_eq_iff [(3, 0), (3, s), (3, 0), (3, k), (4, d)] ho (by simp) (by simp; omega)]
  simp
  tauto

/-- A destination and two sources. -/
theorem dab_operands_iff {d a b : Fin 16} :
    within o 0xFFF0 = true ∧ f16 o 12 = d ∧ f16 o 8 = a ∧ f16 o 4 = b ↔ codeDAB d a b = o := by
  rw [within_iff ho [(3, 0)] (by decide),
    code_eq_iff [(4, 0), (4, b), (4, a), (4, d)] ho (by simp) (by simp [codeDAB]; omega)]
  simp
  tauto

/-- A destination and one source. -/
theorem da_operands_iff {d a : Fin 16} :
    within o 0xFF00 = true ∧ f16 o 12 = d ∧ f16 o 8 = a ↔ codeDAB d a 0 = o := by
  rw [within_iff ho [(7, 0)] (by decide),
    code_eq_iff [(8, 0), (4, a), (4, d)] ho (by simp) (by simp [codeDAB]; omega)]
  simp
  tauto

/-- A destination, a source and a shift count. -/
theorem dan_operands_iff {d a : Fin 16} {n : Fin 32} :
    within o 0xFFF8 = true ∧ f16 o 12 = d ∧ f16 o 8 = a ∧ f32 o 3 = n ↔ codeDAB d a 0 + n.val * 8 = o := by
  rw [within_iff ho [(2, 0)] (by decide),
    code_eq_iff [(3, 0), (5, n), (4, a), (4, d)] ho (by simp) (by simp [codeDAB]; omega)]
  simp
  tauto

theorem cmp_operands_iff {a b : Fin 16} :
    within o 0x0FF0 = true ∧ f16 o 8 = a ∧ f16 o 4 = b ↔ codeDAB 0 a b = o := by
  rw [within_iff ho [(3, 0), (15, 12)] (by decide),
    code_eq_iff [(4, 0), (4, b), (4, a), (4, 0)] ho (by simp) (by simp [codeDAB]; omega)]
  simp
  tauto

theorem mac31_operands_iff {k : Fin 8} {a b : Fin 16} :
    within o 0xEFF0 = true ∧ f8 o 13 = k ∧ f16 o 8 = a ∧ f16 o 4 = b ↔ k.val * 8192 + codeDAB 0 a b = o := by
  rw [within_iff ho [(3, 0), (12, 12)] (by decide),
    code_eq_iff [(4, 0), (4, b), (4, a), (1, 0), (3, k)] ho (by simp) (by simp [codeDAB]; omega)]
  simp
  tauto

theorem mfs_operands_iff {d : Fin 16} {lc : Bool} :
    within o 0xF100 = true ∧ f16 o 12 = d ∧ bit o 8 = lc ↔ d.val * 4096 + codeBool lc * 256 = o := by
  rw [within_iff ho [(7, 0), (11, 9)] (by decide),
    code_eq_iff [(8, 0), (1, codeBool lc), (3, 0), (4, d)] ho (by simp) (by simp; omega)]
  simp
  tauto

end

/-! ### Operations -/

theorem cop_of_decodeVector {cop o : Nat} {c : Comp} (h : decodeVector cop o = some c) : (codeComp c).1 = cop := by
  unfold decodeVector at h
  split at h <;> simp only [keep_eq_some_iff, Option.some.injEq, reduceCtorEq] at h
  case h_6 => exact h ▸ rfl
  all_goals
    obtain ⟨-, rfl⟩ := h
    rfl

theorem cop_of_decodeScalar {cop o : Nat} {c : Comp} (h : decodeScalar cop o = some c) : (codeComp c).1 = cop := by
  unfold decodeScalar at h
  split at h <;> simp only [keep_eq_some_iff, reduceCtorEq] at h
  all_goals
    obtain ⟨-, rfl⟩ := h
    rfl

/-- Under its COP a compute operation is what its operand bits say. -/
theorem decodeComp_row {f : Nat} {c : Comp} (hcop : bits f 21 16 = (codeComp c).1) :
    decodeComp f = some c ↔ compFits c = true ∧ (codeComp c).2 = bits f 15 0 := by
  have ho : bits f 15 0 < 2 ^ 16 := bits_lt f 15 0
  rw [decodeComp, hcop]
  generalize bits f 15 0 = o at ho
  cases c with
  | nop =>
    simp only [codeComp, Nat.reduceLT, if_true, decodeVector, keep_eq_some_iff, compFits, and_true, true_and, beq_iff_eq]
    exact eq_comm
  | cmac4 k a b j n r =>
    simp only [codeComp, Nat.reduceLT, if_true, decodeVector, keep_eq_some_iff, Comp.cmac4.injEq, compFits, true_and]
    exact cmac4_operands_iff ho
  | cmac4v h a b j n r =>
    simp only [codeComp, Nat.reduceLT, if_true, decodeVector, keep_eq_some_iff, Comp.cmac4v.injEq, compFits, true_and]
    exact cmac4v_operands_iff ho
  | rmac8 k a b n r =>
    simp only [codeComp, Nat.reduceLT, if_true, decodeVector, keep_eq_some_iff, Comp.rmac8.injEq, compFits, true_and]
    exact rmac8_operands_iff ho
  | cmul4 d a b j s =>
    simp only [codeComp, Nat.reduceLT, if_true, decodeVector, keep_eq_some_iff, Comp.cmul4.injEq, compFits, true_and]
    exact cmul4_operands_iff ho
  | vcmac4 d c a b j s =>
    simp only [codeComp, Nat.reduceLT, if_true, decodeVector, Option.some.injEq, Comp.vcmac4.injEq, compFits, true_and]
    exact vcmac4_operands_iff ho
  | vmul8 d a b s =>
    simp only [codeComp, Nat.reduceLT, if_true, decodeVector, keep_eq_some_iff, Comp.vmul8.injEq, compFits, true_and]
    exact vmul8_operands_iff ho
  | bfly h a b s =>
    simp only [codeComp, Nat.reduceLT, if_true, decodeVector, keep_eq_some_iff, Comp.bfly.injEq, compFits, true_and]
    exact bfly_operands_iff ho
  | vadd d a b s t | vsub d a b s t =>
    simp only [codeComp, Nat.reduceLT, if_true, decodeVector, keep_eq_some_iff, Comp.vadd.injEq, Comp.vsub.injEq, compFits, true_and]
    exact vadd_operands_iff ho
  | vshr d a s | vshl d a s =>
    simp only [codeComp, Nat.reduceLT, if_true, decodeVector, keep_eq_some_iff, Comp.vshr.injEq, Comp.vshl.injEq, compFits, true_and]
    exact vshift_operands_iff ho
  | czip h a b | cunzip h a b =>
    simp only [codeComp, Nat.reduceLT, if_true, decodeVector, keep_eq_some_iff, Comp.czip.injEq, Comp.cunzip.injEq, compFits, true_and]
    exact czip_operands_iff ho
  | vmov d a | acadd d e =>
    simp only [codeComp, Nat.reduceLT, if_true, decodeVector, keep_eq_some_iff, Comp.vmov.injEq, Comp.acadd.injEq, compFits, true_and]
    exact vmov_operands_iff ho
  | vbcast d a | dtoac k a =>
    simp only [codeComp, Nat.reduceLT, if_true, decodeVector, keep_eq_some_iff, Comp.vbcast.injEq, Comp.dtoac.injEq, compFits, true_and]
    exact vbcast_operands_iff ho
  | vmaxa d a p =>
    simp only [codeComp, Nat.reduceLT, if_true, decodeVector, keep_eq_some_iff, Comp.vmaxa.injEq]
    exact vmaxa_operands_iff ho
  | pack d h s =>
    simp only [codeComp, Nat.reduceLT, if_true, decodeVector, keep_eq_some_iff, Comp.pack.injEq, compFits, true_and]
    exact pack_operands_iff ho
  | acshr k s =>
    simp only [codeComp, Nat.reduceLT, if_true, decodeVector, keep_eq_some_iff, Comp.acshr.injEq, compFits, true_and]
    exact acshr_operands_iff ho
  | actod d k s =>
    simp only [codeComp, Nat.reduceLT, if_true, decodeVector, keep_eq_some_iff, Comp.actod.injEq, compFits, true_and]
    exact actod_operands_iff ho
  | add d a b | sub d a b | adds d a b | subs d a b | and d a b | or d a b | xor d a b
   | min d a b | max d a b | mul d a b | mpy15 d a b | mpy31 d a b =>
    simp only [codeComp, Nat.reduceLT, if_false, decodeScalar, keep_eq_some_iff, Comp.add.injEq, Comp.sub.injEq, Comp.adds.injEq,
      Comp.subs.injEq, Comp.and.injEq, Comp.or.injEq, Comp.xor.injEq, Comp.min.injEq, Comp.max.injEq, Comp.mul.injEq, Comp.mpy15.injEq,
      Comp.mpy31.injEq, compFits, true_and]
    exact dab_operands_iff ho
  | mov d a | neg d a | abs d a | norm d a =>
    simp only [codeComp, Nat.reduceLT, if_false, decodeScalar, keep_eq_some_iff, Comp.mov.injEq, Comp.neg.injEq, Comp.abs.injEq,
      Comp.norm.injEq, compFits, true_and]
    exact da_operands_iff ho
  | shl d a n | asr d a n | lsr d a n =>
    simp only [codeComp, Nat.reduceLT, if_false, decodeScalar, keep_eq_some_iff, Comp.shl.injEq, Comp.asr.injEq, Comp.lsr.injEq, compFits,
      true_and]
    exact dan_operands_iff ho
  | cmp a b =>
    simp only [codeComp, Nat.reduceLT, if_false, decodeScalar, keep_eq_some_iff, Comp.cmp.injEq, compFits, true_and]
    exact cmp_operands_iff ho
  | mac31 k a b =>
    simp only [codeComp, Nat.reduceLT, if_false, decodeScalar, keep_eq_some_iff, Comp.mac31.injEq, compFits, true_and]
    exact mac31_operands_iff ho
  | mfs d lc =>
    simp only [codeComp, Nat.reduceLT, if_false, decodeScalar, keep_eq_some_iff, Comp.mfs.injEq, compFits, true_and]
    exact mfs_operands_iff ho

theorem cop_of_decodeComp {f : Nat} {c : Comp} (h : decodeComp f = some c) : bits f 21 16 = (codeComp c).1 := by
  unfold decodeComp at h
  split at h
  · exact (cop_of_decodeVector h).symm
  · exact (cop_of_decodeScalar h).symm

theorem codeComp_lt (c : Comp) : (codeComp c).1 < 2 ^ 6 ∧ (codeComp c).2 < 2 ^ 16 := by
  cases c with
  | cmac4 k a b j n r =>
    have := codeBool_le j
    have := codeBool_le n
    have := codeBool_le r
    simp only [codeComp, codeVec]
    omega
  | cmac4v h a b j n r =>
    have := codeBool_le h
    have := codeBool_le j
    have := codeBool_le n
    have := codeBool_le r
    simp only [codeComp, codeVec]
    omega
  | rmac8 k a b n r =>
    have := codeBool_le n
    have := codeBool_le r
    simp only [codeComp, codeVec]
    omega
  | cmul4 _ _ _ t _ | vcmac4 _ _ _ _ t _ | vadd _ _ _ _ t | vsub _ _ _ _ t | vmaxa _ _ t | pack _ t _ | mfs _ t =>
    have := codeBool_le t
    simp only [codeComp, codeVec]
    omega
  | _ =>
    simp only [codeComp, codeVec, codeDAB]
    omega

theorem encodeComp_lt (c : Comp) : encodeComp c < 2 ^ 22 := by
  obtain ⟨hcop, ho⟩ := codeComp_lt c
  unfold encodeComp
  omega

theorem bits_encodeComp (c : Comp) : bits (encodeComp c) 21 16 = (codeComp c).1 ∧ bits (encodeComp c) 15 0 = (codeComp c).2 := by
  obtain ⟨hcop, ho⟩ := codeComp_lt c
  simp only [encodeComp, bits]
  omega

theorem decodeComp_eq_some_iff {f : Nat} (hf : f < 2 ^ 22) {c : Comp} : decodeComp f = some c ↔ compFits c = true ∧ encodeComp c = f := by
  constructor
  · intro h
    have hcop := cop_of_decodeComp h
    obtain ⟨hfits, ho⟩ := (decodeComp_row hcop).mp h
    obtain ⟨hlow, hhigh⟩ := codeComp_lt c
    refine ⟨hfits, (code_eq_iff [(16, (codeComp c).2), (6, (codeComp c).1)] hf ?_ ?_).mpr ?_⟩
    · simpa using ⟨hhigh, hlow⟩
    · simp [encodeComp]
      omega
    · simp [ho, hcop]
  · rintro ⟨hfits, rfl⟩
    obtain ⟨hcop, ho⟩ := bits_encodeComp c
    exact (decodeComp_row hcop).mpr ⟨hfits, ho.symm⟩

/-! ## Destinations of an IMMEDIATE word (Table 13.7) -/

theorem f8_zero_val (c : Nat) : (f8 c 0).val = c % 8 := by
  simp [f8, bits]

theorem f16_zero_val (c : Nat) : (f16 c 0).val = c % 16 := by
  simp [f16, bits]

/-- The class of a destination, the upper half of its code. -/
theorem class_of_decodeDest {c i : Nat} {d : ImmDest} (hc : c < 2 ^ 6) (h : decodeDest c i = some d) : c / 8 = (encodeDest d).1 / 8 := by
  unfold decodeDest at h
  split at h <;> simp only [keep_eq_some_iff, Option.some.injEq] at h
  case h_2 =>
    split at h <;> simp only [keep_eq_some_iff, Option.some.injEq, reduceCtorEq] at h
    · obtain ⟨-, rfl⟩ := h
      rfl
    · subst h
      rfl
  case h_1 | h_3 | h_4 =>
    subst h
    simp only [encodeDest, f16_zero_val]
    omega
  case h_5 | h_6 | h_7 | h_8 =>
    obtain ⟨-, rfl⟩ := h
    simp only [encodeDest, imp_false] at *
    omega

theorem decodeDest_row {c i : Nat} {d : ImmDest} (hc : c < 2 ^ 6) (hi : i < 2 ^ 32) (hclass : c / 8 = (encodeDest d).1 / 8) :
    decodeDest c i = some d ↔ encodeDest d = (c, i) := by
  cases d with
  | d k imm =>
    have hop : c / 8 = 2 ∨ c / 8 = 3 := by simp only [encodeDest] at hclass; omega
    rcases hop with hop | hop <;>
    · simp only [decodeDest, hop, Option.some.injEq, ImmDest.d.injEq, ← Fin.val_inj, f16_zero_val, ofNat_eq_iff, encodeDest, Prod.mk.injEq]
      omega
  | n k imm =>
    have hop : c / 8 = 6 := by simp only [encodeDest] at hclass; omega
    simp only [decodeDest, hop, keep_eq_some_iff, beq_iff_eq, ImmDest.n.injEq, ← Fin.val_inj, f8_zero_val, ofNat_eq_iff, encodeDest,
      Prod.mk.injEq, bit, BitVec.getLsbD, Nat.testBit_eq_decide_div_mod_eq, decide_eq_true_eq, bits]
    split_ifs <;> omega
  | lc imm =>
    have hop : c / 8 = 1 := by simp only [encodeDest] at hclass; omega
    simp only [decodeDest, hop]
    split
    case h_1 =>
      simp [ofNat_eq_iff, encodeDest]
      omega
    case h_2 => simp [encodeDest]
    case h_3 h8 h9 => exact ⟨nofun, fun h => (h8 (congrArg Prod.fst h).symm).elim⟩
  | sr imm =>
    have hop : c / 8 = 1 := by simp only [encodeDest] at hclass; omega
    simp only [decodeDest, hop]
    split
    case h_2 =>
      simp [ofNat_eq_iff, encodeDest]
      omega
    case h_1 => simp [encodeDest]
    case h_3 h8 h9 => exact ⟨nofun, fun h => (h9 (congrArg Prod.fst h).symm).elim⟩
  | v k imm =>
    have hop : c / 8 = 0 := by simp only [encodeDest] at hclass; omega
    simp only [decodeDest, hop, Option.some.injEq, ImmDest.v.injEq, ← Fin.val_inj, f8_zero_val, ofNat_eq_iff, encodeDest,
      Prod.mk.injEq]
    omega
  | p k imm =>
    have hop : c / 8 = 4 := by simp only [encodeDest] at hclass; omega
    simp only [decodeDest, hop, keep_eq_some_iff, decide_eq_true_eq, ImmDest.p.injEq, ← Fin.val_inj, f8_zero_val, ofNat_eq_iff, encodeDest,
      Prod.mk.injEq]
    omega
  | q k imm =>
    have hop : c / 8 = 5 := by simp only [encodeDest] at hclass; omega
    simp only [decodeDest, hop, keep_eq_some_iff, decide_eq_true_eq, ImmDest.q.injEq, ← Fin.val_inj, f8_zero_val, ofNat_eq_iff, encodeDest,
      Prod.mk.injEq]
    omega
  | m k imm =>
    have hop : c / 8 = 7 := by simp only [encodeDest] at hclass; omega
    simp only [decodeDest, hop, keep_eq_some_iff, decide_eq_true_eq, ImmDest.m.injEq, ← Fin.val_inj, f8_zero_val, ofNat_eq_iff, encodeDest,
      Prod.mk.injEq]
    omega

theorem decodeDest_eq_some_iff {c i : Nat} (hc : c < 2 ^ 6) (hi : i < 2 ^ 32) {d : ImmDest} :
    decodeDest c i = some d ↔ encodeDest d = (c, i) :=
  ⟨fun h => (decodeDest_row hc hi (class_of_decodeDest hc h)).mp h, fun h => (decodeDest_row hc hi (by rw [h])).mpr h⟩

theorem encodeDest_lt (d : ImmDest) : (encodeDest d).1 < 2 ^ 6 ∧ (encodeDest d).2 < 2 ^ 32 := by
  cases d with
  | n k imm =>
    simp only [encodeDest]
    split <;> omega
  | _ =>
    simp only [encodeDest]
    omega

/-! ## Scalar operations with an immediate (Table 13.8) -/

/-- The operation number of a scalar operation with an immediate, bits 60 to 55 of its word. -/
def sImmOp (o : SImm) : Nat :=
  match o with
  | .addi .. => 0 | .andi .. => 1 | .ori .. => 2 | .xori .. => 3 | .cmpi .. => 4 | .movi .. => 5 | .movhi .. => 6

theorem sImmOp_of_decodeSImm {op w : Nat} {o : SImm} (h : decodeSImm op w = some o) : op = sImmOp o := by
  unfold decodeSImm at h
  split at h <;> simp only [keep_eq_some_iff, Option.some.injEq, reduceCtorEq] at h
  case h_5 | h_6 =>
    obtain ⟨-, rfl⟩ := h
    rfl
  all_goals
    subst h
    rfl

theorem encodeSImm_div (o : SImm) : encodeSImm o / 2 ^ 24 = sImmOp o := by
  cases o <;> simp only [encodeSImm, sImmOp] <;> omega

theorem encodeSImm_lt (o : SImm) : encodeSImm o < 2 ^ 30 := by
  have hop : sImmOp o < 7 := by cases o <;> simp [sImmOp]
  have := encodeSImm_div o
  omega

theorem bits_of_encodeSImm {w : Nat} {o : SImm} (h : encodeSImm o = bits w 60 31) : bits w 60 55 = sImmOp o := by
  rw [← encodeSImm_div o, h]
  simp only [bits]
  omega

/-- A destination, a source and an immediate. -/
theorem sImm_operands_iff {w n : Nat} (hop : bits w 60 55 = n) {d a : Fin 16} {i : BitVec 16} :
    f16 w 51 = d ∧ f16 w 47 = a ∧ BitVec.ofNat 16 (bits w 46 31) = i ↔
      n * 2 ^ 24 + d.val * 2 ^ 20 + a.val * 2 ^ 16 + i.toNat = bits w 60 31 := by
  have hn : n < 64 := hop ▸ bits_lt w 60 55
  rw [code_eq_bits_iff [(16, i.toNat), (4, a), (4, d), (6, n)] rfl (by simp [hn]; omega) (by simp; omega)]
  simp [hop]
  tauto

theorem decodeSImm_row {w : Nat} {o : SImm} (hop : bits w 60 55 = sImmOp o) :
    decodeSImm (bits w 60 55) w = some o ↔ encodeSImm o = bits w 60 31 := by
  cases o with
  | addi d a i | andi d a i | ori d a i | xori d a i | movhi d a i =>
    simp only [decodeSImm, hop, sImmOp, Option.some.injEq, SImm.addi.injEq, SImm.andi.injEq, SImm.ori.injEq, SImm.xori.injEq,
      SImm.movhi.injEq]
    exact sImm_operands_iff hop
  | cmpi a i =>
    refine Iff.trans ?_ (sImm_operands_iff (n := 4) hop (d := 0))
    simp [decodeSImm, hop, sImmOp]
  | movi d i =>
    refine Iff.trans ?_ (sImm_operands_iff (n := 5) hop (a := 0))
    simp [decodeSImm, hop, sImmOp]
    tauto

theorem decodeSImm_eq_some_iff {w : Nat} {o : SImm} : decodeSImm (bits w 60 55) w = some o ↔ encodeSImm o = bits w 60 31 :=
  ⟨fun h => (decodeSImm_row (sImmOp_of_decodeSImm h)).mp h, fun h => (decodeSImm_row (bits_of_encodeSImm h)).mpr h⟩

/-! ## Control operations (Tables 13.9 and 13.10) -/

/-- The operation number of a control operation, bits 60 to 56 of its word. -/
def ctlOp (c : Ctl) : Nat :=
  match c with
  | .br .. => 0 | .brlc .. => 1 | .call .. => 2 | .jmpr .. => 3 | .callu .. => 4 | .retu => 5 | .done .. => 6 | .trap .. => 7

theorem ctlOp_of_decodeCtl {w : Nat} {c : Ctl} (h : decodeCtl w = some c) : bits w 60 56 = ctlOp c := by
  unfold decodeCtl at h
  split at h <;> simp only [Option.bind_eq_some_iff, keep_eq_some_iff, reduceCtorEq] at h
  case h_1 hop | h_3 hop | h_4 hop =>
    obtain ⟨-, -, -, rfl⟩ := h
    exact hop
  all_goals
    obtain ⟨-, rfl⟩ := h
    assumption

theorem encodeCtl_div (c : Ctl) : (encodeCtl c).1 / 16 = ctlOp c := by
  cases c with
  | br k t | call k t | jmpr k r =>
    have := codeCond_lt k
    simp only [encodeCtl, ctlOp]
    omega
  | _ => simp only [encodeCtl, ctlOp]

theorem encodeCtl_lt (c : Ctl) : (encodeCtl c).1 < 2 ^ 9 ∧ (encodeCtl c).2 < 2 ^ 26 := by
  have hop : ctlOp c < 8 := by cases c <;> simp [ctlOp]
  have hdiv := encodeCtl_div c
  refine ⟨by omega, ?_⟩
  cases c with
  | done b =>
    have := codeBool_le b
    simp only [encodeCtl]
    omega
  | _ =>
    simp only [encodeCtl]
    omega

theorem decodeCtl_eq_some_iff {w : Nat} {c : Ctl} : decodeCtl w = some c ↔ encodeCtl c = (bits w 60 52, bits w 25 0) := by
  have hhead : bits w 60 52 = bits w 55 52 + 16 * bits w 60 56 := by simp only [bits]; omega
  have htail : bits w 25 0 = bits w 12 0 + 8192 * bits w 25 13 := by simp only [bits]; omega
  have hcond : bits w 55 52 < 16 := bits_lt w 55 52
  have haux : bits w 25 13 < 8192 := bits_lt w 25 13
  have htarget : bits w 12 0 < 8192 := bits_lt w 12 0
  have hrow (hop : bits w 60 56 = ctlOp c) : decodeCtl w = some c ↔ encodeCtl c = (bits w 60 52, bits w 25 0) := by
    rw [hhead, htail]
    cases c with
    | br k t | call k t | jmpr k r =>
      have hk := codeCond_lt k
      simp only [ctlOp] at hop
      simp only [decodeCtl, hop, Option.bind_eq_some_iff, keep_eq_some_iff, condAt_eq_some_iff, encodeCtl, ofNat_eq_iff, finOfNat_eq_iff,
        Ctl.br.injEq, Ctl.call.injEq, Ctl.jmpr.injEq, existsAndEq, true_and, beq_iff_eq, Bool.and_eq_true, decide_eq_true_eq, Prod.mk.injEq]
      omega
    | brlc t | callu e | retu | trap n =>
      simp only [ctlOp] at hop
      simp only [decodeCtl, hop, keep_eq_some_iff, encodeCtl, ofNat_eq_iff, finOfNat_eq_iff, Ctl.brlc.injEq, Ctl.callu.injEq, Ctl.trap.injEq,
        and_true, beq_iff_eq, Bool.and_eq_true, decide_eq_true_eq, Prod.mk.injEq]
      omega
    | done b =>
      simp only [ctlOp] at hop
      cases b <;> simp [decodeCtl, hop, encodeCtl] <;> omega
  refine ⟨fun h => (hrow (ctlOp_of_decodeCtl h)).mp h, fun h => (hrow ?_).mpr h⟩
  rw [← encodeCtl_div c, h]
  simp only [hhead]
  omega

/-! ## Words (Tables 13.1 and 13.2) -/

/-- The form of a word, bits 63 to 61. -/
def wordForm (x : VeWord) : Nat :=
  match x with
  | .parallel .. => 0 | .immediate .. => 1 | .control .. => 2 | .scalarImm .. => 3

theorem encodeNat_div (x : VeWord) : encodeNat x / 2 ^ 61 = wordForm x := by
  cases x with
  | parallel c x y t =>
    have := encodeComp_lt c
    have := encodeMove_lt x
    have := encodeMove_lt y
    have := encodeSlot_lt t
    simp only [encodeNat, wordForm]
    omega
  | immediate c d =>
    have := encodeComp_lt c
    obtain ⟨_, _⟩ := encodeDest_lt d
    simp only [encodeNat, wordForm]
    omega
  | control c x y =>
    obtain ⟨_, _⟩ := encodeCtl_lt c
    have := encodeMove_lt x
    have := encodeMove_lt y
    simp only [encodeNat, wordForm]
    omega
  | scalarImm o x y =>
    have := encodeSImm_lt o
    have := encodeMove_lt x
    have := encodeMove_lt y
    simp only [encodeNat, wordForm]
    omega

theorem encodeNat_lt (x : VeWord) : encodeNat x < 2 ^ 64 := by
  have hform : wordForm x < 4 := by cases x <;> simp [wordForm]
  have := encodeNat_div x
  omega

theorem bits_encodeNat (x : VeWord) : bits (encodeNat x) 63 61 = wordForm x := by
  rw [← encodeNat_div x]
  exact Nat.mod_eq_of_lt (Nat.div_lt_of_lt_mul (encodeNat_lt x))

theorem wordForm_of_decodeNat {w : Nat} {x : VeWord} (h : decodeNat w = some x) : bits w 63 61 = wordForm x := by
  unfold decodeNat at h
  split at h
  case h_1 hform =>
    split at h <;> cases h
    exact hform
  case h_2 hform =>
    split at h
    · obtain ⟨-, rfl⟩ := keep_eq_some_iff.mp h
      exact hform
    · cases h
  case h_3 hform =>
    split at h <;> cases h
    exact hform
  case h_4 hform =>
    split at h
    · obtain ⟨-, rfl⟩ := keep_eq_some_iff.mp h
      exact hform
    · cases h
  case h_5 => cases h

section
variable {w : Nat}

theorem decodeNat_eq_parallel_iff (hform : bits w 63 61 = 0) {c : Comp} {x y : Move} {t : Slot} :
    decodeNat w = some (.parallel c x y t) ↔ decodeComp (bits w 60 39) = some c ∧ decodeMove (bits w 38 26) = some x ∧
      decodeMove (bits w 25 13) = some y ∧ decodeSlot (bits w 12 0) = some t := by
  simp only [decodeNat, hform]
  split
  next hc hx hy ht => simp only [hc, hx, hy, ht, Option.some.injEq, VeWord.parallel.injEq]
  next hnone => exact ⟨nofun, fun ⟨hc, hx, hy, ht⟩ => (hnone _ _ _ _ hc hx hy ht).elim⟩

theorem decodeNat_eq_immediate_iff (hform : bits w 63 61 = 1) {c : Comp} {d : ImmDest} :
    decodeNat w = some (.immediate c d) ↔ bits w 32 32 = 0 ∧ decodeComp (bits w 60 39) = some c ∧
      decodeDest (bits w 38 33) (bits w 31 0) = some d := by
  simp only [decodeNat, hform]
  split
  next hc hd =>
    simp only [hc, hd, keep_eq_some_iff, Bool.not_eq_true', bit_eq_iff, codeBool_false, Option.some.injEq, VeWord.immediate.injEq]
  next hnone => exact ⟨nofun, fun ⟨_, hc, hd⟩ => (hnone _ _ hc hd).elim⟩

theorem decodeNat_eq_control_iff (hform : bits w 63 61 = 2) {c : Ctl} {x y : Move} :
    decodeNat w = some (.control c x y) ↔ decodeCtl w = some c ∧ decodeMove (bits w 51 39) = some x ∧
      decodeMove (bits w 38 26) = some y := by
  simp only [decodeNat, hform]
  split
  next hc hx hy => simp only [hc, hx, hy, Option.some.injEq, VeWord.control.injEq]
  next hnone => exact ⟨nofun, fun ⟨hc, hx, hy⟩ => (hnone _ _ _ hc hx hy).elim⟩

theorem decodeNat_eq_scalarImm_iff (hform : bits w 63 61 = 3) {o : SImm} {x y : Move} :
    decodeNat w = some (.scalarImm o x y) ↔ bits w 30 26 = 0 ∧ decodeSImm (bits w 60 55) w = some o ∧
      decodeMove (bits w 25 13) = some x ∧ decodeMove (bits w 12 0) = some y := by
  simp only [decodeNat, hform]
  split
  next ho hx hy => simp only [ho, hx, hy, keep_eq_some_iff, beq_iff_eq, Option.some.injEq, VeWord.scalarImm.injEq]
  next hnone => exact ⟨nofun, fun ⟨_, ho, hx, hy⟩ => (hnone _ _ _ ho hx hy).elim⟩

end

/-- Under its form a word is what its fields say. -/
theorem decodeNat_row {w : Nat} (hw : w < 2 ^ 64) {x : VeWord} (hform : bits w 63 61 = wordForm x) :
    decodeNat w = some x ↔ compFits (wordComp x) = true ∧ encodeNat x = w := by
  cases x with
  | parallel c x y t =>
    have hfits : ∀ p ∈ [(13, encodeSlot t), (13, encodeMove y), (13, encodeMove x), (22, encodeComp c), (3, 0)], 0 < p.1 ∧ p.2 < 2 ^ p.1 := by
      simpa using ⟨encodeSlot_lt t, encodeMove_lt y, encodeMove_lt x, encodeComp_lt c⟩
    simp only [wordForm] at hform
    rw [decodeNat_eq_parallel_iff hform, decodeComp_eq_some_iff (bits_lt w 60 39), decodeMove_eq_some_iff (bits_lt w 38 26),
      decodeMove_eq_some_iff (bits_lt w 25 13), decodeSlot_eq_some_iff (bits_lt w 12 0), code_eq_iff _ hw hfits (by simp [encodeNat]; omega)]
    simp [hform, wordComp, @eq_comm _ _ (bits w _ _)]
    tauto
  | immediate c d =>
    obtain ⟨hcode, himm⟩ := encodeDest_lt d
    have hfits : ∀ p ∈ [(32, (encodeDest d).2), (1, 0), (6, (encodeDest d).1), (22, encodeComp c), (3, 1)], 0 < p.1 ∧ p.2 < 2 ^ p.1 := by
      simpa using ⟨himm, hcode, encodeComp_lt c⟩
    simp only [wordForm] at hform
    rw [decodeNat_eq_immediate_iff hform, decodeComp_eq_some_iff (bits_lt w 60 39),
      decodeDest_eq_some_iff (bits_lt w 38 33) (bits_lt w 31 0), Prod.ext_iff, code_eq_iff _ hw hfits (by simp [encodeNat]; omega)]
    simp [hform, wordComp, @eq_comm _ _ (bits w _ _)]
    tauto
  | control c x y =>
    obtain ⟨hhead, htail⟩ := encodeCtl_lt c
    have hfits : ∀ p ∈ [(26, (encodeCtl c).2), (13, encodeMove y), (13, encodeMove x), (9, (encodeCtl c).1), (3, 2)],
        0 < p.1 ∧ p.2 < 2 ^ p.1 := by
      simpa using ⟨htail, encodeMove_lt y, encodeMove_lt x, hhead⟩
    simp only [wordForm] at hform
    rw [decodeNat_eq_control_iff hform, decodeCtl_eq_some_iff, decodeMove_eq_some_iff (bits_lt w 51 39),
      decodeMove_eq_some_iff (bits_lt w 38 26), Prod.ext_iff, code_eq_iff _ hw hfits (by simp [encodeNat]; omega)]
    simp [hform, wordComp, compFits, @eq_comm _ _ (bits w _ _)]
    tauto
  | scalarImm o x y =>
    have hfits : ∀ p ∈ [(13, encodeMove y), (13, encodeMove x), (5, 0), (30, encodeSImm o), (3, 3)], 0 < p.1 ∧ p.2 < 2 ^ p.1 := by
      simpa using ⟨encodeMove_lt y, encodeMove_lt x, encodeSImm_lt o⟩
    simp only [wordForm] at hform
    rw [decodeNat_eq_scalarImm_iff hform, decodeSImm_eq_some_iff, decodeMove_eq_some_iff (bits_lt w 25 13),
      decodeMove_eq_some_iff (bits_lt w 12 0), code_eq_iff _ hw hfits (by simp [encodeNat]; omega)]
    simp [hform, wordComp, compFits, @eq_comm _ _ (bits w _ _)]
    tauto

/-- A number of 64 bits decodes to exactly the word whose code it is. -/
theorem decodeNat_eq_some_iff {w : Nat} (hw : w < 2 ^ 64) {x : VeWord} :
    decodeNat w = some x ↔ compFits (wordComp x) = true ∧ encodeNat x = w :=
  ⟨fun h => (decodeNat_row hw (wordForm_of_decodeNat h)).mp h, fun h => (decodeNat_row hw (h.2 ▸ bits_encodeNat x)).mpr h⟩

theorem toNat_encodeWord (x : VeWord) : (encodeWord x).toNat = encodeNat x :=
  BitVec.toNat_ofNat _ _ |>.trans (Nat.mod_eq_of_lt (encodeNat_lt x))

/-- Settles O60: a word decodes from exactly its own code. -/
theorem wordsDecodeAsTheyEncode : Obligations.WordsDecodeAsTheyEncode := by
  unfold Obligations.WordsDecodeAsTheyEncode
  refine ⟨fun x hfits => ?_, fun w x h => ?_⟩
  · exact (decodeNat_eq_some_iff (encodeWord x).isLt).mpr ⟨hfits, (toNat_encodeWord x).symm⟩
  · obtain ⟨-, hcode⟩ := (decodeNat_eq_some_iff w.isLt).mp h
    rw [encodeWord, hcode, BitVec.ofNat_toNat, BitVec.setWidth_eq]

end Sys2Proof
end

section
/-! The scalar words: what each writes, in a compute field and as SCALAR_IMM, and that it carries its word out (R361, R363, R365). -/

namespace Sys2Proof.Machine

open Sys2Proof.Safety

/-- A SCALAR_IMM row carries its word out with the writes that its operation makes. -/
theorem writes_of_scalarImm {c : Instr} {i : Issue} {o : SImm} {m : TwoMoves} {s : State} {l : List WriteReq}
    (h : exec c s = .next (issueStep i (simmWord o m) s)) (hl : scalarImm (viewOf i s) o = l) (hi : Issues i (simmWord o m) s) :
    Writes c i (simmWord o m) s l := by
  rw [Writes, h, issueStep_of_issues hi, ← hl]
  rfl

/-- Settles O23: each row issues its word, and the operation's writes are those of Tables 13.5 and 13.8 with the flags of Table 13.6. -/
theorem scalarWordsIssue : Obligations.ScalarWordsIssue := by
  unfold Obligations.ScalarWordsIssue
  refine ⟨?arithmetic, ?logic⟩
  case arithmetic =>
    intro i r m s v sum dif wrapped clamped
    refine ⟨?add, ?sub, ?adds, ?subs, ?cmp, ?neg, ?abs, ?mul, ?mpy15, ?mpy31, ?mac31, ?addi, ?cmpi⟩
    case add | sub | adds | subs | mul | mpy15 | mpy31 => exact fun d a b => computes_of_writes rfl fun _ _ => rfl
    case cmp => exact fun a b => computes_of_writes rfl fun _ _ => rfl
    case neg | abs => exact fun d a => computes_of_writes rfl fun _ _ => rfl
    case mac31 => exact fun k a b => computes_of_writes rfl fun _ _ => rfl
    case addi => exact fun d a imm => writes_of_scalarImm rfl rfl
    case cmpi => exact fun a imm => writes_of_scalarImm rfl rfl
  case logic =>
    intro i r m s v c plain
    refine ⟨?and, ?or, ?xor, ?mov, ?min, ?max, ?shl, ?asr, ?lsr, ?norm, ?mfs, ?andi, ?ori, ?xori, ?movi, ?movhi⟩
    case and | or | xor | min | max => exact fun d a b => computes_of_writes rfl fun _ _ => rfl
    case shl | asr | lsr => exact fun d a n => computes_of_writes rfl fun _ _ => rfl
    case mov | norm => exact fun d a => computes_of_writes rfl fun _ _ => rfl
    case mfs => exact fun d lc => computes_of_step rfl
    case andi | ori | xori | movhi => exact fun d a imm => writes_of_scalarImm rfl rfl
    case movi => exact fun d imm => writes_of_scalarImm rfl rfl

end Sys2Proof.Machine
end

section
/-! The queue and the state after reset: the command at its front is carried out on the rest, and the state after reset is legal (R405, R506, R524). -/

namespace Sys2Proof.Machine

open Sys2Proof.Safety

theorem step_cons (i : Instr) (rest : List Instr) (s : State) : step { s with pending := i :: rest } = exec i { s with pending := rest } := rfl

/-- Settles O1: the step on a queue that holds a command is that command's row. -/
theorem stepRunsFrontOfQueue : Obligations.StepRunsFrontOfQueue := by
  unfold Obligations.StepRunsFrontOfQueue
  exact step_cons

/-- Settles O57: after reset the fuses spell the life-cycle state, the log is empty and DRAM is 0. -/
theorem resetIsLegal : Obligations.ResetIsLegal := by
  unfold Obligations.ResetIsLegal
  exact { fuses := reset_lifeCycle_fused, log := Nat.zero_le _, dram := memoryWf_nil }

end Sys2Proof.Machine
end

section
/-! The commands of the device, its blocks, cells and regions: what each command's rules answer where its conditions hold, and that the answer
becomes the reply (R395, R420, R421, R439 to R441, R506). -/

namespace Sys2Proof.Machine

open Sys2Proof.Safety

/-- An admitted command whose own rules answer with a fence replies OK, and the fence follows the reply (R439, R506). -/
theorem becomes_of_fenced {op : Nat} {p : Packet} {s u : State} {c : Ctx} {i : Instr} {body : Body} (h : Admitted op p s u c)
    (he : exec i s = .next (fylosRun op body p s)) {f : Fence} {t : State} (hb : body c u = .fenced f t) :
    Becomes i s (t.reply c.ref stOk [] f) := by
  unfold Becomes
  rw [he, fylosRun_admitted h, hb, giveAnswer_fenced]

section
variable {x : Ctx} {s : State}

/-! ## DEV_UDP_KEY_SET, DEV_NOTICE_CONFIG and DEV_LIFECYCLE (R420, R441, R506) -/

theorem devUdpKeySetBody_blank {k : List Byte} (hnone : s.udpKey? = none) (hk : paramBytes? x.params 0x40 = some k) :
    devUdpKeySetBody x s = .done stOk [] { s with life := { s.life with udpKeys := tabPut s.life.udpKeys s.life.lifeCycle k } } := by
  simp [devUdpKeySetBody, hnone, hk]

theorem devNoticeConfigBody_sets {d : Nat} {k : DestKind} (hd : d = paramNat x.params 0x40 0)
    (hk : k = (match paramNat? x.params 0x41 with | some n => destKindOf n | none => (s.dest d).kind))
    (hneeds : k = (s.dest d).kind ∨ ∀ t ∈ destNeeds k, paramHas x.params t = true) :
    devNoticeConfigBody x s = .done stOk [] (s.setDest d (destWith x.params k (s.dest d))) := by
  have hgiven : (if k = (s.dest d).kind then none else (destNeeds k).find? (fun t => !(paramHas x.params t))) = none := by
    rcases hneeds with hsame | hall
    · exact if_pos hsame
    · split
      · rfl
      · simpa using hall
  subst hd
  cases hp : paramNat? x.params 0x41 with
  | none =>
    simp only [hp] at hk
    simp only [devNoticeConfigBody, hp, ← hk, if_true]
  | some n =>
    simp only [hp] at hk
    simp only [devNoticeConfigBody, hp, ← hk, hgiven]

theorem devLifecycleBody_goes_on {k : Nat} (hk : paramNat? x.params 0x40 = some k)
    (hnonce : paramBytes? x.params 0x41 = some (s.fylos.bootNonce.take 4)) (habove : s.life.lifeCycle < k)
    (hkey : s.life.lifeCycle = 0 → s.life.keyBlank = false) : devLifecycleBody x s = .fenced (.lifeCycle k) s := by
  unfold devLifecycleBody
  simp only [paramNat_of_some hk, hnonce, Option.getD_some, ne_eq, not_true_eq_false, if_false]
  refine if_neg ?_
  rintro (hback | ⟨hblank, hburned⟩)
  · omega
  · simp [hkey hblank] at hburned

/-! ## BLOCK_CONFIG (R395) -/

theorem blockConfigBody_fits
    (h : paramNat? x.params 0x40 = some 0 → nextSpare (s.block x.id) = true ∨ (s.blockSums x.id).1 ≤ 99960) :
    blockConfigBody x s = .done stOk [] (match paramNat? x.params 0x40 with
      | none => s
      | some n => s.modBlock x.id (fun k => { k with sparePending := some (n == 0) })) := by
  unfold blockConfigBody
  cases hn : paramNat? x.params 0x40 with
  | none => rfl
  | some n =>
    refine if_neg ?_
    rintro ⟨rfl, hone, hsum⟩
    rcases h hn with hspare | hfits
    · exact hone hspare
    · omega

/-! ## BLOCK_RESET, CELL_RESET and REGION_RESET (R440, R501) -/

theorem blockResetBody_empty (hfree : s.holdsChannels x.id = false) (hregion : (s.region (blockRegion x.id)).underReset = false) :
    blockResetBody x s = .accepted (s.awaitReset 2 x.id x.ref) (fun s => (s.wakeForReset (blockDomains x.id)).wipeBlock x.id) :=
  if_neg (by simp [hfree, hregion])

theorem cellResetBody_out_of_service (hblock : (s.block (cellBlock x.id)).underReset = false)
    (hregion : (s.region (blockRegion (cellBlock x.id))).underReset = false)
    (hidle : (s.cell x.id).trap.isSome = true ∨
      ((s.block (cellBlock x.id)).reserve = some (cellLocal x.id) ∧ boundTo (s.block (cellBlock x.id)) (cellLocal x.id) = [])) :
    cellResetBody x s = .accepted (s.awaitReset 3 x.id x.ref)
      (fun s => (s.wakeForReset (blockDomains (cellBlock x.id))).modCell x.id wipedCell) := by
  refine if_neg ?_
  rcases hidle with htrap | ⟨hspare, hunbound⟩
  · simp [hblock, hregion, htrap]
  · simp [hblock, hregion, hspare, hunbound]

theorem regionResetBody_empty (hfree : (regionBlocks x.id).all (fun b => !(s.holdsChannels b)) = true) :
    regionResetBody x s = .accepted (s.awaitReset 1 x.id x.ref) (fun s =>
      (((regionBlocks x.id).foldl (fun s b => s.wakeForReset (blockDomains b)) s).wakeForReset [52 + x.id]).wipeRegion x.id) := by
  refine if_neg ?_
  simpa using hfree

end

/-- Settles O3: each row runs its command's rules, these answer as the entry of the reference says, and the answer becomes the reply. -/
theorem deviceAndBlockCommandsComplete : Obligations.DeviceAndBlockCommandsComplete := by
  unfold Obligations.DeviceAndBlockCommandsComplete
  intro p s u c
  refine ⟨?hello, ?udpKey, ?noticeConfig, ?reset, ?lifecycle, ?arb, ?regionArb, ?blockConfig, ?blockReset, ?cellReset, ?regionReset⟩
  case hello => exact fun h => reports_of_done h rfl rfl
  case udpKey => exact fun k h hnone hk => replies_of_admitted h rfl (devUdpKeySetBody_blank hnone hk)
  case noticeConfig => exact fun d k h hd hk hneeds => replies_of_admitted h rfl (devNoticeConfigBody_sets hd hk hneeds)
  case reset => exact fun h => becomes_of_fenced h rfl rfl
  case lifecycle => exact fun k h hk hnonce habove hkey => becomes_of_fenced h rfl (devLifecycleBody_goes_on hk hnonce habove hkey)
  case arb => exact fun h => replies_of_admitted h rfl rfl
  case regionArb => exact fun h => replies_of_admitted h rfl rfl
  case blockConfig => exact fun h hfits => replies_of_admitted h rfl (blockConfigBody_fits hfits)
  case blockReset => exact fun h hroom hfree hregion => becomes_of_accepted h rfl hroom (blockResetBody_empty hfree hregion) rfl
  case cellReset =>
    exact fun h hroom hblock hregion hidle => becomes_of_accepted h rfl hroom (cellResetBody_out_of_service hblock hregion hidle) rfl
  case regionReset => exact fun h hroom hfree => becomes_of_accepted h rfl hroom (regionResetBody_empty hfree) rfl

end Sys2Proof.Machine
end

section
/-! How a Fylos command is taken from its source: the row of every opcode runs that opcode's own rules, what stops or holds back a command at its
source, and what refuses it with no effect (R401, R404, R405, R415, R416, R419 to R425, R428, R432, R550, R554, R578). -/

namespace Sys2Proof.Machine

open Sys2Proof.Safety

/-- The row of an opcode runs that opcode's own rules, whichever source its command comes from. -/
theorem exec_of_fylosRow {i : Instr} {op : Nat} {p : Packet} (h : fylosRow i = some (op, p)) (s : State) :
    exec i s = .next (fylosRun op (bodyOf op) p s) := by
  cases i <;> cases h <;> rfl

section
variable {op n : Nat} {body : Body} {p : Packet} {s : State}

/-! ## At the source (R416, R550, R554, R578) -/

theorem damiumTakes_eq_true_iff : s.damiumTakes = true ↔ s.fylos.ready = true ∧ s.fylos.halted = false ∧ s.fylos.switching = false := by
  simp [State.damiumTakes, and_assoc]

theorem fylosRun_ring_takes (hsrc : p.source = .ring n) (htakes : s.damiumTakes = true) (hheld : (s.ring n).held = [])
    (hwait : (s.ring n).replyWait = false) : fylosRun op body p s = ringCommand op n body p s := by
  simp [fylosRun, hsrc, htakes, hheld, hwait]

theorem fylosRun_ring_waits (hsrc : p.source = .ring n)
    (h : s.damiumTakes = false ∨ (s.ring n).replyWait = true ∨ (s.ring n).held ≠ []) :
    fylosRun op body p s = s.modRing n (fun r => { r with held := r.held ++ [(op, p)] }) := by
  have hwaits : ¬ s.damiumTakes = true ∨ (s.ring n).held ≠ [] ∨ (s.ring n).replyWait = true := by
    rcases h with h | h | h
    · exact .inl (by simp [h])
    · exact .inr (.inr h)
    · exact .inr (.inl h)
  simp only [fylosRun, hsrc, if_pos hwaits]

section
variable {a : List Byte} {q e : Nat} (hsrc : p.source = .udp a q e)
include hsrc

theorem fylosRun_udp_discards (h : s.fylos.switching = true ∨ s.fylos.ready = false) : fylosRun op body p s = s := by
  simp only [fylosRun, hsrc]
  exact if_pos (by simpa using h)

theorem fylosRun_udp_waits (hswitch : s.fylos.switching = false) (hready : s.fylos.ready = true) (hhalt : s.fylos.halted = true) :
    fylosRun op body p s = { s with fylos := { s.fylos with heldUdp := s.fylos.heldUdp ++ [(op, p)] } } := by
  simp [fylosRun, hsrc, hswitch, hready, State.damiumTakes, hhalt]

theorem fylosRun_udp_badMagic (htakes : s.damiumTakes = true) (hmagic : p.magic ≠ 0x4659) :
    fylosRun op body p s = s.bumpFylos .badMagic := by
  obtain ⟨hready, hhalt, hswitch⟩ := damiumTakes_eq_true_iff.mp htakes
  simp only [fylosRun, hsrc]
  rw [if_neg (by simp [hready, hswitch]), if_neg (by simp [htakes]), if_pos hmagic]

theorem fylosRun_udp_takes (htakes : s.damiumTakes = true) (hmagic : p.magic = 0x4659) :
    fylosRun op body p s = udpCommand op body p s := by
  obtain ⟨hready, hhalt, hswitch⟩ := damiumTakes_eq_true_iff.mp htakes
  simp [fylosRun, hsrc, hready, hswitch, htakes, hmagic]

end

section
variable {d : Nat} {k : Bool} (hsrc : p.source = .stack d k)
include hsrc

theorem fylosRun_stack_discards (hready : s.fylos.ready = false) : fylosRun op body p s = s := by
  simp [fylosRun, hsrc, hready]

theorem fylosRun_stack_waits (hready : s.fylos.ready = true) (h : s.fylos.switching = true ∨ s.fylos.halted = true) :
    fylosRun op body p s = { s with fylos := { s.fylos with heldUdp := s.fylos.heldUdp ++ [(op, p)] } } := by
  have htakes : s.damiumTakes = false := by
    rcases h with h | h <;> simp [State.damiumTakes, h]
  simp [fylosRun, hsrc, hready, htakes]

theorem fylosRun_stack_takes (htakes : s.damiumTakes = true) : fylosRun op body p s = runCommand op body p false s := by
  obtain ⟨hready, hhalt, hswitch⟩ := damiumTakes_eq_true_iff.mp htakes
  simp [fylosRun, hsrc, hready, htakes]

end

/-! ## A command from a ring (R401, R413, R415) -/

theorem ringCommand_badMagic (h : p.magic ≠ 0x4659) :
    ringCommand op n body p s = stopIntake (s.bumpFylos .badMagic) n 1 (s.ring n).cmdHead.toNat := if_pos h

theorem ringCommand_framed (h : p.magic = 0x4659 ∧ p.paramLen.toNat ≤ 16352) :
    ringCommand op n body p s = runCommand op body (ringPacket p) false s :=
  (if_neg (by simp [h.1])).trans (if_neg (Nat.not_lt.mpr h.2))

theorem fylosRun_delivered (h : Delivered n p s) : fylosRun op body p s = runCommand op body (ringPacket p) false s :=
  (fylosRun_ring_takes h.source h.takes h.idle.1 h.idle.2).trans (ringCommand_framed h.framed)

/-- The pair whose intake stops: its error bits, and a notice that only adds to what waits on the rings (R415). -/
theorem stopIntake_ring (s : State) (n cause index m : Nat) : ∃ l, (stopIntake s n cause index).ring m =
    { (s.modRing n (fun r => { r with cmdError := true, errCause := BitVec.ofNat 4 cause, errIndex := BitVec.ofNat 12 index,
                                      stopped := true, covered := [] })).ring m with
      waiting := ((s.modRing n (fun r => { r with cmdError := true, errCause := BitVec.ofNat 4 cause, errIndex := BitVec.ofNat 12 index,
                                                  stopped := true, covered := [] })).ring m).waiting ++ l } :=
  State.notify_appends _ _ _ _ _ _ m

/-! ## The checks ahead of a command's own rules (R403, R404, R428, R432) -/

theorem runCommand_headerRefused {b : Bool} {st : Nat} {l : List Tlv} (h : headerRefusal s op (opSpec? op) p = some (st, l)) :
    runCommand op body p b s = s.reply (refOf op p b) st l .none := by
  simp only [runCommand, h]

theorem runCommand_admitRefused {b : Bool} {o : OpSpec} {st : Nat} {l : List Tlv} (hheader : headerRefusal s op (opSpec? op) p = none)
    (hhere : deviceHere s p = true) (ho : opSpec? op = some o) (h : admitCommand s op o p b = .inl (st, l)) :
    runCommand op body p b s = s.reply (refOf op p b) st l .none := by
  rw [ho] at hheader
  simp only [runCommand, ho, hheader, hhere, not_true_eq_false, if_false, h]

theorem headerRefusal_version (o : Option OpSpec) (h3 : p.version ≠ 3) (h4 : p.version ≠ 4) :
    headerRefusal s op o p = some (stVersionUnsupported, [supportedVersions]) := if_pos ⟨h3, h4⟩

theorem headerRefusal_unlisted (hversion : p.version = 3 ∨ p.version = 4) (hgood : badHeader p = false) :
    headerRefusal s op none p = some (stUnknownOpcode, []) := by
  have hknown : ¬ (p.version ≠ 3 ∧ p.version ≠ 4) := fun h => hversion.elim h.1 h.2
  exact (if_neg hknown).trans (if_neg (by simp [hgood]))

end

/-- Settles O12: each row runs its opcode's rules, and a command that a check refuses ahead of them is its one reply. -/
theorem refusalsHaveNoEffect : Obligations.RefusalsHaveNoEffect := by
  unfold Obligations.RefusalsHaveNoEffect
  refine ⟨fun i op p s h => exec_of_fylosRow h s, fun i op n p s h hd h3 h4 => ?version, fun i op n p s h hd => ⟨?header, ?params⟩⟩
  case version => rw [exec_of_fylosRow h, fylosRun_delivered hd, runCommand_headerRefused (headerRefusal_version (p := ringPacket p) _ h3 h4)]
  case header => exact fun st l hrefuse => by rw [exec_of_fylosRow h, fylosRun_delivered hd, runCommand_headerRefused hrefuse]
  case params =>
    exact fun o st l hheader hhere ho hrefuse => by
      rw [exec_of_fylosRow h, fylosRun_delivered hd, runCommand_admitRefused hheader hhere ho hrefuse]

/-- Settles O13: the header check of an opcode that the reference does not list ends in UNKNOWN_OPCODE. -/
theorem unlistedOpcodeRefused : Obligations.UnlistedOpcodeRefused := by
  unfold Obligations.UnlistedOpcodeRefused
  intro op n p s hd hop hversion hgood
  have hrow : fylosRow (.unknownOpcode op p) = some (op.toNat, p) := rfl
  rw [exec_of_fylosRow hrow, fylosRun_delivered hd, runCommand_headerRefused (hop ▸ headerRefusal_unlisted hversion hgood)]

/-- Settles O15: what each source does with a command that is not well framed, or that Damium does not take now. -/
theorem intakeStopsAndWaits : Obligations.IntakeStopsAndWaits := by
  unfold Obligations.IntakeStopsAndWaits
  intro i op p s h
  simp only [exec_of_fylosRow h]
  refine ⟨?badMagic, ?waits, ?discarded, ?halted, ?datagram, ?fromStack, ?stackWaits⟩
  case badMagic =>
    intro n hsrc htakes hheld hwait hmagic
    rw [fylosRun_ring_takes hsrc htakes hheld hwait, ringCommand_badMagic hmagic]
    obtain ⟨l, hstopped⟩ := stopIntake_ring (s.bumpFylos .badMagic) n 1 (s.ring n).cmdHead.toNat n
    refine ⟨_, rfl, ?_, ?_, ?_, ?_, ?_, ?_, ?_, ?_, fun m hm => ?_⟩
    · simp [hstopped]
    · simp [hstopped]
    · simp [hstopped]
    · simp [hstopped]
    · simp [hstopped]
    · simp [stopIntake]
    · simp [stopIntake]
    · simp [stopIntake]
    · obtain ⟨k, hother⟩ := stopIntake_ring (s.bumpFylos .badMagic) n 1 (s.ring n).cmdHead.toNat m
      simp [hother, State.modRing_ring_ne _ _ _ _ hm]
  case waits => exact fun n hsrc hw => congrArg _ (fylosRun_ring_waits hsrc hw)
  case discarded => exact fun a q e hsrc hw => congrArg _ (fylosRun_udp_discards hsrc hw)
  case halted => exact fun a q e hsrc hswitch hready hhalt => congrArg _ (fylosRun_udp_waits hsrc hswitch hready hhalt)
  case datagram => exact fun a q e hsrc htakes hmagic => congrArg _ (fylosRun_udp_badMagic hsrc htakes hmagic)
  case fromStack => exact fun d k hsrc hready => congrArg _ (fylosRun_stack_discards hsrc hready)
  case stackWaits => exact fun d k hsrc hready hw => congrArg _ (fylosRun_stack_waits hsrc hready hw)

end Sys2Proof.Machine
end

section
/-! Commands over UDP: the key they need, the limit on untagged answers, and the sequence window with its cache (R419 to R425). -/

namespace Sys2Proof.Machine

open Sys2Proof.Safety

section
variable {op : Nat} {body : Body} {p : Packet} {s : State}

/-! ## The checks of a datagram (R419 to R423, R506) -/

theorem udpCommand_badLength
    (h : p.params.length ≠ p.paramLen.toNat ∨ p.tag.length ≠ (if packetAuth p then 16 else 0) ∨ p.rsvd.length ≠ 7) :
    udpCommand op body p s = s.bumpFylos .badLength := if_pos h

theorem helloRoom_room (h : (s.fylos.hellos.filter (fun t => s.time.powered < t + oneSecond)).length < 100) :
    helloRoom s = some { s with fylos := { s.fylos with
      hellos := s.fylos.hellos.filter (fun t => s.time.powered < t + oneSecond) ++ [s.time.powered] } } := if_pos h

theorem helloRoom_full (h : 100 ≤ (s.fylos.hellos.filter (fun t => s.time.powered < t + oneSecond)).length) : helloRoom s = none :=
  if_neg (Nat.not_lt.mpr h)

section
variable (hparams : p.params.length = p.paramLen.toNat) (htag : p.tag.length = (if packetAuth p then 16 else 0)) (hrsvd : p.rsvd.length = 7)
include hparams htag hrsvd

theorem udpCommand_decommissioned (hlife : s.life.lifeCycle = 3) : udpCommand op body p s = s.bumpFylos .badStateDiscard := by
  have hwhole : ¬ (p.params.length ≠ p.paramLen.toNat ∨ p.tag.length ≠ (if packetAuth p then 16 else 0) ∨ p.rsvd.length ≠ 7) := by
    simp [hparams, htag, hrsvd]
  exact (if_neg hwhole).trans (if_pos hlife)

variable (hlife : s.life.lifeCycle ≠ 3)
include hlife

theorem udpCommand_hello_full (hop : op = 0x0101) (hauth : packetAuth p = false) (hfull : helloRoom s = none) :
    udpCommand op body p s = s.bumpFylos .helloDiscard := by
  simp [udpCommand, hparams, htag, hrsvd, hlife, hop, hauth, hfull]

variable (hbound : op ≠ 0x0101 ∨ packetAuth p = true)
include hbound

/-- A command that needs a key, and is of the right length, is checked against the key that the device holds. -/
theorem udpCommand_bound : udpCommand op body p s = match s.udpKey? with
    | none => (match helloRoom s with
      | some t => t.reply (refOf op p false) stNoUdpKey [] .none
      | none => s.bumpFylos .helloDiscard)
    | some key =>
      if packetAuth p then
        if p.tag = wantedTag s key op p then sequenceWindow op p s (fun t => runCommand op body p (op != 0x0101) t)
        else s.bumpFylos .authFail
      else (match helloRoom s with
        | some t => t.reply (refOf op p false) stAuthRequired [] .none
        | none => s.bumpFylos .helloDiscard) := by
  have hwhole : ¬ (p.params.length ≠ p.paramLen.toNat ∨ p.tag.length ≠ (if packetAuth p then 16 else 0) ∨ p.rsvd.length ≠ 7) := by
    simp [hparams, htag, hrsvd]
  have hkeyed : ¬ (op = 0x0101 ∧ ¬ packetAuth p = true) := fun h => hbound.elim (· h.1) h.2
  exact (if_neg hwhole).trans ((if_neg hlife).trans (if_neg hkeyed))

theorem udpCommand_no_key {t : State} (hkey : s.udpKey? = none) (hroom : helloRoom s = some t) :
    udpCommand op body p s = t.reply (refOf op p false) stNoUdpKey [] .none := by
  simp only [udpCommand_bound hparams htag hrsvd hlife hbound, hkey, hroom]

theorem udpCommand_untagged {t : State} {k : List Byte} (hkey : s.udpKey? = some k) (hauth : packetAuth p = false)
    (hroom : helloRoom s = some t) : udpCommand op body p s = t.reply (refOf op p false) stAuthRequired [] .none := by
  simp only [udpCommand_bound hparams htag hrsvd hlife hbound, hkey, hauth, hroom, Bool.false_eq_true, if_false]

theorem udpCommand_unanswered (h : s.udpKey? = none ∨ packetAuth p = false) (hfull : helloRoom s = none) :
    udpCommand op body p s = s.bumpFylos .helloDiscard := by
  cases hkey : s.udpKey? with
  | none => simp only [udpCommand_bound hparams htag hrsvd hlife hbound, hkey, hfull]
  | some k =>
    have hauth : packetAuth p = false := h.resolve_left (by simp [hkey])
    simp only [udpCommand_bound hparams htag hrsvd hlife hbound, hkey, hauth, hfull, Bool.false_eq_true, if_false]

theorem udpCommand_wrong_tag {k : List Byte} (hkey : s.udpKey? = some k) (hauth : packetAuth p = true) (hwrong : p.tag ≠ wantedTag s k op p) :
    udpCommand op body p s = s.bumpFylos .authFail := by
  simp only [udpCommand_bound hparams htag hrsvd hlife hbound, hkey, hauth, if_true, if_neg hwrong]

theorem udpCommand_tagged {k : List Byte} (hkey : s.udpKey? = some k) (hauth : packetAuth p = true) (hright : p.tag = wantedTag s k op p) :
    udpCommand op body p s = sequenceWindow op p s (fun t => runCommand op body p (op != 0x0101) t) := by
  simp only [udpCommand_bound hparams htag hrsvd hlife hbound, hkey, hauth, if_true, if_pos hright]

end

/-! ## The sequence window and the cache (R424, R425) -/

/-- The refusal of a tagged command, which is not cached under the sequence that it repeats. -/
def State.sendRefusal (s : State) (op : Nat) (p : Packet) (st : Nat) : State :=
  s.send p.source (partsOf (answer .reply (refOf op p true) s.stack.number st [] .none) (s.partLimit p.source))

section
variable {back : Nat} {run : State → State} (hfirst : s.fylos.first = false) (hback : back = (s.fylos.highest - p.sequence).toNat)
  (hold : back ≤ 0x80000000)
include hfirst hback hold

/-- A sequence that is not ahead of the highest one accepted is looked up in the window. -/
theorem sequenceWindow_behind : sequenceWindow op p s run =
    if 1024 ≤ back then s.sendRefusal op p stAuthReplay
    else if s.fylos.window.contains back then
      (match s.fylos.cache.find? (fun c => c.sequence == p.sequence.toNat) with
      | none => s.sendRefusal op p stAuthReplay
      | some _ => resendDuplicate op p s)
    else run { s with fylos := { s.fylos with window := back :: s.fylos.window, cache := cacheNew s.fylos.cache op p } } := by
  have hbehind : ¬ ((p.sequence - s.fylos.highest).toNat ≠ 0 ∧ (p.sequence - s.fylos.highest).toNat < 0x80000000) := by
    subst hback
    bv_omega
  subst hback
  simp only [sequenceWindow, hfirst, Bool.false_eq_true, if_false, if_neg hbehind, State.sendRefusal]
    <;> rfl

theorem sequenceWindow_too_old (h : 1024 ≤ back) : sequenceWindow op p s run = s.sendRefusal op p stAuthReplay :=
  (sequenceWindow_behind hfirst hback hold).trans (if_pos h)

variable (hnear : back < 1024) (hseen : s.fylos.window.contains back = true)
include hnear hseen

theorem sequenceWindow_uncached (hnone : s.fylos.cache.find? (fun c => c.sequence == p.sequence.toNat) = none) :
    sequenceWindow op p s run = s.sendRefusal op p stAuthReplay := by
  simp only [sequenceWindow_behind hfirst hback hold, if_neg (Nat.not_le.mpr hnear), hseen, if_true, hnone]

section
variable {c : Cached} (hcached : s.fylos.cache.find? (fun c => c.sequence == p.sequence.toNat) = some c)
include hcached

theorem sequenceWindow_duplicate (hheader : c.header = headerKey op p) (hparams : c.params = p.params) :
    sequenceWindow op p s run = (s.send p.source (c.replies ++ c.completions)).bumpFylos .duplicates := by
  simp only [sequenceWindow_behind hfirst hback hold, if_neg (Nat.not_le.mpr hnear), hseen, if_true, hcached, resendDuplicate,
    if_pos (And.intro hheader hparams)]

theorem sequenceWindow_mismatch (h : c.header ≠ headerKey op p ∨ c.params ≠ p.params) :
    sequenceWindow op p s run = s.sendRefusal op p stDuplicateMismatch := by
  have hdiffers : ¬ (c.header = headerKey op p ∧ c.params = p.params) := fun hsame => h.elim (· hsame.1) (· hsame.2)
  simp only [sequenceWindow_behind hfirst hback hold, if_neg (Nat.not_le.mpr hnear), hseen, if_true, hcached, resendDuplicate,
    if_neg hdiffers, State.sendRefusal]

end

end

end

/-- Settles O16: a datagram is checked by its length, the life cycle, the key held and its tag, in this order. -/
theorem udpNeedsAKey : Obligations.UdpNeedsAKey := by
  unfold Obligations.UdpNeedsAKey
  intro i op p a q e s t live h hsrc htakes hmagic hlive ht
  subst hlive ht
  rw [exec_of_fylosRow h, fylosRun_udp_takes hsrc htakes hmagic]
  refine ⟨fun hlength => congrArg _ (udpCommand_badLength hlength), fun hparams htag hrsvd => ⟨?dead, ?bound, ?hello⟩⟩
  case dead => exact fun hlife => congrArg _ (udpCommand_decommissioned hparams htag hrsvd hlife)
  case bound =>
    intro hlife hbound
    refine ⟨?noKey, ?untagged, ?full, ?wrongTag⟩
    case noKey => exact fun hkey hroom => congrArg _ (udpCommand_no_key hparams htag hrsvd hlife hbound hkey (helloRoom_room hroom))
    case untagged =>
      exact fun k hkey hauth hroom => congrArg _ (udpCommand_untagged hparams htag hrsvd hlife hbound hkey hauth (helloRoom_room hroom))
    case full => exact fun hor hfull => congrArg _ (udpCommand_unanswered hparams htag hrsvd hlife hbound hor (helloRoom_full hfull))
    case wrongTag => exact fun k hkey hauth hwrong => congrArg _ (udpCommand_wrong_tag hparams htag hrsvd hlife hbound hkey hauth hwrong)
  case hello =>
    exact fun hlife hop hauth hfull => congrArg _ (udpCommand_hello_full hparams htag hrsvd hlife hop hauth (helloRoom_full hfull))

/-- Settles O17: a sequence that the window holds, or that is too far behind it, is answered from the cache or refused, and nothing runs. -/
theorem duplicateNotExecuted : Obligations.DuplicateNotExecuted := by
  unfold Obligations.DuplicateNotExecuted
  intro i op p a q e s k back h hsrc htakes hmagic hparams hauth htag hrsvd hlife hkey hright hfirst hback
  rw [exec_of_fylosRow h, fylosRun_udp_takes hsrc htakes hmagic,
    udpCommand_tagged hparams (by rw [htag, if_pos hauth]) hrsvd hlife (.inr hauth) hkey hauth hright]
  refine ⟨fun c hnear hseen hcached => ?cached, ?gone⟩
  case cached =>
    have hold : back ≤ 0x80000000 := by omega
    exact ⟨fun hheader hsame => congrArg _ (sequenceWindow_duplicate hfirst hback hold hnear hseen hcached hheader hsame),
      fun hdiffers => congrArg _ (sequenceWindow_mismatch hfirst hback hold hnear hseen hcached hdiffers)⟩
  case gone =>
    rintro (⟨hnear, hseen, hnone⟩ | ⟨hfar, hold⟩)
    · exact congrArg _ (sequenceWindow_uncached hfirst hback (by omega) hnear hseen hnone)
    · exact congrArg _ (sequenceWindow_too_old hfirst hback hold hfar)

end Sys2Proof.Machine
end

section
/-! The end of a scope's reset, and of a switch of the management firmware (R440, R501, R550). -/

namespace Sys2Proof.Machine

open Sys2Proof.Safety

theorem exec_scopeResetComplete (scope id : Nat) (s : State) : exec (.scopeResetComplete scope id) s = .next (scopeResetStep scope id s) := rfl
theorem exec_managementFirmwareSwitched (s : State) : exec .managementFirmwareSwitched s = .next (firmwareSwitchedStep s).service := rfl

section
variable {id : Nat} {s : State}

theorem scopeResetStep_switching (scope : Nat) (h : s.fylos.switching = true) : scopeResetStep scope id s = s := if_pos h

theorem scopeResetStep_no_scope {scope : Nat} (h : scope ≠ 1 ∧ scope ≠ 2 ∧ scope ≠ 3) : scopeResetStep scope id s = s := by
  obtain ⟨h1, h2, h3⟩ := h
  simp [scopeResetStep, h1, h2, h3]

variable (htakes : s.fylos.switching = false)
include htakes

/-! ## A cell -/

theorem scopeResetStep_cell (hreset : (s.cell id).underReset = true) (hblock : (s.block (cellBlock id)).underReset = false)
    (hawake : s.blockAwake (cellBlock id) = true) : scopeResetStep 3 id s = (s.returnCell id).payReset 3 id := by
  simp [scopeResetStep, htakes, hreset, hblock, hawake]

theorem scopeResetStep_cell_waits
    (h : (s.cell id).underReset = false ∨ (s.block (cellBlock id)).underReset = true ∨ s.blockAwake (cellBlock id) = false) :
    scopeResetStep 3 id s = s := by
  rcases h with h | h | h <;> simp [scopeResetStep, htakes, h]

/-! ## A block -/

theorem scopeResetStep_block (hreset : (s.block id).underReset = true) (hregion : (s.region (blockRegion id)).underReset = false)
    (hawake : s.blockAwake id = true) :
    scopeResetStep 2 id s = (List.range 8).foldl (fun s i => s.payReset 3 (8 * id + i)) ((s.endBlockReset id).payReset 2 id) := by
  simp [scopeResetStep, htakes, hreset, hregion, hawake]

theorem scopeResetStep_block_waits
    (h : (s.block id).underReset = false ∨ (s.region (blockRegion id)).underReset = true ∨ s.blockAwake id = false) :
    scopeResetStep 2 id s = s := by
  rcases h with h | h | h <;> simp [scopeResetStep, htakes, h]

/-! ## A region -/

theorem scopeResetStep_region (hreset : (s.region id).underReset = true) (hred : (s.engine id).reducer.running = none)
    (henl : (s.engine id).enlarger.running = none) (hawake : (regionBlocks id).all s.blockAwake = true) :
    scopeResetStep 1 id s = (regionBlocks id).foldl (fun s b => s.payReset 2 b)
      (((regionBlocks id).foldl State.endBlockReset (s.modRegion id (fun g => { g with underReset := false }))).payReset 1 id) := by
  have hback : ¬ (¬ (s.region id).underReset = true ∨ (s.engine id).reducer.running.isSome = true ∨
      (s.engine id).enlarger.running.isSome = true ∨ ¬ (regionBlocks id).all s.blockAwake = true) := by
    simp only [hreset, hred, henl, hawake]
    decide
  exact (if_neg (by simp [htakes])).trans ((if_pos rfl).trans (if_neg hback))

theorem scopeResetStep_region_waits (h : (s.region id).underReset = false ∨ (s.engine id).reducer.running ≠ none ∨
    (s.engine id).enlarger.running ≠ none ∨ (regionBlocks id).all s.blockAwake = false) : scopeResetStep 1 id s = s := by
  have hwaits : ¬ (s.region id).underReset = true ∨ (s.engine id).reducer.running.isSome = true ∨
      (s.engine id).enlarger.running.isSome = true ∨ ¬ (regionBlocks id).all s.blockAwake = true := by
    rcases h with h | h | h | h
    · exact .inl (by simp [h])
    · exact .inr (.inl (Option.isSome_iff_ne_none.mpr h))
    · exact .inr (.inr (.inl (Option.isSome_iff_ne_none.mpr h)))
    · exact .inr (.inr (.inr (Bool.eq_false_iff.mp h)))
  exact (if_neg (by simp [htakes])).trans ((if_pos rfl).trans (if_pos hwaits))

end

/-! ## The management firmware (R550) -/

theorem firmwareSwitchedStep_none {s : State} (h : s.life.switchTo = none) : firmwareSwitchedStep s = s := by
  simp only [firmwareSwitchedStep, h]

theorem firmwareSwitchedStep_some {s : State} {k : Nat} {v : FwSlot} (h : s.life.switchTo = some k) (hv : v = s.fwSlot k) :
    firmwareSwitchedStep s = { s with
      fylos := { s.fylos with switching := false },
      life := { s.life with switchTo := none, management := k, fwSource := k + 1, fwVersion := v.version, fwFormat := v.format } } := by
  subst hv
  simp only [firmwareSwitchedStep, h]

/-- Settles O52: a scope comes back once its own wipe, its greater scope's and its memory's are done; Damium then runs the slot it switched to. -/
theorem scopeEventsComplete : Obligations.ScopeEventsComplete := by
  unfold Obligations.ScopeEventsComplete Safety.Becomes
  simp only [exec_scopeResetComplete, exec_managementFirmwareSwitched, Host.Outcome.next.injEq]
  refine ⟨?noScope, ?scopes, ?firmware⟩
  case noScope => exact fun scope id s h => h.elim (scopeResetStep_switching scope) scopeResetStep_no_scope
  case scopes =>
    exact fun id s h => ⟨scopeResetStep_cell h, scopeResetStep_cell_waits h, scopeResetStep_block h, scopeResetStep_block_waits h,
      scopeResetStep_region h, scopeResetStep_region_waits h⟩
  case firmware =>
    exact fun s => ⟨fun h => by rw [firmwareSwitchedStep_none h], fun k v h hv => by rw [firmwareSwitchedStep_some h hv]⟩

end Sys2Proof.Machine
end

section
/-! The events of the clock controller: trips and qualification of references, a switch, and the ways into and out of Frost (R471 to R473, R477,
R478, R482). -/

namespace Sys2Proof.Machine

open Sys2Proof.Safety

theorem exec_referenceTrip (src : Nat) (s : State) : exec (.referenceTrip src) s = .next (referenceTripStep src s) := rfl
theorem exec_referenceQualified (src : Nat) (s : State) : exec (.referenceQualified src) s = .next (referenceQualifiedStep src s) := rfl
theorem exec_referenceLock (s : State) : exec .referenceLock s = .next (referenceLockStep s) := rfl
theorem exec_coastEnd (s : State) : exec .coastEnd s = .next (coastEndStep s) := rfl
theorem exec_acquireLock (s : State) : exec .acquireLock s = .next (acquireLockStep s) := rfl
theorem exec_rampEnd (s : State) : exec .rampEnd s = .next (rampEndStep s) := rfl

section
variable {s : State} {src : Nat}

/-! ## References (R471, R473, R477) -/

/-- The clock controller with a source's trip noted: it is counted where the source was qualified, which it is no more (R471). -/
def Clocks.tripped (k : Clocks) (src : Nat) : Clocks :=
  { k with counts := if k.qualified.contains src then bump k.counts src else k.counts, qualified := k.qualified.filter (· ≠ src) }

theorem referenceTripStep_no_source (h : 7 ≤ src) : referenceTripStep src s = s := if_pos h

theorem State.tripSource_eq (s : State) (src : Nat) : s.tripSource src =
    if s.clocks.selected = some src then ({ s with clocks := s.clocks.tripped src } : State).lossOfReference src
    else { s with clocks := s.clocks.tripped src } := by
  unfold State.tripSource Clocks.tripped
  cases s.clocks.qualified.contains src <;> rfl

theorem referenceTripStep_eq (h : src < 7) : referenceTripStep src s = s.tripSource src := if_neg (Nat.not_le.mpr h)

theorem referenceQualifiedStep_idle (h : s.candidateSource src = false ∨ s.clocks.qualified.contains src = true) :
    referenceQualifiedStep src s = s := if_pos (by simpa using h)

section
variable {q : List Nat} {u : State} (hcand : s.candidateSource src = true) (hnew : s.clocks.qualified.contains src = false)
  (hq : q = (List.range 7).filter (fun i => i == src || s.clocks.qualified.contains i))
  (hu : u = ({ s with clocks := { s.clocks with qualified := q } } : State).countClock .qualifications 1)
include hcand hnew hq hu

theorem referenceQualifiedStep_new : referenceQualifiedStep src s = match s.clocks.ctrl with
    | .start =>
      (match u.clocks.best with
      | some b => ({ u with clocks := { u.clocks with selected := some b }, time := { u.time with phase := 0 } } : State).lockReached
      | none => u)
    | .frost => (u.clockNotice .qualified src).acquire
    | .locked | .hold | .coast | .acquire | .ramp => u.clockNotice .qualified src := by
  subst hu hq
  exact if_neg (by rw [hcand, hnew]; decide)

theorem referenceQualifiedStep_starts {b : Nat} (hctrl : s.clocks.ctrl = .start) (hb : u.clocks.best = some b) :
    referenceQualifiedStep src s =
      ({ u with clocks := { u.clocks with selected := some b }, time := { u.time with phase := 0 } } : State).lockReached := by
  simp only [referenceQualifiedStep_new hcand hnew hq hu, hctrl, hb]

theorem referenceQualifiedStep_unlisted (hctrl : s.clocks.ctrl = .start) (hb : u.clocks.best = none) : referenceQualifiedStep src s = u := by
  simp only [referenceQualifiedStep_new hcand hnew hq hu, hctrl, hb]

theorem referenceQualifiedStep_frost (hctrl : s.clocks.ctrl = .frost) :
    referenceQualifiedStep src s = (u.clockNotice .qualified src).acquire := by
  simp only [referenceQualifiedStep_new hcand hnew hq hu, hctrl]

theorem referenceQualifiedStep_told (hstart : s.clocks.ctrl ≠ .start) (hfrost : s.clocks.ctrl ≠ .frost) :
    referenceQualifiedStep src s = u.clockNotice .qualified src := by
  rw [referenceQualifiedStep_new hcand hnew hq hu]
  cases hctrl : s.clocks.ctrl with
  | start => exact absurd hctrl hstart
  | frost => exact absurd hctrl hfrost
  | locked | hold | coast | acquire | ramp => rfl

end

theorem referenceLockStep_hold (h : s.clocks.ctrl = .hold) : referenceLockStep s =
    (((s.countClock .switches 1).clockNotice .switched (s.clocks.selected.getD 0)).markClockEvent).lockReached := if_neg (by simp [h])

theorem referenceLockStep_other (h : s.clocks.ctrl ≠ .hold) : referenceLockStep s = s := if_pos h

/-! ## Frost (R478, R482) -/

theorem coastEndStep_down (hctrl : s.clocks.ctrl = .coast) (hdue : (64 - s.clocks.level) * 15625 ≤ 10 * (s.time.powered - s.clocks.since)) :
    coastEndStep s = (s.ctrl .frost).acquire := by
  refine if_neg ?_
  rintro (h | h)
  · exact h hctrl
  · omega

theorem coastEndStep_early (hdue : 10 * (s.time.powered - s.clocks.since) < (64 - s.clocks.level) * 15625) : coastEndStep s = s :=
  if_pos (.inr hdue)

theorem coastEndStep_other (h : s.clocks.ctrl ≠ .coast) : coastEndStep s = s := if_pos (.inl h)

theorem acquireLockStep_acquire (h : s.clocks.ctrl = .acquire) : acquireLockStep s = s.ctrl .ramp := if_neg (by simp [h])

theorem acquireLockStep_other (h : s.clocks.ctrl ≠ .acquire) : acquireLockStep s = s := if_pos h

theorem rampEndStep_early (h : s.time.powered - s.clocks.since < 100000) : rampEndStep s = s := if_pos (.inr h)

theorem rampEndStep_other (h : s.clocks.ctrl ≠ .ramp) : rampEndStep s = s := if_pos (.inl h)

/-- The machine as Frost ends: media resumes, the notice is sent and the servo is told, and the controller has yet to reach LOCKED (R482). -/
def State.frostEnded (s : State) : State :=
  let u := s.countClock .frostNs (s.time.powered - s.clocks.frostSince)
  ((({ u with clocks := { u.clocks with frost := false }, time := { u.time with phase := 0 } } : State).resumeMedia).clockNotice
    .frostExited (s.clocks.selected.getD 0)).markClockEvent

theorem rampEndStep_full_speed (hctrl : s.clocks.ctrl = .ramp) (hdue : 100000 ≤ s.time.powered - s.clocks.since) :
    rampEndStep s = s.frostEnded.lockReached := by
  refine if_neg ?_
  rintro (h | h)
  · exact h hctrl
  · omega

end

/-! ## What the end of Frost leaves (R482) -/

@[simp] theorem State.clockNotice_clocks (s : State) (e : ClockEvent) (src : Nat) : (s.clockNotice e src).clocks = s.clocks :=
  State.notify_clocks _ _ _ _ _ _
@[simp] theorem State.clockNotice_time (s : State) (e : ClockEvent) (src : Nat) : (s.clockNotice e src).time = s.time :=
  State.notify_time _ _ _ _ _ _
@[simp] theorem State.clockNotice_channels (s : State) (e : ClockEvent) (src : Nat) : (s.clockNotice e src).channels = s.channels :=
  State.notify_channels _ _ _ _ _ _

@[simp] theorem State.countSlips_clocks (s : State) (g : Nat) : (s.countSlips g).clocks = s.clocks := by
  unfold State.countSlips
  dsimp only
  split <;> rfl
@[simp] theorem State.countSlips_time (s : State) (g : Nat) : (s.countSlips g).time = s.time := by
  unfold State.countSlips
  dsimp only
  split <;> rfl
@[simp] theorem State.countSlips_channels (s : State) (g : Nat) : (s.countSlips g).channels = s.channels := by
  unfold State.countSlips
  dsimp only
  split <;> rfl

theorem State.resumeMedia_states (s : State) : s.resumeMedia.channels.map (fun e => e.2.state) = s.channels.map (fun e => e.2.state) := by
  simp [State.resumeMedia]

theorem State.lockReached_settled {s : State} (h : s.clocks.recheck = false) :
    s.lockReached = ({ s with clocks := { s.clocks with floorAt := s.time.powered, recheck := false } } : State).ctrl .locked :=
  if_neg (by simp [h])

theorem State.frostEnded_clocks (s : State) : s.frostEnded.clocks =
    { (s.countClock .frostNs (s.time.powered - s.clocks.frostSince)).clocks with frost := false } := by
  simp [State.frostEnded, State.markClockEvent, State.resumeMedia]

theorem State.frostEnded_time (s : State) : s.frostEnded.time = { s.time with phase := 0, clockEvent := true } := by
  simp [State.frostEnded, State.markClockEvent, State.resumeMedia, State.countClock]

theorem State.frostEnded_states (s : State) : s.frostEnded.channels.map (fun e => e.2.state) = s.channels.map (fun e => e.2.state) := by
  simp [State.frostEnded, State.markClockEvent, State.resumeMedia_states, State.countClock]

/-- Settles O46: each event changes the controller in the states of Table 18.5 that wait for it, and nothing elsewhere. -/
theorem referenceAndFrostEventsComplete : Obligations.ReferenceAndFrostEventsComplete := by
  unfold Obligations.ReferenceAndFrostEventsComplete Safety.Becomes
  simp only [exec_referenceTrip, exec_referenceQualified, exec_referenceLock, exec_coastEnd, exec_acquireLock, exec_rampEnd,
    Host.Outcome.next.injEq]
  refine ⟨fun src s => ⟨?none, ?trip, ?idle, ?qualified, ?lock, ?noLock⟩,
    fun s => ⟨?coast, ?coasting, ?acquire, ?settled, ?ramp, ?ramping, ?noRamp, ?noAcquire, ?noCoast⟩⟩
  case none => exact fun h => referenceTripStep_no_source h
  case trip =>
    intro x hsrc hx
    subst hx
    rw [referenceTripStep_eq hsrc, State.tripSource_eq]
    exact ⟨fun hselected => if_pos hselected, fun hother => if_neg hother⟩
  case idle => exact fun h => referenceQualifiedStep_idle h
  case qualified =>
    exact fun q u hcand hnew hq hu => ⟨fun b hctrl hb => referenceQualifiedStep_starts hcand hnew hq hu hctrl hb,
      fun hctrl hb => referenceQualifiedStep_unlisted hcand hnew hq hu hctrl hb,
      fun hctrl => referenceQualifiedStep_frost hcand hnew hq hu hctrl,
      fun hstart hfrost => referenceQualifiedStep_told hcand hnew hq hu hstart hfrost⟩
  case lock => exact fun h => referenceLockStep_hold h
  case noLock => exact fun h => referenceLockStep_other h
  case coast => exact fun hctrl hdue => coastEndStep_down hctrl hdue
  case coasting => exact fun hctrl hdue => coastEndStep_early hdue
  case acquire => exact fun hctrl => ⟨_, acquireLockStep_acquire hctrl, rfl, rfl, rfl, rfl⟩
  case settled =>
    intro hctrl hdue hrecheck
    have hquiet : s.frostEnded.clocks.recheck = false := by simp [State.frostEnded_clocks, State.countClock, hrecheck]
    refine ⟨_, (rampEndStep_full_speed hctrl hdue).trans (State.lockReached_settled hquiet), rfl, ?_, ?_, ?_, ?_, ?_⟩
    · simp [State.ctrl, State.frostEnded_clocks]
    · simp [State.ctrl, State.frostEnded_clocks, State.countClock]
    · simp [State.ctrl, State.frostEnded_time]
    · simp [State.ctrl, State.frostEnded_time]
    · simpa [State.ctrl] using State.frostEnded_states s
  case ramp =>
    intro u hctrl hdue hu
    subst hu
    exact rampEndStep_full_speed hctrl hdue
  case ramping => exact fun hctrl hdue => rampEndStep_early hdue
  case noRamp => exact fun h => rampEndStep_other h
  case noAcquire => exact fun h => acquireLockStep_other h
  case noCoast => exact fun h => coastEndStep_other h

end Sys2Proof.Machine
end

section
/-! The events of gates and power modes: clocks that stop or stay busy, domains that return to RUN or enter DEEP_SLEEP (R485, R486, R494, R495,
R498). -/

namespace Sys2Proof.Machine

open Sys2Proof.Safety

theorem exec_gateQuiesced (d : Nat) (s : State) : exec (.gateQuiesced d) s = .next (gateQuiescedStep d s) := rfl
theorem exec_gateTimeout (d : Nat) (s : State) : exec (.gateTimeout d) s = .next (gateTimeoutStep d s) := rfl
theorem exec_powerWakeDone (d : Nat) (s : State) : exec (.powerWakeDone d) s = .next (powerWakeDoneStep d s) := rfl
theorem exec_deepSleepEntered (d : Nat) (s : State) : exec (.deepSleepEntered d) s = .next (s.endEntry d) := rfl
theorem exec_autoDeepSleep (d : Nat) (s : State) : exec (.autoDeepSleep d) s = .next (autoDeepSleepStep d s) := rfl

section
variable {d : Nat} {s : State}

/-! ## Gates (R485, R486) -/

theorem gateQuiescedStep_none (h : gateOf s d = none) : gateQuiescedStep d s = s := by simp only [gateQuiescedStep, h]

theorem gateTimeoutStep_none (h : gateOf s d = none) : gateTimeoutStep d s = s := by simp only [gateTimeoutStep, h]

section
variable {j : GateJob} (hj : gateOf s d = some j)
include hj

theorem gateQuiescedStep_waits (h : j.waiting.erase d ≠ []) :
    gateQuiescedStep d s = s.setGates (beginJob j (j.waiting.erase d) s.clocks.gates) := by
  simp only [gateQuiescedStep, hj, if_pos h]

theorem gateQuiescedStep_last (h : j.waiting.erase d = []) : gateQuiescedStep d s =
    (((s.setGates (s.clocks.gates.erase j)).countClock .gateOps (s.jobStops j).length).finishGate j).runGates := by
  simp only [gateQuiescedStep, hj, h, ne_eq, not_true_eq_false, if_false]

theorem gateTimeoutStep_busy : gateTimeoutStep d s =
    ((((s.setGates (s.clocks.gates.erase j)).countClock .gateBusy 1).powerBusy j).completeOpt j.ref stGateBusy).runGates := by
  simp only [gateTimeoutStep, hj]

end

/-! ## Power modes (R494, R495, R498) -/

section
variable {p : PowerDomain} (hp : p = s.powerDomain d)
include hp

theorem powerWakeDoneStep_wakes {r : Option CmdRef} {u : State} {c : Counts} (hchange : p.changing = some (.run, r))
    (hneeds : (powerNeeds d).all (fun q => (s.powerDomain q).mode == .run) = true) (hu : u = (if p.mode = .deepSleep then s.revive d else s))
    (hc : c = countMax (bump p.counts PowerCount.wakes.ctorIdx) PowerCount.wakeNsMax.ctorIdx (s.time.powered - p.changeSince)) :
    powerWakeDoneStep d s = (powerBlocks d).foldl State.payWakes
      (((u.setPower d { p with mode := .run, changing := none, counts := c }).powerNotice d .run (if r.isSome then 0 else 2)).completeOpt r stOk) := by
  simp only [powerWakeDoneStep, ← hp, hchange, hneeds, not_true_eq_false, if_false, ← hu, ← hc]

omit hp in
theorem powerWakeDoneStep_waits (hneeds : (powerNeeds d).all (fun q => (s.powerDomain q).mode == .run) = false) :
    powerWakeDoneStep d s = s := by
  simp only [powerWakeDoneStep, hneeds, Bool.false_eq_true, not_false_eq_true, if_true]
  split <;> rfl

theorem powerWakeDoneStep_settled (h : p.changing = none) : powerWakeDoneStep d s = s := by
  simp only [powerWakeDoneStep, ← hp, h]

theorem endEntry_sleeps {r : Option CmdRef} (h : p.changing = some (.deepSleep, r)) :
    s.endEntry d = ((s.setPower d ({ p with changing := none }.count .deepEntries)).powerNotice d .deepSleep
      (if r.isSome then 0 else 1)).completeOpt r stOk := by
  simp only [State.endEntry, ← hp, h]

theorem endEntry_settled (h : p.changing = none) : s.endEntry d = s := by
  simp only [State.endEntry, ← hp, h]

section
variable {l t : List Nat} (hl : l = [d, 16 + d, 32 + d]) (ht : t = l.flatMap powerClocks)
include hl ht

theorem autoDeepSleepStep_asks (hblock : d < 16) (hauto : p.auto = true) (hempty : s.holdsChannels d = false)
    (hdue : (s.block d).emptySince + 10000000000 ≤ s.time.powered)
    (hrun : l.all (fun p => (s.powerDomain p).mode == .run && (s.powerDomain p).changing.isNone) = true)
    (hfree : s.clocks.gates.any (fun j => j.touches.any t.contains) = false) :
    autoDeepSleepStep d s = (s.addGate { ref := none, use := .power l .deepSleep, touches := t }).runGates := by
  have hsteady : l.any (fun p => (s.powerDomain p).mode != .run || (s.powerDomain p).changing.isSome) = false := by
    rw [List.any_eq_false]
    intro q hq
    have hq := List.all_eq_true.mp hrun q hq
    simpa using hq
  subst hp hl ht
  refine if_neg ?_
  rw [hauto, hempty, hsteady, hfree]
  simpa using ⟨hblock, hdue⟩

end

theorem autoDeepSleepStep_stays
    (h : p.auto = false ∨ s.holdsChannels d = true ∨ s.time.powered < (s.block d).emptySince + 10000000000) : autoDeepSleepStep d s = s := by
  subst hp
  refine if_pos ?_
  rcases h with h | h | h
  · exact .inr (.inl (by simp [h]))
  · exact .inr (.inr (.inl h))
  · exact .inr (.inr (.inr (.inl h)))

end

end

/-- Settles O47: each event carries on the change of clock or mode that waits for it, and does nothing where none does. -/
theorem powerEventsComplete : Obligations.PowerEventsComplete := by
  unfold Obligations.PowerEventsComplete Safety.Becomes
  simp only [exec_gateQuiesced, exec_gateTimeout, exec_powerWakeDone, exec_deepSleepEntered, exec_autoDeepSleep, Host.Outcome.next.injEq]
  intro d s p hp
  refine ⟨?noGate, ?waits, ?last, ?busy, ?wakes, ?needs, ?sleeps, ?settled, ?auto⟩
  case noGate => exact fun h => ⟨gateQuiescedStep_none h, gateTimeoutStep_none h⟩
  case waits => exact fun j hj h => gateQuiescedStep_waits hj h
  case last => exact fun j hj h => gateQuiescedStep_last hj h
  case busy => exact fun j hj => gateTimeoutStep_busy hj
  case wakes => exact fun r u c hchange hneeds hu hc => powerWakeDoneStep_wakes hp hchange hneeds hu hc
  case needs => exact fun h => powerWakeDoneStep_waits h
  case sleeps => exact fun r h => endEntry_sleeps hp h
  case settled => exact fun h => ⟨powerWakeDoneStep_settled hp h, endEntry_settled hp h⟩
  case auto =>
    exact fun l t hl ht => ⟨fun hblock hauto hempty hdue hrun hfree => autoDeepSleepStep_asks hp hl ht hblock hauto hempty hdue hrun hfree,
      fun h => autoDeepSleepStep_stays hp h⟩

end Sys2Proof.Machine
end

section
/-! Device resets: what a reset wipes and keeps, the sources that hold the device, the sequence up to its boot, and life-cycle transitions (R439, R499,
R501, R502, R506 to R508, R517, R566, R574, R592). -/

namespace Sys2Proof.Machine

open Sys2Proof.Safety

theorem exec_powerOnReset (a : Bool) (straps : BitVec 4) (s : State) : exec (.powerOnReset a straps) s = .next (powerOnStep a straps s) := rfl
theorem exec_resetN (low : Bool) (s : State) : exec (.resetN low) s = .next (resetNStep low s) := rfl
theorem exec_perstN (low : Bool) (s : State) : exec (.perstN low) s = .next (perstNStep low s) := rfl
theorem exec_deviceResetSequence (f : BootFacts) (s : State) : exec (.deviceResetSequence f) s = .next (deviceResetStep f s) := rfl
theorem exec_lifeCycleTransition (e : TransitionEnd) (s : State) :
    exec (.lifeCycleTransition e) s = .next (lifeCycleTransitionStep e s) := rfl

/-! ## A loss of reference (R471, R478) -/

/-- `t` is `s` after trips of references: notices, log entries of cause 0x30, interrupts and the clock controller apart, it is the same. -/
def Tripped (s t : State) : Prop :=
  ∃ r f l k b, t = { s with rings := r, fylos := f, log := l, clocks := k, board := b } ∧
    ∀ e ∈ l.entries, e ∈ s.log.entries ∨ e.cause = 0x30

theorem Tripped.refl (s : State) : Tripped s s := ⟨_, _, _, _, _, rfl, fun _ he => .inl he⟩

theorem Tripped.trans {s t u : State} (h1 : Tripped s t) (h2 : Tripped t u) : Tripped s u := by
  obtain ⟨r, f, l, k, b, rfl, hl⟩ := h1
  obtain ⟨r', f', l', k', b', rfl, hl'⟩ := h2
  exact ⟨r', f', l', k', b', rfl, fun e he => (hl' e he).elim (hl e) .inr⟩

theorem Tripped.clocks {s t : State} (h : Tripped s t) (k : Clocks) : Tripped s { t with clocks := k } := by
  obtain ⟨r, f, l, k', b, rfl, hl⟩ := h
  exact ⟨r, f, l, k, b, rfl, hl⟩

theorem Tripped.clockNotice {s t : State} (h : Tripped s t) (e : ClockEvent) (src : Nat) : Tripped s (t.clockNotice e src) := by
  obtain ⟨r, f, hn⟩ := t.notify_frame .clockPower 0x0F13 0 0 [beBytes 1 e.ctorIdx, beBytes 1 src]
  have hnotice : Tripped t (t.clockNotice e src) := by
    unfold State.clockNotice
    rw [hn]
    exact ⟨r, f, t.log, t.clocks, t.board, rfl, fun _ he => .inl he⟩
  exact h.trans hnotice

theorem Tripped.countClock {s t : State} (h : Tripped s t) (c : ClockCount) (n : Nat) : Tripped s (t.countClock c n) := h.clocks _

theorem Tripped.beginSwitch {s t : State} (h : Tripped s t) (src : Nat) : Tripped s (t.beginSwitch src) := h.clocks _

theorem Tripped.beginCoast {s t : State} (h : Tripped s t) (level : Nat) : Tripped s (t.beginCoast level) := h.clocks _

theorem mem_logAppend {l : ErrorLog} {e x : LogEntry} (h : x ∈ (logAppend l e).entries) : x ∈ l.entries ∨ x.cause = e.cause := by
  simp only [logAppend] at h
  rcases List.mem_append.mp (List.mem_of_mem_drop h) with h | h
  · exact .inl h
  · exact .inr (by rw [List.mem_singleton.mp h])

theorem tripped_logError (s : State) (level action unit channel detail memory address : Nat) :
    Tripped s (s.logError 0x30 level action unit channel detail memory address) := by
  obtain ⟨e, r, f, b, h, hcause, -⟩ := s.logError_appends 0x30 level action unit channel detail memory address
  exact ⟨r, f, _, _, b, h, fun x hx => hcause ▸ mem_logAppend hx⟩

theorem Tripped.lossOfReference {s t : State} (h : Tripped s t) (src : Nat) : Tripped s (t.lossOfReference src) := by
  have hlog := h.trans (tripped_logError t 4 9 0 0xFFFF 0 6 0)
  have hlost := hlog.clockNotice .lost src
  unfold State.lossOfReference
  cases t.clocks.ctrl with
  | locked | hold =>
    dsimp only
    split
    · exact hlost.beginSwitch _
    · exact (hlost.beginCoast 0).clockNotice _ _
  | acquire | ramp => exact (hlog.countClock _ _).beginCoast _
  | start | coast | frost => exact h

theorem Tripped.tripSource {s t : State} (h : Tripped s t) (src : Nat) : Tripped s (t.tripSource src) := by
  rw [State.tripSource_eq]
  split
  · exact (h.clocks _).lossOfReference src
  · exact h.clocks _

theorem tripped_tripPorts (s : State) : Tripped s s.tripPorts := by
  refine fold_frame Tripped Tripped.refl (fun _ _ _ => Tripped.trans) _ (fun t c => ?_) _ s
  split
  · exact (Tripped.refl t).tripSource c
  · exact Tripped.refl t

/-! ## The wipe of a reset (R501, R502, R517) -/

/-- What a reset from source `c` makes of the machine once the references have tripped: the wipe, the count and, after power-on, the RWS fields. -/
def State.resetBy (s : State) (c : ResetCause) : State :=
  let l := s.wiped.life
  let u : State := { s.wiped with life := { l with cause := c, warmResets := satAdd 16 l.warmResets 1,
                                                   watchdogResets := if c = .watchdog then satAdd 16 l.watchdogResets 1 else l.watchdogResets } }
  if c = .powerOn then
    { u.clearRws with log := {}, time := {},
                      board := { u.board with tap := .idcode, boundary := [], ballsHeld := false, dataRegister := [] } }
  else u

theorem State.beginReset_trips (c : ResetCause) (s : State) : ∃ t, Tripped s t ∧ s.beginReset c = t.resetBy c := by
  cases c with
  | powerOn | resetN => exact ⟨s.freshClocks, (Tripped.refl s).clocks _, rfl⟩
  | pcie | watchdog | command | lifeCycle => exact ⟨s.tripPorts, tripped_tripPorts s, rfl⟩

/-- Settles O49: what trips before the wipe is neither life cycle nor queue nor time, and the wipe leaves the state after reset. -/
theorem deviceResetWipes : Obligations.DeviceResetWipes := by
  unfold Obligations.DeviceResetWipes
  intro c s
  obtain ⟨t, ⟨r, f, l, k, b, rfl, -⟩, hreset⟩ := s.beginReset_trips c
  simp only [hreset]
  cases c with
  | powerOn =>
    exact ⟨rfl, rfl, rfl, rfl, rfl, rfl, rfl, rfl, rfl, rfl, rfl, rfl, rfl, rfl, rfl, rfl, rfl, rfl, fun _ => ⟨rfl, rfl, rfl, rfl, rfl⟩,
      fun h => absurd rfl h, nofun, fun _ h => absurd rfl h⟩
  | watchdog =>
    exact ⟨rfl, rfl, rfl, rfl, rfl, rfl, rfl, rfl, rfl, rfl, rfl, rfl, rfl, rfl, rfl, rfl, rfl, rfl, nofun,
      fun _ => ⟨rfl, rfl, rfl⟩, fun _ => rfl, fun h => absurd rfl h⟩
  | resetN | pcie | command | lifeCycle =>
    exact ⟨rfl, rfl, rfl, rfl, rfl, rfl, rfl, rfl, rfl, rfl, rfl, rfl, rfl, rfl, rfl, rfl, rfl, rfl, nofun,
      fun _ => ⟨rfl, rfl, rfl⟩, nofun, fun _ _ => rfl⟩

/-! ## The sources that hold the device (R499, R592) -/

section
variable {c : ResetCause} {covered : List ResetCause} {s : State}

theorem assertSource_held (h : s.life.held.contains c = true) : s.assertSource c covered = s := if_pos h

theorem assertSource_covered (h : s.life.held.contains c = false) (hcover : ∃ d ∈ covered, s.life.held.contains d = true) :
    s.assertSource c covered = s.withHeld (s.life.held ++ [c]) := by
  obtain ⟨d, hd, hheld⟩ := hcover
  have hany : s.life.held.any covered.contains = true := List.any_eq_true.mpr ⟨d, by simpa using hheld, by simpa using hd⟩
  exact (if_neg (by rw [h]; decide)).trans (if_pos hany)

theorem assertSource_resets (h : s.life.held.contains c = false) (hfree : ∀ d ∈ covered, s.life.held.contains d = false) :
    s.assertSource c covered = (s.beginReset c).withHeld (s.life.held ++ [c]) := by
  have hany : s.life.held.any covered.contains = false := by
    rw [List.any_eq_false]
    intro d hd hin
    have hnot := hfree d (by simpa using hin)
    simp [hd] at hnot
  exact (if_neg (by rw [h]; decide)).trans (if_neg (by rw [hany]; decide))

theorem powerOnStep_ends (straps : BitVec 4) (h : s.life.held.contains .powerOn = true) : powerOnStep false straps s =
    { s.releaseSource .powerOn with
      board := { (s.releaseSource .powerOn).board with bootSel := straps.toNat % 4, tdmVsel := straps.getLsbD 3 },
      clocks := { (s.releaseSource .powerOn).clocks with refFreq := straps.getLsbD 2 } } :=
  (if_neg (by decide)).trans (if_neg (by rw [h]; decide))

theorem powerOnStep_not_held (straps : BitVec 4) (h : s.life.held.contains .powerOn = false) : powerOnStep false straps s = s :=
  (if_neg (by decide)).trans (if_pos (by rw [h]; decide))

end

/-! ## The sequence up to its boot (R439, R502, R508, R566, R574) -/

/-- A DEV_RESET that is due begins its reset before the sequence goes on from there. -/
theorem deviceResetStep_eq {f : BootFacts} {s x : State}
    (hx : (∃ t, s.life.resetAt = some t ∧ t + 100000 ≤ s.time.powered ∧ x = s.beginReset .command) ∨
      (x = s ∧ ∀ t, s.life.resetAt = some t → s.time.powered < t + 100000)) :
    deviceResetStep f s = if 2 ≤ x.life.progress ∨ x.life.held ≠ [] then x
      else if x.clocks.ctrl = .start then x.atStep 1 else x.finishReset f := by
  have hstart : (if (match s.life.resetAt with | some t => decide (t + 100000 ≤ s.time.powered) | none => false) then
      s.beginReset .command else s) = x := by
    rcases hx with ⟨t, ht, hdue, rfl⟩ | ⟨rfl, hearly⟩
    · simp only [ht, hdue, decide_true, if_true]
    · cases hr : x.life.resetAt with
      | none => rfl
      | some t => exact if_neg (by simpa using hearly t hr)
  subst hstart
  rfl

section
variable {f : BootFacts} {s : State}

theorem foldl_lockBelow (due : List Nat) (l : Life) : ∃ k, due.foldl (fun l k => l.lockBelow k) l = { l with locked := k } := by
  induction due generalizing l with
  | nil => exact ⟨l.locked, rfl⟩
  | cons d r ih =>
    obtain ⟨k, hk⟩ := ih (l.lockBelow d)
    exact ⟨k, hk⟩

theorem foldl_burnWipe_wipeResumed (due : List Nat) (l : Life) (b : Bool) :
    due.foldl (fun l k => l.burnWipe k 4) { l with wipeResumed := b } =
      { due.foldl (fun l k => l.burnWipe k 4) l with wipeResumed := b } := by
  induction due generalizing l with
  | nil => rfl
  | cons d r ih => exact ih (l.burnWipe d 4)

theorem Board.dramTrain_of_quiet {b c : Board} (h : b.quiet = c.quiet) : b.dramTrain = c.dramTrain := (congrArg Board.dramTrain h :)

theorem finishReset_untrained (h : f.trained ≠ 0xF ∨ f.gib ∉ [2, 4, 8, 16]) : ∃ b k, s.finishReset f =
      { s with life := { s.life with lifeCycle := fusedState s.life, locked := k, progress := 5 }, board := b } ∧
    b.bootPhase = .failed ∧ b.bootError = .dram ∧ b.dramTrain = f.trained.toNat := by
  obtain ⟨k, hk⟩ := foldl_lockBelow (pendingTransitions s.life) { s.life with lifeCycle := fusedState s.life }
  have hfailed : f.trained ≠ 0xF ∨ ¬ populations.contains f.gib = true := by
    simpa [populations] using h
  obtain ⟨b, hb, hq⟩ := State.bootPhase_frame
    ({ s with life := { s.life with lifeCycle := fusedState s.life, locked := k, progress := 5 },
              board := { s.board with dramTrain := f.trained.toNat, bootError := .dram } }) .failed
  refine ⟨b, k, ?_, Board.bootPhase_of_quiet hq, Board.bootError_of_quiet hq, Board.dramTrain_of_quiet hq⟩
  rw [State.finishReset, hk]
  exact (if_pos hfailed).trans hb

theorem finishReset_boots {due : List Nat} {y : Life} (htrained : f.trained = 0xF) (hgib : f.gib ∈ [2, 4, 8, 16])
    (hdue : due = pendingTransitions s.life)
    (hy : y = due.foldl (fun l k => l.burnWipe k 4)
      { due.foldl (fun l k => l.lockBelow k) { s.life with lifeCycle := fusedState s.life } with
        warmResets := if due = [] then s.life.warmResets else 0, watchdogResets := if due = [] then s.life.watchdogResets else 0,
        scratch := if due = [] then s.life.scratch else 0, wipeResumed := if due = [] then s.life.wipeResumed else true }) :
    s.finishReset f = State.boot f { s with
      life := { y with progress := 7 }, board := { s.board with dramTrain := 15 }, store := { s.store with populatedGib := f.gib },
      log := if due = [] then s.log else {} } := by
  have hpopulated : ¬ (f.trained ≠ 0xF ∨ ¬ populations.contains f.gib = true) := by
    rintro (h | h)
    · exact h htrained
    · exact h (List.contains_iff_mem.mpr hgib)
  rw [State.finishReset, if_neg hpopulated, ← hdue, htrained]
  subst hy
  by_cases hnone : due = []
  · subst hnone
    rfl
  · simp only [if_neg hnone]
    generalize due.foldl (fun l k => l.lockBelow k) { s.life with lifeCycle := fusedState s.life } = m
    rw [foldl_burnWipe_wipeResumed due { m with warmResets := 0, watchdogResets := 0, scratch := 0 } true]
    rfl

end

/-- Settles O48: a source holds the device unless one that covers it does, and the sequence goes on once none holds it. -/
theorem resetSourcesAndSequence : Obligations.ResetSourcesAndSequence := by
  unfold Obligations.ResetSourcesAndSequence Safety.Becomes
  simp only [exec_powerOnReset, exec_resetN, exec_perstN, exec_deviceResetSequence, Host.Outcome.next.injEq]
  refine ⟨fun s => ⟨?power, ?powered, ?ends, ?notHeld, ?low, ?lowCovered, ?lowResets, ?perst, ?perstCovered, ?perstResets, ?high, ?perstHigh⟩,
    fun f s x hx => ?sequence⟩
  case power => exact fun straps h => assertSource_resets h nofun
  case powered => exact fun straps h => assertSource_held h
  case ends => exact fun straps h => ⟨_, powerOnStep_ends straps h, rfl, rfl, rfl, rfl, rfl, rfl⟩
  case notHeld => exact fun straps h => powerOnStep_not_held straps h
  case low => exact fun h => assertSource_held h
  case lowCovered => exact fun h hpower => assertSource_covered h ⟨_, List.mem_singleton_self _, hpower⟩
  case lowResets => exact fun h hpower => assertSource_resets h (List.forall_mem_singleton.mpr hpower)
  case perst => exact fun h => assertSource_held h
  case perstCovered => exact fun h hcover => assertSource_covered h (by simpa using hcover)
  case perstResets => exact fun h hpower hreset => assertSource_resets h (List.forall_mem_cons.mpr ⟨hpower, List.forall_mem_singleton.mpr hreset⟩)
  case high => rfl
  case perstHigh => rfl
  case sequence =>
    rw [deviceResetStep_eq hx]
    refine ⟨fun hstays => if_pos hstays, fun hstep hheld => ?_⟩
    rw [if_neg (not_or.mpr ⟨Nat.not_le.mpr hstep, fun h => h hheld⟩)]
    refine ⟨fun hstart => if_pos hstart, fun hctrl hfailed => ?_, fun due y hctrl htrained hgib hdue hy => ?_⟩
    · obtain ⟨b, k, hu, hphase, herror, htrain⟩ := finishReset_untrained (s := x) hfailed
      exact ⟨_, (if_neg hctrl).trans hu, hphase, herror, rfl, htrain, rfl, rfl⟩
    · exact (if_neg hctrl).trans (finishReset_boots htrained hgib hdue hy)

end Sys2Proof.Machine
end

section
/-! Life-cycle transitions: fuses are only ever burned, the state that they spell never goes back, and a transition leaves what it had done where it
is cut (R506 to R508). -/

namespace Sys2Proof.Machine

open Sys2Proof.Safety

/-! ## Fuses (R506) -/

theorem tabGet_burnFuse (t : Tab Nat) (k bits j : Nat) :
    tabGet (burnFuse t k bits) j 0 = if j = k then max (tabGet t k 0) bits else tabGet t j 0 := by
  unfold burnFuse
  split
  · next h => rw [h, tabGet_tabSet_same]
  · next h => exact tabGet_tabSet_ne t k j _ 0 0 h

theorem tabGet_le_burnFuse (t : Tab Nat) (k bits j : Nat) : tabGet t j 0 ≤ tabGet (burnFuse t k bits) j 0 := by
  rw [tabGet_burnFuse]
  split
  · next h => exact h ▸ Nat.le_max_left _ _
  · exact Nat.le_refl _

theorem le_tabGet_burnFuse (t : Tab Nat) (k bits : Nat) : bits ≤ tabGet (burnFuse t k bits) k 0 := by
  rw [tabGet_burnFuse, if_pos rfl]
  exact Nat.le_max_right _ _

theorem fusedState_eq (l : Life) : fusedState l =
    if burned l.trans 3 then 3 else if burned l.trans 2 then 2 else if burned l.trans 1 then 1 else 0 := by
  unfold fusedState
  cases h3 : burned l.trans 3 <;> cases h2 : burned l.trans 2 <;> cases h1 : burned l.trans 1 <;> simp [h3, h2, h1]

theorem fusedState_le (l : Life) : fusedState l ≤ 3 := by
  rw [fusedState_eq]
  split_ifs <;> decide

/-- More bits burned never spell an earlier state (R506). -/
theorem fusedState_mono {l m : Life} (h : ∀ j, tabGet l.trans j 0 ≤ tabGet m.trans j 0) : fusedState l ≤ fusedState m := by
  have hburned : ∀ j, burned l.trans j = true → burned m.trans j = true := by
    intro j hj
    have hj : 2 ≤ tabGet l.trans j 0 := of_decide_eq_true hj
    exact decide_eq_true (hj.trans (h j))
  rw [fusedState_eq, fusedState_eq]
  have h3 := hburned 3
  have h2 := hburned 2
  have h1 := hburned 1
  grind

theorem mem_lockBelow {l : Life} {k i : Nat} (hk : i < k) (h3 : i < 3) : i ∈ (l.lockBelow k).locked := by
  have hin : i ∈ l.locked ++ List.range (min k 3) := List.mem_append_right _ (List.mem_range.mpr (Nat.lt_min.mpr ⟨hk, h3⟩))
  exact List.mem_eraseDups.mpr (List.mem_mergeSort.mpr hin)

/-! ## LIFE_CYCLE_TRANSITION (R507, R508) -/

/-- The machine with TRANS_k burned and the transition no longer due. -/
def State.transBurned (s : State) (k bits : Nat) : State :=
  { s with life := { s.life with transitionAt := none }.burnTrans k bits }

/-- The machine with TRANS_k whole, wiped, and WIPE_k burned so far. -/
def State.wipeBurned (s : State) (k bits : Nat) : State :=
  { (s.transBurned k 4).transitionWipe k with life := ((s.transBurned k 4).transitionWipe k).life.burnWipe k bits }

theorem lifeCycleTransitionStep_none {e : TransitionEnd} {s : State} (h : s.life.transitionAt = none) : lifeCycleTransitionStep e s = s := by
  simp only [lifeCycleTransitionStep, h]

section
variable {k t : Nat} {s : State} (hat : s.life.transitionAt = some (k, t))
include hat

theorem lifeCycleTransitionStep_early {e : TransitionEnd} (h : s.time.powered < t + 100000) : lifeCycleTransitionStep e s = s := by
  simp only [lifeCycleTransitionStep, hat, if_pos h]

variable (hdue : t + 100000 ≤ s.time.powered)
include hdue

theorem lifeCycleTransitionStep_cutTrans (b : Fin 5) : lifeCycleTransitionStep (.cutTrans b) s = s.transBurned k b := by
  simp only [lifeCycleTransitionStep, hat, if_neg (Nat.not_lt.mpr hdue)]
  rfl

theorem lifeCycleTransitionStep_cutWiping : lifeCycleTransitionStep .cutWiping s = (s.transBurned k 4).transitionWipe k := by
  simp only [lifeCycleTransitionStep, hat, if_neg (Nat.not_lt.mpr hdue)]
  rfl

theorem lifeCycleTransitionStep_cutWipe (b : Fin 5) : lifeCycleTransitionStep (.cutWipe b) s = s.wipeBurned k b := by
  simp only [lifeCycleTransitionStep, hat, if_neg (Nat.not_lt.mpr hdue)]
  rfl

theorem lifeCycleTransitionStep_whole : lifeCycleTransitionStep .whole s = (s.wipeBurned k 4).beginReset .lifeCycle := by
  simp only [lifeCycleTransitionStep, hat, if_neg (Nat.not_lt.mpr hdue)]
  rfl

end

/-- Settles O50: each cut leaves the fuses burned so far and the wipe where it was reached, and a burned bit stays. -/
theorem lifeCycleOnlyGoesOn : Obligations.LifeCycleOnlyGoesOn := by
  unfold Obligations.LifeCycleOnlyGoesOn Safety.Becomes
  simp only [exec_lifeCycleTransition, Host.Outcome.next.injEq]
  refine ⟨fun e s h => lifeCycleTransitionStep_none h, fun k t s hat => ⟨?early, ?whole, ?cutWiping, ?cutWipe, ?cutTrans⟩,
    fun l k bits j => ⟨?trans, ?state, ?wipe, rfl, rfl, ?last⟩⟩
  case early => exact fun e h => lifeCycleTransitionStep_early hat h
  case whole =>
    intro hdue
    obtain ⟨u, ⟨r, f, l, c, b, hu, hlog⟩, hreset⟩ := (s.wipeBurned k 4).beginReset_trips .lifeCycle
    subst hu
    refine ⟨_, (lifeCycleTransitionStep_whole hat hdue).trans hreset, ?_, ?_, rfl, rfl, rfl, rfl, rfl, ?_, rfl, fun i hk h3 => ?_⟩
    · exact le_tabGet_burnFuse s.life.trans k 4
    · exact le_tabGet_burnFuse s.life.wipe k 4
    · exact fun e he => (hlog e he).resolve_left List.not_mem_nil
    · exact mem_lockBelow hk h3
  case cutWiping =>
    exact fun hdue => ⟨_, lifeCycleTransitionStep_cutWiping hat hdue, le_tabGet_burnFuse s.life.trans k 4, rfl, rfl, rfl, rfl⟩
  case cutWipe =>
    exact fun b hdue => ⟨_, lifeCycleTransitionStep_cutWipe hat hdue b, le_tabGet_burnFuse s.life.trans k 4,
      (tabGet_burnFuse s.life.wipe k b k).trans (if_pos rfl), rfl, rfl, rfl⟩
  case cutTrans =>
    exact fun b hdue => ⟨_, lifeCycleTransitionStep_cutTrans hat hdue b, (tabGet_burnFuse s.life.trans k b k).trans (if_pos rfl),
      rfl, rfl, rfl, rfl⟩
  case trans => exact tabGet_le_burnFuse l.trans k bits j
  case state => exact fusedState_mono (tabGet_le_burnFuse l.trans k bits)
  case wipe => exact tabGet_le_burnFuse l.wipe k bits j
  case last => exact fusedState_le _

end Sys2Proof.Machine
end

section
/-! EVENT_FIFO_ENTRY (O34): what the head of a block's FIFO does to the thread it names (R377, R389, Table 14.4). -/

namespace Sys2Proof.Machine
open Sys2Proof.Safety

theorem exec_eventFifoEntry (b : Nat) (s : State) : exec (.eventFifoEntry b) s = .next (fifoEntryStep b s) := rfl

/-- The machine once the head of block `b`'s FIFO is taken off and the line of commands has moved up; `r` is the FIFO's rest. -/
def State.fifoMoved (s : State) (b : Nat) (r : List (Nat × PendEntry)) : State := s.modBlock b (fun k => refillFifo { k with fifo := r })

/-- A block whose slot `t`, that is `q`, has taken entry `e`. -/
def Block.withEntry (now : Nat) (t : Nat) (e : PendEntry) (q : Thread) (k : Block) : Block :=
  { blockSetThread k t (appendEntry now e q) with
    peakPool := max (blockSetThread k t (appendEntry now e q)).peakPool (poolUsed (blockSetThread k t (appendEntry now e q))) }

@[simp] theorem refillFifo_threads (k : Block) : (refillFifo k).threads = k.threads := by
  unfold refillFifo
  split
  · rfl
  · split <;> rfl

@[simp] theorem State.fifoMoved_thread (s : State) (b t : Nat) (r : List (Nat × PendEntry)) : (s.fifoMoved b r).thread b t = s.thread b t :=
  s.modBlock_thread b b t (fun k => refillFifo_threads { k with fifo := r })

@[simp] theorem State.fifoMoved_fifo (s : State) (b : Nat) (r : List (Nat × PendEntry)) :
    ((s.fifoMoved b r).block b).fifo = (refillFifo { s.block b with fifo := r }).fifo := by
  rw [State.fifoMoved, State.modBlock_block_same]

@[simp] theorem State.bumpBlock_fifo (s : State) (b : Nat) (c : BlockCount) : ((s.bumpBlock b c).block b).fifo = (s.block b).fifo := by
  rw [State.bumpBlock, State.modBlock_block_same]

/-! ## An entry that joins its thread -/

section
variable (s : State) (b t now : Nat) (e : PendEntry) (q : Thread)

theorem State.withEntry_thread_same : (s.modBlock b (Block.withEntry now t e q)).thread b t = appendEntry now e q := by
  rw [State.thread, State.modBlock_block_same]
  simp [Block.withEntry, blockSetThread, blockThread]

theorem State.withEntry_thread_ne {d : Nat} (h : d ≠ t) : (s.modBlock b (Block.withEntry now t e q)).thread b d = s.thread b d := by
  rw [State.thread, State.modBlock_block_same]
  exact tabGet_tabSet_ne (h := h) ..

@[simp] theorem State.withEntry_fifo : ((s.modBlock b (Block.withEntry now t e q)).block b).fifo = (s.block b).fifo := by
  rw [State.modBlock_block_same]
  rfl

theorem appendEntry_pending : (appendEntry now e q).pending = q.pending ++ [e] := by
  unfold appendEntry
  dsimp only
  repeat' split
  all_goals rfl

/-- A command wakes a waiting thread that wakes on commands. -/
theorem appendEntry_command_wakes {c : ChEvent} (hw : q.wakeCommand = true) (hq : q.state = .waiting) :
    (appendEntry now (.command c) q).state = .ready ∧ (appendEntry now (.command c) q).eventPend = true := by
  simp [appendEntry, hw, hq]

/-- A packet wakes nothing. -/
theorem appendEntry_packet (p : RxPacket) :
    (appendEntry now (.packet p) q).state = q.state ∧ (appendEntry now (.packet p) q).eventPend = q.eventPend := ⟨rfl, rfl⟩

end

/-! ## The step, case by case -/

section
variable {b t : Nat} {e : PendEntry} {r : List (Nat × PendEntry)} {s : State}
  (hf : (s.block b).fifo = (t, e) :: r)
include hf

theorem fifoEntryStep_full (hp : 8192 ≤ poolUsed (s.block b)) : fifoEntryStep b s = s := by
  simp only [fifoEntryStep, hf, if_pos (Or.inr hp)]

variable (hruns : s.blockRuns b = true) (hp : poolUsed (s.block b) < 8192)
include hruns hp

omit hf in
theorem fifo_moves : ¬ (¬ s.blockRuns b = true ∨ 8192 ≤ poolUsed (s.block b)) := by
  rintro (h | h)
  · exact h hruns
  · omega

theorem fifoEntryStep_packet_discarded {p : RxPacket} (he : e = .packet p)
    (hq : (s.thread b t).state = .free ∨ 64 ≤ (s.thread b t).pending.length) :
    fifoEntryStep b s = (s.fifoMoved b r).bumpBlock b .pendingDiscard := by
  subst he
  simp only [fifoEntryStep, hf, if_neg (fifo_moves hruns hp), if_pos hq]
  rfl

theorem fifoEntryStep_signal_discarded {v w : Nat} (he : e = .signal v w)
    (hq : (s.thread b t).state = .free ∨ 64 ≤ (s.thread b t).pending.length) :
    fifoEntryStep b s = (s.fifoMoved b r).bumpBlock b .signalDiscard := by
  subst he
  simp only [fifoEntryStep, hf, if_neg (fifo_moves hruns hp), if_pos hq]
  rfl

theorem fifoEntryStep_command_unheld {c : ChEvent} (he : e = .command c) (hq : (s.thread b t).state = .free) :
    fifoEntryStep b s = s.fifoMoved b r := by
  subst he
  simp only [fifoEntryStep, hf, if_neg (fifo_moves hruns hp), if_pos hq]
  rfl

/-- With room at its thread an entry joins its list; RELEASES counts a thread that it wakes. -/
theorem fifoEntryStep_joins (hq : (s.thread b t).state ≠ .free) (hroom : (∀ c, e ≠ .command c) → (s.thread b t).pending.length < 64) :
    ∃ v, (v = s.fifoMoved b r ∨ v = (s.fifoMoved b r).bumpBlock b .releases) ∧
      fifoEntryStep b s = v.modBlock b (Block.withEntry s.clocks.mediaNs t e (s.thread b t)) := by
  have hmoves := fifo_moves hruns hp
  have hlist (hc : ∀ c, e ≠ .command c) : ¬ ((s.thread b t).state = .free ∨ 64 ≤ (s.thread b t).pending.length) := by
    rintro (h | h)
    · exact hq h
    · exact absurd (hroom hc) (by omega)
  cases e with
  | packet p =>
    refine ⟨_, .inl rfl, ?_⟩
    simp only [fifoEntryStep, hf, if_neg hmoves, if_neg (hlist nofun)]
    rfl
  | signal v w =>
    simp only [fifoEntryStep, hf, if_neg hmoves, if_neg (hlist nofun)]
    split
    · exact ⟨_, .inr rfl, rfl⟩
    · exact ⟨_, .inl rfl, rfl⟩
  | command c =>
    simp only [fifoEntryStep, hf, if_neg hmoves, if_neg hq]
    split
    · exact ⟨_, .inr rfl, rfl⟩
    · exact ⟨_, .inl rfl, rfl⟩

end

/-- Settles O34. -/
theorem fifoEntryReachesItsThread : Obligations.FifoEntryReachesItsThread := by
  unfold Obligations.FifoEntryReachesItsThread Safety.Becomes
  simp only [exec_eventFifoEntry, Host.Outcome.next.injEq]
  intro b t e r s hf hruns
  refine ⟨fun hp => fifoEntryStep_full hf hp, ?joins, ?packet, ?signal, ?command⟩
  case joins =>
    intro hp hq hroom
    obtain ⟨v, hv, hstep⟩ := fifoEntryStep_joins hf hruns hp hq hroom
    have hthread : ∀ d, v.thread b d = s.thread b d := by
      rcases hv with rfl | rfl <;> intro d <;> simp
    have hfifo : (v.block b).fifo = (refillFifo { s.block b with fifo := r }).fifo := by
      rcases hv with rfl | rfl <;> simp
    refine ⟨_, hstep, ?_, ?_, ?_, ?_, ?_⟩
    · rw [State.withEntry_thread_same, appendEntry_pending]
    · exact fun d hd => (State.withEntry_thread_ne v b t _ e _ hd).trans (hthread d)
    · rw [State.withEntry_fifo, hfifo]
    · rintro c rfl hw hwait
      rw [State.withEntry_thread_same]
      exact appendEntry_command_wakes _ _ hw hwait
    · rintro p rfl
      rw [State.withEntry_thread_same]
      exact appendEntry_packet _ _ p
  case packet => exact fun p hp he hq => fifoEntryStep_packet_discarded hf hruns hp he hq
  case signal => exact fun v w hp he hq => fifoEntryStep_signal_discarded hf hruns hp he hq
  case command => exact fun c hp he hq => fifoEntryStep_command_unheld hf hruns hp he hq

end Sys2Proof.Machine
end

section
/-! JOB_START, ENLARGER_JOB_END and REDUCER_JOB_END (O53): how a half takes its next job and what the end of one does (R460, R461, R465 to R468). -/

namespace Sys2Proof.Machine
open Sys2Proof.Safety

theorem exec_jobStart (r : Nat) (red : Bool) (s : State) : exec (.jobStart r red) s = .next (jobStartStep r red s) := rfl
theorem exec_enlargerJobEnd (r : Nat) (err : JobError) (s : State) :
    exec (.enlargerJobEnd r err) s = .next (enlargerJobEndStep r err s) := rfl
theorem exec_reducerJobEnd (r : Nat) (err : JobError) (s : State) :
    exec (.reducerJobEnd r err) s = .next (reducerJobEndStep r err s) := rfl

/-! ## Halves and queues -/

@[simp] theorem engineHalf_setHalf_same (e : Engine) (red : Bool) (h : Half) : engineHalf (setHalf e red h) red = h := by
  cases red <;> rfl

@[simp] theorem engineHalf_setHalf_other (e : Engine) (red : Bool) (h : Half) : engineHalf (setHalf e red h) (!red) = engineHalf e (!red) := by
  cases red <;> rfl

@[simp] theorem State.setEngine_engine_same (s : State) (r : Nat) (e : Engine) : (s.setEngine r e).engine r = e :=
  tabGet_tabSet_same ..

theorem nextJob_mem {l : List Job} {j : Job} (h : nextJob l = some j) : j ∈ l := by
  unfold nextJob at h
  split at h
  case h_1 h0 => cases h; exact List.mem_of_find?_eq_some h0
  case h_2 =>
    split at h
    case h_1 h1 => cases h; exact List.mem_of_find?_eq_some h1
    case h_2 => exact List.mem_of_mem_head? h

/-- A migration job goes first. -/
theorem nextJob_migration {l : List Job} {j k : Job} (h : nextJob l = some j) (hk : k ∈ l) (hc : k.cls = 0) : j.cls = 0 := by
  unfold nextJob at h
  split at h
  case h_1 h0 => cases h; exact by simpa using List.find?_some h0
  case h_2 h0 => exact absurd (List.find?_eq_none.1 h0 k hk) (by simp [hc])

/-- Where no migration job goes, a prompt piece goes before the others. -/
theorem nextJob_piece {l : List Job} {j k : Job} (h : nextJob l = some j) (hj : j.cls ≠ 0) (hk : k ∈ l) (hc : k.cls = 1) : j.cls = 1 := by
  unfold nextJob at h
  split at h
  case h_1 h0 => cases h; exact absurd (by simpa using List.find?_some h0) hj
  case h_2 =>
    split at h
    case h_1 h1 => cases h; exact by simpa using List.find?_some h1
    case h_2 h1 => exact absurd (List.find?_eq_none.1 h1 k hk) (by simp [hc])

/-! ## JOB_START -/

section
variable {r : Nat} {red : Bool} {s : State}

theorem jobStartStep_takes {j : Job} (hidle : (engineHalf (s.engine r) red).running = none)
    (hruns : s.domainRuns (engineDomain r) = true) (hreset : (s.region r).underReset = false)
    (hj : nextJob (engineHalf (s.engine r) red).queue = some j) : jobStartStep r red s =
      (match j.chain with
      | none => s.setEngine r (setHalf (s.engine r) red { running := some j, queue := (engineHalf (s.engine r) red).queue.erase j })
      | some a =>
        let v := s.setEngine r (setHalf (s.engine r) red { running := some j, queue := (engineHalf (s.engine r) red).queue.erase j })
        { v with store := { v.store with dram := chainState v.store.dram a 1 } }) := by
  simp only [jobStartStep, hidle, hruns, hreset, hj, Option.isSome_none, Bool.false_eq_true, not_true_eq_false, or_self, if_false]
    <;> rfl

theorem jobStartStep_waits (h : (engineHalf (s.engine r) red).running ≠ none ∨ s.domainRuns (engineDomain r) = false ∨
    (s.region r).underReset = true ∨ (engineHalf (s.engine r) red).queue = []) : jobStartStep r red s = s := by
  simp only [jobStartStep]
  split
  case isTrue => rfl
  case isFalse hgo =>
    simp only [← Option.isSome_iff_ne_none] at h
    have hq : (engineHalf (s.engine r) red).queue = [] := by
      rcases h with h | h | h | h
      · exact absurd (.inl h) hgo
      · exact absurd (.inr (.inl (by rw [h]; decide))) hgo
      · exact absurd (.inr (.inr h)) hgo
      · exact h
    rw [hq]
    rfl

end

/-! ## The ends of jobs -/

section
variable {r : Nat} {err : JobError} {s : State}

theorem enlargerJobEndStep_off (h : (s.engine r).enlarger.running = none ∨ s.clockRuns (engineClock r) = false) :
    enlargerJobEndStep r err s = s := by
  unfold enlargerJobEndStep
  split
  case h_1 => rfl
  case h_2 j hj => rw [if_pos (by rw [h.resolve_left (by simp [hj])]; decide)]

theorem reducerJobEndStep_off (h : (s.engine r).reducer.running = none ∨ s.clockRuns (engineClock r) = false) :
    reducerJobEndStep r err s = s := by
  unfold reducerJobEndStep
  split
  case h_1 => rfl
  case h_2 j hj => rw [if_pos (by rw [h.resolve_left (by simp [hj])]; decide)]

variable {j : Job} (hclock : s.clockRuns (engineClock r) = true)
include hclock

theorem enlargerJobEndStep_ends (hj : (s.engine r).enlarger.running = some j) : enlargerJobEndStep r err s =
    (match j.use with
    | .firmware slot => ((s.logJobError err).dropRunning r false).endFirmware j slot err
    | .table id => ((s.logJobError err).dropRunning r false).endTable j id err
    | .kernel => ((s.logJobError err).dropRunning r false).endKernel j err
    | .prompt id => ((s.logJobError err).dropRunning r false).endPrompt j id err
    | .piece p i => ((s.logJobError err).dropRunning r false).endPiece j (p, i) err
    | .contextIn c => ((s.logJobError err).dropRunning r false).endContextIn j c err
    | .imageEnlarge => ((s.logJobError err).dropRunning r false).endEnlarge j (j.chain.getD 0) err
    | .contextOut _ | .imageReduce | .traceDump => (s.logJobError err).dropRunning r false) := by
  simp only [enlargerJobEndStep, hj, hclock, not_true_eq_false, if_false]
    <;> rfl

theorem reducerJobEndStep_ends (hj : (s.engine r).reducer.running = some j) : reducerJobEndStep r err s =
    (match j.use with
    | .contextOut c => ((s.logJobError err).dropRunning r true).endContextOut j c err
    | .imageReduce | .traceDump => ((s.logJobError err).dropRunning r true).endReduce j (j.chain.getD 0) err
    | .firmware _ | .table _ | .kernel | .prompt _ | .piece _ _ | .contextIn _ | .imageEnlarge =>
      (s.logJobError err).dropRunning r true) := by
  simp only [reducerJobEndStep, hj, hclock, not_true_eq_false, if_false]
    <;> rfl

end

/-- Settles O53. -/
theorem engineEventsComplete : Obligations.EngineEventsComplete := by
  unfold Obligations.EngineEventsComplete Safety.Becomes
  simp only [exec_jobStart, exec_enlargerJobEnd, exec_reducerJobEnd, Host.Outcome.next.injEq]
  intro r s
  refine ⟨?takes, fun red h => jobStartStep_waits h, ?order, fun err h => enlargerJobEndStep_off h,
    fun err h => reducerJobEndStep_off h, ?enlarger, ?reducer⟩
  case takes =>
    intro red j hidle hruns hreset hj
    refine ⟨_, jobStartStep_takes hidle hruns hreset hj, ?_⟩
    have hengine (v : State) (hv : v.engine r =
        setHalf (s.engine r) red { running := some j, queue := (engineHalf (s.engine r) red).queue.erase j }) :
        (engineHalf (v.engine r) red).running = some j ∧
        (engineHalf (v.engine r) red).queue = (engineHalf (s.engine r) red).queue.erase j ∧
        engineHalf (v.engine r) (!red) = engineHalf (s.engine r) (!red) := by
      simp [hv]
    cases j.chain with
    | none =>
      obtain ⟨hr, hq, ho⟩ := hengine _ (s.setEngine_engine_same r _)
      exact ⟨hr, hq, ho, rfl⟩
    | some a =>
      obtain ⟨hr, hq, ho⟩ := hengine _ (s.setEngine_engine_same r _)
      exact ⟨hr, hq, ho, rfl⟩
  case order => exact fun l j h => ⟨nextJob_mem h, fun k hk hc => nextJob_migration h hk hc, fun hj k hk hc => nextJob_piece h hj hk hc⟩
  case enlarger =>
    intro err j u hj hclock hu
    rw [enlargerJobEndStep_ends hclock hj, ← hu]
    refine ⟨?_, ?_, ?_, ?_, ?_, ?_, ?_, ?_⟩
    case refine_8 =>
      intro h
      cases hk : j.use <;> simp [isReducer, hk] at h ⊢
    all_goals intros; simp only [*]
  case reducer =>
    intro err j u hj hclock hu
    rw [reducerJobEndStep_ends hclock hj, ← hu]
    refine ⟨fun c h => by rw [h], fun h => by rcases h with h | h <;> rw [h], fun h => ?_⟩
    cases hk : j.use <;> simp [isReducer, hk] at h ⊢

end Sys2Proof.Machine
end

section
/-! The Bilgaup links (O54): lanes, retraining, flits received and the order in which waiting flits are sent (R528 to R534). -/

namespace Sys2Proof.Machine
open Sys2Proof.Safety

theorem exec_laneLost (p : Nat) (s : State) : exec (.laneLost p) s = .next (laneLostStep p s) := rfl
theorem exec_stackLinkLost (p : Nat) (s : State) : exec (.stackLinkLost p) s = .next (stackLinkLostStep p s) := rfl
theorem exec_laneRetrained (p : Nat) (s : State) : exec (.laneRetrained p) s = .next (laneRetrainedStep p s) := rfl
theorem exec_linkRetrain (p : Nat) (s : State) : exec (.linkRetrain p) s = .next (linkRetrainStep p s) := rfl
theorem exec_flitReceived (p : Nat) (flit : List Byte) (s : State) :
    exec (.flitReceived p flit) s = .next (flitReceivedStep p flit s) := rfl

@[simp] theorem State.setBgPort_bgPort_same (s : State) (p : Nat) (v : BgPort) : (s.setBgPort p v).bgPort p = v :=
  tabGet_tabSet_same ..

theorem State.setBgPort_bgPort_ne (s : State) {p q : Nat} (v : BgPort) (h : q ≠ p) : (s.setBgPort p v).bgPort q = s.bgPort q :=
  tabGet_tabSet_ne (h := h) ..

/-! ## Lanes -/

section
variable {p : Nat} {s : State}

theorem laneLostStep_whole (h : (s.bgPort p).lanes = 4) : laneLostStep p s =
    (((s.setBgPort p ((BgPort.resend { s.bgPort p with lanes := 3 }).bump .lanesLost 1)).logError 0x33 4 6 p 0xFFFF 0 6 0).stackNotice
      s.stack.number 4 p 3).advertise := by
  unfold laneLostStep
  dsimp only
  rw [if_neg (by omega), if_pos h]

theorem laneLostStep_second (h : (s.bgPort p).lanes ≠ 0) (h4 : (s.bgPort p).lanes ≠ 4) :
    laneLostStep p s = (s.setBgPort p ((s.bgPort p).bump .lanesLost 1)).loseLink p := by
  unfold laneLostStep
  dsimp only
  rw [if_neg h, if_neg h4]

theorem laneLostStep_down (h : (s.bgPort p).lanes = 0) : laneLostStep p s = s := if_pos h

theorem laneRetrainedStep_waits
    (h : s.linkConfigured p = false ∨ s.linkClock p = false ∨ ((s.bgPort p).lanes ≠ 0 ∧ (s.bgPort p).lanes ≠ 3)) :
    laneRetrainedStep p s = s := by
  unfold laneRetrainedStep
  dsimp only
  rcases h with h | h | ⟨h0, h3⟩
  · rw [if_pos (.inl (by rw [h]; decide))]
  · rw [if_pos (.inr (by rw [h]; decide))]
  · rw [if_neg h0, if_neg h3, ite_self]

variable (hlink : s.linkConfigured p = true) (hclock : s.linkClock p = true)
include hlink hclock

theorem laneRetrainedStep_up (h : (s.bgPort p).lanes = 0) : laneRetrainedStep p s =
    (s.setBgPort p (BgPort.pump (s.bgPort p).waiting.length { s.bgPort p with lanes := 4 })).stackNotice s.stack.number 2 p 4 := by
  unfold laneRetrainedStep
  dsimp only
  rw [if_neg (by simp [hlink, hclock]), if_pos h]

theorem laneRetrainedStep_fourth (h : (s.bgPort p).lanes = 3) :
    laneRetrainedStep p s = (s.setBgPort p { s.bgPort p with lanes := 4 }).advertise := by
  unfold laneRetrainedStep
  dsimp only
  rw [if_neg (by simp [hlink, hclock]), if_neg (by omega), if_pos h]

end

/-! ## Flits received -/

theorem State.flitIn_bad (s : State) (p : Nat) {b : List Byte}
    (h : crcFinal (b.take 0xFC) ≠ fieldAt b 0xFC 4 ∨ flitLegal (fieldAt b 0 8) = false) :
    s.flitIn p b = s.setBgPort p (((s.bgPort p).bump .crcErrors 1).bump .naksTx 1) :=
  if_pos (h.imp_right fun hl => by rw [hl]; decide)

section
variable {p : Nat} {flit : List Byte} {s : State}

theorem flitReceivedStep_down (h : (s.bgPort p).lanes = 0 ∨ s.linkClock p = false) : flitReceivedStep p flit s = s :=
  if_pos (h.imp_right fun hc => by rw [hc]; decide)

variable (hup : (s.bgPort p).lanes ≠ 0) (hclock : s.linkClock p = true)
include hup hclock

theorem flitReceivedStep_up : flitReceivedStep p flit s =
    if ((s.flitIn p flit).bgPort p).peer = (s.bgPort p).peer then s.flitIn p flit else (s.flitIn p flit).advertise.settleRoot.joinStep :=
  if_neg (by simp [hup, hclock])

/-- A flit with a bad CRC or header is counted and answered by NAK; the peer stays as known. -/
theorem flitReceivedStep_bad (h : crcFinal (flit.take 0xFC) ≠ fieldAt flit 0xFC 4 ∨ flitLegal (fieldAt flit 0 8) = false) :
    flitReceivedStep p flit s = s.setBgPort p (((s.bgPort p).bump .crcErrors 1).bump .naksTx 1) := by
  rw [flitReceivedStep_up hup hclock, s.flitIn_bad p h, if_pos]
  rw [State.setBgPort_bgPort_same]
  rfl

end

/-! ## Retraining -/

theorem linkRetrainStep_retrains {p : Nat} {s : State} (h : (s.bgPort p).replay.any (fun f => decide (8 ≤ f.resends)) = true) :
    linkRetrainStep p s = s.setBgPort p (BgPort.resend { (s.bgPort p).bump .retrains 1 with
      replay := (s.bgPort p).replay.map (fun f => { f with resends := 0 }) }) := if_pos h

theorem linkRetrainStep_stays {p : Nat} {s : State} (h : (s.bgPort p).replay.any (fun f => decide (8 ≤ f.resends)) = false) :
    linkRetrainStep p s = s := if_neg (by rw [h]; decide)

/-! ## Sending (R529, R530) -/

theorem nextFlit_eq_some {l r : List Flit} {f : Flit} (h : nextFlit l = some (f, r)) :
    r = l.erase f ∧ [0, 1, 2].findSome? (fun c => l.find? (fun g => g.cls == c)) = some f := by
  unfold nextFlit at h
  split at h
  case h_1 g hg => cases h; exact ⟨rfl, hg⟩
  case h_2 => cases h

theorem nextFlit_mem {l r : List Flit} {f : Flit} (h : nextFlit l = some (f, r)) : f ∈ l := by
  obtain ⟨c, -, hc⟩ := List.exists_of_findSome?_eq_some (nextFlit_eq_some h).2
  exact List.mem_of_find?_eq_some hc

theorem nextFlit_length {l r : List Flit} {f : Flit} (h : nextFlit l = some (f, r)) : r.length + 1 = l.length := by
  have hpos := List.length_pos_of_mem (nextFlit_mem h)
  rw [(nextFlit_eq_some h).1, List.length_erase_of_mem (nextFlit_mem h)]
  omega

/-- Classes leave in their order: no flit of a lower number waits behind the one sent. -/
theorem nextFlit_first {l r : List Flit} {f g : Flit} (h : nextFlit l = some (f, r)) (hg : g ∈ l) (hc : g.cls ≤ 2) : f.cls ≤ g.cls := by
  have hfind := (nextFlit_eq_some h).2
  have hnone {c : Nat} (hn : l.find? (fun g => g.cls == c) = none) : g.cls ≠ c := by
    simpa using List.find?_eq_none.1 hn g hg
  have hsome {c : Nat} (hs : l.find? (fun g => g.cls == c) = some f) : f.cls = c := by
    simpa using List.find?_some hs
  simp only [List.findSome?_cons, List.findSome?_nil] at hfind
  split at hfind
  case h_1 h0 => cases hfind; have := hsome h0; omega
  case h_2 h0 =>
    have := hnone h0
    split at hfind
    case h_1 h1 => cases hfind; have := hsome h1; omega
    case h_2 h1 =>
      have := hnone h1
      split at hfind
      case h_1 h2 => cases hfind; have := hsome h2; omega
      case h_2 => cases hfind

/-- The port once flit `f` is sent and `r` wait on: numbered, counted and kept for replay (R529). -/
def BgPort.sent (v : BgPort) (f : Flit) (r : List Flit) : BgPort :=
  BgPort.bump { v with waiting := r, txSeq := (v.txSeq + 1) % 4096, replay := v.replay ++ [{ seq := v.txSeq, flit := f, resends := 0 }] }
    .flitsTx 1

theorem BgPort.pump_sends {v : BgPort} {f : Flit} {r : List Flit} (n : Nat) (hup : v.lanes ≠ 0) (hroom : v.replay.length < 512)
    (hf : nextFlit v.waiting = some (f, r)) : BgPort.pump (n + 1) v = BgPort.pump n (v.sent f r) := by
  have hgo : ¬ (v.lanes = 0 ∨ replayRoom ≤ v.replay.length) := by
    rintro (h | h)
    · exact hup h
    · exact absurd hroom (Nat.not_lt.2 h)
  rw [BgPort.pump, if_neg hgo, hf]
  rfl

/-- The last flit that waits leaves nothing behind it. -/
theorem BgPort.pump_last {v : BgPort} {f : Flit} (hup : v.lanes ≠ 0) (hroom : v.replay.length < 512)
    (hf : nextFlit v.waiting = some (f, [])) : BgPort.pump v.waiting.length v = v.sent f [] := by
  rw [← nextFlit_length hf]
  exact BgPort.pump_sends 0 hup hroom hf

/-- The replay buffer only grows as flits are sent, and never beyond its room. -/
theorem BgPort.pump_replay (n : Nat) (v : BgPort) (h : v.replay.length ≤ 512) :
    (BgPort.pump n v).replay.length ≤ 512 ∧ v.replay <+: (BgPort.pump n v).replay := by
  induction n generalizing v with
  | zero => exact ⟨h, List.prefix_refl _⟩
  | succ n ih =>
    by_cases hup : v.lanes = 0
    · rw [BgPort.pump, if_pos (.inl hup)]
      exact ⟨h, List.prefix_refl _⟩
    by_cases hroom : v.replay.length < 512
    · match hf : nextFlit v.waiting with
      | none =>
        rw [BgPort.pump, hf]
        split <;> exact ⟨h, List.prefix_refl _⟩
      | some (f, r) =>
        rw [BgPort.pump_sends n hup hroom hf]
        have hlen : (v.sent f r).replay.length ≤ 512 := by
          simp only [BgPort.sent, BgPort.bump, List.length_append, List.length_singleton]
          omega
        obtain ⟨hle, hpre⟩ := ih (v.sent f r) hlen
        exact ⟨hle, (List.prefix_append v.replay _).trans hpre⟩
    · rw [BgPort.pump, if_pos (.inr (Nat.le_of_not_lt hroom))]
      exact ⟨h, List.prefix_refl _⟩

/-- Settles O54. -/
theorem stackLinksCarryFlits : Obligations.StackLinksCarryFlits := by
  unfold Obligations.StackLinksCarryFlits Safety.Becomes
  simp only [exec_laneLost, exec_stackLinkLost, exec_laneRetrained, exec_linkRetrain, exec_flitReceived, Host.Outcome.next.injEq]
  refine ⟨fun p s => ⟨fun h => laneLostStep_whole h, fun h h4 => laneLostStep_second h h4, fun h => laneLostStep_down h, fun h => if_neg h,
    fun h => if_pos h, fun hl hc h => laneRetrainedStep_up hl hc h, fun hl hc h => laneRetrainedStep_fourth hl hc h,
    fun h => laneRetrainedStep_waits h, ?retrain, fun h => linkRetrainStep_stays h, fun f hu hc h => flitReceivedStep_bad hu hc h,
    fun f hu hc h => (flitReceivedStep_up hu hc).trans (if_pos h), fun f hu hc h => (flitReceivedStep_up hu hc).trans (if_neg h),
    fun f h => flitReceivedStep_down h⟩, ?sends, fun n v h => BgPort.pump_replay n v h,
    fun l f r h => ⟨nextFlit_mem h, fun g hg hc => nextFlit_first h hg hc, nextFlit_length h⟩⟩
  case retrain =>
    intro h
    refine ⟨_, linkRetrainStep_retrains h, ?_, ?_, fun q hq => State.setBgPort_bgPort_ne s _ hq⟩
    · rw [State.setBgPort_bgPort_same]
      simp [BgPort.resend, BgPort.bump]
    · rw [State.setBgPort_bgPort_same]
      rfl
  case sends =>
    rintro v f r hup hroom hf rfl
    rw [BgPort.pump_last hup hroom hf]
    exact ⟨rfl, rfl, rfl⟩

end Sys2Proof.Machine
end

section
/-! The events of the stack (O55): joining and time, and what other members send of channels and flows (R375, R535 to R545). -/

namespace Sys2Proof.Machine
open Sys2Proof.Safety

theorem exec_advertisement (d : Nat) (i : Option MemberInfo) (s : State) :
    exec (.advertisement d i) s = .next (advertisementStep d i s) := rfl
theorem exec_stackJoinTimeout (s : State) : exec .stackJoinTimeout s = .next (stackJoinTimeoutStep s) := rfl
theorem exec_flowTableCopy (e : Option FlowSettings) (n : Nat) (s : State) :
    exec (.flowTableCopy e n) s = .next (flowTableCopyStep e n s) := rfl
theorem exec_timeFlitExchange (p : Nat) (t1 t2 t3 t4 : Stamp) (s : State) :
    exec (.timeFlitExchange p t1 t2 t3 t4) s = .next (timeFlitExchangeStep p t1 t2 t3 t4 s) := rfl
theorem exec_stackStepRelay (a : Int) (e : BitVec 16) (s : State) :
    exec (.stackStepRelay a e) s = .next (stackStepRelayStep a e s) := rfl
theorem exec_stackLegBlock (d c leg tick : Nat) (l : List (BitVec 16 × Bool)) (s : State) :
    exec (.stackLegBlock d c leg tick l) s = .next (stackLegBlockStep d c leg tick l s) := rfl
theorem exec_contextFrameReceived (d c cut held : Nat) (frame : List Byte) (s : State) :
    exec (.contextFrameReceived d c cut held frame) s = .next (contextFrameStep d c cut held frame s) := rfl
theorem exec_stackFlowChange (t : FlowTurn) (s : State) : exec (.stackFlowChange t) s = .next (stackFlowChangeStep t s) := rfl

/-! ## ADVERTISEMENT (R535, R548) -/

section
variable {d : Nat} {i : MemberInfo} {s s0 : State}

theorem advertisementStep_unstacked {i : Option MemberInfo} (h : s.stacked = false) : advertisementStep d i s = s :=
  if_pos (by rw [h]; decide)

variable (h : s.stacked = true) (h0 : s0 = s.takeMessage d 0x12)
include h h0

theorem advertisementStep_member : advertisementStep d (some i) s =
    if d = s0.stack.number then s0.failJoin
    else if s0.memberFits d i then s0.takeMember d i
    else if s0.stack.joining.isSome then s0.failJoin
    else s0 := by
  subst h0
  exact if_neg (by simp [h])

theorem advertisementStep_leaves : advertisementStep d none s =
    if ¬ tabHas s0.stack.infos d then s0
    else ((((({ s0 with stack := { s0.stack with infos := tabDrop s0.stack.infos d, members := s0.stack.members.filter (· ≠ d) } } : State).stackNotice
      d 1 0 0).settleEquinox).settleRoot).dropMoves.settleChanges) := by
  subst h0
  exact if_neg (by simp [h])

end

/-! ## Joins (R375, R536) -/

theorem State.failJoin_joining {s : State} {j : Join} (h : s.stack.joining = some j) :
    s.failJoin = s.leaveStack.complete j.ref stStackUnreachable [] := by
  simp only [State.failJoin, h]

section
variable {s : State} {j : Join}

theorem stackJoinTimeoutStep_none (h : s.stack.joining = none) : stackJoinTimeoutStep s = s := by
  simp only [stackJoinTimeoutStep, h]

theorem stackJoinTimeoutStep_early (h : s.stack.joining = some j) (ht : s.time.powered < j.since + 10 * oneSecond) :
    stackJoinTimeoutStep s = s := by
  simp only [stackJoinTimeoutStep, h, if_pos ht]

theorem stackJoinTimeoutStep_due (h : s.stack.joining = some j) (ht : j.since + 10 * oneSecond ≤ s.time.powered) :
    stackJoinTimeoutStep s = s.leaveStack.complete j.ref stStackUnreachable [] := by
  simp only [stackJoinTimeoutStep, h, if_neg (Nat.not_lt.2 ht)]
  exact State.failJoin_joining h

theorem flowTableCopyStep_none {e : Option FlowSettings} {n : Nat} (h : s.stack.joining = none) : flowTableCopyStep e n s = s := by
  simp only [flowTableCopyStep, h]

variable {s0 : State} {n : Nat} (h : s.stack.joining = some j) (h0 : s0 = s.takeMessage s.stackRoot 0x21)
include h h0

theorem flowTableCopyStep_entry {f : FlowSettings} :
    flowTableCopyStep (some f) n s = { s0 with flows := (applyChange s0.flows (.insert f)).1 } := by
  subst h0
  simp only [flowTableCopyStep, h]

theorem flowTableCopyStep_end {s1 : State} (h1 : s1 = { s0 with stack := { s0.stack with joining := some { j with tableCopied := true } } }) :
    flowTableCopyStep none n s = (if s1.isFollower then s1.moveOrigin n else s1).joinStep := by
  subst h1 h0
  simp only [flowTableCopyStep, h]

end

/-! ## Time from the root (R537, R538) -/

theorem timeFlitExchangeStep_other {s : State} {p : Nat} {t1 t2 t3 t4 : Stamp} (h : s.isFollower = false ∨ s.pathPort s.stackRoot ≠ some p) :
    timeFlitExchangeStep p t1 t2 t3 t4 s = s :=
  if_neg fun ⟨hf, hp⟩ => h.elim (fun hn => by simp [hn] at hf) (fun hn => hn hp)

theorem stackStepRelayStep_root {s : State} {a : Int} {e : BitVec 16} (h : s.isFollower = false) : stackStepRelayStep a e s = s :=
  if_neg (by rw [h]; decide)

/-! ## The context of a moving channel (R545 step 4) -/

section
variable {d c cut held : Nat} {frame : List Byte} {s s0 : State} (h0 : s0 = s.takeMessage d 0x20)
include h0

theorem contextFrameStep_still (h : (s0.channel c).move = none) : contextFrameStep d c cut held frame s = s0 := by
  subst h0
  simp only [contextFrameStep, h]

variable {m : Move_} (hm : (s0.channel c).move = some m)
include hm

theorem contextFrameStep_foreign (h : m.inbound = false ∨ m.device ≠ d ∨ m.sent = true) : contextFrameStep d c cut held frame s = s0 := by
  subst h0
  simp only [contextFrameStep, hm]
  exact if_pos (h.imp_left fun hi => by rw [hi]; decide)

theorem contextFrameStep_awaited (hi : m.inbound = true) (hd : m.device = d) (hs : m.sent = false) :
    contextFrameStep d c cut held frame s =
      if originalOver frame 65536 then
        (s0.sendClass d 1 (Config.messageKind 3) [beBytes 2 c, beBytes 2 stCheckFailed]).dropMove c stCheckFailed
      else
        (s0.modChannel c (fun v => { v with move := some { m with from_ := moveStateOf held, cut := some cut, sent := true } })).queueJobAt
          (blockRegion (s0.channel c).block)
          { ref := none, use := .contextIn c, cls := 0, order := 0, source := .bytes frame, chain := none, base := 0 } := by
  subst h0
  simp only [contextFrameStep, hm]
  exact if_neg (by simp [hi, hd, hs])

end

/-! ## Turns over a change of the flow table (R540) -/

section
variable {s : State} {c : FlowChange} {votes : List (Nat × Nat)} {st d : Nat}

theorem stackFlowChangeStep_unstacked {t : FlowTurn} (h : s.stacked = false) : stackFlowChangeStep t s = s :=
  if_pos (by rw [h]; decide)

variable (h : s.stacked = true)
include h

section
variable (hr : s.isFollower = false)
include hr

theorem stackFlowChangeStep_sequence : stackFlowChangeStep (.sequence (some c) votes) s = s.sequenceChange c votes := by
  simp only [stackFlowChangeStep, h, hr, not_true_eq_false, Bool.false_eq_true, if_false]

theorem stackFlowChangeStep_sequenceOldest {r : Option CmdRef} {l : List (Option CmdRef × FlowChange)} (hc : s.stack.changes = (r, c) :: l) :
    stackFlowChangeStep (.sequence none votes) s = s.sequenceChange c votes := by
  simp only [stackFlowChangeStep, h, hr, hc, not_true_eq_false, Bool.false_eq_true, if_false]

omit hr in
theorem stackFlowChangeStep_sequenceNone (hc : s.stack.changes = []) : stackFlowChangeStep (.sequence none votes) s = s := by
  simp only [stackFlowChangeStep, h, hc, not_true_eq_false, if_false]

theorem stackFlowChangeStep_applied :
    stackFlowChangeStep (.applied d c) s = ((s.takeMessage d 0x11).appliedBy d c).settleChanges := by
  simp only [stackFlowChangeStep, h, hr, not_true_eq_false, Bool.false_eq_true, if_false]

/-- The turns of the other members are none of the sequencer's. -/
theorem stackFlowChangeStep_notSequencer : stackFlowChangeStep (.vote c) s = s ∧ stackFlowChangeStep (.commit c) s = s ∧
    stackFlowChangeStep (.finished c) s = s ∧ ∀ st d, stackFlowChangeStep (.abandon c st d) s = s := by
  simp [stackFlowChangeStep, h, hr]

end

variable (hf : s.isFollower = true)
include hf

/-- The sequencer's turns are none of another member's. -/
theorem stackFlowChangeStep_notFollower : (∀ c, stackFlowChangeStep (.sequence c votes) s = s) ∧ stackFlowChangeStep (.applied d c) s = s := by
  refine ⟨fun c => ?_, by simp [stackFlowChangeStep, h, hf]⟩
  cases c with
  | some c => simp [stackFlowChangeStep, h, hf]
  | none =>
    cases hc : s.stack.changes with
    | nil => simp [stackFlowChangeStep, h, hc]
    | cons e l => simp [stackFlowChangeStep, h, hf, hc]

variable {s0 : State} (h0 : s0 = s.takeMessage s.stackRoot 0x11)
include h0

theorem stackFlowChangeStep_vote : stackFlowChangeStep (.vote c) s =
    (s0.countFailedWalk c).sendMessage s.stackRoot 0x11 [beBytes 2 (s.changeVote c).1] := by
  subst h0
  simp only [stackFlowChangeStep, h, hf, not_true_eq_false, if_false, if_true]

theorem stackFlowChangeStep_commit : stackFlowChangeStep (.commit c) s =
    (s0.commitChange c).sendMessage s.stackRoot 0x11 (changeContent c) := by
  subst h0
  simp only [stackFlowChangeStep, h, hf, not_true_eq_false, if_false, if_true]

theorem stackFlowChangeStep_abandon : stackFlowChangeStep (.abandon c st d) s = s0.abandonChange c st d := by
  subst h0
  simp only [stackFlowChangeStep, h, hf, not_true_eq_false, if_false, if_true]

theorem stackFlowChangeStep_finished :
    stackFlowChangeStep (.finished c) s = (s0.takeChange c).1.completeOpt (s0.takeChange c).2 stOk := by
  subst h0
  simp only [stackFlowChangeStep, h, hf, not_true_eq_false, if_false, if_true]

end

/-- Settles O55. -/
theorem stackEventsComplete : Obligations.StackEventsComplete := by
  unfold Obligations.StackEventsComplete Safety.Becomes
  simp only [exec_advertisement, exec_stackJoinTimeout, exec_flowTableCopy, exec_timeFlitExchange, exec_stackStepRelay,
    exec_stackLegBlock, exec_contextFrameReceived, exec_stackFlowChange, Host.Outcome.next.injEq]
  refine ⟨fun s => ⟨fun d i h => advertisementStep_unstacked h, ?joins, ?leaves, fun j h ht => stackJoinTimeoutStep_due h ht,
      fun j h ht => stackJoinTimeoutStep_early h ht, fun h => ⟨stackJoinTimeoutStep_none h, fun e n => flowTableCopyStep_none h⟩,
      fun j f n s0 h h0 => flowTableCopyStep_entry h h0, ?copied, fun p t1 t2 t3 t4 hf hp => if_pos ⟨hf, hp⟩,
      fun p t1 t2 t3 t4 h => timeFlitExchangeStep_other h, fun a e h => if_pos h, fun a e h => stackStepRelayStep_root h⟩,
    fun s => ⟨?leg, ?frame, fun t h => stackFlowChangeStep_unstacked h, ?sequencer, ?follower⟩⟩
  case joins =>
    intro d i s0 h h0
    rw [advertisementStep_member h h0]
    exact ⟨fun hd => if_pos hd, fun hd hf => by rw [if_neg hd, if_pos hf],
      fun hd hf hj => by rw [if_neg hd, if_neg (by rw [hf]; decide), if_pos hj],
      fun hd hf hj => by rw [if_neg hd, if_neg (by rw [hf]; decide), if_neg (by rw [hj]; decide)]⟩
  case leaves =>
    intro d s0 h h0
    rw [advertisementStep_leaves h h0]
    exact ⟨fun hi => if_pos (by rw [hi]; decide), fun hi => if_neg (not_not.2 hi)⟩
  case copied =>
    intro j n s0 s1 h h0 h1
    rw [flowTableCopyStep_end h h0 h1]
    exact ⟨fun hf => by rw [if_pos hf], fun hf => by rw [if_neg (by rw [hf]; decide)]⟩
  case leg =>
    rintro d c leg tick l s0 k rfl rfl
    exact ⟨fun hk hp => if_pos ⟨hk, hp⟩, fun hk => if_neg fun ⟨h1, h2⟩ => hk.elim (· h1) (· h2)⟩
  case frame =>
    intro d c cut held frame s0 h0
    refine ⟨fun h => contextFrameStep_still h0 h, fun m hm h => contextFrameStep_foreign h0 hm h, ?_, ?_⟩
    · intro m hm hi hd hs hl
      exact (contextFrameStep_awaited h0 hm hi hd hs).trans (if_pos hl)
    · intro m hm hi hd hs hl
      exact (contextFrameStep_awaited h0 hm hi hd hs).trans (if_neg (by rw [hl]; decide))
  case sequencer =>
    intro h hr
    exact ⟨fun c votes => stackFlowChangeStep_sequence h hr, fun r c l votes hc => stackFlowChangeStep_sequenceOldest h hr hc,
      fun votes hc => stackFlowChangeStep_sequenceNone h hc, fun d c => stackFlowChangeStep_applied h hr,
      fun c => stackFlowChangeStep_notSequencer h hr⟩
  case follower =>
    intro s0 h hf h0
    exact ⟨fun c votes => (stackFlowChangeStep_notFollower (d := 0) (c := .remove 0) h hf).1 c,
      fun d c => (stackFlowChangeStep_notFollower (votes := []) h hf).2,
      fun c => stackFlowChangeStep_vote h hf h0, fun c => stackFlowChangeStep_commit h hf h0,
      fun c st d => stackFlowChangeStep_abandon h hf h0, fun c => stackFlowChangeStep_finished h hf h0⟩

end Sys2Proof.Machine
end

section
/-! The test port (O21): its instructions, DEBUG, DEBUG_UNLOCK and FUSE_PROG (R576 to R579). -/

namespace Sys2Proof.Machine
open Sys2Proof.Safety

theorem exec_debug (op : DebugOp) (s : State) : exec (.debug op) s = .next (debugStep op s) := rfl
theorem exec_debugUnlock (key sig : List Byte) (s : State) : exec (.debugUnlock key sig) s = .next (debugUnlockStep key sig s) := rfl
theorem exec_fuseProg (f : FuseField) (s : State) : exec (.fuseProg f) s = .next (fuseProgStep f s) := rfl

/-! ## DEBUG -/

section
variable {s : State} (op : DebugOp)

theorem debugStep_allowed (h : s.life.lifeCycle = 0 ∨ (s.life.lifeCycle = 1 ∧ s.board.debugUnlocked = true)) :
    debugStep op s = debugRun op (s.tapLoad .debug false []) :=
  if_pos (by simpa [State.debugAllowed] using h)

theorem debugStep_denied (h : 2 ≤ s.life.lifeCycle ∨ (s.life.lifeCycle = 1 ∧ s.board.debugUnlocked = false)) :
    debugStep op s = s.tapDenied := by
  refine if_neg ?_
  rcases h with h | ⟨h, hu⟩
  · simp only [State.debugAllowed, Bool.or_eq_true, beq_iff_eq, Bool.and_eq_true]
    omega
  · simp [State.debugAllowed, h, hu]

end

/-- DEBUG's read of a dword of BAR0 gives what the register reads as, and clears one of BAR0's two counters where it is that one. -/
theorem State.debugRead_reads (s : State) (a : Nat) :
    (s.debugRead a).board.readData = leBytes 4 (s.barRead a) ∧
    (s.debugRead a).board.barPartial = (if a = 0x200000 then 0 else s.board.barPartial) ∧
    (s.debugRead a).board.barOutside = (if a = 0x200004 then 0 else s.board.barOutside) ∧
    (s.debugRead a).life = s.life ∧ (s.debugRead a).fylos = s.fylos := by
  by_cases hp : a = 0x200000
  · subst hp
    exact ⟨rfl, rfl, rfl, rfl, rfl⟩
  by_cases ho : a = 0x200004
  · subst ho
    exact ⟨rfl, rfl, rfl, rfl, rfl⟩
  simp only [State.debugRead, if_neg hp, if_neg ho]
  split <;> exact ⟨rfl, rfl, rfl, rfl, rfl⟩

/-! ## DEBUG_UNLOCK and FUSE_PROG -/

section
variable {s : State} {key sig : List Byte}

theorem debugUnlockStep_denied (h : 2 ≤ s.life.lifeCycle ∨ (s.life.lifeCycle = 1 ∧ 3 ≤ s.board.unlockFails)) :
    debugUnlockStep key sig s = s.tapDenied := if_pos h

theorem debugUnlockStep_manufacture (h : s.life.lifeCycle = 0) :
    debugUnlockStep key sig s = s.tapLoad .debugUnlock false s.challenge := by
  unfold debugUnlockStep
  rw [if_neg (by omega)]
  exact if_pos h

theorem debugUnlockStep_tries (h : s.life.lifeCycle = 1) (hf : s.board.unlockFails < 3) : debugUnlockStep key sig s =
    if Config.sha384 key = s.life.keyHash ∧ Config.ecdsaVerifies key sig s.challenge then
      (s.tapLoad .debugUnlock false s.challenge).withBoard (fun b => { b with debugUnlocked := true })
    else (s.tapLoad .debugUnlock false s.challenge).withBoard (fun b => { b with unlockFails := b.unlockFails + 1 }) := by
  unfold debugUnlockStep
  rw [if_neg (by omega)]
  exact if_neg (by omega)

end

/-- Settles O21. -/
theorem testPortAndFuseCommandsComplete : Obligations.TestPortAndFuseCommandsComplete := by
  unfold Obligations.TestPortAndFuseCommandsComplete
  refine ⟨fun s k => ⟨rfl, rfl, rfl, rfl, rfl, rfl, rfl, rfl, rfl, rfl, rfl⟩, ?_⟩
  rintro s d u rfl rfl
  simp only [exec_debug, exec_debugUnlock, exec_fuseProg, Host.Outcome.next.injEq]
  refine ⟨fun h => ?allowed, fun h op => debugStep_denied op h, fun key sig h => debugUnlockStep_manufacture h, ?unlock,
    fun key sig h => debugUnlockStep_denied h, ?fuse, fun f h => if_neg h⟩
  case allowed =>
    refine ⟨debugStep_allowed .halt h, debugStep_allowed .resume h, fun a k => ⟨_, debugStep_allowed _ h, rfl, rfl, rfl⟩,
      fun a b => debugStep_allowed _ h, fun n p a k => debugStep_allowed _ h, ?_⟩
    rintro o a rfl
    exact ⟨_, debugStep_allowed _ h, State.debugRead_reads (s.tapLoad .debug false []) _⟩
  case unlock =>
    rintro key sig t b h hf rfl rfl
    rw [debugUnlockStep_tries h hf]
    split <;> rfl
  case fuse =>
    rintro f t l h rfl rfl
    refine (if_pos h).trans ?_
    cases f <;> rfl

end Sys2Proof.Machine
end

section
/-! Ring pairs (O19): the host's writes of their registers, the writing of replies and their interrupts (R412 to R417, R502). -/

namespace Sys2Proof.Machine
open Sys2Proof.Safety

theorem exec_cmdTailDoorbell (n : Nat) (tail : BitVec 12) (l : List (List Byte)) (s : State) :
    exec (.cmdTailDoorbell n tail l) s = .next (doorbellStep n tail l s) := rfl
theorem exec_rplHeadWrite (n : Nat) (head : BitVec 12) (s : State) : exec (.rplHeadWrite n head) s = .next (rplHeadStep n head s) := rfl
theorem exec_ringEnable (n : Nat) (s : State) : exec (.ringEnable n) s = .next (ringEnableStep n s) := rfl
theorem exec_ringDisable (n : Nat) (s : State) : exec (.ringDisable n) s = .next (ringDisableStep n s) := rfl
theorem exec_replyWrite (n : Nat) (ok : Bool) (s : State) : exec (.replyWrite n ok) s = .next (replyWriteStep n ok s) := rfl
theorem exec_coalTimeExpiry (n : Nat) (s : State) : exec (.coalTimeExpiry n) s = .next (coalTimeStep n s) := rfl

section
variable {n : Nat} {s : State}

/-! ## The endpoint closed (R502) -/

section
variable (h : s.hostOpen = false)
include h

theorem doorbellStep_closed (tail : BitVec 12) (l : List (List Byte)) : doorbellStep n tail l s = s := if_pos (.inl (by rw [h]; decide))
theorem rplHeadStep_closed (head : BitVec 12) : rplHeadStep n head s = s := if_pos (.inl (by rw [h]; decide))
theorem ringEnableStep_closed : ringEnableStep n s = s := if_pos (.inl (by rw [h]; decide))
theorem ringDisableStep_closed : ringDisableStep n s = s := if_pos (.inl (by rw [h]; decide))

end

/-! ## The endpoint open (R412, R414, R416) -/

section
variable (h : s.hostOpen = true) (hn : n < 4)
include h hn

theorem ring_open : ¬ (¬ s.hostOpen = true ∨ 4 ≤ n) := by
  rintro (hc | hc)
  · exact hc h
  · omega

theorem doorbellStep_open (tail : BitVec 12) (l : List (List Byte)) : doorbellStep n tail l s =
    (s.modRing n (fun r => { r with cmdTail := tail, covered := r.covered ++
      (if (s.ring n).enable = true ∧ ¬ (s.ring n).stopped = true then newEntries (s.ring n).cmdTail tail l else []) })).service :=
  if_neg (ring_open h hn)

theorem rplHeadStep_open (head : BitVec 12) : rplHeadStep n head s =
    (s.modRing n (fun r => { r with rplHead := head, written := unconsumed (r.rplTail - head).toNat r.written })).service :=
  if_neg (ring_open h hn)

theorem ringDisableStep_open : ringDisableStep n s = s.modRing n (fun r => { r with enable := false, covered := [] }) :=
  if_neg (ring_open h hn)

end

/-! ## RING_ENABLE -/

/-- A pair as RING_ENABLE leaves it, ahead of DEV_READY and of what Damium then takes. -/
def State.enabledRing (s : State) (n : Nat) : State :=
  s.modRing n (fun r => { r with enable := true, cmdTail := 0, cmdHead := 0, rplHead := 0, rplTail := 0, covered := [],
                                 written := [], unsignalled := 0, stopped := false })

theorem ringEnableStep_enabled (h : (s.ring n).enable = true) : ringEnableStep n s = s := if_pos (.inr (.inr h))

theorem ringEnableStep_enables (h : s.hostOpen = true) (hn : n < 4) (he : (s.ring n).enable = false) :
    ringEnableStep n s = (if n = 0 then (s.enabledRing n).devReady else s.enabledRing n).service :=
  if_neg fun hc => by
    rcases hc with hc | hc | hc
    · exact hc h
    · omega
    · rw [he] at hc
      cases hc

/-- DEV_READY only adds to what waits on the rings. -/
theorem State.devReady_appends (s : State) : OnlyAppends s s.devReady := by
  unfold State.devReady
  split
  · exact OnlyAppends_of_rings rfl
  · dsimp only
    generalize hnoticed : State.noticeAt _ _ _ _ _ _ _ = t
    refine onlyAppends_trans (b := t) ?_ (OnlyAppends_of_rings rfl)
    rw [← hnoticed]
    exact onlyAppends_trans (OnlyAppends_of_rings rfl) (State.noticeAt_appends _ _ _ _ _ _ _)

@[simp] theorem State.devReady_channels (s : State) : s.devReady.channels = s.channels := by
  unfold State.devReady
  split
  · rfl
  · simp only [State.setDest_channels, State.noticeAt_channels]

/-! ## Replies (R415, R416) -/

theorem replyWriteStep_none {ok : Bool} (h : (s.ring n).waiting = []) : replyWriteStep n ok s = s := by
  simp only [replyWriteStep, h]

variable {q : OutPart} {l : List OutPart}

theorem replyWriteStep_full {ok : Bool} (h : (s.ring n).waiting = q :: l) (hroom : (s.ring n).room < partEntries q) :
    replyWriteStep n ok s = s := by
  simp only [replyWriteStep, h, if_pos hroom]

theorem replyWriteStep_fails (h : (s.ring n).waiting = q :: l) (hroom : partEntries q ≤ (s.ring n).room) :
    replyWriteStep n false s = s.dmaStop n 4 (s.ring n).rplTail.toNat := by
  simp only [replyWriteStep, h, if_neg (Nat.not_lt.2 hroom), Bool.false_eq_true, not_false_eq_true, if_true]

/-- A reply ring once its part `q` is written and `l` waits on. -/
def Ring.partWritten (r : Ring) (now : Nat) (q : OutPart) (l : List OutPart) : Ring :=
  { r with waiting := l, written := r.written ++ [q], rplTail := r.rplTail + BitVec.ofNat 12 (partEntries q),
           unsignalled := r.unsignalled + partEntries q, coalSince := if r.unsignalled = 0 then now else r.coalSince }

theorem replyWriteStep_writes {v : State} (h : (s.ring n).waiting = q :: l) (hroom : partEntries q ≤ (s.ring n).room)
    (hv : v = s.modRing n (fun _ => (s.ring n).partWritten s.time.powered q l)) : replyWriteStep n true s =
      (State.partLeft (if (s.ring n).coalCount.toNat ≤ (s.ring n).unsignalled + partEntries q then
        (v.modRing n (fun x => { x with unsignalled := 0 })).signal (v.ring n).vector.toNat else v) q).service := by
  subst hv
  simp only [replyWriteStep, h, if_neg (Nat.not_lt.2 hroom), not_true_eq_false, if_false]
  rfl

/-! ## COAL_TIME (R417) -/

theorem coalTimeStep_waits
    (h : (s.ring n).coalTime = 0 ∨ (s.ring n).unsignalled = 0 ∨ s.time.powered < (s.ring n).coalSince + (s.ring n).coalTime.toNat * 1000) :
    coalTimeStep n s = s := if_pos h

theorem coalTimeStep_due (ht : (s.ring n).coalTime ≠ 0) (hu : (s.ring n).unsignalled ≠ 0)
    (h : (s.ring n).coalSince + (s.ring n).coalTime.toNat * 1000 ≤ s.time.powered) :
    coalTimeStep n s = (s.modRing n (fun x => { x with unsignalled := 0 })).signal (s.ring n).vector.toNat :=
  if_neg fun hc => hc.elim ht fun hc => hc.elim hu (Nat.not_lt.2 h)

end

/-- Settles O19. -/
theorem ringCommandsAndRepliesComplete : Obligations.RingCommandsAndRepliesComplete := by
  unfold Obligations.RingCommandsAndRepliesComplete
  simp only [exec_cmdTailDoorbell, exec_rplHeadWrite, exec_ringEnable, exec_ringDisable, exec_replyWrite, exec_coalTimeExpiry,
    Host.Outcome.next.injEq]
  refine ⟨fun n s tail head l h => ⟨doorbellStep_closed h tail l, rplHeadStep_closed h head, ringEnableStep_closed h, ringDisableStep_closed h⟩,
    ?opened, ?replies⟩
  case opened =>
    rintro n s r rfl h hn
    refine ⟨fun he => ringEnableStep_enabled he, fun he => ?_, ?_, ?_, ringDisableStep_open h hn⟩
    · have happends : OnlyAppends (s.enabledRing n) (if n = 0 then (s.enabledRing n).devReady else s.enabledRing n) := by
        split
        · exact State.devReady_appends _
        · exact OnlyAppends_of_rings rfl
      obtain ⟨l, hring⟩ := happends n
      rw [State.enabledRing, State.modRing_ring_same] at hring
      refine ⟨_, ringEnableStep_enables h hn he, ?_⟩
      rw [State.enabledRing, hring]
      refine ⟨rfl, rfl, rfl, rfl, rfl, rfl, rfl, ?_⟩
      split
      · rw [State.devReady_channels, State.modRing_channels]
      · rfl
    · rintro tail l w rfl
      exact doorbellStep_open h hn tail l
    · rintro head w rfl
      exact rplHeadStep_open h hn head
  case replies =>
    rintro n s r rfl
    refine ⟨fun ok hw => replyWriteStep_none hw, fun q l ok hw hroom => replyWriteStep_full hw hroom, ?_, ?_,
      fun hc => coalTimeStep_waits hc, fun ht hu hc => coalTimeStep_due ht hu hc⟩
    · intro q l hw hroom
      refine ⟨_, replyWriteStep_fails hw hroom, fun _ => ?_, rfl, fun m hm => State.modRing_ring_ne _ _ _ _ hm⟩
      rw [State.dmaStop, State.modRing_ring_same]
      exact ⟨rfl, rfl, BitVec.ofNat_toNat .., rfl, rfl, rfl⟩
    · rintro q l k w v hw rfl hroom rfl hv
      exact replyWriteStep_writes hw hroom hv

end Sys2Proof.Machine
end

section
/-! The commands of the stack and of the firmware slots (O10), and a command for another member, which is sent to it (R411, R460, R461, R511,
R535, R546, R550). -/

namespace Sys2Proof.Machine
open Sys2Proof.Safety

/-! ## A command that reaches Damium, from any source -/

/-- A command that its source's checks let through is run on the machine those checks leave. -/
theorem fylosRun_reaches {op : Nat} {p : Packet} {s u : State} {b : Bool} (h : Reaches op p s u b) (body : Body) :
    fylosRun op body p s = runCommand op body (readAt p) b u := by
  obtain ⟨htakes, hsource⟩ := h
  cases hsrc : p.source with
  | ring n =>
    simp only [hsrc] at hsource
    obtain ⟨hheld, hwait, hmagic, hlen, rfl, rfl⟩ := hsource
    rw [fylosRun_ring_takes hsrc htakes hheld hwait, ringCommand_framed ⟨hmagic, hlen⟩]
    simp only [readAt, hsrc]
  | stack d k =>
    simp only [hsrc] at hsource
    obtain ⟨rfl, rfl⟩ := hsource
    rw [fylosRun_stack_takes hsrc htakes]
    simp only [readAt, hsrc]
  | udp a q e =>
    simp only [hsrc] at hsource
    obtain ⟨hmagic, hlife, hrsvd, hparams, hkey⟩ := hsource
    rw [fylosRun_udp_takes hsrc htakes hmagic]
    simp only [readAt, hsrc]
    rcases hkey with ⟨hop, hauth, htag, hroom, rfl⟩ | ⟨key, hauth, htag, hkey, hright, hnew, rfl⟩
    · simp [udpCommand, hparams, htag, hrsvd, hlife, hop, hauth, hroom]
    · rw [udpCommand_tagged hparams (by simp [htag, hauth]) hrsvd hlife (.inr hauth) hkey hauth hright, sequenceWindow_new hnew]

/-! ## A command for another member (R411) -/

theorem runCommand_elsewhere {op : Nat} {body : Body} {p : Packet} {b : Bool} {s : State}
    (hheader : headerRefusal s op (opSpec? op) p = none) (hhere : deviceHere s p = false) :
    runCommand op body p b s = forwardCommand op p (refOf op p b) s := by
  simp only [runCommand, hheader, hhere, Bool.false_eq_true, not_false_eq_true, if_true]

theorem forwardCommand_sends {op : Nat} {o : OpSpec} {p : Packet} {c : CmdRef} {s : State} (hreach : s.canReach (packetDevice p) = true)
    (ho : opSpec? op = some o) (hroom : s.mayAccept o = false ∨ outstandingOf s p.source < 1024) :
    forwardCommand op p c s =
      let t := s.sendMessage (packetDevice p) 0x10 (commandContent op p)
      { t with stack := { t.stack with forwarded := t.stack.forwarded ++ [{ device := packetDevice p, ref := c }] } } := by
  have hfull : ¬ ((((opSpec? op).map (fun o => s.mayAccept o)).getD false) = true ∧ 1024 ≤ outstandingOf s p.source) := by
    rintro ⟨hm, hl⟩
    rcases hroom with h | h
    · simp [ho, h] at hm
    · omega
  unfold forwardCommand
  dsimp only
  rw [if_neg (by simp [hreach]), if_neg hfull]

/-- Sending a message notes no command as forwarded. -/
theorem State.sendMessage_forwarded (s : State) (d kind : Nat) (content : List (List Byte)) :
    (s.sendMessage d kind content).stack.forwarded = s.stack.forwarded := by
  unfold State.sendMessage State.sendClass State.routeFlits
  dsimp only
  split
  · rfl
  · exact fold_frame (fun s t => t.stack.forwarded = s.stack.forwarded) (fun _ => rfl) (fun _ _ _ h1 h2 => h2.trans h1)
      (fun s _ => s.bumpStack .unreachableDiscard) (fun _ _ => rfl) _ s

theorem readAt_source (p : Packet) : (readAt p).source = p.source := by
  unfold readAt
  split <;> rfl

section
variable {x : Ctx} {s : State}

/-! ## STACK_CONFIG (R535) -/

theorem stackConfigBody_fits {n m : Nat} {t : Topology} {w : State} (hn : n = paramNat x.params 0x40 s.stack.number)
    (ht : t = (match paramNat? x.params 0x41 with | some k => topologyOf k | none => s.stack.topology))
    (hm : m = paramNat x.params 0x42 s.stack.links) (hagree : linksAgree t m = true)
    (hidle : s.channels.any (fun e => e.2.state != .idle) = false) (hpower : s.linksPowered m = true)
    (hw : w = { (if s.stack.joining.isSome then s.failJoin else s.leaveStack) with
      stack := { (if s.stack.joining.isSome then s.failJoin else s.leaveStack).stack with
        number := n, members := [n], topology := t, links := m, ptpForward := paramFlag x.params 0x43 s.stack.ptpForward } }) :
    stackConfigBody x s =
      if n = s.stack.number ∧ t = s.stack.topology ∧ m = s.stack.links then
        .completed stOk [] { s with stack := { s.stack with ptpForward := paramFlag x.params 0x43 s.stack.ptpForward } }
      else if t = .none then .completed stOk [] w
      else .accepted { w with stack := { w.stack with
        joining := some { ref := x.ref, since := s.time.powered, tableCopied := false } } } := by
  subst hw hm hn
  have hchecks : ¬ ¬ linksAgree t (paramNat x.params 0x42 s.stack.links) = true ∧
      ¬ s.channels.any (fun e => e.2.state != .idle) = true ∧ ¬ ¬ s.linksPowered (paramNat x.params 0x42 s.stack.links) = true :=
    ⟨not_not.2 hagree, by rw [hidle]; decide, not_not.2 hpower⟩
  obtain ⟨hagree', hidle', hpower'⟩ := hchecks
  cases hp : paramNat? x.params 0x41 with
  | none =>
    rw [hp] at ht
    subst ht
    simp only [stackConfigBody, hp, if_neg hagree', if_neg hidle', if_neg hpower']
  | some k =>
    rw [hp] at ht
    subst ht
    simp only [stackConfigBody, hp, if_neg hagree', if_neg hidle', if_neg hpower']

/-! ## BLOCK_EVACUATE (R546) -/

theorem blockEvacuateBody_begins {d : Nat} (hd : d = paramNat x.params 0x40 s.stack.number)
    (hreach : d = s.stack.number ∨ s.canReach d = true) : blockEvacuateBody x s =
      .accepted (s.modBlock x.id (fun k => { k with evacuating := true, evacuation := k.evacuation ++ [x.ref], evacuateTo := d }))
        (fun s => s.evacuate x.id) := by
  subst hd
  exact if_neg fun h => hreach.elim h.1 h.2

/-! ## Firmware slots (R511, R550, R573) -/

theorem fwLoadBody_idle {k a n : Nat} (hk : k = paramNat x.params 0x40 0) (ha : a = paramNat x.params 0x41 0)
    (hn : n = paramNat x.params 0x42 0) (hsight : s.inSight a n = true) (hruns : s.slotRuns k = false) :
    fwLoadBody x s = .accepted (s.queueJob (newJob s x (.firmware k) (.dram a n) none)) := by
  subst hk ha hn
  exact (if_neg (not_not.2 hsight)).trans (if_neg (by rw [hruns]; decide))

theorem fwActivateBody_held {k : Nat} (hk : k = paramNat x.params 0x40 0) (hheld : (s.fwSlot k).held = true) :
    fwActivateBody x s = .done stOk [] { s with life := s.life.writeSelector k } := by
  subst hk
  exact if_neg (not_not.2 hheld)

theorem fwBlockActivateBody_fits {k : Nat} (hk : k = paramNat x.params 0x40 0) (hempty : s.holdsChannels x.id = false)
    (hheld : (s.fwSlot k).held = true) (hreset : (s.region (blockRegion x.id)).underReset = false) (hfits : s.activateRefused x.id k = false) :
    fwBlockActivateBody x s = .accepted (s.awaitReset 2 x.id x.ref) (fun s =>
      let s1 := ((s.wakeForReset (blockDomains x.id)).wipeBlock x.id).modBlock x.id (fun v => { v with activate := some k })
      if s.life.management = k then s1
      else { s1 with fylos := { s1.fylos with switching := true }, life := { s1.life with switchTo := some k } }) := by
  subst hk
  refine (if_neg ?_).trans (if_neg (by rw [hfits]; decide))
  simp [hempty, hheld, hreset]

/-! ## IMAGE_ENLARGE and IMAGE_REDUCE (R460, R461) -/

theorem chainJobBody_inSight {use : JobUse} {a n d : Nat} (ha : a = paramNat x.params 0x41 0) (hn : n = paramNat x.params 0x42 0)
    (hd : d = paramNat x.params 0x43 0) (hsource : s.inSight a n = true) (halign : d % 16 = 0) (hchain : s.inSight d 16 = true) :
    chainJobBody use x s = .accepted (s.queueJob (newJob s x use (.dram a n) (some d))) := by
  subst ha hn hd
  exact (if_neg (not_not.2 hsource)).trans (if_neg (by simp [halign, hchain]))

end

/-- Settles O10. -/
theorem stackAndFirmwareCommandsComplete : Obligations.StackAndFirmwareCommandsComplete := by
  unfold Obligations.StackAndFirmwareCommandsComplete
  intro p s u c
  refine ⟨?config, ?evacuate, ?load, ?activate, ?blockActivate, ?images, ?forward⟩
  case config =>
    intro n t m v w h hroom hn ht hm hagree hidle hpower hv hw
    subst hv
    have hbody := stackConfigBody_fits hn ht hm hagree hidle hpower hw
    split
    case isTrue hsame => exact becomes_of_completed h rfl hroom (hbody.trans (if_pos hsame))
    case isFalse hsame =>
      rw [if_neg hsame] at hbody
      split
      case isTrue hnone => exact becomes_of_completed h rfl hroom (hbody.trans (if_pos hnone))
      case isFalse hnone => exact becomes_of_accepted h rfl hroom (hbody.trans (if_neg hnone)) rfl
  case evacuate => exact fun d h hroom hd hreach => becomes_of_accepted h rfl hroom (blockEvacuateBody_begins hd hreach) rfl
  case load => exact fun k a n h hroom hk ha hn hs hr => becomes_of_accepted h rfl hroom (fwLoadBody_idle hk ha hn hs hr) rfl
  case activate =>
    intro k h hk hheld
    refine replies_of_admitted h rfl ((fwActivateBody_held hk hheld).trans ?_)
    unfold Life.writeSelector
    rfl
  case blockActivate =>
    rintro k v w h hroom hk hempty hheld hreset hfits rfl rfl
    exact becomes_of_accepted h rfl hroom (fwBlockActivateBody_fits hk hempty hheld hreset hfits) rfl
  case images =>
    exact fun a n d ha hn hd hroom hs hal hc => ⟨fun h => becomes_of_accepted h rfl hroom (chainJobBody_inSight ha hn hd hs hal hc) rfl,
      fun h => becomes_of_accepted h rfl hroom (chainJobBody_inSight ha hn hd hs hal hc) rfl⟩
  case forward =>
    rintro i op o b d hrow hreaches ho hheader hhere rfl hreach hroom
    rw [← readAt_source p] at hroom
    refine ⟨_, exec_of_fylosRow hrow s, ?_⟩
    rw [fylosRun_reaches hreaches, runCommand_elsewhere (by rw [ho]; exact hheader) hhere, forwardCommand_sends hreach ho hroom]
    exact ⟨congrArg (· ++ _) (State.sendMessage_forwarded ..), State.sendMessage_channels .., State.sendMessage_flows ..,
      State.sendMessage_life ..⟩

end Sys2Proof.Machine
end

section
/-! What every step keeps (O58). `Keeps a s`: the machine `s` may come after the machine `a`. The relation is closed under composition, so each
function of the model needs one lemma: from `Keeps a s` to `Keeps a (s.f …)`; its proof is the chain of the lemmas of the functions that it calls. -/

namespace Sys2Proof.Machine
open Sys2Proof.Safety

/-- From `a` to `s` the queue stays, a legal machine stays legal and its life cycle does not go back, and no life-cycle fuse is unburned. -/
structure Keeps (a s : State) : Prop where
  queue : s.pending = a.pending
  legal : Legal a → Legal s
  lifeCycle : Legal a → a.life.lifeCycle ≤ s.life.lifeCycle
  transFuses : ∀ k, tabGet a.life.trans k 0 ≤ tabGet s.life.trans k 0
  wipeFuses : ∀ k, tabGet a.life.wipe k 0 ≤ tabGet s.life.wipe k 0

/-- The life-cycle fuses and the life cycle. -/
def Life.fuses (l : Life) : Tab Nat × Tab Nat × Nat := (l.trans, l.wipe, l.lifeCycle)

theorem logAppend_length_le (l : ErrorLog) (e : LogEntry) : (logAppend l e).entries.length ≤ 256 := by
  simp only [logAppend, List.length_drop]
  omega

theorem memoryWf_chainWrite {m : List Host.Cell} (bufs : List (Nat × Nat)) (out : List Byte) (h : memoryWf m = true) :
    memoryWf (chainWrite m bufs out) = true := by
  induction bufs generalizing m out with
  | nil => exact h
  | cons b r ih => exact ih _ (memoryWf_memWrite _ _ h)

/-- A command's answer keeps what its reply then goes out on, and what it does once the reply is on its way. -/
def Answer.Keeps (a : State) : Answer → Prop
  | .done _ _ t | .fenced _ t | .completed _ _ t => Machine.Keeps a t
  | .accepted t after => Machine.Keeps a t ∧ ∀ u, Machine.Keeps a u → Machine.Keeps a (after u)
  | .refuse _ _ => True

protected theorem Answer.Keeps.ite {a : State} {x y : Answer} {c : Prop} [Decidable c] (hx : x.Keeps a) (hy : y.Keeps a) :
    (if c then x else y).Keeps a := by
  split
  · exact hx
  · exact hy

/-- A command's own rules keep what the machine they are given keeps. -/
def KeepsBody (body : Body) : Prop := ∀ {a s : State} {x : Ctx}, Keeps a s → (body x s).Keeps a

namespace Keeps

section
variable {a s t : State}

@[refl] protected theorem refl (s : State) : Keeps s s := ⟨rfl, id, fun _ => le_rfl, fun _ => le_rfl, fun _ => le_rfl⟩

@[trans] protected theorem trans {b c : State} (h1 : Keeps a b) (h2 : Keeps b c) : Keeps a c :=
  ⟨h2.queue.trans h1.queue, h2.legal ∘ h1.legal, fun h => (h1.lifeCycle h).trans (h2.lifeCycle (h1.legal h)),
    fun k => (h1.transFuses k).trans (h2.transFuses k), fun k => (h1.wipeFuses k).trans (h2.wipeFuses k)⟩

section
variable {draws rings fylos log channels openRuns blocks cells ports pairs regions flows time tdm store clocks life stack board}

/-- A change that keeps the log, DRAM and the fuses to their rules. -/
theorem changed (h : Keeps a s) (hlog : s.log.entries.length ≤ 256 → log.entries.length ≤ 256)
    (hdram : memoryWf s.store.dram = true → memoryWf store.dram = true)
    (htrans : ∀ k, tabGet s.life.trans k 0 ≤ tabGet life.trans k 0) (hwipe : ∀ k, tabGet s.life.wipe k 0 ≤ tabGet life.wipe k 0)
    (hcycle : s.life.lifeCycle = fusedState s.life → life.lifeCycle = fusedState life) :
    Keeps a ⟨s.pending, draws, rings, fylos, log, channels, openRuns, blocks, cells, ports, pairs, regions, flows, time, tdm, store, clocks, life,
      stack, board⟩ := by
  refine h.trans ⟨rfl, fun ⟨h1, h2, h3⟩ => ⟨hcycle h1, hlog h2, hdram h3⟩, fun ⟨h1, _, _⟩ => ?_, htrans, hwipe⟩
  rw [h1, hcycle h1]
  exact fusedState_mono htrans

/-- A change of the life-cycle state besides. -/
theorem burned (h : Keeps a s) (htrans : ∀ k, tabGet s.life.trans k 0 ≤ tabGet life.trans k 0)
    (hwipe : ∀ k, tabGet s.life.wipe k 0 ≤ tabGet life.wipe k 0)
    (hcycle : s.life.lifeCycle = fusedState s.life → life.lifeCycle = fusedState life)
    (hlog : log.entries = s.log.entries := by rfl) (hdram : store.dram = s.store.dram := by rfl) :
    Keeps a ⟨s.pending, draws, rings, fylos, log, channels, openRuns, blocks, cells, ports, pairs, regions, flows, time, tdm, store, clocks, life,
      stack, board⟩ :=
  h.changed (by rw [hlog]; exact id) (by rw [hdram]; exact id) htrans hwipe hcycle

/-- A change of the log besides. -/
theorem logged (h : Keeps a s) (hlog : s.log.entries.length ≤ 256 → log.entries.length ≤ 256) (hdram : store.dram = s.store.dram := by rfl)
    (hlife : life.fuses = s.life.fuses := by rfl) :
    Keeps a ⟨s.pending, draws, rings, fylos, log, channels, openRuns, blocks, cells, ports, pairs, regions, flows, time, tdm, store, clocks, life,
      stack, board⟩ := by
  simp only [Life.fuses, Prod.mk.injEq] at hlife
  obtain ⟨htrans, hwipe, hcycle⟩ := hlife
  exact h.changed hlog (by rw [hdram]; exact id) (fun k => by rw [htrans]) (fun k => by rw [hwipe])
    (fun h1 => by rw [hcycle, h1, fusedState, fusedState, htrans])

/-- A change of DRAM besides. -/
theorem stored (h : Keeps a s) (hdram : memoryWf s.store.dram = true → memoryWf store.dram = true)
    (hlog : log.entries = s.log.entries := by rfl) (hlife : life.fuses = s.life.fuses := by rfl) :
    Keeps a ⟨s.pending, draws, rings, fylos, log, channels, openRuns, blocks, cells, ports, pairs, regions, flows, time, tdm, store, clocks, life,
      stack, board⟩ := by
  simp only [Life.fuses, Prod.mk.injEq] at hlife
  obtain ⟨htrans, hwipe, hcycle⟩ := hlife
  exact h.changed (by rw [hlog]; exact id) hdram (fun k => by rw [htrans]) (fun k => by rw [hwipe])
    (fun h1 => by rw [hcycle, h1, fusedState, fusedState, htrans])

/-- A change of anything else. -/
theorem same (h : Keeps a s) (hlog : log.entries = s.log.entries := by rfl) (hdram : store.dram = s.store.dram := by rfl)
    (hlife : life.fuses = s.life.fuses := by rfl) :
    Keeps a ⟨s.pending, draws, rings, fylos, log, channels, openRuns, blocks, cells, ports, pairs, regions, flows, time, tdm, store, clocks, life,
      stack, board⟩ :=
  h.logged (by rw [hlog]; exact id) hdram hlife

end

protected theorem ite {c : Prop} [Decidable c] (ht : Keeps a s) (he : Keeps a t) : Keeps a (if c then s else t) := by
  split
  · exact ht
  · exact he

protected theorem foldl {α : Type} {f : State → α → State} {l : List α} (h : Keeps a s) (hf : ∀ {u x}, Keeps a u → Keeps a (f u x)) :
    Keeps a (l.foldl f s) := by
  induction l generalizing s with
  | nil => exact h
  | cons x l ih => exact ih (hf h)

end

section
variable {a s : State}

theorem done (h : Keeps a s) {st l} : (Answer.done st l s).Keeps a := h
theorem pair (h : Keeps a s) {α : Type} {x : α} : Keeps a (s, x).1 := h
theorem fenced (h : Keeps a s) {f} : (Answer.fenced f s).Keeps a := h
theorem completed (h : Keeps a s) {st l} : (Answer.completed st l s).Keeps a := h
theorem accepted (h : Keeps a s) {after} (hafter : ∀ {u}, Keeps a u → Keeps a (after u) := by exact id) : (Answer.accepted s after).Keeps a :=
  ⟨h, fun _ => hafter⟩

end

end Keeps
end Sys2Proof.Machine
end

section
/-! One lemma for each function of the model that changes the machine, file by file in the model's order: a lemma bears the name of its function
and cites those of the functions that it calls. -/

namespace Sys2Proof.Machine
open Sys2Proof.Safety
set_option Elab.async false

namespace Keeps
variable {a s : State}

/-! ### Base: The plain helpers of every meaning -/

theorem drawn (h : Keeps a s) : Keeps a s.drawn := h.same

/-! ### Bilgaup: The Bilgaup links -/

theorem setBgPort (h : Keeps a s) {p v} : Keeps a (s.setBgPort p v) := h.same
theorem modBgPort (h : Keeps a s) {p f} : Keeps a (s.modBgPort p f) := h.setBgPort
theorem bumpStack (h : Keeps a s) {c} : Keeps a (s.bumpStack c) := h.same
theorem queueFlits (h : Keeps a s) {p l} : Keeps a (s.queueFlits p l) := h.modBgPort

theorem routeFlits (h : Keeps a s) {d l} : Keeps a (s.routeFlits d l) := by
  unfold State.routeFlits
  split
  · exact h.queueFlits
  · exact h.foldl fun h => h.bumpStack

theorem sendClass (h : Keeps a s) {d cls kind content} : Keeps a (s.sendClass d cls kind content) := h.routeFlits
theorem sendMessage (h : Keeps a s) {d kind content} : Keeps a (s.sendMessage d kind content) := h.sendClass
theorem sendAll (h : Keeps a s) {cls kind content} : Keeps a (s.sendAll cls kind content) := h.foldl fun h => h.sendClass

theorem takeFlit (h : Keeps a s) {p f} : Keeps a (s.takeFlit p f) := by
  unfold State.takeFlit
  dsimp only
  split
  · split
    · exact h.setBgPort.same
    · exact h.setBgPort
  · exact h.setBgPort.routeFlits

theorem flitIn (h : Keeps a s) {p b} : Keeps a (s.flitIn p b) := by
  unfold State.flitIn
  dsimp only
  split
  · exact h.setBgPort
  · split
    · exact .ite h.setBgPort.takeFlit h.setBgPort
    · exact h.setBgPort.modBgPort
    · exact h.setBgPort.modBgPort
    · exact h.setBgPort

theorem takeMessage (h : Keeps a s) {d kind} : Keeps a (s.takeMessage d kind) := by
  unfold State.takeMessage
  split
  · exact h.same
  · exact h

/-! ### Ops: The named operations every meaning shares -/

theorem setRing (h : Keeps a s) {n r} : Keeps a (s.setRing n r) := h.same
theorem modRing (h : Keeps a s) {n f} : Keeps a (s.modRing n f) := h.setRing
theorem setChannel (h : Keeps a s) {c v} : Keeps a (s.setChannel c v) := h.same
theorem modChannel (h : Keeps a s) {c f} : Keeps a (s.modChannel c f) := h.setChannel
theorem setBlock (h : Keeps a s) {b v} : Keeps a (s.setBlock b v) := h.same
theorem modBlock (h : Keeps a s) {b f} : Keeps a (s.modBlock b f) := h.setBlock
theorem setCell (h : Keeps a s) {n v} : Keeps a (s.setCell n v) := h.same
theorem modCell (h : Keeps a s) {n f} : Keeps a (s.modCell n f) := h.setCell
theorem setPort (h : Keeps a s) {i v} : Keeps a (s.setPort i v) := h.same
theorem modPort (h : Keeps a s) {i f} : Keeps a (s.modPort i f) := h.setPort
theorem setPair (h : Keeps a s) {i v} : Keeps a (s.setPair i v) := h.same
theorem setRegion (h : Keeps a s) {r v} : Keeps a (s.setRegion r v) := h.same
theorem modRegion (h : Keeps a s) {r f} : Keeps a (s.modRegion r f) := h.setRegion
theorem modThread (h : Keeps a s) {b t f} : Keeps a (s.modThread b t f) := h.modBlock
theorem bumpFylos (h : Keeps a s) {c} : Keeps a (s.bumpFylos c) := h.same
theorem bumpPort (h : Keeps a s) {i c} : Keeps a (s.bumpPort i c) := h.modPort
theorem bumpBlock (h : Keeps a s) {b c} : Keeps a (s.bumpBlock b c) := h.modBlock
theorem bumpRegion (h : Keeps a s) {r c} : Keeps a (s.bumpRegion r c) := h.modRegion

theorem fenceLeft (h : Keeps a s) {f} : Keeps a (s.fenceLeft f) := by
  unfold State.fenceLeft
  split
  · exact h
  · exact h.same
  · exact h.same

theorem send (h : Keeps a s) {src parts} : Keeps a (s.send src parts) := by
  unfold State.send
  split
  · exact h.modRing
  · exact h.same
  · exact h.foldl fun h => h.sendMessage.fenceLeft

theorem reply (h : Keeps a s) {r status tlvs f} : Keeps a (s.reply r status tlvs f) := h.send.same
theorem complete (h : Keeps a s) {r status tlvs} : Keeps a (s.complete r status tlvs) := .ite h.same.send.same h.same.bumpFylos
theorem setDest (h : Keeps a s) {d v} : Keeps a (s.setDest d v) := h.same

theorem queueNotice (h : Keeps a s) {d opcode target tlvs} : Keeps a (s.queueNotice d opcode target tlvs) := by
  unfold State.queueNotice
  dsimp only
  split
  · exact h.setDest
  · exact h.setDest.modRing
  · exact h.setDest.same

theorem tellLost (h : Keeps a s) {d} : Keeps a (s.tellLost d) := .ite h.setDest.queueNotice h
theorem loseNotice (h : Keeps a s) {d} : Keeps a (s.loseNotice d) := h.setDest.bumpFylos

theorem noticeAt (h : Keeps a s) {g v4 opcode target tlvs d} : Keeps a (s.noticeAt g v4 opcode target tlvs d) :=
  .ite h (.ite h.bumpFylos (.ite h.tellLost.queueNotice h.tellLost.loseNotice))

theorem notice (h : Keeps a s) {g v4 opcode target tlvs} : Keeps a (s.notice g v4 opcode target tlvs) := h.foldl fun h => h.noticeAt
theorem notify (h : Keeps a s) {g opcode scope id l} : Keeps a (s.notify g opcode scope id l) := h.notice
theorem notify4 (h : Keeps a s) {g opcode scope id l} : Keeps a (s.notify4 g opcode scope id l) := h.notice
theorem channelNotice (h : Keeps a s) {c old new cause status} : Keeps a (s.channelNotice c old new cause status) := h.notify
theorem signal (h : Keeps a s) {v} : Keeps a (s.signal v) := .ite h.same h.same
theorem deviceIrq (h : Keeps a s) {i} : Keeps a (s.deviceIrq i) := .ite h (.ite h.same h.same.signal)

theorem logError (h : Keeps a s) {cause level action unit channel detail memory address} :
    Keeps a (s.logError cause level action unit channel detail memory address) := by
  obtain ⟨e, r, f, b, hlogged, -, -⟩ := s.logError_appends cause level action unit channel detail memory address
  rw [hlogged]
  exact h.logged fun _ => logAppend_length_le _ _

theorem correctable (h : Keeps a s) {cause level unit memory address kind kindUnit} :
    Keeps a (s.correctable cause level unit memory address kind kindUnit) := by
  unfold State.correctable
  dsimp only
  generalize hmerged : (if s.log.entries.any _ = true then _ else _ : State) = t
  have ht : Keeps a t := by
    subst hmerged
    split
    · exact h.logged fun hlog => by simpa using hlog
    · exact h.logError
  split
  · split
    · exact ht.same.same
    · exact ht.same.same.notify
  · exact ht.same

/-! ### FylosFront: What every Fylos command passes before its own rules -/

theorem giveAnswer (h : Keeps a s) {c} {x : Answer} (hx : x.Keeps a) : Keeps a (giveAnswer s c x) := by
  cases x with
  | done st l t => exact .ite h.reply (Keeps.reply hx)
  | fenced f t => exact Keeps.reply hx
  | accepted t after => exact .ite h.reply (hx.2 _ (Keeps.reply hx.1.same))
  | completed st l t => exact .ite h.reply (Keeps.complete (Keeps.reply hx))
  | refuse st l => exact h.reply

theorem forwardCommand (h : Keeps a s) {op p c} : Keeps a (forwardCommand op p c s) := .ite h.reply (.ite h.reply h.sendMessage.same)

theorem runCommand (h : Keeps a s) {op body p tagged} (hbody : KeepsBody body) : Keeps a (runCommand op body p tagged s) := by
  unfold Machine.runCommand
  split
  · exact h.reply
  · split
    · exact h.forwardCommand
    · split
      · exact h.reply
      · split
        · exact h.reply
        · exact h.giveAnswer (hbody h)

theorem stopIntake (h : Keeps a s) {n cause index} : Keeps a (stopIntake s n cause index) := h.modRing.notify

theorem helloRoom (h : Keeps a s) {t} (ht : helloRoom s = some t) : Keeps a t := by
  unfold Machine.helloRoom at ht
  dsimp only at ht
  split at ht
  · cases ht
    exact h.same
  · cases ht

theorem resendDuplicate (h : Keeps a s) {op p} : Keeps a (resendDuplicate op p s) := by
  unfold Machine.resendDuplicate
  split
  · exact h.reply
  · exact .ite h.send.bumpFylos h.send

theorem sequenceWindow (h : Keeps a s) {op p} {run : State → State} (hrun : ∀ {u}, Keeps a u → Keeps a (run u)) :
    Keeps a (sequenceWindow op p s run) := by
  unfold Machine.sequenceWindow
  dsimp only
  split
  · exact hrun h.same
  · split
    · exact hrun h.same
    · split
      · exact h.send
      · split
        · split
          · exact h.send
          · exact h.resendDuplicate
        · exact hrun h.same

/-- A datagram that is answered, and counted against the limit of such answers, or discarded. -/
theorem helloReply (h : Keeps a s) {r st l f c} :
    Keeps a (match Machine.helloRoom s with | some t => t.reply r st l f | none => s.bumpFylos c) := by
  split
  next ht => exact (h.helloRoom ht).reply
  next => exact h.bumpFylos

theorem udpCommand (h : Keeps a s) {op body p} (hbody : KeepsBody body) : Keeps a (udpCommand op body p s) := by
  refine .ite h.bumpFylos (.ite h.bumpFylos (.ite ?_ ?_))
  · split
    next ht => exact (h.helloRoom ht).runCommand hbody
    next => exact h.bumpFylos
  · split
    · exact h.helloReply
    · exact .ite (.ite (h.sequenceWindow fun h => h.runCommand hbody) h.bumpFylos) h.helloReply

theorem ringCommand (h : Keeps a s) {op n body p} (hbody : KeepsBody body) : Keeps a (ringCommand op n body p s) :=
  .ite h.bumpFylos.stopIntake (.ite h.bumpFylos.stopIntake (h.runCommand hbody))

theorem fylosRun (h : Keeps a s) {op body p} (hbody : KeepsBody body) : Keeps a (fylosRun op body p s) := by
  unfold Machine.fylosRun
  split
  · exact .ite h.modRing (h.ringCommand hbody)
  · exact .ite h (.ite h.same (.ite h.bumpFylos (h.udpCommand hbody)))
  · exact .ite h (.ite h.same (h.runCommand hbody))

/-! ### Admission: What a channel costs and whether a block takes it -/

theorem takeSlot (h : Keeps a s) {b t c} : Keeps a (s.takeSlot b t c) := h.modThread

theorem freeSlotOf (h : Keeps a s) {b t} : Keeps a (s.freeSlotOf b t) := by
  unfold State.freeSlotOf
  split
  · exact h
  · exact (h.foldl (fun h => h.modCell)).modBlock

theorem setPower (h : Keeps a s) {p v} : Keeps a (s.setPower p v) := h.same
theorem powerNotice (h : Keeps a s) {p m cause} : Keeps a (s.powerNotice p m cause) := h.notify

theorem completeOpt (h : Keeps a s) {r st} : Keeps a (s.completeOpt r st) := by
  unfold State.completeOpt
  split
  · exact h.complete
  · exact h

theorem endEntry (h : Keeps a s) {p} : Keeps a (s.endEntry p) := by
  unfold State.endEntry
  dsimp only
  split
  · exact h.setPower.powerNotice.completeOpt
  · exact h

theorem wakeDomain (h : Keeps a s) {p} : Keeps a (s.wakeDomain p) := .ite h.endEntry h.endEntry.setPower.powerNotice.completeOpt
theorem wakeBlock (h : Keeps a s) {b} : Keeps a (s.wakeBlock b) := h.foldl fun h => h.wakeDomain
theorem startWakeDomain (h : Keeps a s) {p} : Keeps a (s.startWakeDomain p) := .ite h.endEntry h.endEntry.setPower
theorem startWake (h : Keeps a s) {b} : Keeps a (s.startWake b) := h.foldl fun h => h.startWakeDomain

theorem wakeFor (h : Keeps a s) {b} : Keeps a (s.wakeFor b) := by
  unfold State.wakeFor
  split
  · exact h
  · exact h.wakeBlock
  · exact h.startWake

theorem holdSlot (h : Keeps a s) {b t c} : Keeps a (s.holdSlot b t c) := h.takeSlot.modThread

/-! ### Streams: The streams of a channel -/

theorem setGroup (h : Keeps a s) {g v} : Keeps a (s.setGroup g v) := h.same
theorem setHighway (h : Keeps a s) {x0 v} : Keeps a (s.setHighway x0 v) := h.same
theorem setTdmSlot (h : Keeps a s) {k v} : Keeps a (s.setTdmSlot k v) := h.same

/-! ### Replies: The values of queries and the events that commands post to a block -/

theorem postCommandTo (h : Keeps a s) {b slot e} : Keeps a (s.postCommandTo b slot e) := h.modBlock

theorem postCommand (h : Keeps a s) {c e} : Keeps a (s.postCommand c e) := by
  unfold State.postCommand
  split
  · exact h.postCommandTo
  · exact h

theorem acceptSettings (h : Keeps a s) {c l} : Keeps a (s.acceptSettings c l) := h.modChannel.postCommand

/-! ### Channels: The channel commands CH_OPEN to CH_RECOVER, CH_QUERY and CH_SCHED_SET -/

theorem releaseSlot (h : Keeps a s) {k} : Keeps a (releaseSlot s k) := h.setTdmSlot
theorem promptNotice (h : Keeps a s) {c leg p reason} : Keeps a (s.promptNotice c leg p reason) := .ite h.notify h

theorem endPlays (h : Keeps a s) {c leg reason} : Keeps a (s.endPlays c leg reason) := by
  unfold State.endPlays
  exact (h.foldl (fun h => h.promptNotice)).modChannel

theorem failEvacuation (h : Keeps a s) {b status} : Keeps a (s.failEvacuation b status) := h.modBlock.foldl fun h => h.complete
theorem noteEmpty (h : Keeps a s) {b} : Keeps a (s.noteEmpty b) := .ite h h.modBlock.failEvacuation
theorem abortMove (h : Keeps a s) {m c status} : Keeps a (s.abortMove m c status) := .ite h.sendClass h.freeSlotOf

theorem failMove (h : Keeps a s) {c status} : Keeps a (s.failMove c status) := by
  unfold State.failMove
  dsimp only
  split
  · exact h
  · refine .channelNotice ?_
    split
    · exact .failEvacuation (.completeOpt (.modChannel (.ite h h.bumpStack)))
    · exact .completeOpt (.modChannel (.ite h h.bumpStack))

theorem enterIdle (h : Keeps a s) {c} : Keeps a (s.enterIdle c) :=
  (h.endPlays.endPlays.same.foldl (fun h => h.releaseSlot)).freeSlotOf.same.setChannel.noteEmpty

theorem toIdle (h : Keeps a s) {c cause} : Keeps a (s.toIdle c cause) := h.enterIdle.channelNotice
theorem toState (h : Keeps a s) {c st cause} : Keeps a (s.toState c st cause) := h.modChannel.channelNotice
theorem openAt (h : Keeps a s) {c b t wide} : Keeps a (s.openAt c b t wide) := .setChannel (.ite h.holdSlot h.takeSlot)

theorem chOpenBody (h : Keeps a s) {x0} : (chOpenBody x0 s).Keeps a := by
  unfold Machine.chOpenBody
  dsimp only
  split
  · trivial
  · trivial
  · trivial
  · trivial
  · trivial
  · trivial
  · split
    · trivial
    · split
      · trivial
      · split
        · exact h.openAt.channelNotice.done
        · exact h.openAt.channelNotice.wakeBlock.done
        · exact h.openAt.channelNotice.modChannel.startWake.accepted

theorem refuseFor {x st types} : (refuseFor x st types).Keeps a := by
  unfold Machine.refuseFor
  exact .ite trivial trivial

theorem bindSlots (h : Keeps a s) {c leg l} : Keeps a (s.bindSlots c leg l) := h.foldl fun h => h.setTdmSlot

theorem acceptLeg (h : Keeps a s) {c leg l fresh} : (s.acceptLeg c leg l fresh).Keeps a := by
  unfold State.acceptLeg
  extract_lets v t w new units w1 w2 s1
  have h1 : Keeps a s1 := h.setChannel
  clear_value new s1
  split
  · trivial
  · exact .ite trivial h1.bindSlots.postCommand.done

theorem chSetLegBody (h : Keeps a s) {x0} : (chSetLegBody x0 s).Keeps a := by
  unfold Machine.chSetLegBody
  dsimp only
  split
  · trivial
  · split
    · trivial
    · split
      · trivial
      · split
        · trivial
        · split
          · exact refuseFor
          · exact Keeps.acceptLeg (.ite h.drawn h)

theorem chActivateBody (h : Keeps a s) {x0} : (chActivateBody x0 s).Keeps a := by
  unfold Machine.chActivateBody
  dsimp only
  split
  · trivial
  · trivial
  · trivial
  · trivial
  · trivial
  · exact h.done
  · split
    · trivial
    · split
      · trivial
      · exact h.toState.postCommand.done

theorem chHoldBody (h : Keeps a s) {x0} : (chHoldBody x0 s).Keeps a := by
  unfold Machine.chHoldBody
  dsimp only
  split
  · trivial
  · trivial
  · trivial
  · trivial
  · trivial
  · exact h.done
  · exact h.toState.postCommand.done

theorem chResumeBody (h : Keeps a s) {x0} : (chResumeBody x0 s).Keeps a := by
  unfold Machine.chResumeBody
  dsimp only
  split
  · trivial
  · trivial
  · trivial
  · trivial
  · trivial
  · exact h.done
  · exact h.toState.postCommand.done

theorem chDrainBody (h : Keeps a s) {x0} : (chDrainBody x0 s).Keeps a := by
  unfold Machine.chDrainBody
  dsimp only
  split
  · trivial
  · trivial
  · trivial
  · exact h.done
  · exact h.toIdle.done
  · exact h.toState.postCommand.done
  · exact h.toState.postCommand.done

theorem chCloseBody (h : Keeps a s) {x0} : (chCloseBody x0 s).Keeps a := by
  unfold Machine.chCloseBody
  dsimp only
  split
  · trivial
  · exact h.done
  · exact h.toIdle.done
  · exact h.toIdle.done
  · exact h.toIdle.done
  · exact h.toIdle.done
  · exact h.toIdle.done

theorem chRecoverBody (h : Keeps a s) {x0} : (chRecoverBody x0 s).Keeps a := by
  unfold Machine.chRecoverBody
  dsimp only
  split
  · trivial
  · trivial
  · trivial
  · trivial
  · trivial
  · trivial
  · split
    · trivial
    · exact Keeps.accepted (.postCommandTo (.channelNotice (.wakeFor (.setChannel (.takeSlot (.ite h h.freeSlotOf))))))

theorem chQueryBody (h : Keeps a s) {x0} : (chQueryBody x0 s).Keeps a := h.done
theorem chSchedSetBody (h : Keeps a s) {x0} : (chSchedSetBody x0 s).Keeps a := h.modChannel.modBlock.done

/-! ### Tdm: The TDM unit -/

theorem groupNotice (h : Keeps a s) {g f r} : Keeps a (s.groupNotice g f r) := h.notify

theorem tdmGroupConfigBody (h : Keeps a s) {x0} : (tdmGroupConfigBody x0 s).Keeps a :=
  .ite trivial (.ite h.setGroup.groupNotice.done h.setGroup.done)

theorem tdmHighwayConfigBody (h : Keeps a s) {x0} : (tdmHighwayConfigBody x0 s).Keeps a := .ite trivial (.ite trivial h.setHighway.done)

theorem tdmLoopbackBody (h : Keeps a s) {x0} : (tdmLoopbackBody x0 s).Keeps a := by
  unfold Machine.tdmLoopbackBody
  split
  · exact h.setHighway.done
  · exact .ite trivial h.setTdmSlot.done

theorem clearSlots (h : Keeps a s) {l} : Keeps a (clearSlots s l) := h.foldl fun h => h.setTdmSlot

theorem tdmQueryBody (h : Keeps a s) {x0} : (tdmQueryBody x0 s).Keeps a := by
  unfold Machine.tdmQueryBody
  split
  · trivial
  · trivial
  · exact .ite trivial (Keeps.done (.ite h.setGroup h))
  · split
    · exact .ite trivial (Keeps.done (.ite h.clearSlots h))
    · exact Keeps.done (.ite h.clearSlots h)

theorem slotTx (h : Keeps a s) {c leg x2 t} : Keeps a (slotTx s c leg x2 t).1 := by
  unfold Machine.slotTx
  dsimp only
  split
  · exact h
  · split
    · split
      · exact h.setChannel
      · exact h
    · split <;> exact h.setChannel

theorem slotRx (h : Keeps a s) {c leg x2 o t} : Keeps a (slotRx s c leg x2 o t).1 := by
  unfold Machine.slotRx
  dsimp only
  split
  · exact h.setChannel
  · split
    · exact h.setChannel
    · split
      · split
        · exact h.setChannel
        · exact h
      · split
        · exact h.setChannel
        · exact h

theorem slotFrame (h : Keeps a s) {rx frost runs k} : Keeps a (slotFrame rx frost runs s k) := by
  unfold Machine.slotFrame
  dsimp only
  split
  · exact .ite h.setTdmSlot (.ite h.setTdmSlot h.setTdmSlot)
  · exact .ite h.setTdmSlot (.ite h.setTdmSlot h.slotTx.slotRx.setTdmSlot)

theorem tdmFrameStep (h : Keeps a s) {g fsGood rx} : Keeps a (tdmFrameStep g fsGood rx s) :=
  .ite h (h.setGroup.foldl (fun h => h.slotFrame)).same

theorem resetTdmLeg (h : Keeps a s) {p} : Keeps a (resetTdmLeg s p) := h.modChannel
theorem tdmFramedStep (h : Keeps a s) {g} : Keeps a (tdmFramedStep g s) := .ite h (h.setGroup.groupNotice.foldl (fun h => h.resetTdmLeg))
theorem loseGroup (h : Keeps a s) {g r} : Keeps a (loseGroup g r s) := h.setGroup.groupNotice
theorem tdmGroupLostStep (h : Keeps a s) {g clk} : Keeps a (tdmGroupLostStep g clk s) := .ite h (.ite h.loseGroup (.ite h.loseGroup h))
theorem tdmMUpdateStep (h : Keeps a s) {g up} : Keeps a (tdmMUpdateStep g up s) := .ite h (.ite h.loseGroup h.setGroup)
theorem tdmMasterStartStep (h : Keeps a s) {g} : Keeps a (tdmMasterStartStep g s) := .ite h (h.setGroup.foldl (fun h => h.resetTdmLeg))

/-! ### ClockRef: References, trips and the entry to Frost -/

theorem clockNotice (h : Keeps a s) {e src} : Keeps a (s.clockNotice e src) := h.notify
theorem countClock (h : Keeps a s) {c n} : Keeps a (s.countClock c n) := h.same
theorem ctrl (h : Keeps a s) {c} : Keeps a (s.ctrl c) := h.same
theorem beginSwitch (h : Keeps a s) {src} : Keeps a (s.beginSwitch src) := h.same.ctrl
theorem beginCoast (h : Keeps a s) {level} : Keeps a (s.beginCoast level) := h.same.ctrl.countClock

theorem lossOfReference (h : Keeps a s) {src} : Keeps a (s.lossOfReference src) := by
  unfold State.lossOfReference
  dsimp only
  split
  · split
    · exact h.logError.clockNotice.beginSwitch
    · exact h.logError.clockNotice.beginCoast.clockNotice
  · split
    · exact h.logError.clockNotice.beginSwitch
    · exact h.logError.clockNotice.beginCoast.clockNotice
  · exact h.logError.countClock.beginCoast
  · exact h.logError.countClock.beginCoast
  · exact h
  · exact h
  · exact h

theorem tripSource (h : Keeps a s) {src} : Keeps a (s.tripSource src) :=
  .ite (.lossOfReference (.same (.ite h.same h))) (.same (.ite h.same h))

/-! ### Time: The time unit -/

theorem setSheet (h : Keeps a s) {p v} : Keeps a (s.setSheet p v) := h.same
theorem bumpTime (h : Keeps a s) {i} : Keeps a (s.bumpTime i) := h.same
theorem watermark (h : Keeps a s) {p} : Keeps a (s.watermark p) := .ite h (.ite (.notify (.ite h.setSheet.signal h.setSheet)) h.setSheet)
theorem loseStamp (h : Keeps a s) {p id} : Keeps a (s.loseStamp p id) := h.setSheet.bumpTime
theorem record (h : Keeps a s) {p e} : Keeps a (s.record p e) := .ite h.loseStamp h.setSheet.watermark
theorem gapIfLost (h : Keeps a s) {p} : Keeps a (s.gapIfLost p) := .ite h h.setSheet.watermark

theorem popSheet (h : Keeps a s) {p} : Keeps a (s.popSheet p) := by
  unfold State.popSheet
  dsimp only
  split
  · exact h
  · exact h.setSheet.gapIfLost

theorem flushSheet (h : Keeps a s) {p} : Keeps a (s.flushSheet p) := h.setSheet.gapIfLost
theorem discardEntry (h : Keeps a s) {p f} : Keeps a (s.discardEntry p f) := .ite h.record h
theorem csPopStep (h : Keeps a s) {p inner} : Keeps a (csPopStep p inner s) := .ite h.popSheet h
theorem csFlushStep (h : Keeps a s) {p inner} : Keeps a (csFlushStep p inner s) := .ite h.flushSheet h

theorem csLostTotalReadStep (h : Keeps a s) {p inner} : Keeps a (csLostTotalReadStep p inner s) :=
  .ite (.ite h.setSheet h) (.same (.ite h.setSheet h))

theorem tsSnapStep (h : Keeps a s) : Keeps a (tsSnapStep s) := h.same
theorem timeIrq (h : Keeps a s) : Keeps a s.timeIrq := .ite h.signal h
theorem shiftGroups (h : Keeps a s) {x0} : Keeps a (s.shiftGroups x0) := h.foldl fun h => h.setGroup
theorem shiftTclk (h : Keeps a s) {x0} : Keeps a (s.shiftTclk x0) := .ite h.same h
theorem driftTclk (h : Keeps a s) {x0} : Keeps a (s.driftTclk x0) := .ite h.same h
theorem relayStep (h : Keeps a s) {amount epoch} : Keeps a (s.relayStep amount epoch) := .ite h.sendAll.bumpStack h
theorem applyStep (h : Keeps a s) {k} : Keeps a (s.applyStep k) := h.same.bumpTime.same.shiftGroups.shiftTclk.timeIrq.notify.relayStep
theorem stepDue (h : Keeps a s) {k} : Keeps a (s.stepDue k) := .ite h.same h.applyStep

theorem stepApplyStep (h : Keeps a s) : Keeps a (stepApplyStep s) := by
  unfold Machine.stepApplyStep
  split
  · exact h
  · exact .ite h h.same.applyStep

theorem dropSlew (h : Keeps a s) : Keeps a s.dropSlew := by
  unfold State.dropSlew
  split
  · exact h
  · exact h.same.shiftGroups.driftTclk

theorem endQuarantine (h : Keeps a s) {result} : Keeps a (s.endQuarantine result) := by
  unfold State.endQuarantine
  split
  · exact h
  · exact .notify4 (.ite h.same.bumpTime (.ite h.same.bumpTime h.same))

theorem pi (h : Keeps a s) {x} : Keeps a (s.pi x) := .ite h.same.bumpTime.bumpTime h.same.bumpTime
theorem startSlew (h : Keeps a s) {x} : Keeps a (s.startSlew x) := h.same.bumpTime
theorem classify (h : Keeps a s) {x} : Keeps a (s.classify x) := .ite h.stepDue (.ite h.startSlew (.ite (.ite h.stepDue h.startSlew) h.pi))
theorem beginQuarantine (h : Keeps a s) {x} : Keeps a (s.beginQuarantine x) := h.same.bumpTime.timeIrq.notify4

theorem runSample (h : Keeps a s) {x masterChanged event} : Keeps a (s.runSample x masterChanged event) := by
  unfold State.runSample
  split
  · exact h.same.bumpTime
  · split
    · exact .ite h.same.same h.same.endQuarantine.classify
    · exact .ite h.beginQuarantine h.same.classify

theorem sample (h : Keeps a s) {x masterChanged} : Keeps a (s.sample x masterChanged) := by
  unfold State.sample
  split
  · exact h.same.bumpTime
  · exact h.same.bumpTime
  · exact h.same.runSample

theorem ownerSample (h : Keeps a s) {x masterChanged} : Keeps a (s.ownerSample x masterChanged) := .ite h.same.sample h.sample
theorem offsetSampleStep (h : Keeps a s) {x masterChanged} : Keeps a (offsetSampleStep x masterChanged s) := .ite h h.ownerSample

theorem quarantineEndStep (h : Keeps a s) : Keeps a (quarantineEndStep s) := by
  unfold Machine.quarantineEndStep
  split
  · exact h
  · exact .ite h h.endQuarantine.classify

theorem slewEndStep (h : Keeps a s) : Keeps a (slewEndStep s) := .ite h.dropSlew.same h
theorem ppsEdgeStep (h : Keeps a s) {high} : Keeps a (ppsEdgeStep high s) := .ite h (.ite h.same.signal h.same)
theorem servoMode (h : Keeps a s) {m} : Keeps a (s.servoMode m) := .ite h h.endQuarantine.same

theorem rootOnly (h : Keeps a s) {body x} (hbody : KeepsBody body) : (rootOnly body x s).Keeps a := by
  unfold Machine.rootOnly
  exact .ite trivial (hbody h)

theorem timeConfigBody (h : Keeps a s) {x} : (timeConfigBody x s).Keeps a := by
  refine h.rootOnly fun {a s x} h => ?_
  split
  · exact h.done
  · exact .ite h.done (h.foldl fun h => h.flushSheet).same.servoMode.done

theorem commandStep (h : Keeps a s) {k} : Keeps a (s.commandStep k) := h.dropSlew.endQuarantine.stepDue
theorem timeSetBody (h : Keeps a s) {x0} : (timeSetBody x0 s).Keeps a := h.rootOnly fun h => h.commandStep.done
theorem timeStepBody (h : Keeps a s) {x0} : (timeStepBody x0 s).Keeps a := h.rootOnly fun h => .ite h.done h.commandStep.done
theorem timeQueryBody (h : Keeps a s) {x0} : (timeQueryBody x0 s).Keeps a := Keeps.done (.ite (.same (.ite h.drawn h)) (.ite h.drawn h))

theorem servoConfigBody (h : Keeps a s) {x0} : (servoConfigBody x0 s).Keeps a := by
  unfold Machine.servoConfigBody
  dsimp only
  split
  · trivial
  · refine .done (.same ?_)
    split
    · exact h.same.same.servoMode
    · exact h.same

theorem servoSampleBody (h : Keeps a s) {x0} : (servoSampleBody x0 s).Keeps a := h.rootOnly fun h => .ite trivial h.ownerSample.done
theorem portTsConfigBody (h : Keeps a s) {x0} : (portTsConfigBody x0 s).Keeps a := h.setPort.done

/-! ### Cycle: One cycle of the 500 MHz time domain -/

theorem cycle (h : Keeps a s) : Keeps a s.cycle := .ite h h.same

/-! ### Engines: The Reducer and the Enlarger -/

theorem setEngine (h : Keeps a s) {r e} : Keeps a (s.setEngine r e) := h.same

theorem queueJobAt (h : Keeps a s) {r j} : Keeps a (s.queueJobAt r j) := by
  unfold State.queueJobAt
  dsimp only
  split
  · exact h.setEngine.same
  · exact h.setEngine.same.wakeDomain.wakeDomain
  · exact h.setEngine.same.startWakeDomain.startWakeDomain

theorem queueJob (h : Keeps a s) {j} : Keeps a (s.queueJob j) := h.queueJobAt

theorem jobStartStep (h : Keeps a s) {r red} : Keeps a (jobStartStep r red s) := by
  unfold Machine.jobStartStep
  dsimp only
  split
  · exact h
  · split
    · exact h
    · split
      · exact h.setEngine
      · exact h.setEngine.stored (memoryWf_memSet _ _)

theorem dropRunning (h : Keeps a s) {r red} : Keeps a (s.dropRunning r red) := h.setEngine

/-! ### MediaCmd: The channel settings of echo, playout, codecs, resampling, tones, gains, prompts and hooks, and their queries -/

theorem echoSetBody (h : Keeps a s) {x0} : (echoSetBody x0 s).Keeps a := by
  unfold Machine.echoSetBody
  dsimp only
  split
  · trivial
  · exact Keeps.done (.ite h.acceptSettings.postCommand h.acceptSettings)

theorem echoQueryBody (h : Keeps a s) {x0} : (echoQueryBody x0 s).Keeps a := .ite h.done (Keeps.done (.ite h.setChannel h))
theorem echoCoefReadBody (h : Keeps a s) {x0} : (echoCoefReadBody x0 s).Keeps a := .ite trivial (.ite trivial (.ite trivial h.done))

theorem playoutSetBody (h : Keeps a s) {x0} : (playoutSetBody x0 s).Keeps a :=
  .ite trivial (.ite trivial (Keeps.done (.ite h.acceptSettings.postCommand h.acceptSettings)))

theorem playoutQueryBody (h : Keeps a s) {x0} : (playoutQueryBody x0 s).Keeps a := Keeps.done (.ite h.setChannel h)

/-- What refuses a command ahead of the rest of its rules. -/
def Refuses (a : State) {α : Type} : α ⊕ Answer → Prop := Sum.elim (fun _ => True) (Answer.Keeps a)

protected theorem Refuses.ite {α : Type} {x y : α ⊕ Answer} {c : Prop} [Decidable c] (hx : Refuses a x) (hy : Refuses a y) :
    Refuses a (if c then x else y) := by
  split
  · exact hx
  · exact hy

theorem Refuses.answer {α : Type} {x : α ⊕ Answer} {v : Answer} (hx : Refuses a x) (hv : x = .inr v) : v.Keeps a := by
  subst hv
  exact hx

theorem codecOutcome {x} : Refuses a (codecOutcome x s) := by
  unfold Machine.codecOutcome
  dsimp only
  split
  · trivial
  · split
    · trivial
    · split
      · trivial
      · refine .ite trivial (.ite trivial (.ite trivial (.ite trivial (.ite trivial (.ite ?_ (.ite trivial (.ite trivial trivial)))))))
        exact Answer.Keeps.ite trivial trivial

theorem codecSetBody (h : Keeps a s) {x} : (codecSetBody x s).Keeps a := by
  refine .ite trivial ?_
  split
  next v hv => exact Refuses.answer codecOutcome hv
  next =>
    dsimp only
    split
    · trivial
    · exact .ite trivial h.setChannel.acceptSettings.done

theorem codecQueryBody (h : Keeps a s) {x0} : (codecQueryBody x0 s).Keeps a := .ite trivial (Keeps.done (.ite h.setChannel h))

theorem resampleSetBody (h : Keeps a s) {x0} : (resampleSetBody x0 s).Keeps a :=
  .ite trivial (.ite trivial h.setChannel.acceptSettings.done)

theorem resampleResetBody (h : Keeps a s) {x0} : (resampleResetBody x0 s).Keeps a := by
  unfold Machine.resampleResetBody
  split
  · exact .ite h.postCommand.done h.done
  · exact h.postCommand.done

theorem resampleQueryBody (h : Keeps a s) {x0} : (resampleQueryBody x0 s).Keeps a := Keeps.done (.ite h.setChannel h)

theorem toneDetectSetBody (h : Keeps a s) {x0} : (toneDetectSetBody x0 s).Keeps a :=
  .ite trivial (.ite trivial (.ite trivial (.ite trivial (.ite trivial h.acceptSettings.done))))

theorem tonePlayBody (h : Keeps a s) {x0} : (tonePlayBody x0 s).Keeps a := by
  unfold Machine.tonePlayBody
  dsimp only
  split
  · exact .ite trivial h.setChannel.postCommand.done
  · trivial

theorem toneStopBody (h : Keeps a s) {x0} : (toneStopBody x0 s).Keeps a := .ite h.done h.setChannel.postCommand.done

theorem gainSetBody (h : Keeps a s) {x0} : (gainSetBody x0 s).Keeps a := by
  unfold Machine.gainSetBody
  dsimp only
  split
  · trivial
  · exact h.acceptSettings.done

theorem promptPlayBody (h : Keeps a s) {x0} : (promptPlayBody x0 s).Keeps a :=
  .ite trivial (.ite trivial (.ite trivial h.setChannel.postCommand.done))

theorem promptStopBody (h : Keeps a s) {x0} : (promptStopBody x0 s).Keeps a := .ite h.done h.setChannel.postCommand.done

theorem userHookSetBody (h : Keeps a s) {x0} : (userHookSetBody x0 s).Keeps a := by
  unfold Machine.userHookSetBody
  dsimp only
  split
  · trivial
  · split
    · trivial
    · exact h.acceptSettings.done

/-! ### StoreCmd: The commands of the stores and engines -/

theorem chainJobBody (h : Keeps a s) {u x1} : (chainJobBody u x1 s).Keeps a := .ite trivial (.ite trivial h.queueJob.accepted)
theorem imageEnlargeBody (h : Keeps a s) {x0} : (imageEnlargeBody x0 s).Keeps a := h.chainJobBody
theorem imageReduceBody (h : Keeps a s) {x0} : (imageReduceBody x0 s).Keeps a := h.chainJobBody

theorem runLoad (h : Keeps a s) : Keeps a s.runLoad := by
  unfold State.runLoad
  split
  · exact h
  · exact h.queueJob

theorem loadSource {x} : Refuses a (loadSource x s) := by
  unfold Machine.loadSource
  dsimp only
  repeat' split
  all_goals trivial

theorem tableLoadBody (h : Keeps a s) {x} : (tableLoadBody x s).Keeps a := by
  unfold Machine.tableLoadBody
  dsimp only
  split
  next v hv => exact Refuses.answer loadSource hv
  next => exact .ite trivial (.ite trivial (.ite trivial (Keeps.accepted (.ite h.same.runLoad h.same))))

theorem tableDeleteBody (h : Keeps a s) {x0} : (tableDeleteBody x0 s).Keeps a := .ite trivial (.ite trivial (.ite trivial h.same.done))

theorem tableQueryBody (h : Keeps a s) {x0} : (tableQueryBody x0 s).Keeps a := by
  unfold Machine.tableQueryBody
  split
  · exact h.done
  · exact .ite trivial h.done

theorem tableReadBody (h : Keeps a s) {x0} : (tableReadBody x0 s).Keeps a := by
  unfold Machine.tableReadBody
  split
  · trivial
  · exact h.done

theorem promptLoadBody (h : Keeps a s) {x0} : (promptLoadBody x0 s).Keeps a :=
  .ite trivial (.ite trivial (.ite trivial (.ite trivial h.queueJob.accepted)))

theorem promptDeleteBody (h : Keeps a s) {x0} : (promptDeleteBody x0 s).Keeps a := .ite trivial (.ite trivial h.same.done)

theorem promptQueryBody (h : Keeps a s) {x0} : (promptQueryBody x0 s).Keeps a := by
  unfold Machine.promptQueryBody
  dsimp only
  split
  · exact Keeps.done (.ite h.same h)
  · split
    · trivial
    · exact Keeps.done (.ite h.same h)

theorem resized (h : Keeps a s) {store cache trace} : Keeps a (s.resized store cache trace) :=
  h.stored (memoryWf_filter _)

theorem promptStoreConfigBody (h : Keeps a s) {x0} : (promptStoreConfigBody x0 s).Keeps a := by
  unfold Machine.promptStoreConfigBody
  dsimp only
  split
  · trivial
  · split
    · trivial
    · split
      · exact .ite trivial trivial
      · exact .ite trivial h.resized.done

/-- The rules are opened as an equation of functions and their size generalized before the case split: the kernel would else compare terms that
hold the size and run `resizeRefusal`, which counts bytes in unary. -/
theorem traceConfigBody (h : Keeps a s) {x0} : (traceConfigBody x0 s).Keeps a := by
  generalize hbody : Machine.traceConfigBody = body
  delta Machine.traceConfigBody at hbody
  subst hbody
  beta_reduce
  extract_lets +onlyGivenNames size
  clear_value size
  split
  · exact .ite trivial trivial
  · extract_lets s1 on ran s2
    have h1 : Keeps a s1 := h.resized
    exact h1.same.done

theorem traceDumpBody (h : Keeps a s) {x0} : (traceDumpBody x0 s).Keeps a := .ite trivial (.ite trivial h.drawn.queueJob.accepted)

theorem userKernelLoadBody (h : Keeps a s) {x0} : (userKernelLoadBody x0 s).Keeps a :=
  .ite trivial (.ite trivial (.ite trivial h.queueJob.accepted))

theorem userKernelQueryBody (h : Keeps a s) {x0} : (userKernelQueryBody x0 s).Keeps a := h.done
theorem rsRomReadBody (h : Keeps a s) {x0} : (rsRomReadBody x0 s).Keeps a := .ite trivial (.ite trivial (.ite trivial h.done))
theorem fwLoadBody (h : Keeps a s) {x0} : (fwLoadBody x0 s).Keeps a := .ite trivial (.ite trivial h.queueJob.accepted)

/-! ### JobCommit: What the end of an engine job does -/

theorem completeJob (h : Keeps a s) {j st l} : Keeps a (s.completeJob j st l) := by
  unfold State.completeJob
  split
  · exact h.complete
  · exact h

theorem endChain (h : Keeps a s) {j c out read st status} : Keeps a (s.endChain j c out read st status) :=
  (h.stored fun hdram => memoryWf_memSet _ _ (memoryWf_chainWrite _ _ hdram)).completeJob

theorem logJobError (h : Keeps a s) {err} : Keeps a (s.logJobError err) := .ite h h.drawn.logError
theorem faultChain (h : Keeps a s) {j c out status st} : Keeps a (s.faultChain j c out status st) := h.drawn.endChain

theorem endEnlarge (h : Keeps a s) {j c err} : Keeps a (s.endEnlarge j c err) := by
  unfold State.endEnlarge
  dsimp only
  split
  · split <;> exact h.endChain
  · exact h.faultChain
  · exact h.faultChain

theorem endReduce (h : Keeps a s) {j c err} : Keeps a (s.endReduce j c err) := by
  unfold State.endReduce
  split
  · exact .ite h.endChain h.endChain
  · exact h.faultChain
  · exact h.faultChain

theorem loadDone (h : Keeps a s) {st l} : Keeps a (s.loadDone st l) := by
  unfold State.loadDone
  split
  · exact h
  · exact h.same.complete.runLoad

theorem endTable (h : Keeps a s) {j id err} : Keeps a (s.endTable j id err) := by
  unfold State.endTable
  dsimp only
  split
  · exact h.loadDone
  · split
    · exact h.loadDone
    · split
      · exact h.loadDone
      · split
        · exact h.loadDone
        · split
          · exact h.same
          · exact h

theorem commitTable (h : Keeps a s) {c} : Keeps a (s.commitTable c) := h.same.loadDone
theorem commitTables (h : Keeps a s) : Keeps a s.commitTables := h.same.foldl fun h => h.commitTable
theorem fillKernels (h : Keeps a s) {img} : Keeps a (s.fillKernels img) := h.foldl fun h => h.modCell

theorem endKernel (h : Keeps a s) {j err} : Keeps a (s.endKernel j err) :=
  .ite h.completeJob (.ite h.completeJob (.ite h.completeJob h.same.fillKernels.completeJob))

theorem endPrompt (h : Keeps a s) {j id err} : Keeps a (s.endPrompt j id err) := .ite h.completeJob h.same.completeJob
theorem touchPiece (h : Keeps a s) {x} : Keeps a (s.touchPiece x) := h.same
theorem countPrompt (h : Keeps a s) {c} : Keeps a (s.countPrompt c) := h.same

theorem requestPiece (h : Keeps a s) {c x} : Keeps a (s.requestPiece c x) := by
  unfold State.requestPiece
  split
  · exact h.touchPiece.countPrompt
  · split
    · exact h
    · exact .ite h.countPrompt h.countPrompt.queueJobAt

theorem requestPieces (h : Keeps a s) {c leg start} : Keeps a (s.requestPieces c leg start) := by
  unfold State.requestPieces
  dsimp only
  split
  · exact h
  · split
    · refine .requestPiece ?_
      split
      · exact .ite h.requestPiece h
      · exact h
    · split
      · exact .ite h.requestPiece h
      · exact h

theorem endPlay (h : Keeps a s) {c leg reason} : Keeps a (s.endPlay c leg reason) := by
  unfold State.endPlay
  dsimp only
  split
  · exact h
  · exact h.promptNotice.modChannel.requestPieces

theorem faultPlays (h : Keeps a s) {x} : Keeps a (s.faultPlays x) :=
  h.foldl (fun h => h.foldl (fun h => by
        split
        · exact .ite h.endPlay h
        · exact h))

theorem endPiece (h : Keeps a s) {j x err} : Keeps a (s.endPiece j x err) :=
  .ite h.faultPlays (.ite h.same.faultPlays (.ite h.faultPlays (.ite h.same h.same)))

theorem loadTemplates (h : Keeps a s) {b} : Keeps a (s.loadTemplates b) := by
  unfold State.loadTemplates
  exact h.modBlock

theorem endFirmware (h : Keeps a s) {j slot err} : Keeps a (s.endFirmware j slot err) :=
  .ite h.completeJob (.ite h.completeJob (.ite h.completeJob h.same.completeJob))

/-! ### Detect: Tone detectors, generators, prompts and gains within a tick run -/

theorem runNotice (h : Keeps a s) {c g v4 opcode l} : Keeps a (s.runNotice c g v4 opcode l) := h.modBlock

theorem toneEvent (h : Keeps a s) {c leg id state typ value onset decision dur reason source volume} :
    Keeps a (s.toneEvent c leg id state typ value onset decision dur reason source volume) :=
  h.runNotice

theorem modLeg (h : Keeps a s) {c leg f} : Keeps a (s.modLeg c leg f) := h.modChannel
theorem countLeg (h : Keeps a s) {c leg k} : Keeps a (s.countLeg c leg k) := .ite h.modLeg h

theorem fixedEvent (h : Keeps a s) {c leg table typ value onset decision volume} :
    Keeps a (s.fixedEvent c leg table typ value onset decision volume).1 := by
  unfold State.fixedEvent
  dsimp only
  split
  · exact h.modLeg.pair
  · exact h.modLeg.toneEvent.countLeg.pair

theorem provEvent (h : Keeps a s) {c leg table typ value onset decision volume} :
    Keeps a (s.provEvent c leg table typ value onset decision volume) :=
  .ite h (.ite h.modLeg.toneEvent.countLeg h.modLeg)

theorem withdraw (h : Keeps a s) {c leg q} : Keeps a (s.withdraw c leg q) := .ite h.toneEvent.countLeg h

theorem withdrawAll (h : Keeps a s) {c leg} : Keeps a (s.withdrawAll c leg) := by
  unfold State.withdrawAll
  exact (h.foldl (fun h => h.withdraw)).modLeg

theorem settleEvents (h : Keeps a s) {c leg} : Keeps a (s.settleEvents c leg) := by
  unfold State.settleEvents
  exact (h.foldl (fun h => by
      split
      · exact h.toneEvent.countLeg
      · exact h.withdraw)).modLeg

theorem sendEvent (h : Keeps a s) {c leg n onset decision volume} : Keeps a (s.sendEvent c leg n onset decision volume) := .ite h.modLeg h
theorem stopEvent (h : Keeps a s) {c leg n stop} : Keeps a (s.stopEvent c leg n stop) := h.modLeg

theorem faxDecision (h : Keeps a s) {c leg trigger} : Keeps a (s.faxDecision c leg trigger) :=
  .ite h (.ite h.modLeg.runNotice h.modLeg.modLeg.runNotice)

theorem actOnTone (h : Keeps a s) {c leg typ value onset decision volume} : Keeps a (s.actOnTone c leg typ value onset decision volume) := by
  unfold State.actOnTone
  extract_lets at_ s1 s2
  have h1 : Keeps a s1 := by
    unfold s1
    split
    · exact h.sendEvent
    · exact h
  have h2 : Keeps a s2 := .ite h1.modChannel h1
  exact .ite h2.faxDecision.faxDecision h2

theorem takeFixed (h : Keeps a s) {c leg table vol e} : Keeps a (s.takeFixed c leg table vol e).1 := by
  unfold State.takeFixed
  split
  · exact h.fixedEvent.actOnTone
  · split
    · exact h.toneEvent.stopEvent
    · exact h.toneEvent

theorem adoptDetectors (h : Keeps a s) {c leg} : Keeps a (s.adoptDetectors c leg) := by
  unfold State.adoptDetectors
  exact .modLeg (.foldl (.ite h h.withdrawAll) (fun h => by
      split
      · split
        · exact h.toneEvent.stopEvent
        · exact h.toneEvent
      · exact h))

theorem detectLeg (h : Keeps a s) {c leg draw pos block} : Keeps a (s.detectLeg c leg draw pos block) := by
  unfold State.detectLeg
  dsimp only
  split
  · exact h.modLeg.foldl (fun h => h.foldl (fun h => h.takeFixed))
  · exact ((h.modLeg.foldl (fun h => h.foldl (fun h => h.takeFixed))).foldl (fun h => h.foldl (fun h => by
        split
        · exact h.provEvent
        · exact h))).settleEvents

theorem reportRxEvents (h : Keeps a s) {c leg old} : Keeps a (s.reportRxEvents c leg old) := by
  unfold State.reportRxEvents
  dsimp only
  exact h.foldl (fun h => by
      split
      · exact .ite (.ite h.modLeg.toneEvent.countLeg.sendEvent.toneEvent.stopEvent h.modLeg.toneEvent.countLeg.sendEvent) h
      · split
        · exact h
        · exact .ite h.toneEvent.stopEvent (.ite h.toneEvent h))

theorem promptEnds (h : Keeps a s) {c leg p reason} : Keeps a (s.promptEnds c leg p reason) := .requestPieces (.modLeg (.ite h.runNotice h))

theorem playPrompt (h : Keeps a s) {c leg} : Keeps a (s.playPrompt c leg).1 := by
  unfold State.playPrompt
  dsimp only
  split
  · exact h
  · split
    · exact h.promptEnds
    · split
      · exact h.requestPiece.countPrompt
      · split
        · split
          · exact h.touchPiece.modLeg.requestPieces
          · exact h.touchPiece.promptEnds
        · exact .ite h.touchPiece.modLeg.requestPieces h.touchPiece.modLeg

theorem gainStage (h : Keeps a s) {c leg tx l} : Keeps a (s.gainStage c leg tx l).1 := by
  unfold State.gainStage
  dsimp only
  exact h.modLeg

/-! ### EchoRun: The echo canceller within a tick run -/

theorem echoNotice (h : Keeps a s) {c kind} : Keeps a (s.echoNotice c kind) := .ite h.runNotice h
theorem cancelEcho (h : Keeps a s) {c draw ref near} : Keeps a (s.cancelEcho c draw ref near).1 := .ite h.setChannel h.setChannel.echoNotice

/-! ### Encode: Step 8 of a tick run -/

theorem handPacket (h : Keeps a s) {c d} : Keeps a (s.handPacket c d) := h.modRegion
theorem modTx (h : Keeps a s) {c leg f} : Keeps a (s.modTx c leg f) := h.modLeg

theorem sendRtp (h : Keeps a s) {c leg pt marker ts payload} : Keeps a (s.sendRtp c leg pt marker ts payload) := by
  unfold State.sendRtp
  exact h.handPacket.modTx

theorem closePartial (h : Keeps a s) {c leg} : Keeps a (s.closePartial c leg) := .ite h.modTx h.sendRtp.modTx

theorem syncTx (h : Keeps a s) {c leg} : Keeps a (s.syncTx c leg) := by
  unfold State.syncTx
  exact .modTx (.ite h.closePartial h)

theorem switchTx (h : Keeps a s) {c leg pt} : Keeps a (s.switchTx c leg pt) := .ite h.modTx h.syncTx.closePartial.modTx

theorem sendSid (h : Keeps a s) {c leg draw e start} : Keeps a (s.sendSid c leg draw e start) := by
  unfold State.sendSid
  dsimp only
  split
  · exact .ite h.sendRtp.modTx h.modTx
  · exact h

theorem encodeAudio (h : Keeps a s) {c leg draw e muted xs} : Keeps a (s.encodeAudio c leg draw e muted xs) :=
  .ite h.closePartial.modTx.sendSid (.ite h.modTx.closePartial h.modTx)

theorem runEvent (h : Keeps a s) {c leg e} : Keeps a (s.runEvent c leg e) := by
  unfold State.runEvent
  dsimp only
  split
  · exact h
  · exact .ite h.modTx h.sendRtp.modTx

theorem runEvents (h : Keeps a s) {c leg} : Keeps a (s.runEvents c leg) := h.modTx.foldl fun h => h.runEvent
theorem sendT38 (h : Keeps a s) {c leg draw} : Keeps a (s.sendT38 c leg draw) := .ite h h.handPacket.modTx

theorem stackBlock (h : Keeps a s) {c leg draw} : Keeps a (s.stackBlock c leg draw).1 := by
  unfold State.stackBlock
  dsimp only
  split
  · exact h.modLeg.pair
  · split
    · exact h.pair
    · split
      · exact h.modLeg.pair
      · exact h.modLeg.pair

theorem sendStack (h : Keeps a s) {c leg draw tick b} : Keeps a (s.sendStack c leg draw tick b) := .ite h (.ite h.modLeg h.same)

/-! ### TickRun: One tick run of a channel thread, R31 in its order -/

theorem modEcho (h : Keeps a s) {c f} : Keeps a (s.modEcho c f) := h.modChannel
theorem restartWindow (h : Keeps a s) {c leg} : Keeps a (s.restartWindow c leg) := h.withdrawAll.modLeg
theorem restartWindows (h : Keeps a s) {c} : Keeps a (s.restartWindows c) := h.foldl fun h => h.restartWindow
theorem emptyBuffers (h : Keeps a s) {c} : Keeps a (s.emptyBuffers c) := h.foldl fun h => h.modLeg
theorem enterHold (h : Keeps a s) {c} : Keeps a (s.enterHold c) := h.foldl fun h => h.modLeg
theorem resetKey (h : Keeps a s) {c k} : Keeps a (s.resetKey c k) := h.modChannel

theorem settingsTake (h : Keeps a s) {c l} : Keeps a (s.settingsTake c l) := by
  unfold State.settingsTake
  extract_lets old s1 v s2 s3 s4 w
  have h2 : Keeps a s2 := .ite h.modChannel.restartWindows h.modChannel
  have h3 : Keeps a s3 := h2.foldl fun h => .ite (.ite (.modTx (.ite h.switchTx h)) (.ite h.switchTx h)) h
  have h4 : Keeps a s4 := h3.foldl fun h => .ite h (h.foldl fun h => h.modChannel)
  exact .ite h4.modEcho h4

theorem mapLeg (h : Keeps a s) {c leg old new} : Keeps a (s.mapLeg c leg old new) :=
  (h.foldl (fun h => h.setTdmSlot)).foldl fun h => .ite h h.setTdmSlot

theorem bindTake (h : Keeps a s) {c leg l fresh} : Keeps a (s.bindTake c leg l fresh) :=
  .ite (.modEcho (.modChannel (.mapLeg (.ite h.withdrawAll h)))) (.modChannel (.mapLeg (.ite h.withdrawAll h)))

theorem endRunPlays (h : Keeps a s) {c leg reason} : Keeps a (s.endRunPlays c leg reason) := by
  unfold State.endRunPlays
  exact (h.foldl (fun h => .ite h.runNotice h)).modLeg

theorem stopTake (h : Keeps a s) {c leg} : Keeps a (s.stopTake c leg) := h.endRunPlays
theorem playTake (h : Keeps a s) {c leg p queue} : Keeps a (s.playTake c leg p queue) := .ite h.modLeg h.stopTake.modLeg.requestPieces
theorem setRun (h : Keeps a s) {c st} : Keeps a (s.setRun c st) := h.modChannel

theorem takeEvent (h : Keeps a s) {c e} : Keeps a (s.takeEvent c e) := by
  unfold State.takeEvent
  split
  · exact h.setRun
  · exact h.enterHold.setRun
  · exact h.restartWindows.emptyBuffers.setRun.foldl fun h => h.resetKey
  · exact .ite (h.endRunPlays.endRunPlays.setRun.foldl (fun h => h.resetKey)) h.endRunPlays.endRunPlays.setRun
  · exact h.settingsTake
  · exact h.bindTake
  · exact h.modEcho
  · exact h.playTake
  · exact h.stopTake
  · exact h.modLeg
  · exact h.modLeg
  · exact h.foldl fun h => h.resetKey
  · exact h.foldl fun h => h.resetKey
  · exact h
  · exact h.restartWindows
  · exact h

theorem takeSwitch (h : Keeps a s) {c leg} : Keeps a (s.takeSwitch c leg) := by
  unfold State.takeSwitch
  dsimp only
  split
  · exact h
  · exact .ite h.modTx (.modTx (.ite h.modTx.modChannel.switchTx h.modTx.modChannel))

theorem rebuiltRun (h : Keeps a s) {c} : Keeps a (s.rebuiltRun c) :=
  .ite h (h.restartWindows.emptyBuffers.foldl (fun h => h.modLeg)).modEcho.modChannel.echoNotice

theorem fitStreams (h : Keeps a s) {c} : Keeps a (s.fitStreams c) := h.setChannel

theorem runStep1 (h : Keeps a s) {c l} : Keeps a (s.runStep1 c l) := by
  unfold State.runStep1
  refine .fitStreams ?_
  split
  · exact (h.foldl (fun h => h.takeEvent)).takeSwitch.takeSwitch.rebuiltRun
  · exact (h.foldl (fun h => h.takeEvent)).takeSwitch.takeSwitch.rebuiltRun.adoptDetectors.adoptDetectors

theorem dropPacket (h : Keeps a s) {k} : Keeps a (s.dropPacket k) := h.same

theorem toRate (h : Keeps a s) {c k rate b} : Keeps a (s.toRate c k rate b).1 := by
  unfold State.toRate
  dsimp only
  split
  · exact h
  · exact h.setChannel

theorem takeNear (h : Keeps a s) {c leg} : Keeps a (s.takeNear c leg).1 := by
  unfold State.takeNear
  dsimp only
  split
  · exact h
  · exact h.setChannel

theorem inbound (h : Keeps a s) {c leg draw l} : Keeps a (s.inbound c leg draw l).1 := by
  unfold State.inbound
  extract_lets v n mine rate r udptl rtp s0 age s1 old before env s2 p s3 f s4
  have h0 : Keeps a s0 := .ite h h.faxDecision
  have h2 : Keeps a s2 := h0.modLeg
  have h3 : Keeps a s3 := .ite h2.withdrawAll h2
  split
  · exact h.pair
  · exact h.takeNear
  · exact h.stackBlock.toRate
  · split
    · exact h0.modTx.pair
    · exact h3.modLeg.reportRxEvents.toRate

theorem legSounds (h : Keeps a s) {c leg draw} : Keeps a (s.legSounds c leg draw).1 := by
  unfold State.legSounds
  extract_lets v n flat prompt x g q edges s1 tone toneRate z
  have h1 : Keeps a s1 := h.playPrompt.modLeg
  clear_value prompt
  split
  · split
    · exact h1.pair
    · exact h1.toRate.pair
  · dsimp only
    split
    · exact h1.toRate.pair
    · split
      · exact h1.toRate.pair
      · exact h1.toRate.pair

theorem outbound (h : Keeps a s) {c leg draw other} : Keeps a (s.outbound c leg draw other).1 := h.legSounds.gainStage

theorem handRtp (h : Keeps a s) {c leg draw b} : Keeps a (s.handRtp c leg draw b) := by
  unfold State.handRtp
  dsimp only
  split
  · exact h.modLeg.syncTx.sendT38
  · split
    · exact h.modLeg.syncTx.runEvents
    · exact .ite h.modLeg.syncTx.runEvents.encodeAudio h.modLeg.syncTx.runEvents.setChannel.encodeAudio

theorem handOut (h : Keeps a s) {c leg draw b} : Keeps a (s.handOut c leg draw b) := by
  unfold State.handOut
  dsimp only
  split
  · exact h.modLeg
  · exact h.modLeg.setChannel
  · exact h.modLeg.sendStack
  · exact h.modLeg.handRtp

theorem mediaRun (h : Keeps a s) {c draw l} : Keeps a (s.mediaRun c draw l) := by
  unfold State.mediaRun
  extract_lets v k f pos x ga far t ref w b e near s1 gn u s2
  have ht : Keeps a t.1 := h.inbound.gainStage.outbound
  have hw : Keeps a w := .ite ht.modEcho ht
  have h1 : Keeps a s1 := hw.inbound.cancelEcho.detectLeg.detectLeg
  exact h1.gainStage.outbound.handOut.handOut.modChannel

theorem frostSid (h : Keeps a s) {c draw} : Keeps a (s.frostSid c draw) := by
  unfold State.frostSid
  dsimp only
  exact h.foldl (fun h => by
      split
      · exact h.modTx.syncTx.sendSid
      · exact h)

theorem frostRun (h : Keeps a s) {c draw l} : Keeps a (s.frostRun c draw l) :=
  .ite h.same (.modChannel (.restartWindows (.emptyBuffers (.ite h.same.frostSid h.same))))

theorem thaw (h : Keeps a s) {c} : Keeps a (s.thaw c) := .ite h (h.emptyBuffers.restartWindows.foldl (fun h => h.resetKey)).modChannel
theorem endRun (h : Keeps a s) {c} : Keeps a (s.endRun c) := .ite h (.ite h.toIdle h.modChannel)
theorem payOwed (h : Keeps a s) {l} : Keeps a (s.payOwed l) := h.foldl fun h => h.complete

theorem channelRun (h : Keeps a s) {c l} : Keeps a (s.channelRun c l) := by
  unfold State.channelRun
  refine .endRun (.modChannel ?_)
  split
  · exact h.drawn.runStep1.frostRun
  · split
    · exact h.drawn.runStep1.thaw.mediaRun
    · exact h.drawn.runStep1.thaw.mediaRun
    · exact (h.drawn.runStep1.foldl (fun h => h.dropPacket)).modChannel
    · exact (h.drawn.runStep1.foldl (fun h => h.dropPacket)).modChannel
    · exact (h.drawn.runStep1.foldl (fun h => h.dropPacket)).modChannel
    · exact (h.drawn.runStep1.foldl (fun h => h.dropPacket)).modChannel
    · exact (h.drawn.runStep1.foldl (fun h => h.dropPacket)).modChannel

theorem dropOutputs (h : Keeps a s) {old} : Keeps a (dropOutputs old s) := h.same

theorem runBase (h : Keeps a s) {c} : Keeps a (s.runBase c) := by
  unfold State.runBase
  split
  · exact h.modChannel
  · exact h

theorem runFrom (h : Keeps a s) {c l} : Keeps a (s.runFrom c l) := by
  unfold State.runFrom
  split
  · exact .ite h.runBase.channelRun.dropOutputs h.runBase.channelRun
  · exact h.runBase.channelRun

theorem cellRun (h : Keeps a s) {c l} : Keeps a (s.cellRun c l) := .ite h.runFrom.payOwed h.runFrom.same

theorem contextLeaves (h : Keeps a s) {c tick} : Keeps a (s.contextLeaves c tick) := by
  unfold State.contextLeaves
  dsimp only
  split
  · exact h
  · exact .ite h h.modChannel.queueJobAt

theorem wholeRun (h : Keeps a s) {c b t l} : Keeps a (s.wholeRun c b t l) :=
  h.modThread.runFrom.same.modChannel.payOwed.bumpBlock.contextLeaves

theorem sendLegBlocks (h : Keeps a s) : Keeps a s.sendLegBlocks := h.same.foldl fun h => h.sendMessage

theorem tickRunStep (h : Keeps a s) {c} : Keeps a (tickRunStep c s) := by
  unfold Machine.tickRunStep
  dsimp only
  split
  · exact h
  · split
    · exact h
    · split
      · exact h.cellRun.sendLegBlocks
      · exact h.wholeRun.sendLegBlocks
      · exact h.wholeRun.sendLegBlocks
      · exact h
      · exact h
      · exact h
      · exact h

/-! ### MediaRows: The media events of a channel that stand in rows of their own -/

theorem extendTimeout (h : Keeps a s) {c leg} : Keeps a (extendTimeout c leg s) := by
  unfold Machine.extendTimeout
  dsimp only
  split
  · exact h
  · split
    · exact h.modLeg
    · exact h.modLeg.toneEvent.stopEvent

theorem echoEvent (h : Keeps a s) {c declared e} : Keeps a (s.echoEvent c declared e) :=
  .ite (.ite h.modChannel.echoNotice h.modChannel) (.echoNotice (.ite h.modChannel.echoNotice h.modChannel))

theorem pathChangeStep (h : Keeps a s) {c} : Keeps a (pathChangeStep c s) := .ite h h.echoEvent
theorem divergenceStep (h : Keeps a s) {c} : Keeps a (divergenceStep c s) := .ite h h.echoEvent
theorem convergedStep (h : Keeps a s) {c} : Keeps a (convergedStep c s) := .ite h h.echoEvent
theorem toneDisableEndStep (h : Keeps a s) {c} : Keeps a (toneDisableEndStep c s) := .ite h h.echoEvent

theorem contextClearedStep (h : Keeps a s) {c} : Keeps a (contextClearedStep c s) := by
  unfold Machine.contextClearedStep
  dsimp only
  split
  · exact h.modChannel.modThread
  · exact h.modChannel

theorem rsInStep (h : Keeps a s) {c k tick ins} : Keeps a (rsInStep c k tick ins s) := .ite h.setChannel h
theorem settleEndStep (h : Keeps a s) {c k} : Keeps a (settleEndStep c k s) := h.modChannel
theorem dissolveEndStep (h : Keeps a s) {c k} : Keeps a (dissolveEndStep c k s) := h.modChannel
theorem fillMeasureStep (h : Keeps a s) {c k} : Keeps a (fillMeasureStep c k s) := h.modChannel

/-! ### CellFault: What cell traps, user traps, channel restarts and block isolation do -/

theorem faultChannel (h : Keeps a s) {c cause} : Keeps a (s.faultChannel c cause) := by
  unfold State.faultChannel
  dsimp only
  split
  · exact h
  · refine .channelNotice (.modChannel (.same (.foldl (hf := fun h => h.complete) ?_)))
    split
    · exact .abortMove (.ite h.modBlock h)
    · exact .ite h.modBlock h

theorem restartChannel (h : Keeps a s) {c cause memory address ready} : Keeps a (s.restartChannel c cause memory address ready) := by
  unfold State.restartChannel
  dsimp only
  split
  · exact h.logError.faultChannel
  · refine .channelNotice ?_
    split
    · exact h.modChannel.modThread
    · exact h.modChannel

theorem takeOverThread (h : Keeps a s) {b cause memory address e} : Keeps a (s.takeOverThread b cause memory address e) :=
  .ite (.ite h.modBlock.restartChannel h.modBlock.modThread) h.modThread

theorem logTrap (h : Keeps a s) {n cause code memory address action l} : Keeps a (s.logTrap n cause code memory address action l) :=
  h.logError

theorem moveSystem (h : Keeps a s) {b i e} : Keeps a (s.moveSystem b i e) := by
  unfold State.moveSystem
  exact h.modBlock.modThread

theorem loseCell (h : Keeps a s) {b i} : Keeps a (s.loseCell b i) := (h.foldl (fun h => h.faultChannel)).foldl fun h => h.moveSystem

theorem takeOver (h : Keeps a s) {b i r cause code memory address} : Keeps a (s.takeOver b i r cause code memory address) :=
  h.modBlock.bumpBlock.logTrap.foldl fun h => h.takeOverThread

theorem loseCommit (h : Keeps a s) {b t c} : Keeps a (s.loseCommit b t c) := by
  unfold State.loseCommit
  split
  · exact h
  · exact h.modChannel.same.modBlock.modThread

theorem cutCopies (h : Keeps a s) {n} : Keeps a (s.cutCopies n) := h.foldl fun h => .ite h.modBlock h.loseCommit.modThread

theorem blockTrap (h : Keeps a s) {b i cause code memory address} : Keeps a (s.blockTrap b i cause code memory address) := by
  unfold State.blockTrap
  dsimp only
  split
  · exact h.modBlock.logTrap
  · split
    · exact .ite h.takeOver h.logTrap.loseCell
    · exact h.logTrap.loseCell

theorem cellTrap (h : Keeps a s) {n cause code memory address} : Keeps a (s.cellTrap n cause code memory address) :=
  h.cutCopies.modCell.blockTrap

theorem userTrap (h : Keeps a s) {n cause} : Keeps a (s.userTrap n cause) := by
  unfold State.userTrap
  dsimp only
  split
  · exact h.setCell
  · exact h.setCell.modChannel.notify4

theorem trap (h : Keeps a s) {n cause code memory address} : Keeps a (s.trap n cause code memory address) := .ite h.userTrap h.cellTrap

theorem loseChannel (h : Keeps a s) {c} : Keeps a (s.loseChannel c) := by
  unfold State.loseChannel
  exact h.faultChannel.freeSlotOf.modChannel

theorem countHold (h : Keeps a s) {b i n} : Keeps a (s.countHold b i n) := h.same

theorem isolate (h : Keeps a s) {b log} (hlog : ∀ {u}, Keeps a u → Keeps a (log u)) : Keeps a (s.isolate b log) :=
  .ite h (hlog ((((h.countHold.foldl fun h => h.loseChannel).modBlock.foldl fun h => h.failMove)).foldl fun h => h.modCell))

theorem isolationStep (h : Keeps a s) {b c d} : Keeps a (isolationStep b c d s) :=
  h.isolate fun h => h.logError

theorem isolateRegion (h : Keeps a s) {r address} : Keeps a (s.isolateRegion r address) := by
  unfold State.isolateRegion
  exact (h.foldl fun h => h.isolate fun h => h).logError

theorem resetCell (h : Keeps a s) {n} : Keeps a (s.resetCell n) := h.setCell

theorem startCell (h : Keeps a s) {n} : Keeps a (s.startCell n) := by
  unfold State.startCell
  exact h.modCell

theorem returnCell (h : Keeps a s) {n} : Keeps a (s.returnCell n) := .ite h.resetCell h.resetCell.modBlock
theorem cellReturnStep (h : Keeps a s) {n} : Keeps a (cellReturnStep n s) := .ite h h.returnCell

/-! ### Blocks: The block dispatcher -/

theorem releaseOne (h : Keeps a s) {b p e} : Keeps a (s.releaseOne b p e) := .ite h.modThread.bumpBlock.bumpBlock h.modThread.bumpBlock

theorem swapIn (h : Keeps a s) {n t outgoing} : Keeps a (s.swapIn n t outgoing) :=
  .ite h.modCell.modBlock.modThread h.modCell.modCell.modThread.drawn

theorem swapIfDue (h : Keeps a s) {n} : Keeps a (s.swapIfDue n) := by
  unfold State.swapIfDue
  dsimp only
  split
  · exact h
  · split
    · exact h.swapIn
    · exact .ite h.modThread.bumpBlock.swapIn h

theorem decideCell (h : Keeps a s) {b i} : Keeps a (s.decideCell b i) := by
  unfold State.decideCell
  dsimp only
  split
  · split
    · split
      · exact h.bumpBlock
      · exact .swapIfDue (.ite h.modBlock.modThread.bumpBlock h.modBlock.modThread)
    · exact h
  · exact h.swapIfDue
  · exact h

theorem phaseBoundaryStep (h : Keeps a s) {b} : Keeps a (phaseBoundaryStep b s) :=
  .ite h ((h.modBlock.foldl (fun h => h.releaseOne)).foldl (fun h => h.decideCell))

theorem stageInto (h : Keeps a s) {b n i t} : Keeps a (s.stageInto b n i t) := by
  unfold State.stageInto
  split
  · exact h.modCell
  · exact h.modCell.drawn

theorem stageFault (h : Keeps a s) {b i t x3} : Keeps a (s.stageFault b i t x3) := by
  unfold State.stageFault
  extract_lets s1 again s0 v third s2 s3
  have h1 : Keeps a s1 := h.drawn.logError.modBlock
  have h0 : Keeps a s0 := h.drawn.modChannel
  have h2 : Keeps a s2 := .ite h0 h0.logError
  have h3 : Keeps a s3 := h2.restartChannel
  refine .ite (.ite h1.restartChannel h1.modThread) (.ite ?_ h.modThread)
  split
  · exact h3
  · exact .ite h3 h3.abortMove.failMove

theorem stageNew (h : Keeps a s) {b n i t ecc} : Keeps a (s.stageNew b n i t ecc) := by
  unfold State.stageNew
  extract_lets s1 found s2 s3
  have h1 : Keeps a s1 := by
    unfold s1
    split
    · exact h.modThread
    · exact h
  have h3 : Keeps a s3 := .modCell (.stageInto (.ite h1.drawn.correctable h1))
  clear_value found
  split
  · exact h1.modCell.stageFault
  all_goals exact h3.modThread

theorem stagingStartStep (h : Keeps a s) {n ecc} : Keeps a (stagingStartStep n ecc s) := by
  unfold Machine.stagingStartStep
  dsimp only
  split
  · exact h
  · split
    · exact h
    · split
      · exact h
      · split
        · exact .ite h h.stageNew
        · exact h.stageNew

theorem stagingCompleteStep (h : Keeps a s) {n} : Keeps a (stagingCompleteStep n s) := by
  unfold Machine.stagingCompleteStep
  split
  · exact h
  · exact .ite h.modThread.swapIfDue (.ite h.swapIfDue h)

theorem suspendSaveStep (h : Keeps a s) {n} : Keeps a (suspendSaveStep n s) := by
  unfold Machine.suspendSaveStep
  dsimp only
  split
  · exact h
  · split
    · exact .ite h h.modBlock.modCell.bumpBlock
    · exact h

theorem dropRun (h : Keeps a s) {c} : Keeps a (s.dropRun c) := h.runBase.same
theorem endLiveRun (h : Keeps a s) {c} : Keeps a (s.endLiveRun c) := h.same

theorem threadDone (h : Keeps a s) {n commit} : Keeps a (s.threadDone n commit) := by
  unfold State.threadDone
  split
  · exact h
  · have hrun {b t r f} : Keeps a ((((s.modCell n r).modBlock b f).modThread b t endedRun).bumpBlock b .runs) :=
      h.modCell.modBlock.modThread.bumpBlock
    refine .swapIfDue (.ite (.bumpBlock ?_) ?_)
    all_goals exact .ite h.modCell (.ite hrun.modBlock.endLiveRun (.ite hrun.dropRun hrun))

theorem commitCompleteStep (h : Keeps a s) {b ecc} : Keeps a (commitCompleteStep b ecc s) := by
  unfold Machine.commitCompleteStep
  split
  · exact h
  · extract_lets s1 t s2 s3
    have h1 : Keeps a s1 := h.modBlock
    have h3 : Keeps a s3 := .ite h1.drawn.correctable h1
    refine .ite h1 ?_
    split
    · exact h1.drawn.logError.loseCommit.restartChannel
    all_goals
      split
      · exact h3
      · exact .ite h3 h3.same.modChannel.payOwed.contextLeaves

theorem deadlineMissStep (h : Keeps a s) {b t} : Keeps a (deadlineMissStep b t s) :=
  .ite h (.ite h.modThread.bumpBlock h.modThread.bumpBlock)

theorem fifoEntryStep (h : Keeps a s) {b} : Keeps a (fifoEntryStep b s) := by
  unfold Machine.fifoEntryStep
  dsimp only
  split
  · exact h
  · split
    · exact h
    · split
      · exact .ite h.modBlock.bumpBlock h.modBlock.modBlock
      · exact .ite h.modBlock.bumpBlock (.modBlock (.ite h.modBlock.bumpBlock h.modBlock))
      · exact .ite h.modBlock (.modBlock (.ite h.modBlock.bumpBlock h.modBlock))

theorem signalRecordStep (h : Keeps a s) {b sender seq t value} : Keeps a (signalRecordStep b sender seq t value s) :=
  .ite h (.ite h.bumpBlock h.modBlock)

theorem noticeRecordStep (h : Keeps a s) {b} : Keeps a (noticeRecordStep b s) := by
  unfold Machine.noticeRecordStep
  dsimp only
  split
  · exact h
  · split
    · exact h.modBlock.notice
    · exact h.modBlock

theorem contextRebuiltStep (h : Keeps a s) {c} : Keeps a (contextRebuiltStep c s) := by
  unfold Machine.contextRebuiltStep
  dsimp only
  split
  · exact h
  · exact .ite h.modThread.same.modChannel h

theorem watchdogStep (h : Keeps a s) {n} : Keeps a (watchdogStep n s) := .ite h h.modCell.trap
theorem userBudgetStep (h : Keeps a s) {n} : Keeps a (userBudgetStep n s) := .ite h h.userTrap

/-! ### Clock: The clock controller, Frost, gating, the clock outputs and power modes -/

theorem acquire (h : Keeps a s) : Keeps a s.acquire := by
  unfold State.acquire
  split
  · exact h.same.ctrl
  · exact h

theorem lockReached (h : Keeps a s) : Keeps a s.lockReached := by
  unfold State.lockReached
  dsimp only
  split
  · split
    · exact .ite h.same.ctrl h.same.ctrl.beginSwitch
    · exact h.same.ctrl
  · exact h.same.ctrl

theorem markClockEvent (h : Keeps a s) : Keeps a s.markClockEvent := h.same
theorem referenceTripStep (h : Keeps a s) {src} : Keeps a (referenceTripStep src s) := .ite h h.tripSource

theorem referenceQualifiedStep (h : Keeps a s) {src} : Keeps a (referenceQualifiedStep src s) := by
  unfold Machine.referenceQualifiedStep
  dsimp only
  split
  · exact h
  · split
    · split
      · exact h.same.countClock.same.lockReached
      · exact h.same.countClock
    · exact h.same.countClock.clockNotice.acquire
    · exact h.same.countClock.clockNotice
    · exact h.same.countClock.clockNotice
    · exact h.same.countClock.clockNotice
    · exact h.same.countClock.clockNotice
    · exact h.same.countClock.clockNotice

theorem referenceLockStep (h : Keeps a s) : Keeps a (referenceLockStep s) := .ite h h.countClock.clockNotice.markClockEvent.lockReached
theorem coastEndStep (h : Keeps a s) : Keeps a (coastEndStep s) := .ite h h.ctrl.acquire
theorem acquireLockStep (h : Keeps a s) : Keeps a (acquireLockStep s) := .ite h h.ctrl
theorem countSlips (h : Keeps a s) {g} : Keeps a (s.countSlips g) := .ite h.setGroup h
theorem resumeMedia (h : Keeps a s) : Keeps a s.resumeMedia := h.same.countSlips.countSlips
theorem rampEndStep (h : Keeps a s) : Keeps a (rampEndStep s) := .ite h h.countClock.same.resumeMedia.clockNotice.markClockEvent.lockReached

theorem clockConfigBody (h : Keeps a s) {x0} : (clockConfigBody x0 s).Keeps a := by
  unfold Machine.clockConfigBody
  dsimp only
  split
  · trivial
  · split
    · trivial
    · split
      · exact h.same.done
      · exact h.same.done
      · exact h.same.acquire.done
      · exact h.same.same.done
      · exact h.same.same.done
      · exact h.same.same.done
      · split
        · exact Keeps.done (.ite h.same h.same.beginSwitch)
        · exact h.same.done

theorem clockQueryBody (h : Keeps a s) {x0} : (clockQueryBody x0 s).Keeps a := Keeps.done (.ite h.same h)
theorem reviveCells (h : Keeps a s) {b} : Keeps a (s.reviveCells b) := h.foldl fun h => h.modCell
theorem revive (h : Keeps a s) {p} : Keeps a (s.revive p) := .ite h.reviveCells (.ite h.loadTemplates h)

theorem rewake (h : Keeps a s) {p m} : Keeps a (s.rewake p m) := by
  unfold State.rewake
  split
  · exact h
  · split
    · exact h
    · exact h.wakeBlock
    · exact h.startWake

theorem enterMode (h : Keeps a s) {m r p} : Keeps a (s.enterMode m r p) := by
  unfold State.enterMode
  split
  · exact .ite h.endEntry.completeOpt h.endEntry.setPower
  · exact .rewake (.completeOpt (.powerNotice (.setPower (.ite h.endEntry.revive h.endEntry))))
  · exact h.endEntry.setPower.rewake

theorem finishGate (h : Keeps a s) {j} : Keeps a (s.finishGate j) := by
  unfold State.finishGate
  split
  · exact h.same.completeOpt
  · exact h.foldl fun h => h.enterMode

theorem setGates (h : Keeps a s) {l} : Keeps a (s.setGates l) := h.same

theorem pumpGates (h : Keeps a s) {fuel} : Keeps a (s.pumpGates fuel) := by
  induction fuel generalizing s with
  | zero => exact h
  | succ n ih =>
    unfold State.pumpGates
    split
    · exact h
    · split
      · exact ih h.setGates.finishGate
      · exact ih h.setGates

theorem runGates (h : Keeps a s) : Keeps a s.runGates := h.pumpGates
theorem addGate (h : Keeps a s) {j} : Keeps a (s.addGate j) := h.setGates

theorem domainGateBody (h : Keeps a s) {x0} : (domainGateBody x0 s).Keeps a :=
  .ite trivial (.ite trivial (h.addGate.accepted (fun h => h.runGates)))

theorem gateQuiescedStep (h : Keeps a s) {d} : Keeps a (gateQuiescedStep d s) := by
  unfold Machine.gateQuiescedStep
  split
  · exact h
  · exact .ite h.setGates h.setGates.countClock.finishGate.runGates

theorem powerBusy (h : Keeps a s) {j} : Keeps a (s.powerBusy j) := by
  unfold State.powerBusy
  split
  · exact h
  · split
    · exact h.foldl fun h => h.setPower
    · split
      · exact (h.foldl (fun h => h.setPower)).setPower.modBlock
      · exact h.foldl fun h => h.setPower

theorem gateTimeoutStep (h : Keeps a s) {d} : Keeps a (gateTimeoutStep d s) := by
  unfold Machine.gateTimeoutStep
  split
  · exact h
  · exact h.setGates.countClock.powerBusy.completeOpt.runGates

theorem powerSetBody (h : Keeps a s) {x0} : (powerSetBody x0 s).Keeps a := by
  unfold Machine.powerSetBody
  extract_lets p v s1
  have h1 : Keeps a s1 := by
    unfold s1
    split
    · exact h.setPower
    · exact h
  refine .ite trivial ?_
  split
  · exact h1.completed
  · exact .ite trivial (.ite h1.completed (h1.addGate.accepted fun h => h.runGates))

theorem clearPower (h : Keeps a s) : Keeps a s.clearPower := h.foldl fun h => h.setPower
theorem powerQueryBody (h : Keeps a s) {x0} : (powerQueryBody x0 s).Keeps a := Keeps.done (.ite h.clearPower h)

theorem payWakes (h : Keeps a s) {b} : Keeps a (s.payWakes b) := by
  unfold State.payWakes
  split
  · exact h
  · exact h.foldl (fun h => by
      split
      · exact .ite h.modChannel.complete h
      · exact h)

theorem powerWakeDoneStep (h : Keeps a s) {p} : Keeps a (powerWakeDoneStep p s) := by
  unfold Machine.powerWakeDoneStep
  dsimp only
  split
  · exact .ite h (.foldl (.completeOpt (.powerNotice (.setPower (.ite h.revive h)))) (fun h => h.payWakes))
  · exact h

theorem deepSleepEnteredStep (h : Keeps a s) {p} : Keeps a (deepSleepEnteredStep p s) := h.endEntry
theorem autoDeepSleepStep (h : Keeps a s) {b} : Keeps a (autoDeepSleepStep b s) := .ite h h.addGate.runGates

theorem clkoutSetBody (h : Keeps a s) {x0} : (clkoutSetBody x0 s).Keeps a := by
  unfold Machine.clkoutSetBody
  dsimp only
  split
  · trivial
  · split <;> exact .ite trivial h.same.done

theorem tclkOutSetBody (h : Keeps a s) {x0} : (tclkOutSetBody x0 s).Keeps a := h.same.done

/-! ### Ports: The Ethernet ports -/

theorem queueFrame (h : Keeps a s) {i f} : Keeps a (s.queueFrame i f) := h.modPort
theorem pairNotice (h : Keeps a s) {i active cause} : Keeps a (s.pairNotice i active cause) := h.notify
theorem linkNotice (h : Keeps a s) {i state cause} : Keeps a (s.linkNotice i state cause) := h.notify
theorem dropTooLong (h : Keeps a s) {i} : Keeps a (s.dropTooLong i) := h.setPort.foldl fun h => h.discardEntry

theorem cutForMedia (h : Keeps a s) {i} : Keeps a (s.cutForMedia i) := by
  unfold State.cutForMedia
  dsimp only
  split
  · exact h
  · exact .ite h.setPort h

theorem acceptFrame (h : Keeps a s) {i f} : Keeps a (s.acceptFrame i f) := .ite h.modPort.dropTooLong.cutForMedia h.modPort

theorem acceptWaiting (h : Keeps a s) {i} : Keeps a (s.acceptWaiting i) := by
  unfold State.acceptWaiting
  dsimp only
  split
  · exact h
  · exact h.modPort.acceptFrame

theorem queuePtp (h : Keeps a s) {i f tsReq oneStep id} : Keeps a (s.queuePtp i f tsReq oneStep id) := h.queueFrame

theorem egressPartitionAcceptStep (h : Keeps a s) {i src} : Keeps a (egressPartitionAcceptStep i src s) := by
  unfold Machine.egressPartitionAcceptStep
  dsimp only
  split
  · exact h
  · split
    · split
      · exact h.modPort.modPort
      · exact .ite h.modPort.modPort.modRegion.acceptFrame h.modPort.modPort
    · exact h.modPort.modPort.acceptWaiting
    · exact .ite h.modPort.modPort h.modPort.modPort.queuePtp.acceptWaiting
    · split
      · exact h.modPort.modPort
      · exact .ite h.modPort.modPort.same.acceptFrame.fenceLeft h.modPort.modPort

theorem commitFrame (h : Keeps a s) {i variable_ f from_} : Keeps a (s.commitFrame i variable_ f from_) := h.setPort

theorem frameCommitStep (h : Keeps a s) {i variable_} : Keeps a (frameCommitStep i variable_ s) := by
  unfold Machine.frameCommitStep
  dsimp only
  split
  · exact h.modPort.dropTooLong
  · split
    · exact h.modPort.dropTooLong
    · exact h.modPort.dropTooLong.setPort
    · exact h.modPort.dropTooLong.setPort.commitFrame
    · exact h.modPort.dropTooLong.setPort.commitFrame
    · exact h.modPort.dropTooLong.setPort.commitFrame

theorem frameSfdTxStep (h : Keeps a s) {i variable_} : Keeps a (frameSfdTxStep i variable_ s) := by
  unfold Machine.frameSfdTxStep
  dsimp only
  split
  · exact .ite h.setPort.record h.setPort
  · exact h.setPort

theorem gateStep (h : Keeps a s) {i} : Keeps a (s.gateStep i) := .ite h.setPort (.ite h.setPort.dropTooLong.cutForMedia h.setPort)
theorem shutterIntervalStep (h : Keeps a s) {i} : Keeps a (shutterIntervalStep i s) := h.modPort.gateStep

theorem shutterCycleBoundaryStep (h : Keeps a s) {i} : Keeps a (shutterCycleBoundaryStep i s) := by
  unfold Machine.shutterCycleBoundaryStep
  dsimp only
  split
  · exact .ite h.setPort.gateStep.complete h.setPort.gateStep
  · exact h.setPort.gateStep

theorem guardBandStartStep (h : Keeps a s) {i} : Keeps a (guardBandStartStep i s) := by
  unfold Machine.guardBandStartStep
  dsimp only
  split
  · exact h.setPort
  · exact .ite h.setPort h.setPort

theorem pauseTimerExpiryStep (h : Keeps a s) {i prio} : Keeps a (pauseTimerExpiryStep i prio s) := by
  unfold Machine.pauseTimerExpiryStep
  split <;> exact h.modPort

theorem verifyResponseStep (h : Keeps a s) {i} : Keeps a (verifyResponseStep i s) := h.modPort
theorem verifyTimeoutStep (h : Keeps a s) {i} : Keeps a (verifyTimeoutStep i s) := h.modPort
theorem pcsConditionLostStep (h : Keeps a s) {i c} : Keeps a (pcsConditionLostStep i c s) := h.modPort
theorem pcsConditionRegainedStep (h : Keeps a s) {i c} : Keeps a (pcsConditionRegainedStep i c s) := h.modPort
theorem abortPort (h : Keeps a s) {i} : Keeps a (s.abortPort i) := h.setPort.foldl fun h => h.discardEntry
theorem discardEgress (h : Keeps a s) {i} : Keeps a (s.discardEgress i) := h.setPort.foldl fun h => h.discardEntry

theorem switchPair (h : Keeps a s) {i from_ dst cause} : Keeps a (s.switchPair i from_ dst cause) :=
  (h.discardEgress.same.foldl (fun h => h.queueFrame)).pairNotice

theorem pairDown (h : Keeps a s) {i} : Keeps a (s.pairDown i) := .ite h (.ite h.switchPair h.setPair.pairNotice)

theorem takeDown (h : Keeps a s) {i cause} : Keeps a (s.takeDown i cause) :=
  .tripSource (.pairDown (.ite h.abortPort.bumpPort.linkNotice h.abortPort.bumpPort.linkNotice.logError))

theorem linkDownStep (h : Keeps a s) {i} : Keeps a (linkDownStep i s) := by
  unfold Machine.linkDownStep
  dsimp only
  split
  · exact h
  · exact .ite h.takeDown h

theorem pairUp (h : Keeps a s) {i} : Keeps a (s.pairUp i) := .ite h.setPair.pairNotice h

theorem linkUpStep (h : Keeps a s) {i} : Keeps a (linkUpStep i s) := by
  unfold Machine.linkUpStep
  dsimp only
  split
  · exact h
  · exact .ite h h.setPort.linkNotice.pairUp

theorem revertHoldExpiryStep (h : Keeps a s) {k} : Keeps a (revertHoldExpiryStep k s) := .ite h.switchPair h

theorem changeMode (h : Keeps a s) {i m} : Keeps a (s.changeMode i m) := by
  unfold State.changeMode
  exact .modPort (.ite h.takeDown h)

theorem portConfigBody (h : Keeps a s) {x0} : (portConfigBody x0 s).Keeps a := by
  unfold Machine.portConfigBody
  dsimp only
  split
  · trivial
  · split
    · trivial
    · exact .ite trivial (.ite trivial (Keeps.done (.dropTooLong (.gateStep (.ite h.setPort.changeMode h.setPort)))))

theorem shutterLoadBody (h : Keeps a s) {x0} : (shutterLoadBody x0 s).Keeps a := by
  unfold Machine.shutterLoadBody
  dsimp only
  split
  · trivial
  · refine Keeps.accepted (.modPort ?_)
    split
    · exact h.bumpPort.complete
    · exact h

theorem shutterQueryBody (h : Keeps a s) {x0} : (shutterQueryBody x0 s).Keeps a := h.done

theorem portPairBody (h : Keeps a s) {x0} : (portPairBody x0 s).Keeps a := by
  unfold Machine.portPairBody
  dsimp only
  split
  · trivial
  · split
    · exact .ite h.setPair.pairNotice.done h.done
    · exact .ite trivial (.ite (.ite h.done h.setPair.done) h.setPair.pairNotice.done)

theorem portCountersBody (h : Keeps a s) {x0} : (portCountersBody x0 s).Keeps a := h.setPort.done
theorem ptpSendBody (h : Keeps a s) {x0} : (ptpSendBody x0 s).Keeps a := .ite trivial (.ite trivial (.ite trivial h.queuePtp.done))

/-! ### PacketEngine: The flow, SRTP and template commands and the egress side of the packet engine -/

theorem flowCommand (h : Keeps a s) {x c} : (s.flowCommand x c).Keeps a := by
  unfold State.flowCommand
  split
  · exact Keeps.accepted (.ite h.same.sendMessage h.same)
  · split
    · exact refuseFor
    · exact .ite h.same.done h.same.done

theorem flowInsertBody (h : Keeps a s) {x0} : (flowInsertBody x0 s).Keeps a := h.flowCommand
theorem flowRemoveBody (h : Keeps a s) {x0} : (flowRemoveBody x0 s).Keeps a := h.flowCommand
theorem flowModifyBody (h : Keeps a s) {x0} : (flowModifyBody x0 s).Keeps a := h.flowCommand

theorem flowQueryBody (h : Keeps a s) {x0} : (flowQueryBody x0 s).Keeps a := by
  unfold Machine.flowQueryBody
  dsimp only
  split
  · trivial
  · exact Keeps.done (.ite h.same h)

theorem srtpSetBody (h : Keeps a s) {x0} : (srtpSetBody x0 s).Keeps a := by
  unfold Machine.srtpSetBody
  dsimp only
  split
  · trivial
  · split
    · trivial
    · exact h.same.done

theorem srtpClearBody (h : Keeps a s) {x0} : (srtpClearBody x0 s).Keeps a := .ite trivial (.ite trivial h.same.done)

theorem srtpQueryBody (h : Keeps a s) {x0} : (srtpQueryBody x0 s).Keeps a := by
  unfold Machine.srtpQueryBody
  dsimp only
  split
  · trivial
  · exact Keeps.done (.ite h.same h)

theorem templateLoadBody (h : Keeps a s) {x0} : (templateLoadBody x0 s).Keeps a := .ite trivial (.ite trivial (.ite trivial h.same.done))
theorem templateRemoveBody (h : Keeps a s) {x0} : (templateRemoveBody x0 s).Keeps a := .ite trivial (.ite trivial h.same.done)
theorem peConfigBody (h : Keeps a s) {x0} : (peConfigBody x0 s).Keeps a := .ite trivial h.same.done
theorem clearPe (h : Keeps a s) : Keeps a s.clearPe := (h.foldl (fun h => h.modRegion)).same
theorem peCountersBody (h : Keeps a s) {x0} : (peCountersBody x0 s).Keeps a := Keeps.done (.ite h.clearPe h)
theorem exhaustedNotice (h : Keeps a s) {ctx k c} : Keeps a (s.exhaustedNotice ctx k c) := h.notify
theorem setContext (h : Keeps a s) {i c} : Keeps a (s.setContext i c) := h.same

theorem protect (h : Keeps a s) {ctx rtcp packet} : Keeps a (s.protect ctx rtcp packet).1 := by
  unfold State.protect
  split
  · exact h
  · split
    · exact h
    · split
      · exact h.setContext
      · exact .ite h.setContext.exhaustedNotice h.setContext

theorem queueEgress (h : Keeps a s) {r k f} : Keeps a (s.queueEgress r k f) := h.modRegion

theorem nextId (h : Keeps a s) {k} : Keeps a (s.nextId k).1 := by
  unfold State.nextId
  dsimp only
  exact h.modPort

theorem assemble (h : Keeps a s) {r k d t u} : Keeps a (s.assemble r k d t u) := by
  have hprotect := h.protect (ctx := d.record.txSrtp) (rtcp := t.kind == 1) (packet := udpContent t u d)
  unfold State.assemble
  dsimp only
  split
  next hp => rwa [hp] at hprotect
  next hp =>
    rw [hp] at hprotect
    exact .ite hprotect.nextId.queueEgress hprotect.sendClass

theorem peDescriptorStep (h : Keeps a s) {r} : Keeps a (peDescriptorStep r s) := by
  unfold Machine.peDescriptorStep
  dsimp only
  split
  · exact h
  · split
    · exact h.setRegion
    · split
      · exact h.setRegion
      · exact .ite h (.ite h h.setRegion.assemble)

/-! ### Ingress: Ingress past the lookup -/

theorem hostRoom (h : Keeps a s) {t} (ht : s.hostRoom = some t) : Keeps a t := by
  unfold State.hostRoom at ht
  dsimp only at ht
  split at ht
  · cases ht
    exact h.same
  · cases ht

theorem toHost (h : Keeps a s) {r port reason flow stamp frame} : Keeps a (s.toHost r port reason flow stamp frame) := by
  unfold State.toHost
  split
  next ht => exact (h.hostRoom ht).notify
  next => exact h.bumpRegion

theorem holdPeak (h : Keeps a s) {b} : Keeps a (s.holdPeak b) := h.same

theorem latch (h : Keeps a s) {x0} : Keeps a (s.latch x0) := by
  unfold State.latch
  split
  · exact .ite h.same.modChannel.notify h
  · exact h

theorem admitPacket (h : Keeps a s) {x0 kind b} : Keeps a (s.admitPacket x0 kind b) := by
  unfold State.admitPacket
  dsimp only
  split
  · exact h.latch.same
  · exact .ite h.latch.same (.ite h.latch.bumpRegion h.latch.modBlock)

theorem cryptoPacket (h : Keeps a s) {x0 kind} : Keeps a (s.cryptoPacket x0 kind) := by
  unfold State.cryptoPacket
  dsimp only
  split
  · exact h.admitPacket
  · split
    · exact h
    · split
      · refine .admitPacket ?_
        split
        · exact h.setContext.exhaustedNotice
        · exact h.setContext
      · split
        · exact h.setContext.exhaustedNotice
        · exact h.setContext

theorem holdOrTake (h : Keeps a s) {b x1} : Keeps a (s.holdOrTake b x1) := .ite h.cryptoPacket (.ite h.countHold h.setBlock.holdPeak)

theorem heldPacketPostStep (h : Keeps a s) {b} : Keeps a (heldPacketPostStep b s) := by
  unfold Machine.heldPacketPostStep
  dsimp only
  split
  · exact h
  · exact .ite h.setBlock.cryptoPacket h

theorem takeDatagram (h : Keeps a s) {x0} : Keeps a (s.takeDatagram x0) := by
  unfold State.takeDatagram
  dsimp only
  split
  · exact h.same
  · exact h.toHost
  · exact .ite h.bumpRegion (.ite h.holdOrTake h.cryptoPacket)
  · exact .ite h.bumpRegion (.ite h.holdOrTake h.cryptoPacket)
  · exact .ite h.bumpRegion (.ite h.holdOrTake h.cryptoPacket)
  · exact .ite h.bumpRegion (.ite h.holdOrTake h.cryptoPacket)

theorem matched (h : Keeps a s) {x0} : Keeps a (s.matched x0) :=
  .ite h.same.takeDatagram (.ite h.same.bumpStack.sendMessage h.same.bumpStack)

theorem missed (h : Keeps a s) {port stamp frame} : Keeps a (s.missed port stamp frame) := .ite h.bumpRegion.toHost h.bumpRegion

theorem forwardPtp (h : Keeps a s) {from_ frame stamp powered} : Keeps a (s.forwardPtp from_ frame stamp powered) :=
  h.foldl fun h => h.queueFrame

theorem forwardedPacketStep (h : Keeps a s) {d p} : Keeps a (forwardedPacketStep d p s) := by
  unfold Machine.forwardedPacketStep
  split
  · split
    · exact h.takeMessage.takeDatagram
    · exact h.takeMessage
  · exact h.takeMessage.forwardPtp
  · exact h.takeMessage.nextId.queueEgress

/-! ### Stack: Stacking -/

theorem advertise (h : Keeps a s) : Keeps a s.advertise := .ite (h.foldl (fun h => h.sendMessage)) h
theorem stackNotice (h : Keeps a s) {member event link lanes} : Keeps a (s.stackNotice member event link lanes) := h.notify4
theorem equinoxNotice (h : Keeps a s) {event low high format} : Keeps a (s.equinoxNotice event low high format) := h.notify4

theorem settleEquinox (h : Keeps a s) : Keeps a s.settleEquinox := by
  unfold State.settleEquinox
  dsimp only
  split
  · exact h.same.equinoxNotice
  · exact h.same.equinoxNotice
  · exact h.same

theorem settleRoot (h : Keeps a s) : Keeps a s.settleRoot := .ite h.same.servoMode.same (.ite h.same.servoMode.same h.same)

theorem leaveStack (h : Keeps a s) : Keeps a s.leaveStack :=
  .settleRoot (.settleEquinox (.same (.foldl (.ite h.sendAll h) (fun h => h.complete))))

theorem failJoin (h : Keeps a s) : Keeps a s.failJoin := by
  unfold State.failJoin
  split
  · exact h
  · exact h.leaveStack.complete

theorem joinStep (h : Keeps a s) : Keeps a s.joinStep := by
  unfold State.joinStep
  split
  · exact h
  · exact .ite h.same.stackNotice.complete h

theorem sendTable (h : Keeps a s) {d} : Keeps a (s.sendTable d) := (h.foldl (fun h => h.sendMessage)).sendMessage

theorem takeMember (h : Keeps a s) {d i} : Keeps a (s.takeMember d i) := by
  unfold State.takeMember
  dsimp only
  split
  · refine .joinStep ?_
    split
    · split
      · exact .ite h.same.settleEquinox.settleRoot.sendMessage h.same.settleEquinox.settleRoot.sendMessage.sendTable
      · split
        · exact h.same.settleEquinox.settleRoot.stackNotice.sendMessage
        · exact h.same.settleEquinox.settleRoot.stackNotice.sendMessage.sendTable
    · split
      · exact .ite h.same.settleEquinox.settleRoot.sendMessage h.same.settleEquinox.settleRoot.sendMessage.sendTable
      · split
        · exact h.same.settleEquinox.settleRoot.stackNotice.sendMessage
        · exact h.same.settleEquinox.settleRoot.stackNotice.sendMessage.sendTable
  · exact h.same.settleEquinox.settleRoot.joinStep

theorem settleMove (h : Keeps a s) {c} : Keeps a (s.settleMove c) := by
  unfold State.settleMove
  split
  · exact h
  · exact .ite h (.ite (.ite h h.modChannel.bumpStack.channelNotice) (.ite h h.bumpStack.completeOpt.toIdle))

theorem settleMoves (h : Keeps a s) : Keeps a s.settleMoves := h.foldl fun h => h.settleMove
theorem dropMove (h : Keeps a s) {c status} : Keeps a (s.dropMove c status) := h.enterIdle.channelNotice
theorem finishChange (h : Keeps a s) {e} : Keeps a (s.finishChange e) := h.sendAll.completeOpt
theorem settleChanges (h : Keeps a s) : Keeps a s.settleChanges := h.same.foldl fun h => h.finishChange

theorem dropMoves (h : Keeps a s) : Keeps a s.dropMoves :=
  h.foldl (fun h => by
      split
      · exact h
      · exact .ite h (.ite h.dropMove h.failMove))

theorem advertisementStep (h : Keeps a s) {d info} : Keeps a (advertisementStep d info s) := by
  unfold Machine.advertisementStep
  split
  · exact h
  · split
    · exact .ite h.takeMessage h.takeMessage.same.stackNotice.settleEquinox.settleRoot.dropMoves.settleChanges
    · exact .ite h.takeMessage.failJoin (.ite h.takeMessage.takeMember (.ite h.takeMessage.failJoin h.takeMessage))

theorem stackJoinTimeoutStep (h : Keeps a s) : Keeps a (stackJoinTimeoutStep s) := by
  unfold Machine.stackJoinTimeoutStep
  split
  · exact h
  · exact .ite h h.failJoin

theorem moveOrigin (h : Keeps a s) {mediaNs} : Keeps a (s.moveOrigin mediaNs) := h.same

theorem flowTableCopyStep (h : Keeps a s) {entry mediaNs} : Keeps a (flowTableCopyStep entry mediaNs s) := by
  unfold Machine.flowTableCopyStep
  split
  · exact h
  · split
    · exact h.takeMessage.same
    · exact .joinStep (.ite h.takeMessage.same.moveOrigin h.takeMessage.same)

theorem loseLink (h : Keeps a s) {p} : Keeps a (s.loseLink p) := by
  unfold State.loseLink
  exact (h.setBgPort.foldl (fun h => h.routeFlits)).logError.stackNotice.advertise.settleRoot.dropMoves.settleChanges

theorem stackLinkLostStep (h : Keeps a s) {p} : Keeps a (stackLinkLostStep p s) := .ite h h.loseLink

theorem laneLostStep (h : Keeps a s) {p} : Keeps a (laneLostStep p s) :=
  .ite h (.ite h.setBgPort.logError.stackNotice.advertise h.setBgPort.loseLink)

theorem laneRetrainedStep (h : Keeps a s) {p} : Keeps a (laneRetrainedStep p s) :=
  .ite h (.ite h.setBgPort.stackNotice (.ite h.setBgPort.advertise h))

theorem linkRetrainStep (h : Keeps a s) {p} : Keeps a (linkRetrainStep p s) := .ite h.setBgPort h

theorem flitReceivedStep (h : Keeps a s) {p flit} : Keeps a (flitReceivedStep p flit s) :=
  .ite h (.ite h.flitIn h.flitIn.advertise.settleRoot.joinStep)

theorem timeFlitExchangeStep (h : Keeps a s) {p t1 t2 t3 t4} : Keeps a (timeFlitExchangeStep p t1 t2 t3 t4 s) := .ite h.sample.joinStep h
theorem stackStepRelayStep (h : Keeps a s) {amount epoch} : Keeps a (stackStepRelayStep amount epoch s) := .ite h.takeMessage.stepDue h

theorem stackLegBlockStep (h : Keeps a s) {d c leg tick samples} : Keeps a (stackLegBlockStep d c leg tick samples s) :=
  .ite h.takeMessage.modLeg h.takeMessage

theorem commitChange (h : Keeps a s) {c} : Keeps a (s.commitChange c) := h.same.bumpStack.settleMoves

theorem takeChange (h : Keeps a s) {c} : Keeps a (s.takeChange c).1 := by
  unfold State.takeChange
  split
  · split
    · exact h.same
    · exact h
  · exact h

theorem abandonChange (h : Keeps a s) {c status d} : Keeps a (s.abandonChange c status d) := by
  unfold State.abandonChange
  dsimp only
  split
  · exact h.bumpStack.takeChange.complete
  · exact h.bumpStack.takeChange

theorem countFailedWalk (h : Keeps a s) {c} : Keeps a (s.countFailedWalk c) := .ite h.same h
theorem appliedBy (h : Keeps a s) {d c} : Keeps a (s.appliedBy d c) := h.same

theorem sequenceChange (h : Keeps a s) {c votes} : Keeps a (s.sequenceChange c votes) := by
  unfold State.sequenceChange
  dsimp only
  split
  · exact h.sendAll.commitChange.takeChange.same.settleChanges
  · exact h.countFailedWalk.sendAll.abandonChange

theorem stackFlowChangeStep (h : Keeps a s) {turn} : Keeps a (stackFlowChangeStep turn s) := by
  unfold Machine.stackFlowChangeStep
  split
  · exact h
  · split
    · split
      · exact .ite h h.sequenceChange
      · exact h
    · exact .ite h h.sequenceChange
    · exact .ite h.takeMessage.countFailedWalk.sendMessage h
    · exact .ite h.takeMessage.commitChange.sendMessage h
    · exact .ite h.takeMessage.abandonChange h
    · exact .ite h h.takeMessage.appliedBy.settleChanges
    · exact .ite h.takeMessage.takeChange.completeOpt h

theorem stackConfigBody (h : Keeps a s) {x0} : (stackConfigBody x0 s).Keeps a := by
  unfold Machine.stackConfigBody
  extract_lets k n t m f s1 k1 s2
  have h1 : Keeps a s1 := .ite h.failJoin h.leaveStack
  have h2 : Keeps a s2 := h1.same
  exact .ite trivial (.ite trivial (.ite trivial (.ite h.same.completed (.ite h2.completed h2.same.accepted))))

theorem clearStack (h : Keeps a s) : Keeps a s.clearStack := (h.foldl (fun h => h.modBgPort)).same
theorem stackQueryBody (h : Keeps a s) {x0} : (stackQueryBody x0 s).Keeps a := Keeps.done (.ite h.clearStack h)

/-! ### Move: Moves within the device and to another device, the evacuation of a block, the ends of engine jobs, and the tick origin -/

theorem moveThread (h : Keeps a s) {c b t} : Keeps a (s.moveThread c b t) :=
  .noteEmpty (.modChannel (.modThread (.freeSlotOf (.modBlock (.modBlock (.ite h.dropRun h))))))

theorem moveHere (h : Keeps a s) {c b t r} : Keeps a (s.moveHere c b t r) := by
  unfold State.moveHere
  dsimp only
  split
  · exact .ite h.holdSlot.wakeFor.moveThread.completeOpt h.holdSlot.wakeFor.moveThread.modChannel
  · exact h.holdSlot.wakeFor.modChannel.channelNotice

theorem moveAway (h : Keeps a s) {c d b r} : Keeps a (s.moveAway c d b r) := by
  unfold State.moveAway
  exact h.modChannel.channelNotice.sendClass

theorem chMoveBody (h : Keeps a s) {x0} : (chMoveBody x0 s).Keeps a := by
  unfold Machine.chMoveBody
  dsimp only
  split
  iterate 4 trivial
  all_goals
    split
    · split
      · trivial
      · split
        · trivial
        · exact h.accepted fun h => h.moveHere
    · split
      · trivial
      · exact h.accepted fun h => h.moveAway

theorem reserveStep (h : Keeps a s) {d c b format compute dram units wide} : Keeps a (reserveStep d c b format compute dram units wide s) := by
  unfold Machine.reserveStep
  dsimp only
  split
  · exact h.takeMessage.sendClass
  · exact h.takeMessage.setChannel.holdSlot.wakeFor.sendClass

theorem reservedStep (h : Keeps a s) {c status} : Keeps a (reservedStep c status s) := by
  unfold Machine.reservedStep
  split
  · exact h
  · exact .ite h (.ite (.ite h.takeMessage h.takeMessage.dropMove) (.ite h.takeMessage.failMove h.takeMessage.modChannel))

theorem peerTo (h : Keeps a s) {c leg d} : Keeps a (s.peerTo c leg d) := h.modChannel
theorem tellPeers (h : Keeps a s) {c d} : Keeps a (s.tellPeers c d) := h.foldl fun h => .ite h.peerTo h.sendClass
theorem moveFlows (h : Keeps a s) {c d} : Keeps a (s.moveFlows c d) := h.foldl fun h => .ite h.same.sendMessage h.same

theorem movedStep (h : Keeps a s) {c status} : Keeps a (movedStep c status s) := by
  unfold Machine.movedStep
  split
  · exact h
  · split
    · exact h
    · split
      · exact .ite h.takeMessage h.takeMessage.dropMove
      · exact .ite h.takeMessage (.ite h.takeMessage.failMove h.takeMessage.modChannel.tellPeers.moveFlows.settleMove)

theorem peerMovedStep (h : Keeps a s) {c leg d} : Keeps a (peerMovedStep c leg d s) := .ite h.peerTo h

theorem contextFrameStep (h : Keeps a s) {d c cut held frame} : Keeps a (contextFrameStep d c cut held frame s) := by
  unfold Machine.contextFrameStep
  dsimp only
  split
  · exact h.takeMessage
  · exact .ite h.takeMessage (.ite h.takeMessage.sendClass.dropMove h.takeMessage.modChannel.queueJobAt)

theorem endMissing (h : Keeps a s) {c leg fuel} : Keeps a (s.endMissing c leg fuel) := by
  induction fuel generalizing s with
  | zero => exact h
  | succ n ih =>
    unfold State.endMissing
    split
    · exact h
    · exact .ite h (ih h.endPlay)

theorem endContextIn (h : Keeps a s) {j c err} : Keeps a (s.endContextIn j c err) := by
  unfold State.endContextIn
  dsimp only
  split
  · exact h
  · exact .ite h (.ite h.sendClass.dropMove (h.sendClass.setChannel.modThread.foldl (fun h => h.endMissing)).settleMove)

theorem endContextOut (h : Keeps a s) {j c err} : Keeps a (s.endContextOut j c err) := by
  unfold State.endContextOut
  split
  · exact h
  · split
    · exact h
    · split
      · exact h.sendMessage
      · exact h.abortMove.failMove
      · exact h.abortMove.failMove

theorem enlargerJobEndStep (h : Keeps a s) {r err} : Keeps a (enlargerJobEndStep r err s) := by
  unfold Machine.enlargerJobEndStep
  split
  · exact h
  · split
    · exact h
    · split
      · exact h.logJobError.dropRunning.endFirmware
      · exact h.logJobError.dropRunning.endTable
      · exact h.logJobError.dropRunning.endKernel
      · exact h.logJobError.dropRunning.endPrompt
      · exact h.logJobError.dropRunning.endPiece
      · exact h.logJobError.dropRunning.endContextIn
      · exact h.logJobError.dropRunning.endEnlarge
      · exact h.logJobError.dropRunning
      · exact h.logJobError.dropRunning
      · exact h.logJobError.dropRunning

theorem reducerJobEndStep (h : Keeps a s) {r err} : Keeps a (reducerJobEndStep r err s) := by
  unfold Machine.reducerJobEndStep
  split
  · exact h
  · split
    · exact h
    · split
      · exact h.logJobError.dropRunning.endContextOut
      · exact h.logJobError.dropRunning.endReduce
      · exact h.logJobError.dropRunning.endReduce
      · exact h.logJobError.dropRunning
      · exact h.logJobError.dropRunning
      · exact h.logJobError.dropRunning
      · exact h.logJobError.dropRunning
      · exact h.logJobError.dropRunning
      · exact h.logJobError.dropRunning
      · exact h.logJobError.dropRunning

theorem evacuateOne (h : Keeps a s) {b c} : Keeps a (s.evacuateOne b c) := by
  unfold State.evacuateOne
  refine .ite h ?_
  split
  iterate 2 exact h
  iterate 2 exact h.failEvacuation
  all_goals
    split
    · split
      · exact h.moveHere
      · exact h.failEvacuation
    · split
      · exact h.failEvacuation
      · exact h.moveAway

theorem evacuate (h : Keeps a s) {b} : Keeps a (s.evacuate b) := .ite h (.ite h.failEvacuation (h.foldl (fun h => h.evacuateOne)))

theorem blockEvacuateBody (h : Keeps a s) {x0} : (blockEvacuateBody x0 s).Keeps a :=
  .ite trivial (h.modBlock.accepted (fun h => h.evacuate))

theorem applySchedule (h : Keeps a s) {b} : Keeps a (s.applySchedule b) := by
  unfold State.applySchedule
  dsimp only
  exact h.modBlock.foldl (fun h => by
      split
      · exact h
      · exact h.setChannel.modThread)

theorem clearCell (h : Keeps a s) {b i} : Keeps a (s.clearCell b i) := h.foldl fun h => h.modThread

theorem applySpare (h : Keeps a s) {b} : Keeps a (s.applySpare b) := by
  unfold State.applySpare
  dsimp only
  split
  · exact h
  · exact .ite (.ite h.modBlock.modBlock.clearCell h.modBlock) (.ite h.modBlock.modBlock h.modBlock)

theorem completeMove (h : Keeps a s) {c} : Keeps a (s.completeMove c) := by
  unfold State.completeMove
  dsimp only
  split
  · exact h
  · exact .ite h (.ite h.failMove (.ite h h.moveThread.modChannel.completeOpt.channelNotice))

theorem rebind (h : Keeps a s) {b} : Keeps a (s.rebind b) := by
  unfold State.rebind
  dsimp only
  split
  · split
    · exact h.modThread.bumpBlock
    · exact h
  · exact h

theorem lateContext (h : Keeps a s) {c} : Keeps a (s.lateContext c) := by
  unfold State.lateContext
  dsimp only
  split
  · exact h
  · exact .ite h.contextLeaves h

theorem eachBlock (h : Keeps a s) {f : State → Nat → State} (hf : ∀ {u b}, Keeps a u → Keeps a (f u b)) : Keeps a (s.eachBlock f) :=
  h.foldl hf

theorem eachMoving (h : Keeps a s) {f : State → Nat → State} (hf : ∀ {u c}, Keeps a u → Keeps a (f u c)) : Keeps a (s.eachMoving f) :=
  h.foldl hf

theorem tickOriginStep (h : Keeps a s) : Keeps a (tickOriginStep s) := by
  unfold Machine.tickOriginStep
  split
  · exact h
  · exact h.same.commitTables.eachBlock (fun h => h.applySchedule) |>.eachBlock (fun h => h.applySpare)
      |>.eachMoving (fun h => h.completeMove) |>.eachMoving (fun h => h.lateContext) |>.eachBlock (fun h => h.rebind)
      |>.eachBlock fun h => h.evacuate

/-! ### Device: The device, region, block, cell and firmware commands that have no chapter of their own, the error log read and the sensors -/

theorem devHelloBody (h : Keeps a s) {x0} : (devHelloBody x0 s).Keeps a := h.done
theorem devQueryBody (h : Keeps a s) {x0} : (devQueryBody x0 s).Keeps a := Keeps.done (.ite h.same h)
theorem devUdpKeySetBody (h : Keeps a s) {x0} : (devUdpKeySetBody x0 s).Keeps a := .ite trivial h.same.done

theorem devNoticeConfigBody (h : Keeps a s) {x0} : (devNoticeConfigBody x0 s).Keeps a := by
  unfold Machine.devNoticeConfigBody
  dsimp only
  split
  · trivial
  · exact h.setDest.done

theorem devResetBody (h : Keeps a s) {x0} : (devResetBody x0 s).Keeps a := h.fenced
theorem devLifecycleBody (h : Keeps a s) {x0} : (devLifecycleBody x0 s).Keeps a := .ite trivial (.ite trivial h.fenced)
theorem devArbSetBody (h : Keeps a s) {x0} : (devArbSetBody x0 s).Keeps a := h.same.done
theorem regionArbSetBody (h : Keeps a s) {x0} : (regionArbSetBody x0 s).Keeps a := h.modRegion.done

theorem blockConfigBody (h : Keeps a s) {x0} : (blockConfigBody x0 s).Keeps a := by
  unfold Machine.blockConfigBody
  split
  · exact h.done
  · exact .ite trivial h.modBlock.done

theorem blockQueryBody (h : Keeps a s) {x0} : (blockQueryBody x0 s).Keeps a := Keeps.done (.ite h.modBlock h)
theorem awaitReset (h : Keeps a s) {scope id r} : Keeps a (s.awaitReset scope id r) := h.same

theorem wakeForReset (h : Keeps a s) {l} : Keeps a (s.wakeForReset l) :=
  h.foldl (fun h => by
      split
      · exact h
      · exact h.wakeDomain
      · exact h.startWakeDomain)

theorem wipeBlock (h : Keeps a s) {b} : Keeps a (s.wipeBlock b) := h.modBlock.foldl fun h => h.modCell

theorem returnBlock (h : Keeps a s) {b} : Keeps a (s.returnBlock b) := by
  unfold State.returnBlock
  exact (h.modBlock.loadTemplates.foldl (fun h => h.resetCell)).modBlock

theorem blockResetBody (h : Keeps a s) {x0} : (blockResetBody x0 s).Keeps a :=
  .ite trivial (h.awaitReset.accepted (fun h => h.wakeForReset.wipeBlock))

theorem cellResetBody (h : Keeps a s) {x0} : (cellResetBody x0 s).Keeps a :=
  .ite trivial (h.awaitReset.accepted (fun h => h.wakeForReset.modCell))

theorem dropHeld (h : Keeps a s) {r} : Keeps a (s.dropHeld r) := by
  unfold State.dropHeld
  exact h.modRegion

theorem wipeRegion (h : Keeps a s) {r} : Keeps a (s.wipeRegion r) := h.dropHeld.modRegion.foldl fun h => h.wipeBlock

theorem regionResetBody (h : Keeps a s) {x0} : (regionResetBody x0 s).Keeps a :=
  .ite trivial (h.awaitReset.accepted (fun h => (h.foldl (fun h => h.wakeForReset)).wakeForReset.wipeRegion))

theorem writeSelector_fuses (l : Life) (k : Nat) : (l.writeSelector k).fuses = l.fuses := by
  unfold Life.writeSelector
  split <;> rfl

theorem fwActivateBody (h : Keeps a s) {x} : (fwActivateBody x s).Keeps a := by
  exact .ite trivial (h.same (hlife := writeSelector_fuses _ _)).done

theorem fwQueryBody (h : Keeps a s) {x0} : (fwQueryBody x0 s).Keeps a := h.done

theorem fwBlockActivateBody (h : Keeps a s) {x0} : (fwBlockActivateBody x0 s).Keeps a := by
  unfold Machine.fwBlockActivateBody
  extract_lets b k
  refine .ite trivial (.ite trivial (h.awaitReset.accepted fun h => ?_))
  extract_lets s1
  have h1 : Keeps a s1 := h.wakeForReset.wipeBlock.modBlock
  exact .ite h1 h1.same

theorem firmwareSwitchedStep (h : Keeps a s) : Keeps a (firmwareSwitchedStep s) := by
  unfold Machine.firmwareSwitchedStep
  split
  · exact h
  · exact h.same

theorem payReset (h : Keeps a s) {scope id} : Keeps a (s.payReset scope id) := h.same.foldl fun h => h.complete

theorem settleSelector (h : Keeps a s) {k} : Keeps a (s.settleSelector k) :=
  .ite (h.same (hlife := writeSelector_fuses _ _)) h

theorem endBlockReset (h : Keeps a s) {b} : Keeps a (s.endBlockReset b) := by
  unfold State.endBlockReset
  dsimp only
  split
  · exact h.returnBlock
  · exact h.returnBlock.settleSelector.advertise.settleEquinox

theorem scopeResetStep (h : Keeps a s) {scope id} : Keeps a (scopeResetStep scope id s) := by
  unfold Machine.scopeResetStep
  split
  · exact h
  · split
    · exact .ite h ((h.modRegion.foldl (fun h => h.endBlockReset)).payReset.foldl (fun h => h.payReset))
    · exact .ite (.ite h (h.endBlockReset.payReset.foldl (fun h => h.payReset))) (.ite (.ite h h.returnCell.payReset) h)

theorem errorLogReadBody (h : Keeps a s) {x0} : (errorLogReadBody x0 s).Keeps a := Keeps.done (.ite h.same h)
theorem sensorQueryBody (h : Keeps a s) {x0} : (sensorQueryBody x0 s).Keeps a := h.drawn.done

/-! ### FylosAll: The own rules of every opcode, and the turns in which Damium takes commands from its five sources -/

theorem keepsBody_bodyIn {l : List (Nat × Body)} (h : ∀ e ∈ l, KeepsBody e.2) {op : Nat} {body : Body} (hb : bodyIn l op = some body) :
    KeepsBody body := by
  obtain ⟨e, he, rfl⟩ := Option.map_eq_some_iff.1 hb
  exact h e (List.mem_of_find?_eq_some he)

theorem keepsBody_bodies01 : ∀ e ∈ bodies01, KeepsBody e.2 := by
  simp only [bodies01, List.forall_mem_cons]
  exact ⟨fun h => h.devHelloBody, fun h => h.devUdpKeySetBody, fun h => h.devNoticeConfigBody, fun h => h.devQueryBody,
    fun h => h.devResetBody, fun h => h.devLifecycleBody, fun h => h.devArbSetBody, fun h => h.blockConfigBody,
    fun h => h.blockQueryBody, fun h => h.blockResetBody, fun h => h.cellResetBody, fun h => h.regionResetBody,
    fun h => h.regionArbSetBody, nofun⟩

theorem keepsBody_bodies02 : ∀ e ∈ bodies02, KeepsBody e.2 := by
  simp only [bodies02, List.forall_mem_cons]
  exact ⟨fun h => h.chOpenBody, fun h => h.chSetLegBody, fun h => h.chActivateBody, fun h => h.chHoldBody,
    fun h => h.chResumeBody, fun h => h.chDrainBody, fun h => h.chCloseBody, fun h => h.chMoveBody, fun h => h.chRecoverBody,
    fun h => h.chQueryBody, fun h => h.chSchedSetBody, nofun⟩

theorem keepsBody_bodies03 : ∀ e ∈ bodies03, KeepsBody e.2 := by
  simp only [bodies03, List.forall_mem_cons]
  exact ⟨fun h => h.flowInsertBody, fun h => h.flowRemoveBody, fun h => h.flowModifyBody, fun h => h.flowQueryBody,
    fun h => h.srtpSetBody, fun h => h.srtpClearBody, fun h => h.srtpQueryBody, fun h => h.templateLoadBody,
    fun h => h.templateRemoveBody, fun h => h.peConfigBody, fun h => h.peCountersBody, nofun⟩

theorem keepsBody_bodies04 : ∀ e ∈ bodies04, KeepsBody e.2 := by
  simp only [bodies04, List.forall_mem_cons]
  exact ⟨fun h => h.echoSetBody, fun h => h.echoQueryBody, fun h => h.echoCoefReadBody, nofun⟩

theorem keepsBody_bodies05 : ∀ e ∈ bodies05, KeepsBody e.2 := by
  simp only [bodies05, List.forall_mem_cons]
  exact ⟨fun h => h.playoutSetBody, fun h => h.playoutQueryBody, nofun⟩

theorem keepsBody_bodies06 : ∀ e ∈ bodies06, KeepsBody e.2 := by
  simp only [bodies06, List.forall_mem_cons]
  exact ⟨fun h => h.codecSetBody, fun h => h.codecQueryBody, fun h => h.resampleSetBody, fun h => h.resampleResetBody,
    fun h => h.resampleQueryBody, nofun⟩

theorem keepsBody_bodies07 : ∀ e ∈ bodies07, KeepsBody e.2 := by
  simp only [bodies07, List.forall_mem_cons]
  exact ⟨fun h => h.toneDetectSetBody, fun h => h.tonePlayBody, fun h => h.toneStopBody, fun h => h.gainSetBody,
    fun h => h.tableLoadBody, fun h => h.tableDeleteBody, fun h => h.tableQueryBody, fun h => h.tableReadBody,
    fun h => h.promptLoadBody, fun h => h.promptDeleteBody, fun h => h.promptPlayBody, fun h => h.promptStopBody,
    fun h => h.promptQueryBody, fun h => h.promptStoreConfigBody, nofun⟩

theorem keepsBody_bodies08 : ∀ e ∈ bodies08, KeepsBody e.2 := by
  simp only [bodies08, List.forall_mem_cons]
  exact ⟨fun h => h.tdmGroupConfigBody, fun h => h.tdmHighwayConfigBody, fun h => h.tdmLoopbackBody, fun h => h.tdmQueryBody,
    nofun⟩

theorem keepsBody_bodies09 : ∀ e ∈ bodies09, KeepsBody e.2 := by
  simp only [bodies09, List.forall_mem_cons]
  exact ⟨fun h => h.timeConfigBody, fun h => h.timeSetBody, fun h => h.timeStepBody, fun h => h.timeQueryBody,
    fun h => h.servoConfigBody, fun h => h.servoSampleBody, fun h => h.portTsConfigBody, fun h => h.ptpSendBody, nofun⟩

theorem keepsBody_bodies0A : ∀ e ∈ bodies0A, KeepsBody e.2 := by
  simp only [bodies0A, List.forall_mem_cons]
  exact ⟨fun h => h.portConfigBody, fun h => h.shutterLoadBody, fun h => h.shutterQueryBody, fun h => h.portPairBody,
    fun h => h.portCountersBody, nofun⟩

theorem keepsBody_bodies0B : ∀ e ∈ bodies0B, KeepsBody e.2 := by
  simp only [bodies0B, List.forall_mem_cons]
  exact ⟨fun h => h.stackConfigBody, fun h => h.stackQueryBody, fun h => h.blockEvacuateBody, nofun⟩

theorem keepsBody_bodies0C : ∀ e ∈ bodies0C, KeepsBody e.2 := by
  simp only [bodies0C, List.forall_mem_cons]
  exact ⟨fun h => h.fwLoadBody, fun h => h.fwActivateBody, fun h => h.fwQueryBody, fun h => h.fwBlockActivateBody,
    fun h => h.imageEnlargeBody, fun h => h.imageReduceBody, fun h => h.userKernelLoadBody, fun h => h.userHookSetBody,
    fun h => h.userKernelQueryBody, nofun⟩

theorem keepsBody_bodies0D : ∀ e ∈ bodies0D, KeepsBody e.2 := by
  simp only [bodies0D, List.forall_mem_cons]
  exact ⟨fun h => h.clockConfigBody, fun h => h.clockQueryBody, fun h => h.domainGateBody, fun h => h.clkoutSetBody,
    fun h => h.tclkOutSetBody, fun h => h.powerSetBody, fun h => h.powerQueryBody, nofun⟩

theorem keepsBody_bodies0E : ∀ e ∈ bodies0E, KeepsBody e.2 := by
  simp only [bodies0E, List.forall_mem_cons]
  exact ⟨fun h => h.errorLogReadBody, fun h => h.traceConfigBody, fun h => h.traceDumpBody, fun h => h.sensorQueryBody,
    fun h => h.rsRomReadBody, nofun⟩

/-- The own rules of every opcode. -/
theorem keepsBody_bodyOf {op : Nat} : KeepsBody (bodyOf op) := by
  unfold Machine.bodyOf
  cases hb : bodyIn _ op with
  | none => exact fun _ => trivial
  | some body =>
    refine keepsBody_bodyIn ?_ hb
    simp only [List.forall_mem_append]
    exact ⟨⟨⟨⟨⟨⟨⟨⟨⟨⟨⟨⟨⟨keepsBody_bodies01, keepsBody_bodies02⟩, keepsBody_bodies03⟩, keepsBody_bodies04⟩, keepsBody_bodies05⟩,
      keepsBody_bodies06⟩, keepsBody_bodies07⟩, keepsBody_bodies08⟩, keepsBody_bodies09⟩, keepsBody_bodies0A⟩, keepsBody_bodies0B⟩,
      keepsBody_bodies0C⟩, keepsBody_bodies0D⟩, keepsBody_bodies0E⟩

theorem dmaStop (h : Keeps a s) {n cause index} : Keeps a (s.dmaStop n cause index) := h.modRing

theorem takeEntries (h : Keeps a s) {n t} (ht : s.takeEntries n = some t) : Keeps a t := by
  unfold State.takeEntries at ht
  dsimp only at ht
  split at ht
  · cases ht
  · split at ht
    · cases ht
      exact h.dmaStop
    · split at ht
      · cases ht
        exact h.ringCommand keepsBody_bodyOf
      · split at ht
        · cases ht
        · split at ht
          · cases ht
            exact h.dmaStop
          · cases ht
            exact h.modRing.ringCommand keepsBody_bodyOf

theorem takeRing (h : Keeps a s) {n t} (ht : s.takeRing n = some t) : Keeps a t := by
  unfold State.takeRing at ht
  dsimp only at ht
  split at ht
  · cases ht
  · split at ht
    · cases ht
      exact h.modRing.ringCommand keepsBody_bodyOf
    · exact h.takeEntries ht

theorem takeUdp (h : Keeps a s) {t} (ht : s.takeUdp = some t) : Keeps a t := by
  unfold State.takeUdp at ht
  split at ht
  · cases ht
  · cases ht
    exact h.same.fylosRun keepsBody_bodyOf

theorem takeFrom (h : Keeps a s) {k t} (ht : s.takeFrom k = some t) : Keeps a t := by
  unfold State.takeFrom at ht
  split at ht
  · exact h.takeRing ht
  · exact h.takeUdp ht

theorem takeNext (h : Keeps a s) {t} (ht : s.takeNext = some t) : Keeps a t := by
  unfold State.takeNext at ht
  split at ht
  · cases ht
  · obtain ⟨k, -, hk⟩ := List.exists_of_findSome?_eq_some ht
    obtain ⟨u, hu, rfl⟩ := Option.map_eq_some_iff.1 hk
    exact (h.takeFrom hu).same

theorem takeAll (h : Keeps a s) {fuel} : Keeps a (s.takeAll fuel) := by
  induction fuel generalizing s with
  | zero => exact h
  | succ n ih =>
    unfold State.takeAll
    split
    next ht => exact ih (h.takeNext ht)
    next => exact h

theorem service (h : Keeps a s) : Keeps a s.service := h.takeAll

/-! ### Rings: The ring pairs -/

theorem doorbellStep (h : Keeps a s) {n tail entries} : Keeps a (doorbellStep n tail entries s) := .ite h h.modRing.service
theorem rplHeadStep (h : Keeps a s) {n head} : Keeps a (rplHeadStep n head s) := .ite h h.modRing.service
theorem devReady (h : Keeps a s) : Keeps a s.devReady := .ite h h.setDest.noticeAt.setDest.same
theorem ringEnableStep (h : Keeps a s) {n} : Keeps a (ringEnableStep n s) := .ite h (.service (.ite h.modRing.devReady h.modRing))
theorem disableRing (h : Keeps a s) {n} : Keeps a (s.disableRing n) := h.modRing
theorem ringDisableStep (h : Keeps a s) {n} : Keeps a (ringDisableStep n s) := .ite h h.disableRing
theorem disableRings (h : Keeps a s) : Keeps a s.disableRings := h.foldl fun h => h.disableRing
theorem signalRing (h : Keeps a s) {n} : Keeps a (s.signalRing n) := h.modRing.signal

theorem partLeft (h : Keeps a s) {p} : Keeps a (s.partLeft p) := by
  unfold State.partLeft
  split
  · exact h.fenceLeft.tellLost
  · exact h.fenceLeft

theorem replyWriteStep (h : Keeps a s) {n ok} : Keeps a (replyWriteStep n ok s) := by
  unfold Machine.replyWriteStep
  dsimp only
  split
  · exact h
  · exact .ite h (.ite h.dmaStop (.service (.partLeft (.ite h.modRing.signalRing h.modRing))))

theorem coalTimeStep (h : Keeps a s) {n} : Keeps a (coalTimeStep n s) := .ite h h.signalRing
theorem pcieLinkResetStep (h : Keeps a s) : Keeps a (pcieLinkResetStep s) := h.disableRings.same
theorem d3hotStep (h : Keeps a s) {enter} : Keeps a (d3hotStep enter s) := .ite h.disableRings.same h.same

/-! ### Regs: BAR0 and BAR2 -/

theorem withBoard (h : Keeps a s) {f} : Keeps a (s.withBoard f) := h.same
theorem bar2BaseStep (h : Keeps a s) {hi v} : Keeps a (bar2BaseStep hi v s) := .ite h.same h

theorem bootPhase (h : Keeps a s) {p} : Keeps a (s.bootPhase p) := by
  unfold State.bootPhase
  split
  · exact h.withBoard.deviceIrq
  · exact h.withBoard.deviceIrq
  · exact h.withBoard.deviceIrq
  · exact h.withBoard
  · exact h.withBoard
  · exact h.withBoard
  · exact h.withBoard
  · exact h.withBoard
  · exact h.withBoard

theorem startImage (h : Keeps a s) {k} : Keeps a (s.startImage k) :=
  ((h.foldl (fun h => h.modBlock.loadTemplates)).foldl (fun h => h.startCell)).same.bootPhase.deviceIrq

theorem bootGoStep (h : Keeps a s) : Keeps a (bootGoStep s) := .ite h (.ite h.bootPhase.withBoard.bootPhase h.bootPhase.same.startImage)

theorem idWrite (h : Keeps a s) {o v} : Keeps a (s.idWrite o v) := by
  unfold State.idWrite
  split
  · exact .ite h.withBoard h
  · split
    · exact .ite h.withBoard h
    · split
      · exact .ite h.withBoard h
      · exact .ite (.ite h.bootGoStep h) (.ite h.bar2BaseStep (.ite h.bar2BaseStep (.ite h.withBoard (.ite h.withBoard h))))

theorem ringCtrl (h : Keeps a s) {n v} : Keeps a (s.ringCtrl n v) :=
  .ite h.modRing.ringEnableStep (.ite h.modRing.ringDisableStep h.modRing)

theorem ringBase (h : Keeps a s) {n f} : Keeps a (s.ringBase n f) := .ite h h.modRing

theorem ringsWrite (h : Keeps a s) {o v} : Keeps a (s.ringsWrite o v) :=
  .ite h (.ite h.ringBase (.ite h.ringBase (.ite h.ringBase (.ite h.ringBase (.ite h.rplHeadStep (.ite h.ringCtrl (.ite h.modRing h)))))))

theorem sheetCtrl (h : Keeps a s) {p v} : Keeps a (s.sheetCtrl p v) :=
  .ite h (.ite (.flushSheet (.ite h.setSheet.popSheet h.setSheet)) (.ite h.setSheet.popSheet h.setSheet))

theorem timeWrite (h : Keeps a s) {o v} : Keeps a (s.timeWrite o v) := .ite (.ite h.tsSnapStep h) (.ite h.same (.ite h.sheetCtrl h))
theorem msixWrite (h : Keeps a s) {n k v} : Keeps a (s.msixWrite n k v) := .ite h.withBoard.withBoard h.withBoard

theorem barWrite (h : Keeps a s) {x0 v} : Keeps a (s.barWrite x0 v) :=
  .ite h.idWrite (.ite h.ringsWrite (.ite h.timeWrite (.ite h.same (.ite h.same (.ite h.withBoard h)))))

theorem registerWriteStep (h : Keeps a s) {offset v be} : Keeps a (registerWriteStep offset v be s) :=
  .ite h (.ite h.msixWrite (.ite h (.ite h.withBoard h.barWrite)))

theorem diagPartialStep (h : Keeps a s) : Keeps a (diagPartialStep s) := .ite h.withBoard h
theorem diagOutsideStep (h : Keeps a s) : Keeps a (diagOutsideStep s) := .ite h.withBoard h
theorem countOutside (h : Keeps a s) {last} : Keeps a (s.countOutside last) := .ite h.withBoard h

theorem bar2Step (h : Keeps a s) {offset data len ecc} : Keeps a (bar2Step offset data len ecc s) := by
  unfold Machine.bar2Step
  dsimp only
  split
  · exact h
  · split
    · exact h.countOutside.stored (memoryWf_memWrite _ _)
    · split
      · exact h.countOutside.logError.withBoard
      · exact Keeps.withBoard (.ite h.countOutside.correctable h.countOutside)
      · exact Keeps.withBoard (.ite h.countOutside.correctable h.countOutside)

/-! ### Tap: The test access port -/

theorem tapLoad (h : Keeps a s) {i held d} : Keeps a (s.tapLoad i held d) := h.withBoard
theorem tapBypass (h : Keeps a s) : Keeps a s.tapBypass := h.tapLoad
theorem tapDenied (h : Keeps a s) : Keeps a s.tapDenied := h.tapBypass.withBoard
theorem idcodeStep (h : Keeps a s) : Keeps a (idcodeStep s) := h.tapLoad
theorem samplePreloadStep (h : Keeps a s) {cells} : Keeps a (samplePreloadStep cells s) := h.tapLoad.withBoard
theorem extestStep (h : Keeps a s) : Keeps a (extestStep s) := h.tapLoad
theorem extestPulseStep (h : Keeps a s) : Keeps a (extestPulseStep s) := h.tapLoad
theorem extestTrainStep (h : Keeps a s) : Keeps a (extestTrainStep s) := h.tapLoad
theorem clampStep (h : Keeps a s) : Keeps a (clampStep s) := h.tapLoad
theorem highzStep (h : Keeps a s) : Keeps a (highzStep s) := h.tapLoad
theorem bypassStep (h : Keeps a s) : Keeps a (bypassStep s) := h.tapBypass
theorem tapResetStep (h : Keeps a s) : Keeps a (tapResetStep s) := h.idcodeStep

theorem debugRead (h : Keeps a s) {x0} : Keeps a (s.debugRead x0) := by
  unfold State.debugRead
  split
  · exact h.drawn.withBoard.withBoard
  · exact .ite h.drawn.withBoard.withBoard (.ite h.drawn.withBoard.setSheet h.drawn.withBoard)

theorem debugRun (h : Keeps a s) {op} : Keeps a (debugRun op s) := by
  unfold Machine.debugRun
  split
  · exact h.same
  · exact h.same.service
  · exact h.drawn.withBoard
  · exact h.withBoard
  · exact h.withBoard
  · exact h.debugRead

theorem debugStep (h : Keeps a s) {op} : Keeps a (debugStep op s) := .ite h.tapLoad.debugRun h.tapDenied

theorem debugUnlockStep (h : Keeps a s) {key sig} : Keeps a (debugUnlockStep key sig s) :=
  .ite h.tapDenied (.ite h.tapLoad (.ite h.tapLoad.withBoard h.tapLoad.withBoard))

theorem burnField_fuses (f : FuseField) (l : Life) : (burnField f l).fuses = l.fuses := by
  cases f <;> simp only [burnField] <;> split <;> rfl

theorem fuseProgStep (h : Keeps a s) {f} : Keeps a (fuseProgStep f s) :=
  .ite (h.tapLoad.same (hlife := burnField_fuses _ _)) h.tapDenied

/-! ### Resets: Device resets, the sequence that follows them with its boot, life-cycle transitions, fatal errors and patrol scrubbing -/

/-- A reset's wipe empties DRAM, and leaves the log and the fuses. -/
theorem wiped (h : Keeps a s) : Keeps a s.wiped :=
  h.stored fun _ => memoryWf_nil

theorem freshClocks (h : Keeps a s) : Keeps a s.freshClocks := h.same
theorem clearRws (h : Keeps a s) : Keeps a s.clearRws := h.same
theorem tripPorts (h : Keeps a s) : Keeps a s.tripPorts := h.foldl fun h => .ite h.tripSource h

theorem beginReset (h : Keeps a s) {cause} : Keeps a (s.beginReset cause) := by
  have hwiped (b : Bool) : Keeps a (if b then s.tripPorts else s.freshClocks).wiped :=
    Keeps.wiped (.ite h.tripPorts h.freshClocks)
  unfold State.beginReset
  cases cause with
  | powerOn => exact (hwiped false).same.clearRws.logged fun _ => Nat.zero_le _
  | resetN => exact (hwiped false).same
  | _ => exact (hwiped true).same

theorem withHeld (h : Keeps a s) {l} : Keeps a (s.withHeld l) := h.same
theorem assertSource (h : Keeps a s) {c covered} : Keeps a (s.assertSource c covered) := .ite h (.ite h.withHeld h.beginReset.withHeld)
theorem releaseSource (h : Keeps a s) {c} : Keeps a (s.releaseSource c) := h.withHeld

theorem powerOnStep (h : Keeps a s) {asserted straps} : Keeps a (powerOnStep asserted straps s) :=
  .ite h.assertSource (.ite h h.releaseSource.same)

theorem resetNStep (h : Keeps a s) {low} : Keeps a (resetNStep low s) := .ite h.assertSource h.releaseSource
theorem perstNStep (h : Keeps a s) {low} : Keeps a (perstNStep low s) := .ite h.assertSource h.releaseSource
theorem fatal (h : Keeps a s) {cause memory address} : Keeps a (s.fatal cause memory address) := h.logError.beginReset
theorem chipWatchdogStep (h : Keeps a s) : Keeps a (chipWatchdogStep s) := .ite h h.fatal
theorem lockstepStep (h : Keeps a s) : Keeps a (lockstepStep s) := h.fatal

theorem transitionWipe (h : Keeps a s) {k} : Keeps a (s.transitionWipe k) :=
  h.same.wiped.clearRws.logged fun _ => Nat.zero_le _

theorem burnTrans (h : Keeps a s) {k bits} : Keeps a { s with life := s.life.burnTrans k bits } :=
  h.burned (fun j => tabGet_le_burnFuse _ k bits j) (fun _ => le_rfl) fun _ => rfl

theorem burnWipe (h : Keeps a s) {k bits} : Keeps a { s with life := s.life.burnWipe k bits } :=
  h.burned (fun _ => le_rfl) (fun j => tabGet_le_burnFuse _ k bits j) id

theorem lifeCycleTransitionStep (h : Keeps a s) {till} : Keeps a (lifeCycleTransitionStep till s) := by
  unfold Machine.lifeCycleTransitionStep
  split
  · exact h
  · split
    · exact h
    · split
      · exact h.same.burnTrans
      · exact h.same.burnTrans.transitionWipe
      · exact h.same.burnTrans.transitionWipe.burnWipe
      · exact h.same.burnTrans.transitionWipe.burnWipe.beginReset

theorem atStep (h : Keeps a s) {n} : Keeps a (s.atStep n) := h.same
theorem bootFailed (h : Keeps a s) {e} : Keeps a (s.bootFailed e) := h.withBoard.bootPhase
theorem bootError (h : Keeps a s) {e} : Keeps a (s.bootError e) := h.withBoard

theorem trySlot (h : Keeps a s) {f k next} (hnext : ∀ {u}, Keeps a u → Keeps a (next u)) : Keeps a (State.trySlot f k next s) :=
  .ite h.same.startImage (hnext h.same.bootError)

theorem flashBoot (h : Keeps a s) {f} : Keeps a (State.flashBoot f s) := by
  unfold State.flashBoot
  dsimp only
  exact Keeps.trySlot (.ite h.same.bootError h.same) fun h => h.trySlot fun h => .ite h.bootPhase h.bootPhase

theorem boot (h : Keeps a s) {f} : Keeps a (s.boot f) := .ite h.bootPhase (.ite h.bootFailed h.flashBoot)

theorem foldl_burnWipe (due : List Nat) (l : Life) : (due.foldl (fun l k => l.burnWipe k 4) l).trans = l.trans ∧
    (due.foldl (fun l k => l.burnWipe k 4) l).lifeCycle = l.lifeCycle ∧
    ∀ j, tabGet l.wipe j 0 ≤ tabGet (due.foldl (fun l k => l.burnWipe k 4) l).wipe j 0 := by
  induction due generalizing l with
  | nil => exact ⟨rfl, rfl, fun _ => le_rfl⟩
  | cons d r ih =>
    obtain ⟨htrans, hcycle, hwipe⟩ := ih (l.burnWipe d 4)
    exact ⟨htrans, hcycle, fun j => (tabGet_le_burnFuse l.wipe d 4 j).trans (hwipe j)⟩

/-- The pending transitions completed, and the log wiped with them. -/
theorem completePending (h : Keeps a s) {due : List Nat} :
    Keeps a { s with log := {}, life := { due.foldl (fun l k => l.burnWipe k 4) s.life with wipeResumed := true } } := by
  obtain ⟨htrans, hcycle, hwipe⟩ := foldl_burnWipe due s.life
  refine h.changed (fun _ => Nat.zero_le _) id (fun _ => by rw [htrans]) hwipe fun h => ?_
  simp only [hcycle, h, fusedState, htrans]

theorem finishReset (h : Keeps a s) {f} : Keeps a (s.finishReset f) := by
  obtain ⟨k, hk⟩ := foldl_lockBelow (pendingTransitions s.life) { s.life with lifeCycle := fusedState s.life }
  have hlocked : Keeps a { s with life := { s.life with lifeCycle := fusedState s.life, locked := k } } :=
    h.burned (fun _ => le_rfl) (fun _ => le_rfl) fun _ => rfl
  unfold State.finishReset
  dsimp only
  rw [hk]
  split
  · exact hlocked.withBoard.atStep.bootFailed
  · split
    · exact hlocked.withBoard.same.atStep.boot
    · exact hlocked.withBoard.same.clearRws.completePending.atStep.boot

theorem deviceResetStep (h : Keeps a s) {f} : Keeps a (deviceResetStep f s) :=
  .ite (.ite h.beginReset h) (.ite (.atStep (.ite h.beginReset h)) (.finishReset (.ite h.beginReset h)))

theorem scrubCorrected (h : Keeps a s) {p x1} : Keeps a (s.scrubCorrected p x1) := by
  unfold State.scrubCorrected
  split
  iterate 21 exact h.correctable
  exact h

theorem dropPending (h : Keeps a s) {b l} : Keeps a (s.dropPending b l) := h.foldl fun h => h.modThread.modBlock
theorem spoilStream (h : Keeps a s) {b c key} : Keeps a (s.spoilStream b c key) := .ite h h.resetKey.modChannel
theorem loseContext (h : Keeps a s) {i x1} : Keeps a (s.loseContext i x1) := (h.drawn.logError.foldl (fun h => h.faultChannel)).same
theorem loseTable (h : Keeps a s) {id} : Keeps a (s.loseTable id) := h.same
theorem spoilEgress (h : Keeps a s) {i media n} : Keeps a (s.spoilEgress i media n) := h.modPort

theorem spoilSlot (h : Keeps a s) {x0 n} : Keeps a (s.spoilSlot x0 n) := by
  unfold State.spoilSlot
  dsimp only
  split
  · exact h.setTdmSlot
  · exact h

theorem dropHeldPacket (h : Keeps a s) {r b n} : Keeps a (s.dropHeldPacket r b n) := h.modBlock.bumpRegion
theorem loseRecord (h : Keeps a s) {b t x2} : Keeps a (s.loseRecord b t x2) := .ite h.stageFault h

theorem scrubFault (h : Keeps a s) {p x1} : Keeps a (s.scrubFault p x1) := by
  unfold State.scrubFault
  split
  · exact h.cellTrap
  · exact h.dropPending.logError
  · exact h.spoilStream.logError
  · exact h.commitCompleteStep
  · exact h.isolationStep
  · exact .ite h.modChannel h
  · exact h.loseRecord
  · exact .ite h.logError h.loseTable.logError
  · exact .ite h.loseContext h.logError
  · exact .ite h.same.logError h.logError
  · exact h.same.logError
  · exact .ite h.reducerJobEndStep h.enlargerJobEndStep
  · exact h.logError
  · exact h
  · exact h.logError
  · exact h.bumpPort.logError
  · exact h.dropHeldPacket.logError
  · exact h.spoilEgress.logError
  · exact h.isolateRegion
  · exact h.spoilSlot.logError
  · exact h.fatal
  · exact h.fatal

theorem patrolScrubStep (h : Keeps a s) {p x1 uncorrectable} : Keeps a (patrolScrubStep p x1 uncorrectable s) :=
  .ite h (.ite h.scrubFault h.scrubCorrected)

/-! ### FrameRx: A frame received, and what crosses Bilgaup for Fylos -/

theorem ptpToOwner (h : Keeps a s) {i f stamp} : Keeps a (s.ptpToOwner i f stamp) := .ite h.notify h

theorem takePtp (h : Keeps a s) {i o f stamp powered} : Keeps a (s.takePtp i o f stamp powered) := by
  unfold State.takePtp
  split
  · split
    · exact .ptpToOwner (.ite h.bumpPort.forwardPtp.sendAll h.bumpPort.forwardPtp)
    · exact .ite h.bumpPort.forwardPtp.sendAll h.bumpPort.forwardPtp
  · exact h.bumpPort.ptpToOwner

theorem damiumFrame (h : Keeps a s) {i f} : Keeps a (s.damiumFrame i f) := by
  unfold State.damiumFrame
  split
  · exact .ite h h.queueFrame
  · exact h

theorem fylosDatagram (h : Keeps a s) {i v} : Keeps a (s.fylosDatagram i v) :=
  .ite h.bumpFylos (h.fylosRun keepsBody_bodyOf)

theorem lookUp (h : Keeps a s) {key ecc} : Keeps a (s.lookUp key ecc).1 := by
  unfold State.lookUp
  split
  · exact h.pair
  · exact h.drawn.correctable.pair
  · exact h.drawn.logError.pair

theorem datagram (h : Keeps a s) {i f u stamp ecc} : Keeps a (s.datagram i f u stamp ecc) := by
  unfold State.datagram
  dsimp only
  split
  · exact h.fylosDatagram
  · split
    · exact h.lookUp.matched
    · exact h.lookUp.missed

theorem examine (h : Keeps a s) {i f stamp powered ecc} : Keeps a (s.examine i f stamp powered ecc) := by
  unfold State.examine
  dsimp only
  split
  · exact h.takePtp
  · split
    · exact h.bumpRegion
    · exact h.damiumFrame
    · exact h.bumpRegion
    · exact h.datagram

theorem wholeFrame (h : Keeps a s) {i bytes fcsGood room stamp powered ecc lookup} :
    Keeps a (s.wholeFrame i bytes fcsGood room stamp powered ecc lookup) := by
  refine .ite h.bumpPort (.ite h.bumpPort.drawn.logError ?_)
  generalize hread : (if ecc = .corrected then _ else s : State) = t
  have ht : Keeps a t := by
    rw [← hread]
    exact .ite h.drawn.correctable h
  exact .ite ht.bumpPort (.ite ht.bumpPort (.ite ht.bumpPort (.ite ht.bumpPort.modPort ht.bumpPort.examine)))

theorem fragment (h : Keeps a s) {f} : Keeps a (s.fragment f) := by
  unfold State.fragment
  dsimp only
  split
  · exact h
  · exact .ite h.setPort h.setPort
  · split
    · exact .ite h.setPort h
    · exact .ite h.setPort (.ite h.setPort.wholeFrame h.setPort)

theorem frameReceivedStep (h : Keeps a s) {f} : Keeps a (frameReceivedStep f s) := by
  unfold Machine.frameReceivedStep
  dsimp only
  split
  · exact h
  · split
    · exact .ite h.setPort.bumpPort h.setPort
    · split
      · exact h.setPort.wholeFrame
      · exact .ite h h.fragment
      · exact .ite h h.fragment

theorem relay (h : Keeps a s) {k d r status tlvs} : Keeps a (s.relay k d r status tlvs) := h.send.same
theorem relayReply (h : Keeps a s) {d r status tlvs} : Keeps a (s.relayReply d r status tlvs) := .ite h (.relay (.ite h.same.same h.same))

theorem relayCompletion (h : Keeps a s) {d r status tlvs} : Keeps a (s.relayCompletion d r status tlvs) :=
  .ite h (.ite h.same.relay h.same.bumpFylos)

theorem relayNotice (h : Keeps a s) {d g v4 op target tlvs} : Keeps a (s.relayNotice d g v4 op target tlvs) := by
  unfold State.relayNotice
  dsimp only
  generalize hnoticed : State.notice _ g v4 op target tlvs = t
  have ht : Keeps a t := hnoticed ▸ (h.foldl fun h => h.tellLost).same.notice
  exact ht.same

theorem forwardedFylosStep (h : Keeps a s) {d m} : Keeps a (forwardedFylosStep d m s) := by
  unfold Machine.forwardedFylosStep
  split
  · exact h.takeMessage.fylosRun keepsBody_bodyOf
  · exact h.takeMessage.relayReply
  · exact h.takeMessage.relayCompletion
  · exact h.takeMessage.relayNotice
  · exact h.reserveStep
  · exact h.reservedStep
  · exact h.movedStep
  · exact h.peerMovedStep

/-! ### VeMemory: Data accesses of a cell -/

theorem storeBytes (h : Keeps a s) {n now x l} : Keeps a (s.storeBytes n now x l) := by
  unfold State.storeBytes
  dsimp only
  split
  · exact h.setCell
  · exact h.modBlock
  · exact h.setCell
  · exact h
  · exact h

theorem correctAccess (h : Keeps a s) {n x} : Keeps a (s.correctAccess n x) := by
  unfold State.correctAccess
  split
  · exact h.correctable
  · exact h.correctable
  · exact h

theorem failAccess (h : Keeps a s) {n x} : Keeps a (s.failAccess n x) := by
  unfold State.failAccess
  split
  · exact .ite h.isolationStep h.cellTrap
  · exact h.cellTrap
  · exact h

/-! ### VeIssue: The issue of one word -/

theorem doMove (h : Keeps a s) {n v yside m} : Keeps a (s.doMove n v yside m).1 := by
  unfold State.doMove
  split
  · exact h
  · split
    · exact h.storeBytes
    · exact h

theorem afterDelay (h : Keeps a s) {n} : Keeps a (s.afterDelay n) := by
  unfold State.afterDelay
  dsimp only
  split
  · split
    · exact h.setCell
    · exact h.setCell
    · exact h.setCell
    · exact h.setCell
    · exact h.setCell.threadDone
  · exact h

theorem carryOut (h : Keeps a s) {n v w l delayed} : Keeps a (s.carryOut n v w l delayed) := by
  unfold State.carryOut
  refine .swapIfDue ?_
  split
  · exact .afterDelay (.ite h.doMove.doMove.modCell h.doMove.doMove.modCell.drawn)
  · exact .ite h.doMove.doMove.modCell h.doMove.doMove.modCell.drawn

theorem issueGood (h : Keeps a s) {n v w} : Keeps a (s.issueGood n v w) := h.carryOut

theorem checkReads (h : Keeps a s) {n l good} (hgood : ∀ {u}, Keeps a u → Keeps a (good u)) : Keeps a (s.checkReads n l good) := by
  induction l generalizing s with
  | nil => exact hgood h
  | cons e l ih =>
    unfold State.checkReads
    split
    · exact ih h
    · split
      · exact ih h
      · exact ih h.correctAccess
      · exact h.failAccess

theorem issueWord (h : Keeps a s) {i w} : Keeps a (s.issueWord i w) := by
  unfold State.issueWord
  dsimp only
  split
  · exact h.modCell.trap
  · split
    · exact h.modCell.trap
    · exact h.modCell.checkReads fun h => h.issueGood

theorem fetchWord (h : Keeps a s) {i next} (hnext : ∀ {u}, Keeps a u → Keeps a (next u)) : Keeps a (s.fetchWord i next) := by
  unfold State.fetchWord
  dsimp only
  split
  · exact h
  · split
    · exact h.trap
    · split
      · exact hnext h
      · exact hnext h.correctable
      · exact h.cellTrap

theorem issueStep (h : Keeps a s) {i w} : Keeps a (issueStep i w s) :=
  h.fetchWord fun h => h.issueWord

theorem illegalStep (h : Keeps a s) {i} : Keeps a (illegalStep i s) := h.fetchWord fun h => h.trap

end Keeps
end Sys2Proof.Machine
end

section
/-! Every step keeps the fuses, the log and the queue (O58): the rows of the ISA, each by the lemma of its function, and the cycle of an
empty queue. -/

namespace Sys2Proof.Machine
open Sys2Proof.Safety
set_option Elab.async false

/-- What an outcome goes on with keeps what `s` keeps. -/
def KeepsNext (s : State) : Host.Outcome State Fault Refusal → Prop
  | .next t => Keeps s t
  | _ => True

/-- A command of Fylos, by its opcode's own rules. -/
theorem KeepsNext.of_fylosRow {i : Instr} {op : Nat} {p : Packet} {s : State} (h : fylosRow i = some (op, p)) : KeepsNext s (exec i s) := by
  rw [exec_of_fylosRow h]
  exact (Keeps.refl s).fylosRun Keeps.keepsBody_bodyOf

theorem KeepsNext.illegalWord {i : Issue} {w : BitVec 64} {s : State} : KeepsNext s (exec (.illegalWord i w) s) := by
  show KeepsNext s (execIllegalWord i w s)
  unfold execIllegalWord
  split
  · exact (Keeps.refl s).illegalStep
  · exact (Keeps.refl s).issueStep

/-- Every row of the ISA. -/
theorem keepsNext_exec (i : Instr) (s : State) : KeepsNext s (exec i s) := by
  have h : Keeps s s := .refl s
  cases i with
  | devHello | devUdpKeySet | devNoticeConfig | devQuery | devReset | devLifecycle | devArbSet | blockConfig | blockQuery | blockReset
  | cellReset | regionReset | regionArbSet | chOpen | chSetLeg | chActivate | chHold | chResume | chDrain | chClose | chMove | chRecover
  | chQuery | chSchedSet | flowInsert | flowRemove | flowModify | flowQuery | srtpSet | srtpClear | srtpQuery | templateLoad
  | templateRemove | peConfig | peCounters | echoSet | echoQuery | echoCoefRead | playoutSet | playoutQuery | codecSet | codecQuery
  | resampleSet | resampleReset | resampleQuery | toneDetectSet | tonePlay | toneStop | gainSet | tableLoad | tableDelete | tableQuery
  | tableRead | promptLoad | promptDelete | promptPlay | promptStop | promptQuery | promptStoreConfig | tdmGroupConfig | tdmHighwayConfig
  | tdmLoopback | tdmQuery | timeConfig | timeSet | timeStep | timeQuery | servoConfig | servoSample | portTsConfig | ptpSend | portConfig
  | shutterLoad | shutterQuery | portPair | portCounters | stackConfig | stackQuery | blockEvacuate | fwLoad | fwActivate | fwQuery
  | fwBlockActivate | imageEnlarge | imageReduce | userKernelLoad | userHookSet | userKernelQuery | clockConfig | clockQuery | domainGate
  | clkoutSet | tclkOutSet | powerSet | powerQuery | errorLogRead | traceConfig | traceDump | sensorQuery | rsRomRead | unknownOpcode =>
    exact .of_fylosRow rfl
  | cmac4 | cmac4v | rmac8 | cmul4 | vcmac4 | vmul8 | bfly | vadd | vsub | vshr | vshl | czip | cunzip | vmov | vbcast | vmaxa | pack
  | acshr | acadd | actod | dtoac | add | sub | adds | subs | and | or | xor | cmp | mov | neg | abs | min | max | shl | asr | lsr | mul
  | mpy15 | mpy31 | mac31 | norm | mfs | ldQ | stQ | ldW | ldH | stW | stH | ldA | stAc | ldL | stL | aadd | amov | xfer | rep | replc
  | lci | immediate | addi | andi | ori | xori | cmpi | movi | movhi | br | brlc | call | jmpr | callu | retu | done | trap | nop =>
    exact h.issueStep
  | stackFlowChange => exact h.stackFlowChangeStep
  | cmdTailDoorbell => exact h.doorbellStep
  | rplHeadWrite => exact h.rplHeadStep
  | ringEnable => exact h.ringEnableStep
  | ringDisable => exact h.ringDisableStep
  | replyWrite => exact h.replyWriteStep
  | coalTimeExpiry => exact h.coalTimeStep
  | tsSnap => exact h.tsSnapStep
  | csPop => exact h.csPopStep
  | csFlush => exact h.csFlushStep
  | csLostTotalRead => exact h.csLostTotalReadStep
  | bootGo => exact h.bootGoStep
  | bar2BaseWrite => exact h.bar2BaseStep
  | diagBar0PartialRead => exact h.diagPartialStep
  | diagBar2OutsideRead => exact h.diagOutsideStep
  | registerWrite => exact h.registerWriteStep
  | bar2Access => exact h.bar2Step
  | pcieLinkReset => exact h.pcieLinkResetStep
  | d3hot => exact h.d3hotStep
  | idcode => exact h.idcodeStep
  | samplePreload => exact h.samplePreloadStep
  | extest => exact h.extestStep
  | extestPulse => exact h.extestPulseStep
  | extestTrain => exact h.extestTrainStep
  | clamp => exact h.clampStep
  | highz => exact h.highzStep
  | bypass => exact h.bypassStep
  | debug => exact h.debugStep
  | debugUnlock => exact h.debugUnlockStep
  | fuseProg => exact h.fuseProgStep
  | tapReset => exact h.tapResetStep
  | watchdog => exact h.watchdogStep
  | userBudget => exact h.userBudgetStep
  | phaseBoundary => exact h.phaseBoundaryStep
  | tickOrigin => exact h.tickOriginStep
  | eventFifoEntry => exact h.fifoEntryStep
  | stagingStart => exact h.stagingStartStep
  | stagingComplete => exact h.stagingCompleteStep
  | suspendSave => exact h.suspendSaveStep
  | commitComplete => exact h.commitCompleteStep
  | deadlineMiss => exact h.deadlineMissStep
  | tickRun => exact h.tickRunStep
  | ssrcAdoption => exact h.modLeg
  | dtHangEnd | nlpHangEnd => exact h.modEcho
  | pathChange => exact h.pathChangeStep
  | divergence => exact h.divergenceStep
  | converged => exact h.convergedStep
  | toneDisableEnd => exact h.toneDisableEndStep
  | eventExtendTimeout => exact h.extendTimeout
  | contextCleared => exact h.contextClearedStep
  | rsInRecord => exact h.rsInStep
  | peDescriptor => exact h.peDescriptorStep
  | signalRecord => exact h.signalRecordStep
  | noticeRecord => exact h.noticeRecordStep
  | dissolveEnd => exact h.dissolveEndStep
  | settleEnd => exact h.settleEndStep
  | fillMeasurement => exact h.fillMeasureStep
  | frameReceived => exact h.frameReceivedStep
  | heldPacketPost => exact h.heldPacketPostStep
  | egressPartitionAccept => exact h.egressPartitionAcceptStep
  | frameCommit => exact h.frameCommitStep
  | frameSfdTx => exact h.frameSfdTxStep
  | shutterInterval => exact h.shutterIntervalStep
  | shutterCycleBoundary => exact h.shutterCycleBoundaryStep
  | guardBandStart => exact h.guardBandStartStep
  | pauseTimerExpiry => exact h.pauseTimerExpiryStep
  | verifyResponse => exact h.verifyResponseStep
  | verifyTimeout => exact h.verifyTimeoutStep
  | pcsConditionLost => exact h.pcsConditionLostStep
  | pcsConditionRegained => exact h.pcsConditionRegainedStep
  | linkDown => exact h.linkDownStep
  | linkUp => exact h.linkUpStep
  | revertHoldExpiry => exact h.revertHoldExpiryStep
  | offsetSample => exact h.offsetSampleStep
  | quarantineEnd => exact h.quarantineEndStep
  | slewEnd => exact h.slewEndStep
  | stepApply => exact h.stepApplyStep
  | ppsEdge => exact h.ppsEdgeStep
  | tdmFrame => exact h.tdmFrameStep
  | tdmFramed => exact h.tdmFramedStep
  | tdmGroupLost => exact h.tdmGroupLostStep
  | tdmMUpdate => exact h.tdmMUpdateStep
  | tdmMasterStart => exact h.tdmMasterStartStep
  | referenceTrip => exact h.referenceTripStep
  | referenceQualified => exact h.referenceQualifiedStep
  | referenceLock => exact h.referenceLockStep
  | coastEnd => exact h.coastEndStep
  | acquireLock => exact h.acquireLockStep
  | rampEnd => exact h.rampEndStep
  | gateQuiesced => exact h.gateQuiescedStep
  | gateTimeout => exact h.gateTimeoutStep
  | powerWakeDone => exact h.powerWakeDoneStep
  | deepSleepEntered => exact h.deepSleepEnteredStep
  | autoDeepSleep => exact h.autoDeepSleepStep
  | powerOnReset => exact h.powerOnStep
  | resetN => exact h.resetNStep
  | perstN => exact h.perstNStep
  | chipWatchdog => exact h.chipWatchdogStep
  | deviceResetSequence => exact h.deviceResetStep
  | lifeCycleTransition => exact h.lifeCycleTransitionStep
  | patrolScrub => exact h.patrolScrubStep
  | contextRebuilt => exact h.contextRebuiltStep
  | blockIsolation => exact h.isolationStep
  | cellReturn => exact h.cellReturnStep
  | jobStart => exact h.jobStartStep
  | enlargerJobEnd => exact h.enlargerJobEndStep
  | reducerJobEnd => exact h.reducerJobEndStep
  | flitReceived => exact h.flitReceivedStep
  | linkRetrain => exact h.linkRetrainStep
  | laneLost => exact h.laneLostStep
  | laneRetrained => exact h.laneRetrainedStep
  | stackLinkLost => exact h.stackLinkLostStep
  | forwardedPacket => exact h.forwardedPacketStep
  | stackLegBlock => exact h.stackLegBlockStep
  | timeFlitExchange => exact h.timeFlitExchangeStep
  | stackStepRelay => exact h.stackStepRelayStep
  | advertisement => exact h.advertisementStep
  | contextFrameReceived => exact h.contextFrameStep
  | flowTableCopy => exact h.flowTableCopyStep
  | stackJoinTimeout => exact h.stackJoinTimeoutStep
  | forwardedFylos => exact h.forwardedFylosStep
  | damiumLockstepMismatch => exact h.lockstepStep
  | scopeResetComplete => exact h.scopeResetStep
  | managementFirmwareSwitched => exact h.firmwareSwitchedStep.service
  | illegalWord => exact .illegalWord

theorem popped_of_pending_nil {s : State} (h : s.pending = []) : { s with pending := s.pending.tail } = s := by
  rw [h, List.tail_nil, ← h]

theorem legal_pending {s : State} (h : Legal s) {l : List Instr} : Legal { s with pending := l } := ⟨h.fuses, h.log, h.dram⟩

/-- A step is that of the command at the front of the queue, on the machine with the queue's rest, or a cycle. -/
theorem keeps_step {s t : State} (ht : step s = .next t) : Keeps { s with pending := s.pending.tail } t := by
  unfold step at ht
  split at ht
  next hnil =>
    cases ht
    rw [popped_of_pending_nil hnil]
    exact (Keeps.refl s).cycle
  next c rest hcons =>
    have h := keepsNext_exec c { s with pending := rest }
    rw [ht] at h
    rw [hcons]
    exact h

/-- Settles O58: a step keeps what `Keeps` says, from the machine with the queue's rest. -/
theorem everyStepKeepsFusesLogAndQueue : Obligations.EveryStepKeepsFusesLogAndQueue := by
  unfold Obligations.EveryStepKeepsFusesLogAndQueue
  intro s t ht
  obtain ⟨hqueue, hlegal, hcycle, htrans, hwipe⟩ := keeps_step ht
  exact ⟨hqueue, fun hs => ⟨hlegal (legal_pending hs), hcycle (legal_pending hs)⟩, fun k => ⟨htrans k, hwipe k⟩⟩

end Sys2Proof.Machine
end
